-- ==== Sys2Proof/Word.lean ====
section
/-!
DEFINITION. Words and plain data values shared by the whole model (R3: little-endian, bit 0 least significant).
-/

namespace Sys2Proof

/-- One byte of a buffer, a payload or a codeword. -/
abbrev Byte := BitVec 8

/-- A 32-bit register half or field. -/
abbrev Word32 := BitVec 32

/-- A 64-bit register. -/
abbrev Word64 := BitVec 64

/-- A status code (R6): a 16-bit value. -/
abbrev Status := BitVec 16

/-- The bytes of a unit, a payload or a record. A unit is 4,096 bytes: a shorter list stands for the same bytes
followed by zeros. [log 128: DESIGN CHOICE] -/
abbrev Data := List Byte

end Sys2Proof
end

