-- ==== Sys2Proof/Syntax.lean ====
section
/-!
DEFINITION. The commands of the block: one constructor of `Instr` for each row of the table of
operations and events, with the row's operands.
-/

namespace Sys2Proof

/-! ### Operand structures -/

/-- A mailbox request as it stands in the message area (R399): the RSV fields of the header, the
LEN and TAG fields, and the payload read as one little-endian number (bit n of the payload lies
in payload byte n / 8). -/
structure MbReq where
  hdrRsv  : Nat
  len     : Nat
  tag     : Nat
  payload : Nat
  deriving DecidableEq, Repr

/-- The submission entry of R373, field by field. -/
structure SqEntry where
  opc     : Nat
  flags   : Nat
  cid     : Nat
  nsid    : Nat
  addr    : Nat
  len     : Nat
  stream  : Nat
  timeout : Nat
  dptr    : Nat
  mptr    : Nat
  lcount  : Nat
  rsv     : Nat
  deriving DecidableEq, Repr

/-- One buffer list entry of R374: address, length, RSV bytes. -/
structure BufEntry where
  addr : Nat
  len  : Nat
  rsv  : Nat
  deriving DecidableEq, Repr

/-- The record header of R79, field by field. -/
structure RecHeader where
  declLen : Nat
  stream  : Nat
  rtype   : Nat
  rflags  : Nat
  epoch   : Nat
  tag     : Nat
  srcNode : Nat
  rsv     : Nat
  payCrc  : Nat
  hdrCrc  : Nat
  deriving DecidableEq, Repr

/-- Protection information of one LBA (R195): guard, application tag, reference tag. -/
structure PiField where
  guard : Nat
  app   : Nat
  ref   : Nat
  deriving DecidableEq, Repr

/-- The exec block of R284, field by field; `rsv` gathers its RSV bytes. -/
structure ExecBlock where
  module     : Nat
  engines    : Nat
  priority   : Nat
  chunk      : Nat
  chunkBufs  : Nat
  overlap    : Nat
  rangeStart : Nat
  rangeLen   : Nat
  stream     : Nat
  argLen     : Nat
  argAddr    : Nat
  resultAddr : Nat
  resultLen  : Nat
  rsv        : Nat
  deriving DecidableEq, Repr

/-- A flash profile (R137). `valid`: its signature and version check pass (R168). Voltages are in mV, times in µs, `tempCoef`
in sixteenths of a DAC step per °C, `suspProg` and `suspErase` are the suspends permitted per operation. -/
structure FlashProfile where
  id           : Nat
  revision     : Nat
  valid        : Bool
  matchVal     : List Byte
  matchMask    : List Byte
  toggle       : Bool
  maxRate      : Nat
  planes       : Nat
  blocksPerDie : Nat
  pagesPerBlock : Nat
  pageMain     : Nat
  pageSpare    : Nat
  parityBytes  : Nat
  hardLimit    : Nat
  dacMv        : Nat
  thrQlc       : List Int
  thrSlc       : Int
  retry        : List (List Int)
  soft2        : Nat
  soft3        : Nat
  llrA         : List Int
  llrB         : List Int
  tempCoef     : List Int
  trSlc        : Nat
  trQlc        : Nat
  trSingle     : Nat
  tprogSlc     : Nat
  tprogQlc     : Nat
  tbers        : Nat
  suspProg     : Nat
  suspErase    : Nat
  peSlc        : Nat
  peQlc        : Nat
  readDisturb  : Nat
  verifyLimit  : Nat
  verifyTolerance : Nat
  badMark      : Nat
  retiredPct   : Nat
  arrayMv      : Nat
  ioMv         : Nat
  inhibitMv    : Nat
  releaseMv    : Nat
  deriving DecidableEq, Repr

/-- A die as bring-up finds it (R135, R136): chip enable, LUN, Read ID bytes, and the blocks that carry a factory
bad-block mark (R163, R169). -/
structure DieReport where
  ce  : Nat
  lun : Nat
  id  : List Byte
  bad : List Nat
  deriving DecidableEq, Repr

/-- What bring-up finds on a populated channel (R136): the step other than 3 at which it stopped, 0 for none, the rate
selected, and the dies that answer. -/
structure ChannelReport where
  ch     : Nat
  failed : Nat
  rate   : Nat
  dies   : List DieReport
  deriving DecidableEq, Repr

/-- What a device memory read was fetching when it failed (R348). -/
inductive DmaTarget where
  | command (fn qid cid : Nat)
  | entry (fn qid : Nat)
  deriving DecidableEq, Repr

/-- A record or command that waits: a host command, or a record that arrived on a port. -/
inductive CmdRef where
  | host (fn qid cid : Nat)
  | link (port rid : Nat)
  deriving DecidableEq, Repr

/-- What a Squall pipe has done with a job (R233 to R235): for a compress job the bytes that it wrote and the source bytes that
it consumed, for every job the pipe time that it took in ns. -/
structure SqReport where
  enc      : Data
  taken    : Nat
  usedTime : Nat
  deriving DecidableEq, Repr

/-- The job descriptor of R231, field by field; `rsv` gathers its RSV bytes. -/
structure SqDesc where
  op       : Nat
  format   : Nat
  level    : Nat
  flush    : Nat
  wlog     : Nat
  flags    : Nat
  src      : Nat
  srcLen   : Nat
  dstLen   : Nat
  dst      : Nat
  state    : Nat
  dict     : Nat
  dictLen  : Nat
  expect   : Nat
  tag      : Nat
  rsv      : Nat
  deriving DecidableEq, Repr

/-- What a thread has run since its engine was last heard of (R263, R265): the registers as it left them, x0 to x31, f0 to f31
and v0 to v31, the CSRs that a module may write (R264), the address that an LR reserved, and its stores in order. -/
structure ThreadRun where
  pc     : Nat
  x      : List Word64
  f      : List Word64
  v      : List (BitVec 512)
  fcsr   : Nat
  vcsr   : Nat
  vl     : Nat
  vtype  : Nat
  vstart : Nat
  resv   : Option Nat
  stores : List (Nat × Data)
  deriving DecidableEq, Repr

/-- A thread that calls a service or ends its activation: its engine, and what it has run. -/
structure Caller where
  engine : Nat
  run    : ThreadRun
  deriving DecidableEq, Repr

/-- The keys of a search: where they lie and how many they are (R278). -/
structure KeyList where
  addr  : Nat
  count : Nat
  deriving DecidableEq, Repr

/-- The argument block of the oldest waiting exec of a function, as the device fetched it (R284). -/
structure ArgFetch where
  fn    : Nat
  bytes : Data
  deriving DecidableEq, Repr

/-- What `mod.load` fetches (R283): whether the fetch completed, what ECDSA finds of the signature under the key of KEY_SLOT, and
the bytes. -/
structure ModFile where
  fetchOk : Bool
  sigOk   : Bool
  bytes   : Data
  deriving DecidableEq, Repr

/-- What an LDPC decoder reports beside its convergence (R141). -/
structure DecodeFigures where
  corrected : Nat
  iters     : Nat
  weight    : Nat
  deriving DecidableEq, Repr

/-- How a step of the retry ladder ends (R143): whether it recovers the codeword, and the figures of its decode. -/
structure LadderReport where
  success   : Bool
  corrected : Nat
  iters     : Nat
  deriving DecidableEq, Repr

/-- What `fw.download` fetches (R413): whether the fetch completed, the bytes, the flash profiles that component 4 holds, whose
format the spec does not give, and whether the slot programs and reads back. -/
structure FwFile where
  fetchOk   : Bool
  bytes     : Data
  profiles  : List FlashProfile
  programOk : Bool
  deriving DecidableEq, Repr

/-- A firmware image as the checks of R410 and R413 see it: header fields of R411, component
versions of R412, and what each check over its bytes finds. -/
structure FwImage where
  fetchOk   : Bool
  headerOk  : Bool
  keyHash   : Nat
  keyIndex  : Nat
  sigOk     : Bool
  svn       : Nat
  fwVersion : Nat
  kernelVer : Nat
  routerVer : Nat
  programOk : Bool
  profiles  : List FlashProfile
  deriving DecidableEq, Repr

/-- The header of a Zelim frame (R303). -/
structure Frame where
  typ   : Nat
  flags : Nat
  len   : Nat
  src   : Nat
  dst   : Nat
  seq   : Nat
  ack   : Nat
  rid   : Nat
  arg   : Nat
  tagOk : Bool
  deriving DecidableEq, Repr

/-- The namespace fields of R73. -/
structure NsFields where
  nsid       : Nat
  cls        : Nat
  flags      : Nat
  pi         : Nat
  redun      : Nat
  capacity   : Nat
  retainDays : Nat
  mirrorNode : Nat
  freezeS    : Nat
  rsv        : Nat
  deriving DecidableEq, Repr

/-- A membership member as MEMBERSHIP lists it (R304). -/
structure Member where
  node   : Nat
  offset : Nat
  deriving DecidableEq, Repr

/-- A cable between two ports as DISCOVER data tells it: from `port` of `node` to node `peer`, with the hop latency of R299
in ns; both ends are listed (R315). -/
structure Cable where
  node    : Nat
  port    : Nat
  peer    : Nat
  latency : Nat
  deriving DecidableEq, Repr

/-- The members and cables of a group as a MEMBERSHIP lists them (R304, R315). -/
structure Ring where
  members : List Member
  cables  : List Cable
  deriving DecidableEq, Repr

/-- What a JOIN request says of the joiner's epochs (R317): its HIGH_WATER and its last epoch. -/
structure JoinMarks where
  highWater : Nat
  last      : Nat
  deriving DecidableEq, Repr

/-- What a MEMBER_LOST frame says (R322): the node whose port went down, and the nodes behind that port. -/
structure LostNodes where
  src   : Nat
  nodes : List Nat
  deriving DecidableEq, Repr

/-! ### The commands -/

/-- One constructor for each row of the table of operations and events. `fn` is a function number (0 for PF0, R350);
`port` is 0 to 2 for Z0 to Z2; `addr` and `blk` are media addresses in the layout of R99; a mailbox row carries the
issuing function and the request. [log 122: DESIGN CHOICE] -/
inductive Instr where
  -- power, reset, supplies
  | resetNRelease (testEn : Bool)
  | channelBringup (reports : List ChannelReport)
  | recovery (intentHeld : Bool)
  | thermalSensorSample (readings : List Int)
  | supplyInhibit (monitor : Nat)
  -- Horizon
  | tickInEdge (errNs : Int) (intervalNs : Nat)
  | tickBoundary (stretchNs : Nat)
  | sealInstant (atNs : Nat)
  | lateEpochSeal (atNs : Nat)
  | landingProgramDone (epoch item addr : Nat)
  | landingProgramFail (epoch item addr : Nat)
  | classificationResult (r : CmdRef)
  | segmentCompressDone (nsid stream window frameLen : Nat) (checkOk : Bool)
  -- queues
  | sqSubmissionFetch (fn : Nat) (entries : List SqEntry)
  | dataFetchDone (fn qid cid : Nat) (bytes : Data) (pi : List PiField)
  | dmaReadError (t : DmaTarget)
  | completionWriteRelease (fn : Nat)
  | msixCoalesceExpiry (fn qid : Nat)
  | queueDeleteDone (fn qid : Nat)
  | read (fn qid cid : Nat) (bufs : List BufEntry)
  | write (fn qid cid : Nat) (bufs : List BufEntry)
  | append (fn qid cid : Nat) (hdr : RecHeader) (bufs : List BufEntry)
  | discard (fn qid cid : Nat)
  | flush (fn qid cid : Nat)
  | exec (fn qid cid : Nat) (blk : ExecBlock)
  | sqTailDoorbellWrite (fn qid value : Nat)
  | cqHeadDoorbellWrite (fn qid value : Nat)
  -- mailbox and registers
  | go (fn : Nat)
  | mailboxReply (fn : Nat)
  | ctrlReset (key : Nat)
  | intStatusW1c (fn bits : Nat)
  | intEvqHeadWrite (fn value : Nat)
  | claim (fn ctx : Nat)
  | release (fn ctx : Nat)
  | start (fn ctx alg : Nat)
  | final (fn ctx tailBytes : Nat)
  | dgDataWrite (fn ctx width value : Nat)
  | dgBlockDone (ctx : Nat)
  | dgDigestDone (ctx : Nat)
  | dgResultRead (fn ctx : Nat)
  | splitReadLatch (fn offset : Nat)
  | recordLatchRead (fn offset : Nat)
  | registerWrite (fn offset width value : Nat)
  -- functions and USB4
  | flr (fn : Nat)
  | fnResetComplete (fn : Nat)
  | fnMemoryZeroingDone (fn : Nat)
  | busMasterEnableClear (fn : Nat)
  | busMasterEnableSet (fn : Nat)
  | d3hotEntry (fn : Nat)
  | d3hotExit (fn : Nat)
  | usb4LinkTrained (gen retimers : Nat)
  | laneBondRetry (bonded : Bool)
  | fwRestartDone (imageOk : Bool)
  -- flash translation and media
  | segmentLoadDone (nsid typ idx : Nat)
  | segmentWriteback (addr : Nat)
  | fold (target : Nat)
  | gcCollect (victim target : Nat)
  | consolidation (nsid extent target : Nat)
  | directoryCheckpoint (addr : Nat)
  | moveProgramDone (dst : Nat)
  | moveProgramFail (dst : Nat)
  | blockErase (blk : Nat)
  | eraseDone (blk : Nat)
  | eraseFail (blk : Nat)
  | decodeResult (addr : Nat) (converged : Bool) (nsid utype key : Nat) (checkOk : Bool) (found : DecodeFigures)
  | ladderStep (addr : Nat) (r : LadderReport)
  | dieTempRead (temps : List (Nat × Int))
  | recalibration (die mode bin : Nat) (best : Int)
  | interfaceRetrain (ch : Nat) (ok : Bool) (temp : Int)
  | verifyScan (sb addr corrected : Nat) (decoded : Bool)
  | verifyScanEnd (sb : Nat)
  | patrolInterval (reads : Nat) (failing : List Nat)
  | dieReadyTimeout (die : Nat)
  | parityRowEccError (sb row : Nat)
  | rebuildWalk (sb : Nat) (lost : List Nat) (target : Nat)
  | resyncFull (sb : Nat) (mismatch : Bool)
  | stripeCheck (sb : Nat) (mismatch : Bool)
  | reshapeCopy (key target : Nat)
  -- Halo and Squall
  | haloUpdateStep (table : Nat)
  | haloCompactDone (table : Nat)
  | sqJobStart (engine pipe : Nat)
  | sqJobComplete (engine pipe : Nat) (out : SqReport)
  -- Anvil
  | threadDispatch (engine : Nat)
  | threadReturn (c : Caller) (a0 : Nat)
  | moduleFault (c : Caller) (mcause mepc mtval : Nat)
  | activationLimit (c : Caller)
  | tokenDeliver (producer : Nat)
  | delayListFire (time : Nat)
  | instanceStart (a : ArgFetch)
  | chunkDeliver (inst : Nat)
  | instanceEnd (inst : Nat)
  | thSpawn (c : Caller) (entry arg prio nslots placement : Nat)
  | thSend (c : Caller) (tid slot value : Nat)
  | thDelay (c : Caller) (tid slot wake : Nat)
  | thCancel (c : Caller) (tid : Nat)
  | haloSearch (c : Caller) (table : Nat) (keys : KeyList) (results tid slot : Nat)
  | sqSubmit (c : Caller) (desc record tid slot : Nat)
  | hostPut (engine src offset len tid slot : Nat) (run : ThreadRun)
  | chunkRelease (c : Caller) (addr : Nat)
  | memAlloc (c : Caller) (bytes align : Nat)
  | memFree (c : Caller) (addr : Nat)
  | instDone (c : Caller) (code resultLen : Nat)
  | modLog (c : Caller) (addr len : Nat)
  -- hold-up, power entries, firmware
  | holdupSample (mv : Nat)
  | holdupLoadSample (mv us : Nat)
  | fwDownloadDone (img : FwFile)
  | imageVerifyDone (nsid slot : Nat)
  -- mailbox commands (R404): issuing function and request
  | devIdentify (fn : Nat) (req : MbReq)
  | devCertRead (fn : Nat) (req : MbReq)
  | paramSet (fn : Nat) (req : MbReq)
  | paramGet (fn : Nat) (req : MbReq)
  | devResources (fn : Nat) (req : MbReq)
  | devShockConfigure (fn : Nat) (req : MbReq)
  | devTickoutConfigure (fn : Nat) (req : MbReq)
  | devLongResult (fn : Nat) (req : MbReq)
  | fnCreate (fn : Nat) (req : MbReq)
  | fnDestroy (fn : Nat) (req : MbReq)
  | fnReset (fn : Nat) (req : MbReq)
  | fnInfo (fn : Nat) (req : MbReq)
  | fnPool (fn : Nat) (req : MbReq)
  | fnHostConfigure (fn : Nat) (req : MbReq)
  | fnPf0Grant (fn : Nat) (req : MbReq)
  | fnLinkStatus (fn : Nat) (req : MbReq)
  | fnQueueCreate (fn : Nat) (req : MbReq)
  | fnQueueDelete (fn : Nat) (req : MbReq)
  | fnQueueStatus (fn : Nat) (req : MbReq)
  | fnCmdAbort (fn : Nat) (req : MbReq)
  | fnQueueTimer (fn : Nat) (req : MbReq)
  | fnEventConfigure (fn : Nat) (req : MbReq)
  | nsCreate (fn : Nat) (req : MbReq)
  | nsDelete (fn : Nat) (req : MbReq)
  | nsAttach (fn : Nat) (req : MbReq)
  | nsDetach (fn : Nat) (req : MbReq)
  | nsInfo (fn : Nat) (req : MbReq)
  | nsStreamOpen (fn : Nat) (req : MbReq)
  | nsStreamClose (fn : Nat) (req : MbReq)
  | nsRetentionLengthen (fn : Nat) (req : MbReq)
  | nsRclockSet (fn : Nat) (req : MbReq)
  | nsChainAnchor (fn : Nat) (req : MbReq)
  | nsRnsTrim (fn : Nat) (req : MbReq)
  | nsFreeze (fn : Nat) (req : MbReq)
  | nsUnfreeze (fn : Nat) (req : MbReq)
  | nsImageOpen (fn : Nat) (req : MbReq)
  | nsImageVerify (fn : Nat) (req : MbReq)
  | nsImageActivate (fn : Nat) (req : MbReq)
  | nsImageRollback (fn : Nat) (req : MbReq)
  | nsImageErase (fn : Nat) (req : MbReq)
  | hzConfigure (fn : Nat) (req : MbReq)
  | hzStatus (fn : Nat) (req : MbReq)
  | hzPlanRead (fn : Nat) (req : MbReq)
  | hzRingRelease (fn : Nat) (req : MbReq)
  | ftStatus (fn : Nat) (req : MbReq)
  | ftProfile (fn : Nat) (req : MbReq)
  | ftLostList (fn : Nat) (req : MbReq)
  | mediaStatus (fn : Nat) (req : MbReq)
  | mediaHealth (fn : Nat) (req : MbReq)
  | mediaOffsetsRead (fn : Nat) (req : MbReq)
  | mediaProfileList (fn : Nat) (req : MbReq)
  | mediaPatrol (fn : Nat) (req : MbReq)
  | mediaCare (fn : Nat) (req : MbReq)
  | rdPoolForm (fn : Nat) (req : MbReq)
  | rdStatus (fn : Nat) (req : MbReq)
  | rdReshape (fn : Nat) (req : MbReq)
  | rdReshapeCancel (fn : Nat) (req : MbReq)
  | rdProfile (fn : Nat) (req : MbReq)
  | rdMemberFail (fn : Nat) (req : MbReq)
  | haloTableCreate (fn : Nat) (req : MbReq)
  | haloTableDestroy (fn : Nat) (req : MbReq)
  | haloTableInsert (fn : Nat) (req : MbReq)
  | haloTableDelete (fn : Nat) (req : MbReq)
  | haloTableModify (fn : Nat) (req : MbReq)
  | haloTableRead (fn : Nat) (req : MbReq)
  | haloTableCompact (fn : Nat) (req : MbReq)
  | haloTableSearch (fn : Nat) (req : MbReq)
  | haloStatus (fn : Nat) (req : MbReq)
  | sqProfile (fn : Nat) (req : MbReq)
  | sqStatus (fn : Nat) (req : MbReq)
  | modKeyEnroll (fn : Nat) (req : MbReq)
  | modKeyRevoke (fn : Nat) (req : MbReq)
  | modLoad (fn : Nat) (req : MbReq)
  | modUnload (fn : Nat) (req : MbReq)
  | modList (fn : Nat) (req : MbReq)
  | anvConfigure (fn : Nat) (req : MbReq)
  | anvProfile (fn : Nat) (req : MbReq)
  | anvStatus (fn : Nat) (req : MbReq)
  | anvStats (fn : Nat) (req : MbReq)
  | anvFaultRead (fn : Nat) (req : MbReq)
  | zlPortConfigure (fn : Nat) (req : MbReq)
  | zlPortStatus (fn : Nat) (req : MbReq)
  | zlNodeSet (fn : Nat) (req : MbReq)
  | zlTrustEnroll (fn : Nat) (req : MbReq)
  | zlTrustRevoke (fn : Nat) (req : MbReq)
  | zlPeerAdmit (fn : Nat) (req : MbReq)
  | zlGroupForm (fn : Nat) (req : MbReq)
  | zlGroupJoin (fn : Nat) (req : MbReq)
  | zlGroupLeave (fn : Nat) (req : MbReq)
  | zlGroupStatus (fn : Nat) (req : MbReq)
  | zlMemberAdmit (fn : Nat) (req : MbReq)
  | zlRouteSet (fn : Nat) (req : MbReq)
  | zlRouteClear (fn : Nat) (req : MbReq)
  | zlMirrorBreak (fn : Nat) (req : MbReq)
  | zlFenceClear (fn : Nat) (req : MbReq)
  | pwStateSet (fn : Nat) (req : MbReq)
  | pwStatus (fn : Nat) (req : MbReq)
  | pwHoldupMeasure (fn : Nat) (req : MbReq)
  | fwStatus (fn : Nat) (req : MbReq)
  | fwDownload (fn : Nat) (req : MbReq)
  | fwActivate (fn : Nat) (req : MbReq)
  | fwCommit (fn : Nat) (req : MbReq)
  | fwDebugChallenge (fn : Nat) (req : MbReq)
  | fwDebugUnlock (fn : Nat) (req : MbReq)
  | fwDebugDisable (fn : Nat) (req : MbReq)
  | fwKeyRevoke (fn : Nat) (req : MbReq)
  | logRead (fn : Nat) (req : MbReq)
  | logStatus (fn : Nat) (req : MbReq)
  | telSampleConfigure (fn : Nat) (req : MbReq)
  -- the remaining events
  | vfEnableSet (numVfs : Nat)
  | moduleLoadDone (fn longId : Nat) (file : ModFile)
  | intentEntryConfirmed (seq : Nat)
  | telSample (time : Nat)
  -- Zelim Link
  | zlSignalDetect (port : Nat)
  | zlPortBringupStep (port : Nat) (ok : Bool)
  | zlPortRestartTimer (port : Nat)
  | zlBlockLockLoss (port : Nat)
  | laneMarginReport (port lane vertical horizontal : Nat)
  | discover (port node certDigest caps : Nat)
  | delay (port dPortNs : Nat)
  | hello (port nonce eph : Nat)
  | reply (port nonce eph : Nat) (sigOk : Bool) (anchorKey : Nat)
  | finish (port : Nat) (sigOk : Bool) (anchorKey : Nat)
  | done (port : Nat)
  | authTimeout (port : Nat)
  | data (port : Nat) (f : Frame) (bytes : Data)
  | frameRelay (port : Nat) (f : Frame)
  | nak (port : Nat) (f : Frame)
  | retrans (port seq : Nat)
  | zlRetransmitTimeout (port : Nat)
  | pause (port gtick : Nat)
  | credit (port gtick granules : Nat)
  | sealReady (port node gtick gen lock : Nat)
  | sealCommit (port gtick gen : Nat)
  | membership (port gen effective master : Nat) (ring : Ring) (rclk : Nat)
  | joinRequest (port node ringMark : Nat) (marks : JoinMarks) (cables : List Cable) (rclk : Nat)
  | joinOffer (port gJ period window offset rclk : Nat)
  | joinAccept (port node : Nat)
  | joinRefuse (port : Nat) (status : Status)
  | memberLost (port : Nat) (lost : LostNodes)
  | tickMark (port tick : Nat) (errNs : Int) (intervalNs : Nat) (valid : Bool)
  | mirrorCreate (port node : Nat) (ns : NsFields) (offset : Nat)
  | mirrorHeld (port rid : Nat)
  | mirrorAdmit (port rid gtick : Nat)
  | mirrorCopyDone (nsid : Nat)
  | fenceBackoffEnd (port : Nat)
  | violationQuietTimer (port : Nat)
  | emptyAckFrameTimer (port : Nat)
  | unknownFrameType (port : Nat) (f : Frame)
  -- commands without operands
  | powerOnReset
  | sutasFirmwareRunning
  | heldExit
  | pwrfailAssert
  | drainEnd
  | pwrfailDeassert
  | pwrfailHighTimerExpiry
  | thermalTrip
  | supplyInhibitRelease
  | tickInWindowEnd
  | tickInRelockTimeout
  | shockInTrigger
  | shockInHoldoffEnd
  | cutPoint
  | hzSealLate
  | epochUnsealedN6
  | voteWindowEnd
  | admission
  | commandTimeoutScan
  | ctrlResetSealsDone
  | vfEnableClear
  | usb4LinkDownTimeout
  | tunnelledLinkReset
  | watchdogExpiry
  | rebuildWalkEnd
  | reshapeCopyDone
  | joinLockDeadline
  | joinTickReached
  | markWindowEnd
  | holdupChargeTimeout
  | p3Quiesced
  | p4CheckpointSealed
  | fwPreparationDone
  | fwPreparationTimeout
  | fwReady
  | fwReadyTimeout
  | fwHoldTimeout
  | debugNonceExpiry
  | ringSealDeadline
  | tickOutPulseEnd
  | usb4LinkLoss
  deriving DecidableEq, Repr

end Sys2Proof
end

