-- ==== Sys2Proof/Decode.lean ====
section
/-!
DEFINITION. The decoder of the table's words. The table gives no row any bits: the block takes
commands, not words, so no word spells a command.
-/

namespace Sys2Proof

/-- The command that a word spells by the table's bits: no row of the table has bits, so none. [log 1: DESIGN CHOICE]
-/
def decodeTableWord (_nbits _w : Nat) : Option Instr := none

end Sys2Proof
end

