-- ==== Sys2Proof/Config.lean ====
section
/-!
DEFINITION. What an implementation fixes and what the spec leaves open: values without a body, so
that no proof can rest on a number chosen here.
-/

namespace Sys2Proof

/-- A value that the spec leaves open, drawn afresh for each number: the 32 random bytes of a debug nonce (R419) and
of an AUTH nonce (R327). The number is `State.freeCtr`. [log 4: DESIGN CHOICE] -/
opaque Config.freeValue : Nat → BitVec 256

/-- ECDSA P-256 signature r and s of the device key over a 32-byte digest (R85): the key is unreadable (R409), so the
value is open. [log 15: DESIGN CHOICE] -/
opaque Config.deviceSign : List Byte → BitVec 512

/-- ECDSA P-256 verification of R419: public key, digest and signature bytes to the verdict. The spec names the
algorithm and not the byte order of key and signature, so the function is open. [log 15: DESIGN CHOICE] -/
opaque Config.ecdsaVerify : List Byte → List Byte → List Byte → Bool

/-- The DER bytes of the certificate chain of R405: certificate number to bytes. The spec does not give their content.
[log 15: DESIGN CHOICE] -/
opaque Config.certBytes : Nat → List Byte

/-- The flash profiles in the image that a part is shipped with (R137): the spec does not give their content. [log 8:
DESIGN CHOICE] -/
opaque Config.shippedProfiles : List FlashProfile

/-- The bytes of the Zstandard frame that Squall makes of a segment (R238): the units' data and the level to the
frame. The spec fixes the frame's format and settings, not the matches that the engine finds. [log 16, 125: DESIGN
CHOICE] -/
opaque Config.squallFrame : List (List Byte) → Nat → Nat → List Byte

/-- The payload bytes in which a reply lays out its values: for most replies the spec lists the values and states no
layout (R405 and the command tables): opcode and values to bytes. [log 14: DESIGN CHOICE] -/
opaque Config.replyLayout : Nat → List Nat → List Byte

/-- The protection information that a read returns for an LBA that holds no data: namespace and LBA to guard,
application tag and reference tag. The spec does not state it. [log 13: DESIGN CHOICE] -/
opaque Config.zeroPi : Nat → Nat → Nat × Nat × Nat

/-- Hop latency bound of R299: D_port + 400 ns. -/
def Config.hopExtraNs : Nat := 400

/-- Device-wide command tags (R371). -/
def Config.deviceTags : Nat := 8192

/-- Payload limit of a metadata buffer (R53): 1 MiB per epoch. -/
def Config.metaBytes : Nat := 1048576

/-- Ingress buffer (R54): 256 MiB. -/
def Config.ingressBytes : Nat := 268435456

/-- Host records of one epoch (R119). -/
def Config.hostRecords : Nat := 8192

/-- Route send pool and the most that one route queues (R307), in bytes. -/
def Config.routePool : Nat := 536870912

def Config.routeQueue : Nat := 67108864

/-- Log entries held (R420). -/
def Config.logEntries : Nat := 16384

/-- Long-command results kept per function (R403). -/
def Config.longResults : Nat := 64

end Sys2Proof
end

