-- ==== Sys2Proof/Machine/State.lean ====
section
/-!
DEFINITION. The state of the block as plain data: what recovery restores (`Store`), what each
subsystem holds beside it, the queue of waiting commands, and the state after power-on.
-/

namespace Sys2Proof.Machine

open Sys2Proof

/-! ### Names of states -/

/-- Horizon states of R65, in the code order of HZ_STATUS.STATE (R453). -/
inductive HzState where
  | stopped | running | late | halted | draining
  deriving DecidableEq, Repr

/-- Phases of a tick (R36) in the code order of HZ_STATUS.PHASE. The program phase runs beside
accept and has no code of its own. -/
inductive Phase where
  | accept | sealWindow | slack
  deriving DecidableEq, Repr

/-- Device states of R423. -/
inductive PState where
  | p0 | p1 | p2 | p3 | p4 | boot | held | draining | stopped | halted | resetting
  deriving DecidableEq, Repr

/-- Namespace states of R77. -/
inductive NsState where
  | online | offlineMedia | offlineRing | halted
  deriving DecidableEq, Repr

/-- Image slot states of R95. -/
inductive SlotState where
  | empty | staging | verifyPending | verified | active | previous
  deriving DecidableEq, Repr

/-- Function states of R357. -/
inductive FnState where
  | uncreated | active | resetting | removing
  deriving DecidableEq, Repr

/-- Queue pair states of R369. -/
inductive PairState where
  | active | stopped | deleting
  deriving DecidableEq, Repr

/-- Block states of R126. A block that no list names is FREE. -/
inductive BlockState where
  | openLanding | openQlc | fullLanding | fullQlc | map | victim | eraseWait | retired
  deriving DecidableEq, Repr

/-- Member states of R180. -/
inductive MemberState where
  | online | rebuilding | clear
  deriving DecidableEq, Repr

/-- Reshape states of R193. -/
inductive ReshapeState where
  | none | copying | switchPending
  deriving DecidableEq, Repr

/-- Digest context states of R259, in the code order of DG_STATUS.STATE. -/
inductive DgState where
  | free | idle | active | finalising | done | error
  deriving DecidableEq, Repr

/-- Thread states of R269. -/
inductive ThState where
  | waiting | ready | running
  deriving DecidableEq, Repr

/-- Instance states of R286. -/
inductive InstState where
  | waitEngines | starting | running | ending
  deriving DecidableEq, Repr

/-- Group states of R319, in the code order of ZL_GROUP_STATUS.STATE. -/
inductive GroupState where
  | solo | master | joining | member | isolated | reforming
  deriving DecidableEq, Repr

/-- Tick lock states of R312, in the code order of ZL_TICK_STATUS.LOCK; `none` is code 7. -/
inductive LockState where
  | acquiring | locked | flywheel | unlocked | none
  deriving DecidableEq, Repr

/-- Port states: down, in a bring-up step of R298, up (after step 7), fenced (R330), off (P4,
disabled). -/
inductive PortState where
  | down | step (n : Nat) | restartWait | up | fenced | off
  deriving DecidableEq, Repr

/-- Progress of authentication on a port (R327). -/
inductive AuthState where
  | none | helloSeen | replied | finished | authed
  deriving DecidableEq, Repr

/-- Firmware slot states of R421 that the boot flash itself holds; COMMITTED and TRIAL are named
by the selector (R410). -/
inductive FwSlotState where
  | empty | valid
  deriving DecidableEq, Repr

/-- Debug states of R418, in the code order of ID_FW.DEBUG. -/
inductive DebugState where
  | locked | unlocked | disabled
  deriving DecidableEq, Repr

/-- Phases of a HOT activation (R414). -/
inductive FwPhase where
  | idle | preparing | chosen (a : Nat) | holding (a : Nat) | handover (a : Nat)
  deriving DecidableEq, Repr

/-- Phases of a hold-up measurement (R434). -/
inductive HoldupPhase where
  | idle | settling | loaded
  deriving DecidableEq, Repr

/-- An entry to a power state under way (R428, R429, R435): where it leads. -/
inductive PowerEntry where
  | none | toP3 | toP4 | toHeld
  deriving DecidableEq, Repr

/-! ### What recovery restores -/

/-- A unit map entry (R99). A key that no entry names is UNMAPPED. -/
inductive MapEntry where
  | flash (addr : Nat)
  | zero
  | lost
  deriving DecidableEq, Repr

/-- The map entry of one unit: namespace, key of R100, entry. -/
structure UnitMap where
  nsid  : Nat
  key   : Nat
  entry : MapEntry
  deriving DecidableEq, Repr

/-- One link entry of an RNS chain (R84). -/
structure ChainLink where
  epoch       : Nat
  rclk        : Nat
  count       : Nat
  payload     : Nat
  firstOffset : Nat
  digest      : Data
  head        : Data
  deriving DecidableEq, Repr

/-- One image slot (R95): state, and LEN and expected digest of a verify. -/
structure Slot where
  st     : SlotState
  len    : Nat
  expect : Nat
  verifyFrom : Nat
  longId : Nat
  issuer : Nat
  deriving DecidableEq, Repr

/-- A namespace (R73) with its state, chain, regions and slots; `chainAt` lists the codewords of its chain area,
which hold the first `chained` links (R84). -/
structure Ns where
  f        : NsFields
  st       : NsState
  created  : Nat
  genesis  : Data
  links    : List ChainLink
  admitted : Nat
  records  : Nat
  trimEpoch : Nat
  regions  : List (Nat × Nat)
  slots    : List Slot
  deferred : Bool
  replica  : Bool
  chainAt  : List Nat
  chained  : Nat
  deriving DecidableEq, Repr

/-- A bound stream (R78) and its stored end in bytes. -/
structure Stream where
  num        : Nat
  nsid       : Nat
  isOpen     : Bool
  designated : Bool
  stored     : Nat
  deriving DecidableEq, Repr

/-- A stored record (R79): where it lies, its header as stored, and how it was admitted: freeze-designated or not, and
the CLEVEL of its class word (R205, R238). -/
structure Rec where
  nsid       : Nat
  stream     : Nat
  offset     : Nat
  hdr        : RecHeader
  payload    : Data
  epoch      : Nat
  designated : Bool
  level      : Nat
  deriving DecidableEq, Repr

/-- A stream extent that is not UNMAPPED (R106): its overlay slot, and the codewords of its run, START first, in super-block
order; a FINE extent has no run. `offs` is the table of its extent head, empty where the run has none (R241). `hot` lists
the units that the overlay holds over the run (R107), `changed` is the epoch in which the overlay last changed. -/
structure Extent where
  nsid    : Nat
  key     : Nat
  ovl     : Option Nat
  run     : List Nat
  offs    : List Nat
  hot     : List Nat
  changed : Nat
  deriving DecidableEq, Repr

/-- A value that `param.set` put in force (R406). -/
structure Param where
  id     : Nat
  target : Nat
  value  : Nat
  deriving DecidableEq, Repr

/-- A claim of R408: resource code, claiming opcode, holder's function. [log 7: DESIGN CHOICE] -/
structure Claim where
  res    : Nat
  opcode : Nat
  fn     : Nat
  deriving DecidableEq, Repr

/-- The grant of a function (R353, R354). -/
structure Grant where
  qpairs  : Nat
  vectors : Nat
  tags    : Nat
  engines : Nat
  banks   : Nat
  squall  : Nat
  mem     : Nat
  write   : Nat
  read    : Nat
  scan    : Nat
  dmaBase : Nat
  dmaLen  : Nat
  deriving DecidableEq, Repr

/-- Persistent settings of one Zelim port (R334, R335). -/
structure PortCfg where
  lanes      : Nat
  lr         : Bool
  fec        : Bool
  enable     : Bool
  credit     : Nat
  deriving DecidableEq, Repr

/-- A trust slot (R326): the anchor key and its scope (0 MEMBER, 1 PEER). -/
structure Trust where
  key   : Nat
  scope : Nat
  deriving DecidableEq, Repr

/-- A module key slot (R282): the key and the map of functions. -/
structure ModKey where
  key : Nat
  map : Nat
  deriving DecidableEq, Repr

/-- The reshape of a namespace (R192, R193). The new layout's map entries stand in the map under NSID +
0x8000. -/
structure Reshape where
  st     : ReshapeState
  nsid   : Nat
  code   : Nat
  longId : Nat
  issuer : Nat
  deriving DecidableEq, Repr

/-- The pool (R169): members named, k0, the state of each member, failed dies, and C_d. -/
structure Pool where
  formed  : Bool
  members : List (Nat × MemberState)
  k0      : Nat
  failedDies : List Nat
  cd      : Nat
  deriving DecidableEq, Repr

/-- The last committed membership (R322) as a persistent setting. -/
structure Committed where
  gen      : Nat
  master   : Nat
  members  : List Member
  deriving DecidableEq, Repr

/-- The fields of the last epoch descriptor programmed (R44); TAG, VERSION and CRC are those of every descriptor. An
address is 0 where no pool is formed that could hold it. [log 144: DESIGN CHOICE] -/
structure Descriptor where
  flags      : Nat
  epoch      : Nat
  prevEpoch  : Nat
  prevAddr   : Nat
  highWater  : Nat
  ringMark   : Nat
  groupTick  : Nat
  delta1     : Nat
  delta2     : Nat
  deltaLen   : Nat
  deltaCrc   : Nat
  obpAddr    : Nat
  intentSeq  : Nat
  payload    : Nat
  records    : Nat
  chains     : Data
  eventFlags : Nat
  deriving DecidableEq, Repr

/-- What the state after epoch E holds (R22): everything that a seal makes durable. `sealRclk` is RCLK in µs at the
cut point of the last sealed epoch, `markRclk` at that of the last epoch whose ring-synchronous content is settled
(R85). [log 126: DEDUCED] -/
structure Store where
  sealed     : Nat
  highWater  : Nat
  ringMark   : Nat
  rclkUs     : Nat
  sealRclk   : Nat
  markRclk   : Nat
  nss        : List Ns
  streams    : List Stream
  recs       : List Rec
  map        : List UnitMap
  extents    : List Extent
  lost       : List (Nat × Nat)
  pool       : Pool
  reshape    : Reshape
  retired    : List Nat
  op         : Nat
  writeProfile : Nat
  patrolClass  : Nat
  protection   : Nat
  period     : Nat
  source     : Nat
  window     : Nat
  params     : List Param
  claims     : List Claim
  tickOutWidth : Nat
  samplePeriod : Nat
  hostMode   : Nat
  linkFloor  : Nat
  pf0Grant   : Grant
  modKeys    : List (Nat × ModKey)
  ports      : List PortCfg
  node       : Nat
  trust      : List (Nat × Trust)
  grouped    : Bool
  committed  : Committed
  groupBase  : Nat
  offset     : Nat
  released   : List (Nat × Nat × Nat)
  desc       : Option Descriptor
  descAt     : List Nat
  ckptEpoch  : Nat
  replayFrom : Nat
  deriving DecidableEq, Repr

/-! ### Epochs in flight -/

/-- One landing item of an epoch: the units it stores, the codewords it takes (1, or C of R239
for a compressed segment), where its program went and whether the status is confirmed; `frame` gives level and frame length
of a compressed segment. -/
structure Item where
  nsid      : Nat
  units     : List (Nat × Data)
  pi        : Option PiField
  codewords : Nat
  addr      : Option Nat
  confirmed : Bool
  frame     : Option (Nat × Nat)
  deriving DecidableEq, Repr

/-- What the data of an epoch does, in order of admission (R104, R118). -/
inductive Fx where
  | item (it : Item)
  | unmap (nsid first count : Nat)
  | zero (nsid first count : Nat)
  | lost (nsid key : Nat)
  | record (r : Rec)
  | stored (nsid stream stored : Nat)
  | release (nsid stream extent : Nat)
  deriving DecidableEq, Repr

/-- Changes that wait for the seal (R43 row 8). -/
inductive Ctrl where
  | nsCreate (n : NsFields) (epoch : Nat) (replica : Bool)
  | nsDelete (nsid : Nat)
  | attach (nsid fn rights : Nat)
  | detach (nsid fn : Nat)
  | streamOpen (nsid stream : Nat) (designated : Bool)
  | streamClose (nsid stream : Nat)
  | retain (nsid days : Nat)
  | rclkSet (seconds : Nat)
  | trim (nsid epoch issuer longId : Nat)
  | freeze (nsid first last : Nat)
  | unfreeze (nsid first : Nat)
  | slot (nsid slot : Nat) (s : Slot)
  | slotErase (nsid slot : Nat)
  | slotFormer (nsid : Nat) (former next : SlotState)
  | hzConfig (period source window : Nat)
  | ftProfile (op profile : Nat)
  | mediaCare (cls : Nat)
  | rdProfile (cls : Nat)
  | poolForm (p : Pool) (longId : Nat)
  | memberFail (m : Nat)
  | dieFail (die : Nat)
  | reshapeStart (nsid code issuer longId : Nat)
  | reshapeSwitch
  | reshapeCancel
  | param (id target value : Nat)
  | claim (res opcode fn : Nat)
  | unclaim (opcode : Nat)
  | tickOut (width : Nat)
  | sampling (period : Nat)
  | hostCfg (mode floor : Nat)
  | pf0Grant (g : Grant)
  | keyEnroll (slot : Nat) (k : ModKey)
  | keyRevoke (slot : Nat)
  | portCfg (port : Nat) (c : PortCfg)
  | nodeSet (node : Nat)
  | trustEnroll (slot : Nat) (t : Trust)
  | trustRevoke (slot : Nat)
  | membership (grouped : Bool) (c : Committed) (base offset longId : Nat)
  | mirrorBreak (nsid : Nat)
  | mirrorCopied (nsid : Nat)
  | deferred (nsid : Nat) (flag : Bool)
  | retire (blk : Nat)
  deriving DecidableEq, Repr

/-- An internal move (R120): from where to where, for which key, confirmed or not, and the epoch whose entry records it.
`cws` are the codewords that the copy takes, `dst` first; `epoch` is the one that opened their stripes. `coarse`: it belongs
to the EXTENT_SET of its extent (R112); `zero`: the unit reads as zeros and its copy is a codeword of zeros. `suspends`
counts the suspends of its program (R148). -/
structure Move where
  nsid      : Nat
  key       : Nat
  src       : Nat
  dst       : Nat
  confirmed : Bool
  recorded  : Option Nat
  cws       : List Nat
  epoch     : Nat
  coarse    : Bool
  zero      : Bool
  suspends  : Nat
  deriving DecidableEq, Repr

/-- An entry of an open-block parity snapshot (R155). -/
structure SnapEntry where
  sb      : Nat
  mode    : Nat
  pending : Bool
  logAddr : Nat
  logRecs : Nat
  rows    : Nat
  opened  : Nat
  deriving DecidableEq, Repr

/-- An epoch that is not yet durable in full (R38). `ringFx` keeps the ring-synchronous content
of a sealed epoch until its ring mark (R23). `obp` is its open-block parity snapshot and the address of that, once it
is persisted (R43 row 4, R155). -/
structure Epoch where
  n          : Nat
  closed     : Bool
  fx         : List Fx
  ctrl       : List Ctrl
  payload    : Nat
  records    : Nat
  metaUsed   : Nat
  hostRecs   : Nat
  intentSeq  : Option Nat
  intentOk   : Bool
  isLate     : Bool
  ringLate   : Bool
  isSealed   : Bool
  rclkCut    : Nat
  obp        : Option (Nat × List SnapEntry)
  deriving DecidableEq, Repr

/-! ### Subsystems beside the store -/

/-- TICK_IN and rate estimate (R30, R31, R34). `sumNs` and `ivals` are the sum and the number of the intervals measured
on the way to lock. -/
structure TickIn where
  watching  : Bool
  locked    : Bool
  hits      : Nat
  misses    : Nat
  discarded : Nat
  estNs     : Nat
  sumNs     : Nat
  ivals     : Nat
  lastHit   : Bool
  watchFrom : Nat
  switchDue : Bool
  nudgeNs   : Int
  deriving DecidableEq, Repr

/-- What the device counts of a tick for TEL_TICK_REC (R458). -/
structure TickRec where
  tick    : Nat
  admitted : Nat
  read    : Nat
  scan    : Nat
  records : Nat
  f       : Nat
  sealAt  : Nat
  peak    : Nat
  deriving DecidableEq, Repr

/-- Credit left in the tick for one holder in bytes (R52, R53, R58): functions by number, port p as
256 + p. `hold`: the holder has met a shared limit and waits for the next tick (R483). -/
structure CreditLeft where
  holder : Nat
  write  : Nat
  read   : Nat
  scan   : Nat
  hold   : Bool
  deriving DecidableEq, Repr

/-- Horizon (chapter 2). `changes` are the changes of period, source and window accepted and still to take effect, each
with the tick from which it does (R32). `ringSaves` holds, for each sealed epoch that changes ring-synchronous namespaces and
whose ring mark is still to come, the durable state without those changes (R23). `uptimeUs` is the model's own clock: the sum of the ticks run. -/
structure Horizon where
  st        : HzState
  ticking   : Bool
  phase     : Phase
  epoch     : Nat
  sealed    : Nat
  ringMark  : Nat
  period    : Nat
  source    : Nat
  window    : Nat
  changes   : List (Nat × Nat × Nat × Nat)
  lateCount : Nat
  sealLate  : Nat
  overruns  : Nat
  ringLate  : Nat
  faultCode : Nat
  faultEpoch : Nat
  elapsedNs : Nat
  tickIn    : TickIn
  epochs    : List Epoch
  credits   : List CreditLeft
  turn      : Nat
  firstTurn : Nat
  blocked   : Bool
  rclkUs    : Nat
  uptimeUs  : Nat
  tick      : TickRec
  lastTick  : TickRec
  commitHeld : Nat
  pendingSealMark : Nat
  intentSeq : Nat
  tickOutHigh : Bool
  ringSaves : List (Nat × Store)
  deriving DecidableEq, Repr

/-- An attachment and, where it is still to take effect, the tick from which it does (R16). -/
structure Attachment where
  nsid   : Nat
  fn     : Nat
  rights : Nat
  from_  : Nat
  until_ : Option Nat
  deriving DecidableEq, Repr

/-- A stream change that takes effect at tick `from_` (R78): until then the stream is as these
fields say. -/
structure StreamChange where
  nsid   : Nat
  stream : Nat
  isOpen : Bool
  designated : Bool
  from_  : Nat
  deriving DecidableEq, Repr

/-- Namespace state outside any epoch: attachments, stream changes under way, SHOCK_IN. -/
structure NsVol where
  attachments : List Attachment
  streamChg   : List StreamChange
  holdoff     : Bool
  ignored     : Nat
  noTick      : Nat
  refused     : Nat
  triggered   : List (Nat × Nat × Nat)
  deriving DecidableEq, Repr

/-- A programmed codeword (R138, R140): its metadata, its data bytes, and the units that these hold. A parity codeword
has utype 4, a mark of the model's own, and 4,128 bytes of parity as data (R176). `item` is the address of the first
codeword of the compressed segment that it continues, else its own (R239). [log 145: DESIGN CHOICE] -/
structure Codeword where
  addr  : Nat
  nsid  : Nat
  utype : Nat
  flags : Nat
  key   : Nat
  epoch : Nat
  data  : Data
  units : List (Nat × Data)
  pi    : Option PiField
  item  : Nat
  deriving DecidableEq, Repr

/-- A block that is not FREE (R126). `stamp` is the epoch of its last program, `closedAt` RCLK at its last program
in µs (R149), `failed` says that it is retired once no sealed entry names it (R124), `eraseFrom` is the first tick
in which it may be erased. `ms` are the members of its die group when its super-block opened (R172), `live` is its live
count (R113), `cls` the age class in which it was last seen (R150), `seen` the number of its latest read (R151),
`suspends` counts the suspends of its erase (R148). -/
structure Block where
  blk     : Nat
  st      : BlockState
  qlc     : Bool
  used    : Nat
  failed  : Bool
  reads   : Nat
  stamp   : Nat
  closedAt : Nat
  refresh : Bool
  eraseFrom : Nat
  erasing : Bool
  ms      : List Nat
  live    : Nat
  cls     : Nat
  seen    : Nat
  suspends : Nat
  deriving DecidableEq, Repr

/-- A cached map segment (R100, R103, R105), least recently used first; `held` are the entries that a partial one has
present (R103), `again` the first epoch that changed it after the write-back under way programmed it (R105). -/
structure Segment where
  nsid    : Nat
  typ     : Nat
  idx     : Nat
  whole   : Bool
  dirtyAt : Option Nat
  held    : List Nat
  again   : Option Nat
  deriving DecidableEq, Repr

/-- An open-block parity row (R153): its codeword position, the global die indices of its mask, and the XOR of the 4,128
bytes of their codewords. -/
structure ParityRow where
  row    : Nat
  dies   : List Nat
  parity : Data
  deriving DecidableEq, Repr

/-- A super-block that holds open-block parity (R154): its rows, the codewords that its verify scan has read and those
that failed it. -/
structure ParityBlock where
  sb      : Nat
  mode    : Nat
  pending : Bool
  rows    : List ParityRow
  opened  : Nat
  scanned : List Nat
  failing : List Nat
  deriving DecidableEq, Repr

/-- A stripe (R173): its super-block and die group, its number in the group, k and w as written, the code byte under which
it was opened, its epoch, its slots in stream order, the data positions taken, and whether P and Q are programmed (R174). -/
structure Stripe where
  sb    : Nat
  grp   : Nat
  n     : Nat
  k     : Nat
  w     : Nat
  code  : Nat
  epoch : Nat
  on    : List Nat
  taken : List Nat
  closed : Bool
  move  : Bool
  deriving DecidableEq, Repr

/-- A record of a parity log (R155): the row as it stood when epoch `epoch` was persisted. -/
structure LogRec where
  epoch : Nat
  row   : ParityRow
  deriving DecidableEq, Repr

/-- The parity log of a super-block (R155): the codewords it takes and its records. [log 146: DESIGN CHOICE] -/
structure ParityLog where
  sb   : Nat
  cws  : List Nat
  recs : List LogRec
  deriving DecidableEq, Repr

/-- The seal entries of an epoch that recovery may still need (R43 rows 6 and 7, R121): the copies of its descriptor and
the codewords of each copy of its map delta entry. -/
structure JournalEntry where
  epoch  : Nat
  descs  : List Nat
  delta1 : List Nat
  delta2 : List Nat
  deriving DecidableEq, Repr

/-- An intent entry (R187): SEQ, the epoch that opens its stripes, its copies, and its ranges. [log 151: DEDUCED] -/
structure Intent where
  seq    : Nat
  epoch  : Nat
  copies : List Nat
  deriving DecidableEq, Repr

/-- What an LDPC decoder reports of a decode (R141). -/
structure DecodeReport where
  addr      : Nat
  converged : Bool
  corrected : Nat
  iters     : Nat
  weight    : Nat
  deriving DecidableEq, Repr

/-- What has the flash retrain slot of a channel (R51, R151, R152): nothing, the training of its interface, or the sweep of
the bin with these numbers. -/
inductive FlashAction where
  | none
  | interface
  | sweep (die mode bin : Nat)
  deriving DecidableEq, Repr

/-- A flash channel (R133, R136): `failed` is the step at which it stopped, 0 for none; `luns` the chip enable and LUN of
each die, in the order of the DIE numbers (R135); `bad` the blocks with a factory mark; `mixed`: its dies do not match
one profile. `training`: its interface is to be retrained; `action` has the slot, `senses` are left of it (R151). -/
structure Channel where
  ch       : Nat
  populated : Bool
  failed   : Nat
  luns     : List (Nat × Nat)
  rate     : Nat
  profile  : FlashProfile
  mixed    : Bool
  bad      : List Nat
  trainTemp : Int
  trainFails : Nat
  training : Nat
  action   : FlashAction
  senses   : Nat
  deriving DecidableEq, Repr

/-- Dies of a channel (R135). -/
def Channel.dies (c : Channel) : Nat := c.luns.length

/-- A die (R164, R167); `offsets` are the threshold offsets that the device last set in it (R134, R149). -/
structure Die where
  die     : Nat
  failed  : Bool
  temp    : Int
  retired : Nat
  noReady : Nat
  progFails : Nat
  eraseFails : Nat
  levels  : List Nat
  l7      : Nat
  refreshMarks : Nat
  inhibits : Nat
  offsets : List Int
  deriving DecidableEq, Repr

/-- A read-offset bin (R149), the corrected bits of its last 1,024 decodes at L0 or L1 (R150), and the sweep under way with
its sample block (R151). -/
structure Bin where
  die     : Nat
  mode    : Nat
  bin     : Nat
  offsets : List Int
  tCal    : Int
  epoch   : Nat
  window  : List Nat
  wanted  : Bool
  sweep   : List Int
  sweepT  : Int
  sample  : Option Nat
  deriving DecidableEq, Repr

/-- A codeword on the retry ladder (R143) and its level. -/
structure Ladder where
  addr  : Nat
  level : Nat
  fromRead : Bool
  deriving DecidableEq, Repr

/-- Flash translation and media (chapters 4 to 6) beside the store. `wear` counts erases by 2 x block + mode, `formed` the pool
formations by member, each of which erased every block of it (R169); `walked` lists the super-blocks that a rebuild has walked.
`tier1` lists the segments of the first cache tier, least recently used first (R102); `collecting`: background collection
runs (R114); H is `headroom` / `headDen` (R111). `ckptCws` and `ckptAt` are the codewords of the checkpoint under way and of
the last complete one (R121); `snap` is the snapshot of the last sealed epoch (R156), `logSupers` are the super-blocks reserved for parity logs (R153), `erased` the blocks whose BLOCK_STATE 0
waits for the next entry (R122), `lostMembers` the members failed and not yet recorded so, `windowFails` those of them that
failed in this seal window (R179); `binsSaved` are the bins of the last checkpoint (R136), `decode` is the last decoder report
(R141), `patrolNext` the uptime from which the next patrol pass is due (R160). -/
structure Flash where
  cells    : List Codeword
  blocks   : List Block
  segs     : List Segment
  dirEnts  : List (Nat × Nat × Nat × Nat)
  writeback : List (Nat × Nat × Nat × Nat)
  ckpt     : Option Nat
  moves    : List Move
  ladders  : List Ladder
  parity   : List ParityBlock
  channels : List Channel
  dies     : List Die
  bins     : List Bin
  monitors : List Nat
  inhibited : Bool
  trained  : Bool
  patrol   : List Nat
  patrolRead : Nat
  patrolMarked : Nat
  fFree    : Nat
  fLand    : Nat
  fMap     : Nat
  f        : Nat
  allow    : Nat
  lMin     : Nat
  headroom : Nat
  wear     : List (Nat × Nat)
  walked   : List Nat
  walkTotal : Nat
  walking  : Bool
  resyncFull : Bool
  resyncLeft : List Nat
  wpAsserted : Bool
  stripes  : List Stripe
  tier1    : List (Nat × Nat × Nat)
  collecting : Bool
  ckptCws  : List Nat
  ckptAt   : List Nat
  journal  : List JournalEntry
  intents  : List Intent
  logs     : List ParityLog
  logSupers : List Nat
  snap     : List SnapEntry
  snapAt   : Nat
  erased   : List Nat
  lostMembers : List Nat
  windowFails : List Nat
  binsSaved : List Bin
  readSeq  : Nat
  decode   : Option DecodeReport
  patrolNext : Nat
  formed   : List (Nat × Nat)
  headDen  : Nat
  deriving DecidableEq, Repr

/-- A submitted command from its fetch to its completion (R371). -/
inductive Stage where
  | fetched | needClass | needData | waiting | reading | admitted | execing
  deriving DecidableEq, Repr

/-- A fetched command (R370 to R387). `left` is what is not yet admitted, in units of R375;
`need` the epoch whose seal completes it; `pieces` the parts admitted, epoch and units; `loads` the map segments that it waits
for (R103). -/
structure Cmd where
  fn      : Nat
  qid     : Nat
  seq     : Nat
  tick    : Nat
  e       : SqEntry
  stage   : Stage
  done    : Nat
  left    : Nat
  need    : Nat
  ring    : Bool
  bytes   : Data
  pi      : List PiField
  hdr     : Option RecHeader
  word    : Option (BitVec 32)
  matched : Bool
  offset  : Nat
  room    : Bool
  toRead  : List (Nat × Nat)
  status  : Status
  ended   : Bool
  late    : Nat
  inst    : Nat
  pieces  : List (Nat × Nat)
  loads   : List (Nat × Nat × Nat)
  deriving DecidableEq, Repr

/-- A completion entry (R378). -/
structure CqEntry where
  result : Nat
  status : Status
  sqHead : Nat
  cid    : Nat
  phase  : Bool
  deriving DecidableEq, Repr

/-- A queue pair (R365 to R369). -/
structure Pair where
  fn     : Nat
  qid    : Nat
  global : Nat
  depth  : Nat
  vector : Nat
  sqBase : Nat
  cqBase : Nat
  st     : PairState
  liveFrom : Nat
  sqTail : Nat
  sqHead : Nat
  cqHead : Nat
  cqTail : Nat
  phase  : Bool
  entries : List CqEntry
  coalescing : Bool
  longId : Nat
  deriving DecidableEq, Repr

/-- What the device writes toward the host (R343, R380): kept in the order issued. -/
inductive HostWrite where
  | cq (fn qid : Nat) (e : CqEntry)
  | event (fn cls : Nat) (status : Status) (detail seq : Nat) (phase : Bool)
  | overflow (fn count seq : Nat) (phase : Bool)
  | msix (fn vector : Nat)
  | data (fn addr : Nat) (units : List (Nat × Data))
  | put (fn addr : Nat) (bytes : Data)
  deriving DecidableEq, Repr

/-- Queues (chapter 13). [log 65: DESIGN CHOICE] -/
structure Queues where
  pairs   : List Pair
  cmds    : List Cmd
  nextSeq : Nat
  rr      : List (Nat × Nat)
  issued  : List HostWrite
  held    : List (Nat × HostWrite)
  perCommand : Bool
  deriving DecidableEq, Repr

/-- A reply that Sutas firmware has ready (R399): status and values in the order of the command's
reply column; `await` is the epoch whose seal it waits for (R402). -/
structure Reply where
  opcode : Nat
  tag    : Nat
  status : Status
  vals   : List Nat
  await  : Option Nat
  deriving DecidableEq, Repr

/-- A mailbox (R398, R400, R451): message area, STATE (0 IDLE, 1 BUSY, 2 DONE), STATUS of the last
reply, the request accepted by GO, the reply ready. -/
structure Mailbox where
  area    : List Host.Cell
  state   : Nat
  status  : Status
  request : Option (Nat × MbReq)
  reply   : Option Reply
  deriving DecidableEq, Repr

/-- An event ring (R393, R394). -/
structure EventRing where
  base     : Nat
  entries  : Nat
  head     : Nat
  tail     : Nat
  phase    : Bool
  overflow : Nat
  seq      : Nat
  deriving DecidableEq, Repr

/-- A long command of a function (R403) and its result once it has ended. -/
structure LongCmd where
  id     : Nat
  fn     : Nat
  opcode : Nat
  status : Option Status
  result : List Nat
  logOnly : Bool
  deriving DecidableEq, Repr

/-- One MSI-X table entry (R345): the host's address and data, its mask bit and its pending bit. A vector that no
entry names holds address and data 0 and is masked. [log 10: PRESUMED] -/
structure Vec where
  num     : Nat
  addr    : Nat
  data    : Nat
  masked  : Bool
  pend    : Bool
  deriving DecidableEq, Repr

/-- Progress of a function reset or removal (R358): fenced at `t0`, the opcodes of the mailbox
commands that asked for it, once its engines have ended the first tick whose seal window counts, and the tags of the commands
that it ended (R388). -/
structure FnReset where
  fenced  : Bool
  t0      : Nat
  byMb    : List Nat
  window  : Option Nat
  tags    : Nat
  deriving DecidableEq, Repr

/-- A function (R350 to R360) with its registers. -/
structure Fn where
  num     : Nat
  st      : FnState
  liveFrom : Nat
  grant   : Grant
  firstVector : Nat
  bankMask : List Nat
  bme     : Bool
  d3      : Bool
  reset   : FnReset
  mb      : Mailbox
  evq     : EventRing
  intStatus : BitVec 3
  viol    : Nat
  anvSel  : Nat
  vecs    : List Vec
  latches : List (Nat × Nat)
  recLatches : List (Nat × Data)
  sqLevel : Nat
  anvClass : Nat
  deriving DecidableEq, Repr

/-- USB4 and the PCIe tunnel (R339 to R352). -/
structure Link where
  gen      : Nat
  trained  : Nat
  retrains : Nat
  retimers : Nat
  bonding  : Bool
  below    : Bool
  recovering : Bool
  vfEnable : Bool
  numVfs   : Nat
  mode     : Nat
  deriving DecidableEq, Repr

/-- A Halo slot's fields (R215); VALID is held apart by the table's live list. -/
structure HaloEntry where
  id    : Nat
  slot  : Nat
  value : BitVec 128
  mask  : BitVec 128
  prio  : Nat
  valid : Bool
  word  : BitVec 32
  hits  : List Nat
  deriving DecidableEq, Repr

/-- An update step waiting for its slot boundary (R218): `copy` writes the fields and HITS of one slot
into another. -/
inductive HaloStep where
  | write (e : HaloEntry)
  | copy (src dst : Nat)
  | validate (slot : Nat)
  | invalidate (slot : Nat)
  deriving DecidableEq, Repr

/-- A Halo table (R214, R221). `entries` is in ascending slot order; `steps` are the steps still
to take effect, and `reply` the function, opcode, tag and values of the reply that follows the last of
them. -/
structure HaloTable where
  id       : Nat
  owner    : Nat
  classify : Bool
  banks    : Nat
  replicas : Nat
  hole     : Nat
  default_ : BitVec 32
  entries  : List HaloEntry
  nextId   : Nat
  compacting : Bool
  steps    : List HaloStep
  moved    : Nat
  searches : Nat
  hits     : Nat
  longId   : Nat
  reply    : Option (Nat × Nat × Nat × List Nat)
  deriving DecidableEq, Repr

/-- An index entry of R209 waiting for the index record of stream `into`. -/
structure IndexEntry where
  into    : Nat
  stream  : Nat
  offset  : Nat
  epoch   : Nat
  tag     : Nat
  declLen : Nat
  srcNode : Nat
  rtype   : Nat
  ruleTag : Nat
  flags   : Nat
  deriving DecidableEq, Repr

/-- An ingest segment waiting for Squall (R238). -/
structure IngestSeg where
  nsid   : Nat
  stream : Nat
  window : Nat
  level  : Nat
  epoch  : Nat
  deriving DecidableEq, Repr

/-- Halo and the ingest pipeline (chapter 7). `hash` binds units: namespace and bytes left. -/
structure Halo where
  tables    : List HaloTable
  index     : List IndexEntry
  hash      : List (Nat × Nat)
  segs      : List IngestSeg
  classified : Nat
  defaulted : Nat
  indexed   : Nat
  uncompressed : Nat
  hashWaits : Nat
  deriving DecidableEq, Repr

/-- How a Squall job ends (R232): the fields of its completion record. -/
structure SqOutcome where
  status   : Status
  noShrink : Bool
  ended    : Bool
  stateOk  : Bool
  consumed : Nat
  produced : Nat
  crcIn    : Nat
  crcOut   : Nat
  fmtCheck : Nat
  deriving DecidableEq, Repr

/-- A Squall job (R231) with its owner, the engine whose thread submitted it, the address of its completion record and the
token that its end delivers. -/
structure SqJob where
  fn     : Nat
  inst   : Nat
  from_  : Nat
  desc   : SqDesc
  record : Nat
  tid    : Nat
  slot   : Nat
  engine : Option Nat
  stopping : Bool
  deriving DecidableEq, Repr

/-- The continuation state of a stream (R231, R233, R234): its state area (function, engine of the scratchpad plus 1
or 0, address), OP and FORMAT, the source consumed so far and the output produced so far. [log 83: DEDUCED] -/
structure SqArea where
  fn     : Nat
  spot   : Nat
  addr   : Nat
  op     : Nat
  format : Nat
  src    : Data
  dst    : Data
  deriving DecidableEq, Repr

/-- Squall (chapter 8): jobs in order of submission; time left in the tick, negative for a debt, by
2 x function + pipe; continuation states; spills by engine (R226); counters, those of ended jobs by
65,536 x function + status. -/
structure Squall where
  jobs     : List SqJob
  time     : List (Nat × Int)
  states   : List SqArea
  spills   : List (Nat × Nat)
  compressed : Nat
  asAdmitted : Nat
  atBoundary : Nat
  verifyFails : Nat
  jobsDone : List (Nat × Nat)
  deriving DecidableEq, Repr

/-- A digest context (R249 to R259). `full` is how many of its two buffers wait or compress. -/
structure DgCtx where
  owner  : Nat
  st     : DgState
  alg    : Nat
  err    : Status
  msg    : Data
  full   : Nat
  tail   : Nat
  msgLen : Nat
  result : Data
  done   : Bool
  deriving DecidableEq, Repr

/-- An operand token (R274): value, status, source code of R271, and for one that a thread sent its engine. -/
structure Token where
  value  : Nat
  status : Status
  source : Nat
  engine : Option Nat
  deriving DecidableEq, Repr

/-- A chunk in a buffer (R287, R288). -/
structure Chunk where
  engine : Nat
  addr   : Nat
  offset : Nat
  len    : Nat
  overlap : Nat
  lostMask : Nat
  deriving DecidableEq, Repr

/-- A thread (R268 to R272). `pin` is an engine, or none when it is free in `cluster`. -/
structure Thread where
  tid     : Nat
  inst    : Nat
  fn      : Nat
  entry   : Nat
  arg     : Nat
  prio    : Nat
  nslots  : Nat
  pin     : Option Nat
  cluster : Nat
  part    : Nat
  ops     : List (Option Token)
  st      : ThState
  order   : Nat
  cancelled : Bool
  chunk   : Option Chunk
  first   : Bool
  deriving DecidableEq, Repr

/-- A token that its producer holds because it stalls (R275); `caller` is the engine whose thread waits in
the call of `th_send`. -/
structure Stalled where
  caller : Option Nat
  tid   : Nat
  slot  : Nat
  tok   : Token
  deriving DecidableEq, Repr

/-- A delay (R277). -/
structure Delay where
  tid  : Nat
  slot : Nat
  wake : Nat
  deriving DecidableEq, Repr

/-- What a module file holds (R280, R281): the manifest fields, the entry, the size of the image, its segments (address and
bytes), and where the static scratch begins. -/
structure ModuleFile where
  moduleId   : Nat
  moduleVer  : Nat
  keySlot    : Nat
  maxPrio    : Nat
  flags      : Nat
  entry      : Nat
  chunkEntry : Nat
  stackBytes : Nat
  scratchBytes : Nat
  maxThreads : Nat
  imageBytes : Nat
  name       : Nat
  segs       : List (Nat × Data)
  scratchAt  : Nat
  deriving DecidableEq, Repr

/-- An engine (R263, R265 to R267): U-mode or Sutas kernel's M-mode, pc, registers and CSRs, the reservation of an LR, whether
its L1 D may hold lines of module data memory, its two windows (function and module handle), and its scratchpad, which lists no
byte that is 0. -/
structure Engine where
  user    : Bool
  pc      : Nat
  x       : List Word64
  f       : List Word64
  v       : List (BitVec 512)
  fcsr    : Nat
  vcsr    : Nat
  vl      : Nat
  vtype   : Nat
  vstart  : Nat
  resv    : Option Nat
  cached  : Bool
  winFn   : Nat
  winMod  : Nat
  scratch : List Host.Cell
  deriving DecidableEq, Repr

/-- A loaded module (R283). -/
structure Module where
  fn     : Nat
  handle : Nat
  file   : ModuleFile
  revoked : Bool
  deriving DecidableEq, Repr

/-- A put that waits for read credit (R279). -/
structure Put where
  engine : Nat
  tid    : Nat
  slot   : Nat
  offset : Nat
  bytes  : Data
  deriving DecidableEq, Repr

/-- An instance (R286). `abortBy` is the function and tag of an abort whose reply follows its completion (R385). `argAddr` is where its argument block lies; CHUNK and CHUNK_BUFS of `blk` hold the
values in force at the exec. -/
structure Inst where
  id      : Nat
  fn      : Nat
  qid     : Nat
  cid     : Nat
  nsid    : Nat
  handle  : Nat
  blk     : ExecBlock
  st      : InstState
  engines : List Nat
  delivered : Nat
  nextEng : Nat
  chunks  : List Chunk
  puts    : List Put
  argAddr : Nat
  stackAt : Nat
  code    : Nat
  resultLen : Nat
  status  : Status
  abortBy : Option (Nat × Nat)
  deriving DecidableEq, Repr

/-- A fault record (R295). -/
structure FaultRec where
  fn     : Nat
  inst   : Nat
  tid    : Nat
  engine : Nat
  mcause : Nat
  mepc   : Nat
  mtval  : Nat
  status : Status
  deriving DecidableEq, Repr

/-- The counts of R292 for one engine in the tick that runs: `ran` says that a thread ran on it, `waits` counts the waiting
times by the bins of WAIT_HIST. -/
structure EngCount where
  engine : Nat
  activations : Nat
  chunks : Nat
  readyMax : Nat
  ran : Bool
  waits : List Nat
  deriving DecidableEq, Repr

/-- A completed record of R292. [log 92: DESIGN CHOICE] -/
structure EngRec where
  engine : Nat
  tick   : Nat
  activations : Nat
  chunks : Nat
  readyMax : Nat
  readyEnd : Nat
  waitingEnd : Nat
  busy : Nat
  stall : Nat
  waits : List Nat
  deriving DecidableEq, Repr

/-- Anvil and the HTS (chapter 10). `data` is the module data memory of each function, which lists no byte that is 0. -/
structure Anvil where
  modules : List Module
  insts   : List Inst
  nextInst : Nat
  threads : List Thread
  gens    : List (Nat × Nat)
  order   : Nat
  running : List (Nat × Nat)
  stalled : List Stalled
  delays  : List Delay
  discards : List (Nat × Nat)
  mem     : List (Nat × Nat × Nat × Nat)
  engines : List Engine
  data    : List (Nat × List Host.Cell)
  zeroing : List Nat
  faults  : List FaultRec
  counts  : List EngCount
  recs    : List EngRec
  deriving DecidableEq, Repr

/-- A record arriving on a port (R308). -/
structure LinkRec where
  rid    : Nat
  src    : Nat
  nsid   : Nat
  stream : Nat
  bytes  : Data
  hdr    : Option RecHeader
  word   : Option (BitVec 32)
  matched : Bool
  complete : Bool
  mirror : Bool
  ticket : Option Nat
  deriving DecidableEq, Repr

/-- A frame that the device sends (R304): port, type, destination, RID, argument; a tick mark (R309) has
type 0x5A and its tick as argument. -/
structure Sent where
  port : Nat
  typ  : Nat
  dst  : Nat
  rid  : Nat
  arg  : Nat
  deriving DecidableEq, Repr

/-- A retrain of a lane (R302): ADAPT, or FULL, and the steps still to run, 0 where it has not begun. -/
structure LaneTrain where
  lane : Nat
  full : Bool
  left : Nat
  deriving DecidableEq, Repr

/-- A Zelim port (R297 to R305, R327 to R330). `adapted` lists the lanes whose last ADAPT ended with no margin back in range
since (R302). -/
structure Port where
  st       : PortState
  fails    : Nat
  lanesUp  : Nat
  margins  : List (Nat × Nat × Nat × Nat)
  retrain  : List LaneTrain
  adapted  : List Nat
  dPort    : Nat
  peer     : Nat
  peerCert : Nat
  peerCaps : Nat
  auth     : AuthState
  nonces   : List Nat
  initiator : Bool
  scope    : Option Nat
  trustSlot : Option Nat
  admitted : List Nat
  txSeq    : Nat
  rxSeq    : Nat
  acked    : Nat
  unacked  : List (Nat × Sent)
  ackDue   : Bool
  backoff  : Nat
  violations : Nat
  window   : Nat
  windowAt : Nat
  pausedTo : Nat
  sentPause : Bool
  recs     : List LinkRec
  mirrorCredit : Nat
  mirrorTick : Nat
  deriving DecidableEq, Repr

/-- A route (R307) with its queue of records not yet sent (RID and bytes) and its counts. -/
structure Route where
  nsid    : Nat
  stream  : Nat
  node    : Nat
  rnsid   : Nat
  rstream : Nat
  queue   : List (Nat × Nat)
  unsent  : Nat
  naks    : Nat
  deriving DecidableEq, Repr

/-- A SEAL_READY held by the master (R321). -/
structure Vote where
  gtick : Nat
  node  : Nat
  deriving DecidableEq, Repr

/-- A join that the master handles (R317): joiner, port, last epoch, offset, join tick. `waitingHost` until
`zl.member` admission; `accepted` once JOIN accept has come: a member from its join tick on. -/
structure Join where
  node   : Nat
  port   : Nat
  last   : Nat
  offset : Nat
  gJ     : Nat
  rclk   : Nat
  waitingHost : Bool
  accepted : Bool
  ringMark : Nat
  highWater : Nat
  deriving DecidableEq, Repr

/-- A record of a mirrored RNS on the primary (R332): the command and whether HELD came. -/
structure MirrorRec where
  rid  : Nat
  fn   : Nat
  qid  : Nat
  cid  : Nat
  held : Bool
  deriving DecidableEq, Repr

/-- Zelim Link and the group (chapter 11). `rids` numbers the records of each flow by destination;
`leaving` is the tick in which a master without members asked to leave, 0 for none; `joinEpoch` is, on a master
that re-forms its group, the local epoch after whose boundary group tick `joinAt` would run; `creating` is the mirrored namespace whose creation waits for its replica: function, tag, fields. -/
structure Zelim where
  ports    : List Port
  sent     : List Sent
  group    : GroupState
  gen      : Nat
  effective : Nat
  master   : Nat
  members  : List Member
  base     : Nat
  offset   : Nat
  latency  : Nat
  cables   : List Cable
  hostAdmit : Bool
  joinAuto : Bool
  joinPort : Nat
  joinAt   : Nat
  joinOffset : Nat
  joinLong : Nat
  joinEpoch : Nat
  joins    : List Join
  lock     : LockState
  tickPort : Nat
  hits     : Nat
  misses   : Nat
  estNs    : Nat
  sumNs    : Nat
  ivals    : Nat
  phaseErr : Int
  nudgeNs  : Int
  marksOk  : Nat
  marksBad : Nat
  marksMiss : Nat
  marked   : Bool
  votes    : List Vote
  committed : Nat
  slow     : List (Nat × Nat)
  unlocked : List (Nat × Nat)
  routes   : List Route
  mirror   : List MirrorRec
  copying  : List Nat
  rclkAt   : Option (Nat × Nat)
  leaving  : Nat
  rids     : List (Nat × Nat)
  creating : Option (Nat × Nat × NsFields)
  deriving DecidableEq, Repr

/-- A firmware slot of the boot flash (R410, R411). -/
structure FwSlot where
  st  : FwSlotState
  img : FwImage
  deriving DecidableEq, Repr

/-- OTP, boot flash and firmware activation (R409 to R419). -/
structure Firmware where
  otpOk     : Bool
  selectorOk : Bool
  keyHashes : List Nat
  revoked   : List Bool
  svn       : Nat
  debugDisabled : Bool
  serial    : Nat
  debugKeyHash : Nat
  committed : Nat
  trial     : Option Nat
  slots     : List FwSlot
  running   : Nat
  runImg    : FwImage
  isCommitted : Bool
  recovery  : Bool
  romDone   : Bool
  phase     : FwPhase
  target    : Nat
  longId    : Nat
  holdTicks : Nat
  holding   : Bool
  download  : Option (Nat × Nat)
  debug     : DebugState
  nonce     : Option Nat
  nonceCtr  : Nat
  deriving DecidableEq, Repr

/-- A board record (R433). -/
structure BoardRecord where
  seq     : Nat
  vMin    : Nat
  pHold   : Nat
  iTest   : Nat
  divider : Nat
  eta     : Nat
  deriving DecidableEq, Repr

/-- The figures of a hold-up measurement (R434, R444), in the units of `pw.status`. -/
structure Holdup where
  phase   : HoldupPhase
  samples : List Nat
  vStart  : Nat
  t       : Nat
  dV      : Nat
  c       : Nat
  eU      : Nat
  eReq    : Nat
  status  : Status
  ok      : Bool
  longId  : Option (Nat × Nat)
  deriving DecidableEq, Repr

/-- Power and reset (chapter 15) with the balls it drives (R468). [log 123: DESIGN CHOICE] -/
structure Power where
  st        : PState
  lastReset : Nat
  request   : Option (PState × Nat)
  replyTo   : Option (Nat × Nat)
  entry     : PowerEntry
  entryLong : Option (Nat × Nat)
  quiesced  : Bool
  bringupDone : Bool
  recovered : Bool
  heldReset : Bool
  heldPor   : Bool
  pwrfailLow : Bool
  highTimer : Bool
  resetN    : Bool
  record1   : Option BoardRecord
  record2   : Option BoardRecord
  holdup    : Holdup
  restarts  : List Nat
  restarting : Bool
  restartSealed : Nat
  tjMax     : Int
  warn      : Bool
  tripped   : Bool
  pwrSafe   : Bool
  fault     : Bool
  huLoad    : Bool
  deriving DecidableEq, Repr

/-- A log entry (R420). -/
structure LogEntry where
  index  : Nat
  epoch  : Nat
  status : Status
  cls    : Nat
  fn     : Nat
  detail : Nat
  deriving DecidableEq, Repr

/-- Log, long commands, telemetry sampling (R403, R420, R459). `perClass` counts log entries by 256 x function + class. -/
structure Records where
  log      : List LogEntry
  nextIdx  : Nat
  perClass : List (Nat × Nat)
  longs    : List LongCmd
  nextLong : Nat
  goOrder  : List Nat
  vparams  : List Param
  pendParams : List (Nat × Param)
  sample   : Option (Nat × Nat × Nat × Nat)
  sampleSeq : Nat
  deriving DecidableEq, Repr

/-! ### The state -/

/-- The whole block: what is durable, what each subsystem holds, and the waiting commands, first in first out. `part`
is the LPDDR5X size in GiB (R1); `freeCtr` numbers the free values drawn. [log 122: DESIGN CHOICE] -/
structure State where
  part    : Nat
  store   : Store
  hz      : Horizon
  ns      : NsVol
  flash   : Flash
  q       : Queues
  fns     : List Fn
  link    : Link
  halo    : Halo
  sq      : Squall
  dg      : List DgCtx
  anv     : Anvil
  zl      : Zelim
  fw      : Firmware
  pw      : Power
  recs    : Records
  freeCtr : Nat
  pending : List Instr
  deriving DecidableEq, Repr

/-- Faults of a step. No meaning of this model raises one: the spec answers every case with a
status, an event or no effect. -/
inductive Fault where
  /-- Raised by nothing: kept so that the type names the outcome. Safe. -/
  | unreachable
  deriving DecidableEq, Repr

/-- Refusals of a step. -/
inductive Refusal where
  /-- Raised by a dispatch arm whose meaning is not written yet. Safe: the model stops. -/
  | notModelled (mnemonic : String)
  deriving DecidableEq, Repr

/-! ### The state after power-on -/

/-- The default PF0 grant (R356). -/
def Grant.pf0Default : Grant :=
  { qpairs := 16, vectors := 16, tags := 1024, engines := 0, banks := 8, squall := 0, mem := 0,
    write := 128, read := 128, scan := 0, dmaBase := 0, dmaLen := 0 }

/-- A grant of nothing: what a function that is UNCREATED holds. -/
def Grant.none : Grant :=
  { qpairs := 0, vectors := 0, tags := 0, engines := 0, banks := 0, squall := 0, mem := 0,
    write := 0, read := 0, scan := 0, dmaBase := 0, dmaLen := 0 }

/-- The default profile of a port that was never configured (R335). -/
def PortCfg.default : PortCfg :=
  { lanes := 4, lr := false, fec := false, enable := false, credit := 0 }

/-- No pool (R169: until one is formed the free user space is 0). [log 7: DESIGN CHOICE] -/
def Pool.none : Pool :=
  { formed := false, members := [], k0 := 0, failedDies := [], cd := 0 }

/-- No reshape (R193). -/
def Reshape.none : Reshape :=
  { st := .none, nsid := 0, code := 0, longId := 0, issuer := 0 }

/-- The durable state of a part that has sealed nothing, every setting at its default. [log 7: DESIGN CHOICE] -/
def Store.reset : Store :=
  { sealed := 0, highWater := 0, ringMark := 0, rclkUs := 0, sealRclk := 0, markRclk := 0, nss := [], streams := [], recs := [],
    map := [], extents := [], lost := [], pool := .none, reshape := .none, retired := [],
    op := 7, writeProfile := 1, patrolClass := 1, protection := 0,
    period := 4, source := 0, window := 2, params := [],
    claims := [⟨2, 0x0A06, 0⟩, ⟨3, 0x020D, 0⟩], tickOutWidth := 0, samplePeriod := 0,
    hostMode := 0, linkFloor := 2, pf0Grant := .pf0Default, modKeys := [],
    ports := [.default, .default, .default], node := 0, trust := [], grouped := false,
    committed := { gen := 0, master := 0, members := [] }, groupBase := 0, offset := 0,
    released := [], desc := none, descAt := [], ckptEpoch := 0, replayFrom := 0 }

/-- TICK_IN before any source change (R29: the local source). -/
def TickIn.reset : TickIn :=
  { watching := false, locked := false, hits := 0, misses := 0, discarded := 0, estNs := 0,
    sumNs := 0, ivals := 0, lastHit := false, watchFrom := 0, switchDue := false, nudgeNs := 0 }

/-- TICK_IN watched from tick `n` on, the estimate nominal (R34). [log 136: DEDUCED] -/
def TickIn.watch (period n : Nat) : TickIn :=
  { TickIn.reset with watching := true, watchFrom := n, estNs := 250000 * period }

/-- A telemetry record of no tick (R458). -/
def TickRec.zero : TickRec :=
  { tick := 0, admitted := 0, read := 0, scan := 0, records := 0, f := 16, sealAt := 0, peak := 0 }

/-- Horizon STOPPED over the durable settings and marks of `d` (R65, R453). A persisted source 1 is watched from the
first tick on, which the local source gives (R34). [log 6: DESIGN CHOICE; 136: DEDUCED] -/
def Horizon.stopped (d : Store) : Horizon :=
  { st := .stopped, ticking := false, phase := .accept, epoch := 0, sealed := d.sealed,
    ringMark := d.ringMark, period := d.period, source := if d.source = 1 then 0 else d.source, window := d.window,
    changes := [], lateCount := 0, sealLate := 0, overruns := 0, ringLate := 0, faultCode := 0,
    faultEpoch := 0, elapsedNs := 0,
    tickIn := if d.source = 1 then .watch d.period (d.highWater + 1) else .reset, epochs := [], credits := [], turn := 0,
    firstTurn := 0, blocked := false, rclkUs := d.rclkUs, uptimeUs := 0, tick := .zero,
    lastTick := .zero, commitHeld := 0, pendingSealMark := 0,
    intentSeq := d.desc.elim 0 (·.intentSeq), tickOutHigh := false, ringSaves := [] }

/-- Namespace state outside any epoch, empty. -/
def NsVol.reset : NsVol :=
  { attachments := [], streamChg := [], holdoff := false, ignored := 0, noTick := 0, refused := 0,
    triggered := [] }

/-- No flash profile. -/
def noProfile : FlashProfile :=
  { id := 0, revision := 0, valid := false, matchVal := [], matchMask := [], toggle := false, maxRate := 0, planes := 0,
    blocksPerDie := 0, pagesPerBlock := 0, pageMain := 0, pageSpare := 0, parityBytes := 0, hardLimit := 0, dacMv := 0,
    thrQlc := [], thrSlc := 0, retry := [], soft2 := 0, soft3 := 0, llrA := [], llrB := [], tempCoef := [], trSlc := 0,
    trQlc := 0, trSingle := 0, tprogSlc := 0, tprogQlc := 0, tbers := 0, suspProg := 0, suspErase := 0, peSlc := 0,
    peQlc := 0, readDisturb := 0, verifyLimit := 0, verifyTolerance := 0, badMark := 0, retiredPct := 0, arrayMv := 0,
    ioMv := 0, inhibitMv := 0, releaseMv := 0 }

/-- Flash translation and media of a part whose channels have not been brought up. The write
protect balls are asserted from RESET_N low until step 4 of R136 (R466). -/
def Flash.reset : Flash :=
  { cells := [], blocks := [], segs := [], dirEnts := [], writeback := [], ckpt := none,
    moves := [], ladders := [],
    parity := [], channels := [], dies := [], bins := [], monitors := [], inhibited := false,
    trained := false, patrol := [], patrolRead := 0, patrolMarked := 0, fFree := 16,
    fLand := 16, fMap := 16, f := 16, allow := 0, lMin := 0, headroom := 0, wear := [], walked := [],
    walkTotal := 0, walking := false, resyncFull := false, resyncLeft := [], wpAsserted := true,
    stripes := [], tier1 := [], collecting := false, ckptCws := [], ckptAt := [], journal := [], intents := [], logs := [], logSupers := [],
    snap := [], snapAt := 0, erased := [], lostMembers := [], windowFails := [], binsSaved := [], readSeq := 0,
    decode := none, patrolNext := 0, formed := [], headDen := 0 }

/-- No queue pair and no command. REPORT_MODE resets to DEFERRED (R450). -/
def Queues.reset : Queues :=
  { pairs := [], cmds := [], nextSeq := 0, rr := [], issued := [], held := [],
    perCommand := false }

/-- An idle mailbox with a cleared area (R398, R451). [log 12: DEDUCED] -/
def Mailbox.reset : Mailbox :=
  { area := [], state := 0, status := 0, request := none, reply := none }

/-- No event ring (R451). PHASE of the first pass is 1. [log 21: DEDUCED] -/
def EventRing.reset : EventRing :=
  { base := 0, entries := 0, head := 0, tail := 0, phase := true, overflow := 0, seq := 1 }

/-- No reset under way. -/
def FnReset.none : FnReset :=
  { fenced := false, t0 := 0, byMb := [], window := Option.none, tags := 0 }

/-- A function in state `st` with grant `g` and every function register at its reset value. [log 9, 10: PRESUMED] -/
def Fn.fresh (num : Nat) (st : FnState) (g : Grant) : Fn :=
  { num := num, st := st, liveFrom := 0, grant := g, firstVector := 0, bankMask := [], bme := false,
    d3 := false, reset := .none, mb := .reset, evq := .reset, intStatus := 0, viol := 0,
    anvSel := 0, vecs := [], latches := [], recLatches := [], sqLevel := 3, anvClass := 1 }

/-- USB4 down, no VF on the bus, HOSTMODE as `d` has it (R349, R450). -/
def Link.reset (d : Store) : Link :=
  { gen := 0, trained := 0, retrains := 0, retimers := 0, bonding := false, below := false,
    recovering := false, vfEnable := false, numVfs := 0, mode := d.hostMode }

/-- No Halo table (R206, R221). -/
def Halo.reset : Halo :=
  { tables := [], index := [], hash := [], segs := [], classified := 0, defaulted := 0,
    indexed := 0, uncompressed := 0, hashWaits := 0 }

/-- No Squall job (R244). -/
def Squall.reset : Squall :=
  { jobs := [], time := [], states := [], spills := [], compressed := 0, asAdmitted := 0,
    atBoundary := 0, verifyFails := 0, jobsDone := [] }

/-- A FREE digest context: every field clear (R253, R455). -/
def DgCtx.free : DgCtx :=
  { owner := 0, st := .free, alg := 0, err := 0, msg := [], full := 0, tail := 0, msgLen := 0,
    result := [], done := false }

/-- An engine that has run nothing: every register 0, its scratchpad zero. [log 90: DESIGN CHOICE] -/
def Engine.fresh : Engine :=
  { user := false, pc := 0, x := List.replicate 32 0, f := List.replicate 32 0, v := List.replicate 32 0, fcsr := 0, vcsr := 0,
    vl := 0, vtype := 0, vstart := 0, resv := none, cached := false, winFn := 0, winMod := 0, scratch := [] }

/-- No module, instance or thread (R290). -/
def Anvil.reset : Anvil :=
  { modules := [], insts := [], nextInst := 1, threads := [], gens := [], order := 0,
    running := [], stalled := [], delays := [], discards := [], mem := [],
    zeroing := [], faults := [], counts := [], recs := [], engines := List.replicate 64 .fresh, data := [] }

/-- A port that is down and has never been up. -/
def Port.reset : Port :=
  { st := .down, fails := 0, lanesUp := 0, margins := [], retrain := [], adapted := [], dPort := 0, peer := 0,
    peerCert := 0, peerCaps := 0, auth := .none, nonces := [], initiator := false, scope := none,
    trustSlot := none, admitted := [], txSeq := 0, rxSeq := 0, acked := 0, unacked := [],
    ackDue := false, backoff := 1, violations := 0, window := 0, windowAt := 0, pausedTo := 0,
    sentPause := false, recs := [], mirrorCredit := 0, mirrorTick := 0 }

/-- Zelim after power-on over the durable settings of `d` (R334, R319): a device that was in a group re-forms it. [log
6: DESIGN CHOICE] -/
def Zelim.reset (d : Store) : Zelim :=
  { ports := [.reset, .reset, .reset], sent := [],
    group := if d.grouped then .reforming else .solo, gen := d.committed.gen, effective := 0,
    master := if d.grouped then d.committed.master else 0,
    members := if d.grouped then d.committed.members else [],
    base := d.groupBase, offset := d.offset, latency := 0, cables := [], hostAdmit := false, joinAuto := false,
    joinPort := 0, joinAt := 0, joinOffset := 0, joinLong := 0, joinEpoch := 0, joins := [],
    lock := .none, tickPort := 3, hits := 0, misses := 0, estNs := 0, sumNs := 0, ivals := 0, phaseErr := 0,
    nudgeNs := 0, marksOk := 0, marksBad := 0, marksMiss := 0, marked := false, votes := [],
    committed := 0, slow := [], unlocked := [], routes := [], mirror := [], copying := [],
    rclkAt := none, leaving := 0, rids := [], creating := none }

/-- An image all of whose checks pass, with every number 0: the image a part is shipped with. [log 8: DESIGN CHOICE]
-/
def shippedImage : FwImage :=
  { fetchOk := true, headerOk := true, keyHash := 0, keyIndex := 0, sigOk := true, svn := 0,
    fwVersion := 0, kernelVer := 0, routerVer := 0, programOk := true, profiles := Config.shippedProfiles }

/-- OTP and boot flash of a part as shipped: slot 0 VALID and COMMITTED, debug LOCKED. [log 8: DESIGN CHOICE] -/
def Firmware.reset : Firmware :=
  { otpOk := true, selectorOk := true, keyHashes := [0, 0, 0, 0], revoked := [false, false, false, false], svn := 0,
    debugDisabled := false, serial := 0, debugKeyHash := 0, committed := 0, trial := none,
    slots := [⟨.valid, shippedImage⟩, ⟨.empty, shippedImage⟩], running := 0, runImg := shippedImage,
    isCommitted := true, recovery := false, romDone := false, phase := .idle, target := 0,
    longId := 0, holdTicks := 0, holding := false, download := none, debug := .locked,
    nonce := none, nonceCtr := 0 }

/-- No measurement (R434). HOLDUP_OK resets to 0 (R450). -/
def Holdup.reset : Holdup :=
  { phase := .idle, samples := [], vStart := 0, t := 0, dV := 0, c := 0, eU := 0, eReq := 0,
    status := 0, ok := false, longId := none }

/-- Power in BOOT with RESET_N low (R424, R450). PWRSAFE_N is asserted while RESET_N is low (R468). [log 6: DESIGN
CHOICE] -/
def Power.reset : Power :=
  { st := .boot, lastReset := 0, request := none, replyTo := none, entry := .none,
    entryLong := none, quiesced := false, bringupDone := false, recovered := false,
    heldReset := false, heldPor := false,
    pwrfailLow := false, highTimer := false, resetN := false, record1 := none, record2 := none,
    holdup := .reset, restarts := [], restarting := false, restartSealed := 0, tjMax := 0, warn := false,
    tripped := false, pwrSafe := true, fault := false, huLoad := false }

/-- Log cleared (R420), no long command. [log 6: DESIGN CHOICE] -/
def Records.reset : Records :=
  { log := [], nextIdx := 0, perClass := [], longs := [], nextLong := 1, goOrder := [],
    vparams := [], pendParams := [], sample := none, sampleSeq := 0 }

/-- The block right after a power-on reset of a part that has sealed nothing (R439, R447). [log 6, 7, 11: DESIGN
CHOICE] -/
def State.reset : State :=
  { part := 16, store := .reset, hz := .stopped .reset, ns := .reset, flash := .reset, q := .reset,
    fns := [Fn.fresh 0 .active Grant.pf0Default], link := .reset .reset, halo := .reset,
    sq := .reset, dg := List.replicate 16 .free, anv := .reset, zl := .reset .reset,
    fw := .reset, pw := .reset, recs := .reset, freeCtr := 0, pending := [] }

end Sys2Proof.Machine
end

