-- ==== Sys2Proof/Machine/Flags.lean ====
section
/-!
DEFINITION. Status codes with their values, event classes, and the status-like register fields that
are computed from the state.
-/

namespace Sys2Proof.Machine

/-! ### Status codes -/

/-- Success (R6). -/
abbrev St.ok : Status := 0x0000

/-! Architecture, R15 -/

/-- ST_NS_NOT_ATTACHED: The named namespace is not attached to the command's function, or no namespace with that ID exists. -/
abbrev St.nsNotAttached : Status := 0x0201
/-- ST_NS_NO_RIGHT: The namespace is attached, but the attachment lacks the right the command needs. -/
abbrev St.nsNoRight : Status := 0x0202

/-! Horizon, R71 -/

/-- ST_HALTED: The device is Halted. -/
abbrev St.halted : Status := 0x0A01
/-- ST_HZ_OVER_CREDIT: Append payload exceeds the function's granted write credit. -/
abbrev St.hzOverCredit : Status := 0x0A02
/-- ST_HZ_CREDIT_POOL: Credits would exceed a capacity. -/
abbrev St.hzCreditPool : Status := 0x0A03
/-- ST_HZ_SEAL_WINDOW: Seal window below 50 µs or below the vote round trip. -/
abbrev St.hzSealWindow : Status := 0x0A04
/-- ST_HZ_SOURCE: Requested source not available. -/
abbrev St.hzSource : Status := 0x0A05
/-- ST_HZ_RING_MEMBER: Period or window change on a member that is not the tick master. -/
abbrev St.hzRingMember : Status := 0x0A06
/-- ST_HZ_NOT_RELEASABLE: hz.ring.release in the group state MASTER, MEMBER or JOINING. -/
abbrev St.hzNotReleasable : Status := 0x0A07
/-- ST_HZ_SEAL_LATE: Event and log: fault HZ_SEAL_LATE of R60. -/
abbrev St.hzSealLate : Status := 0x0A08
/-- ST_HZ_PLAN_OVERRUN: Event and log: fault HZ_PLAN_OVERRUN of R60. -/
abbrev St.hzPlanOverrun : Status := 0x0A09
/-- ST_HZ_RING_SEAL_LATE: Event and log: fault HZ_RING_SEAL_LATE of R60. -/
abbrev St.hzRingSealLate : Status := 0x0A0A
/-- ST_HZ_LOCK_LOST: Event and log: tick lock lost under R30 or R312. -/
abbrev St.hzLockLost : Status := 0x0A0B
/-- ST_HZ_LOCK_REGAINED: Event and log: tick lock regained under R30 or R312. -/
abbrev St.hzLockRegained : Status := 0x0A0C

/-! Namespaces and records, R98 -/

/-- ST_NS_OFFLINE: Namespace not ONLINE. -/
abbrev St.nsOffline : Status := 0x0203
/-- ST_NS_LIMIT: No free namespace ID, or ID in use. -/
abbrev St.nsLimit : Status := 0x0204
/-- ST_NS_NO_SPACE: Capacity exceeds free user space. -/
abbrev St.nsNoSpace : Status := 0x0205
/-- ST_NS_CLASS_FIELD: Field invalid for class, RSV set, or value out of range. -/
abbrev St.nsClassField : Status := 0x0206
/-- ST_NS_REDUNDANCY: RNS without P+Q. -/
abbrev St.nsRedundancy : Status := 0x0207
/-- ST_NS_MIRROR_PEER: Mirror peer invalid. -/
abbrev St.nsMirrorPeer : Status := 0x0208
/-- ST_NS_ATTACHED: Delete while attached. -/
abbrev St.nsAttached : Status := 0x0209
/-- ST_NS_RETAINED: Record inside its retention period. -/
abbrev St.nsRetained : Status := 0x020A
/-- ST_NS_RETENTION_SHORTEN: Retention period would shorten. -/
abbrev St.nsRetentionShorten : Status := 0x020B
/-- ST_NS_RCLOCK_BACK: RCLK would move back. -/
abbrev St.nsRclockBack : Status := 0x020C
/-- ST_NS_STREAM_LIMIT: Stream limit or foreign stream number. -/
abbrev St.nsStreamLimit : Status := 0x020D
/-- ST_NS_FULL: No space for the payload. -/
abbrev St.nsFull : Status := 0x020E
/-- ST_NS_FREEZE_LIMIT: 64 frozen regions held. -/
abbrev St.nsFreezeLimit : Status := 0x020F
/-- ST_NS_NO_REGION: No frozen region starts at that epoch. -/
abbrev St.nsNoRegion : Status := 0x0210
/-- ST_REC_HDR_CRC: Header CRC mismatch. -/
abbrev St.recHdrCrc : Status := 0x0211
/-- ST_REC_HDR_RSV: Header RSV or device field non-zero, or PAY_CRC non-zero while RFLAGS[0] is 0. -/
abbrev St.recHdrRsv : Status := 0x0212
/-- ST_REC_TOO_LARGE: DECL_LEN above 16 MiB. -/
abbrev St.recTooLarge : Status := 0x0213
/-- ST_REC_STREAM: Stream not open in this namespace. -/
abbrev St.recStream : Status := 0x0214
/-- ST_LENGTH_SHORT: Less data than DECL_LEN. -/
abbrev St.lengthShort : Status := 0x0215
/-- ST_LENGTH_LONG: More data than DECL_LEN. -/
abbrev St.lengthLong : Status := 0x0216
/-- ST_REC_PAY_CRC: Payload CRC mismatch. -/
abbrev St.recPayCrc : Status := 0x0217
/-- ST_IMG_SLOT_STATE: Slot state does not permit the command or write. -/
abbrev St.imgSlotState : Status := 0x0218
/-- ST_IMG_VERIFY_FAIL: Slot digest differs from the expected value. -/
abbrev St.imgVerifyFail : Status := 0x0219
/-- ST_IMG_NO_ACTIVE: Alias read with no ACTIVE slot. -/
abbrev St.imgNoActive : Status := 0x021A
/-- ST_NS_FREEZE_NO_TICK: Event: SHOCK_IN trigger while no tick runs; nothing frozen, under R93. -/
abbrev St.nsFreezeNoTick : Status := 0x021B

/-! Flash translation, R132 -/

/-- ST_FT_ALIGN: Stream write or discard not aligned to 4,096 bytes. -/
abbrev St.ftAlign : Status := 0x0301
/-- ST_FT_BEYOND_END: Stream range beyond the stored end. -/
abbrev St.ftBeyondEnd : Status := 0x0302
/-- ST_FT_FROZEN: Stream write or discard in a frozen region. -/
abbrev St.ftFrozen : Status := 0x0303
/-- ST_FT_OVERLAY_FULL: No free overlay slot. -/
abbrev St.ftOverlayFull : Status := 0x0304
/-- ST_FT_UNIT_LOST: Read of a LOST unit. -/
abbrev St.ftUnitLost : Status := 0x0305
/-- ST_FT_OP_IN_USE: OP change would leave too little user space. -/
abbrev St.ftOpInUse : Status := 0x0306

/-! Media, R168 -/

/-- ST_MEDIA_NO_PROFILE: A die matches no flash profile. -/
abbrev St.mediaNoProfile : Status := 0x0307
/-- ST_MEDIA_PROFILE_INVALID: A profile fails its signature or version check. -/
abbrev St.mediaProfileInvalid : Status := 0x0308
/-- ST_MEDIA_POPULATION: Channel population breaks R135. -/
abbrev St.mediaPopulation : Status := 0x0309
/-- ST_MEDIA_TRAINING: A channel failed a bring-up step of R136. -/
abbrev St.mediaTraining : Status := 0x030A
/-- ST_MEDIA_INHIBITED: Programs and erases inhibited by a supply monitor. -/
abbrev St.mediaInhibited : Status := 0x030B
/-- ST_MEDIA_PROGRAM_FAIL: A program reported failure. -/
abbrev St.mediaProgramFail : Status := 0x030C
/-- ST_MEDIA_ERASE_FAIL: An erase reported failure. -/
abbrev St.mediaEraseFail : Status := 0x030D
/-- ST_MEDIA_UNCORRECTABLE: A codeword reached L7. -/
abbrev St.mediaUncorrectable : Status := 0x030E
/-- ST_MEDIA_DIE_FAILED: A die declared failed under R164. -/
abbrev St.mediaDieFailed : Status := 0x030F

/-! Redundancy, R201 -/

/-- ST_PI_GUARD: Guard mismatch at ingress. -/
abbrev St.piGuard : Status := 0x0401
/-- ST_PI_REFTAG: Reference tag mismatch at ingress. -/
abbrev St.piReftag : Status := 0x0402
/-- ST_PI_INTERNAL: Check failed at media write. -/
abbrev St.piInternal : Status := 0x0403
/-- ST_PI_EGRESS: Check failed twice at egress. -/
abbrev St.piEgress : Status := 0x0404
/-- ST_RD_SHAPE: Code or k0 invalid for the pool. -/
abbrev St.rdShape : Status := 0x0405
/-- ST_RD_NO_SPACE: Too little free user space for the new code. -/
abbrev St.rdNoSpace : Status := 0x0406
/-- ST_RD_RESHAPE_ACTIVE: A reshape is running. -/
abbrev St.rdReshapeActive : Status := 0x0407
/-- ST_RD_NO_RESHAPE: No reshape of that namespace. -/
abbrev St.rdNoReshape : Status := 0x0408
/-- ST_RD_POOL_IN_USE: Pool formation while namespaces exist. -/
abbrev St.rdPoolInUse : Status := 0x0409
/-- ST_RD_NO_POOL: No pool formed, or member not in the pool. -/
abbrev St.rdNoPool : Status := 0x040A
/-- ST_RD_STRIPE_LOST: Logged: units lost beyond P and Q. -/
abbrev St.rdStripeLost : Status := 0x040B
/-- ST_RD_MEMBER_FAILED: Logged: member failure. -/
abbrev St.rdMemberFailed : Status := 0x040C
/-- ST_RD_RESYNC_FULL: Logged: full resynchronisation. -/
abbrev St.rdResyncFull : Status := 0x040D
/-- ST_RD_PARITY_MISMATCH: Logged: P or Q disagreed with its stripe. -/
abbrev St.rdParityMismatch : Status := 0x040E

/-! Halo and ingest, R225 -/

/-- ST_HALO_NO_BANKS: Not enough free banks in the function's grant. -/
abbrev St.haloNoBanks : Status := 0x0501
/-- ST_HALO_TABLE_LIMIT: 256 tables exist, a second classification table was requested, or a classification table was requested from a function other than PF0. -/
abbrev St.haloTableLimit : Status := 0x0502
/-- ST_HALO_NO_TABLE: No such table for this function. -/
abbrev St.haloNoTable : Status := 0x0503
/-- ST_HALO_TABLE_FULL: Insertion into a table with no hole. -/
abbrev St.haloTableFull : Status := 0x0504
/-- ST_HALO_NO_HOLE: Nearest hole beyond the insert move limit. -/
abbrev St.haloNoHole : Status := 0x0505
/-- ST_HALO_KEY_FORM: VALUE bit set where the MASK bit is 0. -/
abbrev St.haloKeyForm : Status := 0x0506
/-- ST_HALO_PLACEMENT: BEFORE names an entry of another priority, or a modify changes the priority. -/
abbrev St.haloPlacement : Status := 0x0507
/-- ST_HALO_NO_ENTRY: No entry with that ID or at that slot. -/
abbrev St.haloNoEntry : Status := 0x0508
/-- ST_HALO_WORD: Class word breaks R205. -/
abbrev St.haloWord : Status := 0x0509
/-- ST_HALO_INDEX_STREAM: Classification entry breaks R211. -/
abbrev St.haloIndexStream : Status := 0x050A
/-- ST_HALO_COMPACTING: Change to a table being compacted. -/
abbrev St.haloCompacting : Status := 0x050B
/-- ST_HALO_TABLE_ACCESS: Module search of another function's table. -/
abbrev St.haloTableAccess : Status := 0x050C
/-- ST_INGEST_INDEX_BOUND: Record sent to an index-bound stream. -/
abbrev St.ingestIndexBound : Status := 0x050D
/-- ST_INGEST_INDEX_CLOSED: Index stream of the record's class is closed. -/
abbrev St.ingestIndexClosed : Status := 0x050E
/-- ST_INGEST_INDEX_FULL: No room for the index entry. -/
abbrev St.ingestIndexFull : Status := 0x050F
/-- ST_INGEST_HASH_BUDGET: RNS record larger than the hash budget of R212. -/
abbrev St.ingestHashBudget : Status := 0x0510

/-! Squall, R248 -/

/-- ST_SQ_DESC: Descriptor field out of range or RSV set; FLUSH NONE without STATE; STATE holds another OP or FORMAT. -/
abbrev St.sqDesc : Status := 0x0601
/-- ST_SQ_ADDR: Buffer outside the function's module space or PMP regions. -/
abbrev St.sqAddr : Status := 0x0602
/-- ST_SQ_NO_GRANT: Function has a grant of 0. -/
abbrev St.sqNoGrant : Status := 0x0603
/-- ST_SQ_DST_FULL: Output space exhausted. -/
abbrev St.sqDstFull : Status := 0x0604
/-- ST_SQ_UNSUPPORTED: Encode feature outside R229. -/
abbrev St.sqUnsupported : Status := 0x0605
/-- ST_SQ_DEC_HEADER: See R236. -/
abbrev St.sqDecHeader : Status := 0x0606
/-- ST_SQ_DEC_BLOCK: See R236. -/
abbrev St.sqDecBlock : Status := 0x0607
/-- ST_SQ_DEC_CODE: See R236. -/
abbrev St.sqDecCode : Status := 0x0608
/-- ST_SQ_DEC_SYMBOL: See R236. -/
abbrev St.sqDecSymbol : Status := 0x0609
/-- ST_SQ_DEC_DISTANCE: See R236. -/
abbrev St.sqDecDistance : Status := 0x060A
/-- ST_SQ_DEC_WINDOW: See R236. -/
abbrev St.sqDecWindow : Status := 0x060B
/-- ST_SQ_DEC_DICT: See R236. -/
abbrev St.sqDecDict : Status := 0x060C
/-- ST_SQ_DEC_TRUNCATED: See R236. -/
abbrev St.sqDecTruncated : Status := 0x060D
/-- ST_SQ_DEC_SIZE: See R236. -/
abbrev St.sqDecSize : Status := 0x060E
/-- ST_SQ_DEC_CHECK: See R236. -/
abbrev St.sqDecCheck : Status := 0x060F
/-- ST_SQ_EXPECT: CRC-32C differs from EXPECT. -/
abbrev St.sqExpect : Status := 0x0610
/-- ST_SQ_VERIFY: Logged: an ingest segment failed its check and was stored as admitted. -/
abbrev St.sqVerify : Status := 0x0611
/-- ST_SQ_SEGMENT: Logged: a stored segment failed after L6. -/
abbrev St.sqSegment : Status := 0x0612
/-- ST_SQ_STATE_BUSY: State area in use by another job. -/
abbrev St.sqStateBusy : Status := 0x0613

/-! Digest, R262 -/

/-- ST_DG_NOT_FINAL: DG_RESULT read before DONE. -/
abbrev St.dgNotFinal : Status := 0x0701
/-- ST_DG_OVERRUN: DG_DATA write while BUSY is 1. -/
abbrev St.dgOverrun : Status := 0x0702
/-- ST_DG_SEQUENCE: DG_DATA write or FINAL outside ACTIVE. -/
abbrev St.dgSequence : Status := 0x0703
/-- ST_DG_ALG: START with an invalid ALG. -/
abbrev St.dgAlg : Status := 0x0704
/-- ST_DG_LENGTH: Message longer than 2^61 − 1 bytes. -/
abbrev St.dgLength : Status := 0x0705

/-! Anvil, R296 -/

/-- ST_ANV_NO_MODULE: No such module handle, or its key revoked. -/
abbrev St.anvNoModule : Status := 0x0801
/-- ST_ANV_ENGINES: Engines requested beyond the grant, grant 0, or engine not held. -/
abbrev St.anvEngines : Status := 0x0802
/-- ST_ANV_EXEC_FIELD: Exec block field out of range or RSV set. -/
abbrev St.anvExecField : Status := 0x0803
/-- ST_ANV_SCRATCH: Chunk buffers, static scratch and stack exceed 512 KiB. -/
abbrev St.anvScratch : Status := 0x0804
/-- ST_ANV_RANGE: Range beyond the namespace or the stored end. -/
abbrev St.anvRange : Status := 0x0805
/-- ST_ANV_POWERED_OFF: Exec in P2, P3 or P4. -/
abbrev St.anvPoweredOff : Status := 0x0806
/-- ST_ANV_FAULT: Module fault. -/
abbrev St.anvFault : Status := 0x0807
/-- ST_ANV_ACTIVATION_LIMIT: Activation reached its limit. -/
abbrev St.anvActivationLimit : Status := 0x0808
/-- ST_ANV_INSTANCE_IDLE: Instance ended without inst_done. -/
abbrev St.anvInstanceIdle : Status := 0x0809
/-- ST_ANV_NO_SLOT: No thread slot, or MAX_THREADS reached. -/
abbrev St.anvNoSlot : Status := 0x080A
/-- ST_ANV_NO_THREAD: Thread ID freed or of another instance. -/
abbrev St.anvNoThread : Status := 0x080B
/-- ST_ANV_BAD_SLOT: Token to a slot at or above NSLOTS. -/
abbrev St.anvBadSlot : Status := 0x080C
/-- ST_ANV_NO_TIMER: No comparator assigned to delay lists. -/
abbrev St.anvNoTimer : Status := 0x080D
/-- ST_ANV_RESULT_RANGE: Put beyond RESULT_LEN. -/
abbrev St.anvResultRange : Status := 0x080E
/-- ST_ANV_NO_MEMORY: Function's module memory full. -/
abbrev St.anvNoMemory : Status := 0x080F
/-- ST_ANV_ELF: File breaks R280. -/
abbrev St.anvElf : Status := 0x0810
/-- ST_ANV_MANIFEST: Manifest invalid. -/
abbrev St.anvManifest : Status := 0x0811
/-- ST_ANV_SIGNATURE: Digest or signature fails. -/
abbrev St.anvSignature : Status := 0x0812
/-- ST_ANV_KEY: Key slot empty or not permitted for the function. -/
abbrev St.anvKey : Status := 0x0813
/-- ST_ANV_MODULE_LIMIT: 16 modules held. -/
abbrev St.anvModuleLimit : Status := 0x0814
/-- ST_ANV_MODULE_BUSY: Unload while an instance runs or waits. -/
abbrev St.anvModuleBusy : Status := 0x0815
/-- ST_ANV_KEY_SLOT: Enrolment into an occupied slot. -/
abbrev St.anvKeySlot : Status := 0x0816
/-- ST_ANV_ACTIVE: Power-state request while an instance runs or waits. -/
abbrev St.anvActive : Status := 0x0817
/-- ST_ANV_SERVICE: Unknown service, bad argument, or undeclared service. -/
abbrev St.anvService : Status := 0x0818
/-- ST_ANV_PRIORITY: Priority above MAX_PRIO. -/
abbrev St.anvPriority : Status := 0x0819
/-- ST_ANV_SCAN_CREDIT: Chunk and overlap exceed the function's scan credit. -/
abbrev St.anvScanCredit : Status := 0x081A

/-! Zelim Link, R338 -/

/-- ST_ZL_PORT_CONFIG: Invalid lane count, or FEC in LR mode. -/
abbrev St.zlPortConfig : Status := 0x0901
/-- ST_ZL_FRAME: Malformed frame, or a group frame with a wrong sender or GEN. -/
abbrev St.zlFrame : Status := 0x0902
/-- ST_ZL_NO_ROUTE: No route to DST, or no such route to clear. -/
abbrev St.zlNoRoute : Status := 0x0903
/-- ST_ZL_OVER_CREDIT: Record beyond the port's ingress share. -/
abbrev St.zlOverCredit : Status := 0x0904
/-- ST_ZL_QUARANTINE: No quarantined peer with that digest. -/
abbrev St.zlQuarantine : Status := 0x0905
/-- ST_ZL_AUTH: Authentication failed. -/
abbrev St.zlAuth : Status := 0x0906
/-- ST_ZL_FENCED: Logged: port fenced. -/
abbrev St.zlFenced : Status := 0x0907
/-- ST_ZL_NODE_ID: Duplicate node ID in the group. -/
abbrev St.zlNodeId : Status := 0x0908
/-- ST_ZL_GROUP_SIZE: Join would break R316. -/
abbrev St.zlGroupSize : Status := 0x0909
/-- ST_ZL_NOT_MASTER: Command valid only on the tick master. -/
abbrev St.zlNotMaster : Status := 0x090A
/-- ST_ZL_IN_GROUP: Not permitted while in a group. -/
abbrev St.zlInGroup : Status := 0x090B
/-- ST_ZL_NOT_IN_GROUP: Device not in a group. -/
abbrev St.zlNotInGroup : Status := 0x090C
/-- ST_ZL_JOIN_LOCK: Tick lock not reached for the join. -/
abbrev St.zlJoinLock : Status := 0x090D
/-- ST_ZL_JOIN_REFUSED: Join refused by the master or its host. -/
abbrev St.zlJoinRefused : Status := 0x090E
/-- ST_ZL_ISOLATED: Ring-synchronous command discarded on isolation. -/
abbrev St.zlIsolated : Status := 0x090F
/-- ST_ZL_MIRROR_REPLICA: Command not permitted on a replica. -/
abbrev St.zlMirrorReplica : Status := 0x0910
/-- ST_ZL_MIRROR_ABSENT: Replica outside the membership. -/
abbrev St.zlMirrorAbsent : Status := 0x0911
/-- ST_ZL_MIRROR_LATE: Mirror ADMIT after the replica's cut point. -/
abbrev St.zlMirrorLate : Status := 0x0912
/-- ST_ZL_TRUST_SLOT: Trust slot occupied, or empty on revoke. -/
abbrev St.zlTrustSlot : Status := 0x0913
/-- ST_ZL_ROUTE_LIMIT: 64 routes held. -/
abbrev St.zlRouteLimit : Status := 0x0914

/-! Functions, R364 -/

/-- ST_FN_NUMBER: Function number out of range for HOSTMODE. -/
abbrev St.fnNumber : Status := 0x0B20
/-- ST_FN_NOT_ENABLED: VF not enabled in the SR-IOV capability. -/
abbrev St.fnNotEnabled : Status := 0x0B21
/-- ST_FN_EXISTS: Function not UNCREATED. -/
abbrev St.fnExists : Status := 0x0B22
/-- ST_FN_FIELD: Field out of range, RSV set, or generation cap below LINK_FLOOR. -/
abbrev St.fnField : Status := 0x0B23
/-- ST_FN_POOL: Pool resource not free. -/
abbrev St.fnPool : Status := 0x0B24
/-- ST_FN_ENGINES_HELD: Engine held by another function. -/
abbrev St.fnEnginesHeld : Status := 0x0B25
/-- ST_FN_DMA_OVERLAP: Share DMA window overlaps another. -/
abbrev St.fnDmaOverlap : Status := 0x0B26
/-- ST_FN_NO_FUNCTION: Function UNCREATED or out of range. -/
abbrev St.fnNoFunction : Status := 0x0B27
/-- ST_FN_DMA_WINDOW: Share transfer outside its DMA window. -/
abbrev St.fnDmaWindow : Status := 0x0B28
/-- ST_FN_DMA_ERROR: Host answered a device read with UR, CA, poisoned data or a timeout. -/
abbrev St.fnDmaError : Status := 0x0B29
/-- ST_FN_LINK_HOLD: Event: link below LINK_FLOOR; functions held under R342. -/
abbrev St.fnLinkHold : Status := 0x0B2A
/-- ST_FN_LINK_RESUME: Event: link at or above LINK_FLOOR; hold of R342 ended. -/
abbrev St.fnLinkResume : Status := 0x0B2B

/-! Queues and commands, R397 -/

/-- ST_CMD_OPCODE: Unknown opcode, or opcode invalid for the class. -/
abbrev St.cmdOpcode : Status := 0x0101
/-- ST_CMD_FIELD: Field out of range or RSV set. -/
abbrev St.cmdField : Status := 0x0102
/-- ST_CMD_CID_IN_USE: CID of an outstanding command on the pair. -/
abbrev St.cmdCidInUse : Status := 0x0103
/-- ST_CMD_RANGE: LBA range beyond the namespace or across INS regions. -/
abbrev St.cmdRange : Status := 0x0104
/-- ST_CMD_PI_BUFFER: MPTR breaks R374. -/
abbrev St.cmdPiBuffer : Status := 0x0105
/-- ST_CMD_LIST: Buffer list breaks R374. -/
abbrev St.cmdList : Status := 0x0106
/-- ST_CMD_ABORTED: Caught by an abort, or ended by queue deletion. -/
abbrev St.cmdAborted : Status := 0x0107
/-- ST_ABORTED_RESET: Logged: ended by a reset or removal. -/
abbrev St.abortedReset : Status := 0x0108
/-- ST_CMD_TIMEOUT: Ended by its timeout. -/
abbrev St.cmdTimeout : Status := 0x0109
/-- ST_CMD_NO_TIMER: TIMEOUT set with no comparator assigned. -/
abbrev St.cmdNoTimer : Status := 0x010A
/-- ST_CMD_DEFERRED_ERROR: A loss in the namespace, deferred under R391. -/
abbrev St.cmdDeferredError : Status := 0x010B
/-- ST_CMD_DOORBELL: Event: doorbell value breaks R366. -/
abbrev St.cmdDoorbell : Status := 0x010C
/-- ST_CMD_QUEUE: Queue pair invalid, existing or absent. -/
abbrev St.cmdQueue : Status := 0x010D

/-! Mailbox and firmware, R422 -/

/-- ST_MB_ACCEPTED: Long command accepted; completion event follows. -/
abbrev St.mbAccepted : Status := 0x0B01
/-- ST_RESOURCE_CONFLICT: Resource of R408 held by another feature. -/
abbrev St.resourceConflict : Status := 0x0B02
/-- ST_MB_FORMAT: Header or payload RSV set. -/
abbrev St.mbFormat : Status := 0x0B03
/-- ST_MB_OPCODE: Opcode not in R404. -/
abbrev St.mbOpcode : Status := 0x0B04
/-- ST_MB_NOT_PERMITTED: Issuer may not issue the command or set the target. -/
abbrev St.mbNotPermitted : Status := 0x0B05
/-- ST_MB_LENGTH: LEN differs from the defined payload length. -/
abbrev St.mbLength : Status := 0x0B06
/-- ST_MB_RANGE: Value out of range or off step. -/
abbrev St.mbRange : Status := 0x0B07
/-- ST_MB_LONG_LIMIT: 8 long commands outstanding. -/
abbrev St.mbLongLimit : Status := 0x0B08
/-- ST_MB_NO_RESULT: Long-command ID unknown or no longer held. -/
abbrev St.mbNoResult : Status := 0x0B09
/-- ST_PARAM_ID: Unknown parameter ID. -/
abbrev St.paramId : Status := 0x0B0A
/-- ST_PARAM_TARGET: TARGET names no object of the scope. -/
abbrev St.paramTarget : Status := 0x0B0B
/-- ST_FW_BUSY: Download or activation in progress, or running firmware uncommitted. -/
abbrev St.fwBusy : Status := 0x0B0C
/-- ST_FW_IMAGE: Image header or component table invalid. -/
abbrev St.fwImage : Status := 0x0B0D
/-- ST_FW_KEY_REVOKED: Key not in an unrevoked OTP slot, or revocation refused. -/
abbrev St.fwKeyRevoked : Status := 0x0B0E
/-- ST_FW_SIGNATURE: Signature or payload digest fails. -/
abbrev St.fwSignature : Status := 0x0B0F
/-- ST_FW_ROLLBACK: SVN below the OTP counter. -/
abbrev St.fwRollback : Status := 0x0B10
/-- ST_FW_FLASH: Boot flash program or read-back failed. -/
abbrev St.fwFlash : Status := 0x0B11
/-- ST_FW_NO_IMAGE: Command not served in recovery mode. -/
abbrev St.fwNoImage : Status := 0x0B12
/-- ST_FW_NEEDS_RESET: HOT activation would change the Sutas kernel or USB4 router. -/
abbrev St.fwNeedsReset : Status := 0x0B13
/-- ST_FW_ACTIVATE_TIMEOUT: Preparation, seal or handover beyond its limit. -/
abbrev St.fwActivateTimeout : Status := 0x0B14
/-- ST_FW_ACTIVATE_ABORTED: Activation ended by restart, reset or Halted. -/
abbrev St.fwActivateAborted : Status := 0x0B15
/-- ST_FW_DEBUG: Debug unlock refused or debug disabled. -/
abbrev St.fwDebug : Status := 0x0B16
/-- ST_FW_DEBUG_OPEN: Device key use while debug is unlocked. -/
abbrev St.fwDebugOpen : Status := 0x0B17

/-! Power, R445 -/

/-- ST_PW_HELD: Command not served in BOOT or HELD. -/
abbrev St.pwHeld : Status := 0x0B30
/-- ST_PW_STATE: Transition from P4, or a command that R485 refuses in P4. -/
abbrev St.pwState : Status := 0x0B31
/-- ST_PW_BUSY: Long command or firmware operation outstanding; entry to P3 or P4 under way; hold-up measurement running. -/
abbrev St.pwBusy : Status := 0x0B32
/-- ST_PW_HOLDUP_LOW: Hold-up below the requirement. -/
abbrev St.pwHoldupLow : Status := 0x0B33
/-- ST_PW_HOLDUP_CHARGE: Hold-up bus not settled within 10 s. -/
abbrev St.pwHoldupCharge : Status := 0x0B34
/-- ST_PW_HOLDUP_RECORD: No valid board record, or record fields out of range. -/
abbrev St.pwHoldupRecord : Status := 0x0B35
/-- ST_PW_THERMAL_TRIP: Event and log: thermal trip. -/
abbrev St.pwThermalTrip : Status := 0x0B36
/-- ST_PW_WATCHDOG: Logged: watchdog restart. -/
abbrev St.pwWatchdog : Status := 0x0B37
/-- ST_PW_THERMAL_WARN: Event: warning threshold crossed. -/
abbrev St.pwThermalWarn : Status := 0x0B38

end Sys2Proof.Machine
end

