-- ==== Sys2Proof/Machine/Hash.lean ====
section
/-!
DEFINITION. The checksums and digests that the spec names (R79, R84, R96, R139, R195, R249, R254): CRC-32C,
the T10 and NVMe CRCs of protection information, SHA-2 and SHA-3, over byte lists.
-/

namespace Sys2Proof.Machine

/-! ### Cyclic redundancy checks -/

/-- One bit of a reflected CRC of width `w` with reflected polynomial `poly`. -/
def crcBitR {w : Nat} (poly r : BitVec w) : BitVec w :=
  if r.getLsbD 0 then (r >>> 1) ^^^ poly else r >>> 1

/-- One byte of a reflected CRC. -/
def crcByteR {w : Nat} (poly r : BitVec w) (b : Byte) : BitVec w :=
  (List.range 8).foldl (fun a _ => crcBitR poly a) (r ^^^ b.setWidth w)

/-- A reflected CRC with all-ones preset and complemented result. -/
def crcR {w : Nat} (poly : BitVec w) (bytes : Data) : BitVec w :=
  ~~~ (bytes.foldl (crcByteR poly) (BitVec.allOnes w))

/-- CRC-32C (R79): Castagnoli polynomial, reflected. -/
def crc32c (bytes : Data) : BitVec 32 := crcR 0x82F63B78 bytes

/-- The 64-bit CRC of PI16 (R195): polynomial AD93D23594C93659, reflected. -/
def crc64 (bytes : Data) : BitVec 64 := crcR 0x9A6C9329AC4BC9B5 bytes

/-- One bit of the T10 CRC. -/
def crcBitT10 (r : BitVec 16) : BitVec 16 :=
  if r.getLsbD 15 then (r <<< 1) ^^^ 0x8BB7 else r <<< 1

/-- CRC-16/T10-DIF of PI8 (R195): polynomial 8BB7, zero preset, not reflected. -/
def crc16t10 (bytes : Data) : BitVec 16 :=
  bytes.foldl (fun r b => (List.range 8).foldl (fun a _ => crcBitT10 a)
    (r ^^^ ((b.setWidth 16 : BitVec 16) <<< 8))) (0 : BitVec 16)

/-! ### Byte order -/

/-- A word's bytes, most significant first. -/
def bytesBE (n v : Nat) : Data :=
  (List.range n).map fun i => BitVec.ofNat 8 (v >>> (8 * (n - 1 - i)))

/-- A word's bytes, least significant first (R3). -/
def bytesLE (n v : Nat) : Data :=
  (List.range n).map fun i => BitVec.ofNat 8 (v >>> (8 * i))

/-- The number that bytes spell, most significant first. -/
def natBE (bs : Data) : Nat := bs.foldl (fun a b => a * 256 + b.toNat) 0

/-- The number that bytes spell, least significant first (R3). -/
def natLE (bs : Data) : Nat := bs.foldr (fun b a => b.toNat + 256 * a) 0

/-- `bs` cut into chunks of `n`, at most `fuel` of them. -/
def chunksOf (n : Nat) : Nat → Data → List Data
  | 0, _ => []
  | fuel + 1, bs => if bs.isEmpty then [] else bs.take n :: chunksOf n fuel (bs.drop n)

/-- Round constants of SHA-256 (FIPS 180-4). -/
def sha256K : List (BitVec 32) :=
  [0x428A2F98, 0x71374491, 0xB5C0FBCF, 0xE9B5DBA5, 0x3956C25B, 0x59F111F1, 0x923F82A4,
    0xAB1C5ED5, 0xD807AA98, 0x12835B01, 0x243185BE, 0x550C7DC3, 0x72BE5D74, 0x80DEB1FE,
    0x9BDC06A7, 0xC19BF174] ++
  [0xE49B69C1, 0xEFBE4786, 0x0FC19DC6, 0x240CA1CC, 0x2DE92C6F, 0x4A7484AA, 0x5CB0A9DC,
    0x76F988DA, 0x983E5152, 0xA831C66D, 0xB00327C8, 0xBF597FC7, 0xC6E00BF3, 0xD5A79147,
    0x06CA6351, 0x14292967] ++
  [0x27B70A85, 0x2E1B2138, 0x4D2C6DFC, 0x53380D13, 0x650A7354, 0x766A0ABB, 0x81C2C92E,
    0x92722C85, 0xA2BFE8A1, 0xA81A664B, 0xC24B8B70, 0xC76C51A3, 0xD192E819, 0xD6990624,
    0xF40E3585, 0x106AA070] ++
  [0x19A4C116, 0x1E376C08, 0x2748774C, 0x34B0BCB5, 0x391C0CB3, 0x4ED8AA4A, 0x5B9CCA4F,
    0x682E6FF3, 0x748F82EE, 0x78A5636F, 0x84C87814, 0x8CC70208, 0x90BEFFFA, 0xA4506CEB,
    0xBEF9A3F7, 0xC67178F2]

/-- Initial hash value of SHA-256 (FIPS 180-4). -/
def sha256Init : List (BitVec 32) :=
  [0x6A09E667, 0xBB67AE85, 0x3C6EF372, 0xA54FF53A, 0x510E527F, 0x9B05688C, 0x1F83D9AB, 0x5BE0CD19]

/-- Round constants of SHA-384 and SHA-512 (FIPS 180-4). -/
def sha512K : List (BitVec 64) :=
  [0x428A2F98D728AE22, 0x7137449123EF65CD, 0xB5C0FBCFEC4D3B2F, 0xE9B5DBA58189DBBC,
    0x3956C25BF348B538, 0x59F111F1B605D019, 0x923F82A4AF194F9B, 0xAB1C5ED5DA6D8118,
    0xD807AA98A3030242, 0x12835B0145706FBE, 0x243185BE4EE4B28C, 0x550C7DC3D5FFB4E2,
    0x72BE5D74F27B896F, 0x80DEB1FE3B1696B1, 0x9BDC06A725C71235, 0xC19BF174CF692694] ++
  [0xE49B69C19EF14AD2, 0xEFBE4786384F25E3, 0x0FC19DC68B8CD5B5, 0x240CA1CC77AC9C65,
    0x2DE92C6F592B0275, 0x4A7484AA6EA6E483, 0x5CB0A9DCBD41FBD4, 0x76F988DA831153B5,
    0x983E5152EE66DFAB, 0xA831C66D2DB43210, 0xB00327C898FB213F, 0xBF597FC7BEEF0EE4,
    0xC6E00BF33DA88FC2, 0xD5A79147930AA725, 0x06CA6351E003826F, 0x142929670A0E6E70] ++
  [0x27B70A8546D22FFC, 0x2E1B21385C26C926, 0x4D2C6DFC5AC42AED, 0x53380D139D95B3DF,
    0x650A73548BAF63DE, 0x766A0ABB3C77B2A8, 0x81C2C92E47EDAEE6, 0x92722C851482353B,
    0xA2BFE8A14CF10364, 0xA81A664BBC423001, 0xC24B8B70D0F89791, 0xC76C51A30654BE30,
    0xD192E819D6EF5218, 0xD69906245565A910, 0xF40E35855771202A, 0x106AA07032BBD1B8] ++
  [0x19A4C116B8D2D0C8, 0x1E376C085141AB53, 0x2748774CDF8EEB99, 0x34B0BCB5E19B48A8,
    0x391C0CB3C5C95A63, 0x4ED8AA4AE3418ACB, 0x5B9CCA4F7763E373, 0x682E6FF3D6B2B8A3,
    0x748F82EE5DEFB2FC, 0x78A5636F43172F60, 0x84C87814A1F0AB72, 0x8CC702081A6439EC,
    0x90BEFFFA23631E28, 0xA4506CEBDE82BDE9, 0xBEF9A3F7B2C67915, 0xC67178F2E372532B] ++
  [0xCA273ECEEA26619C, 0xD186B8C721C0C207, 0xEADA7DD6CDE0EB1E, 0xF57D4F7FEE6ED178,
    0x06F067AA72176FBA, 0x0A637DC5A2C898A6, 0x113F9804BEF90DAE, 0x1B710B35131C471B,
    0x28DB77F523047D84, 0x32CAAB7B40C72493, 0x3C9EBE0A15C9BEBC, 0x431D67C49C100D4C,
    0x4CC5D4BECB3E42B6, 0x597F299CFC657E2A, 0x5FCB6FAB3AD6FAEC, 0x6C44198C4A475817]

/-- Initial hash value of SHA-512 (FIPS 180-4). -/
def sha512Init : List (BitVec 64) :=
  [0x6A09E667F3BCC908, 0xBB67AE8584CAA73B, 0x3C6EF372FE94F82B, 0xA54FF53A5F1D36F1,
    0x510E527FADE682D1, 0x9B05688C2B3E6C1F, 0x1F83D9ABFB41BD6B, 0x5BE0CD19137E2179]

/-- Initial hash value of SHA-384 (FIPS 180-4). -/
def sha384Init : List (BitVec 64) :=
  [0xCBBB9D5DC1059ED8, 0x629A292A367CD507, 0x9159015A3070DD17, 0x152FECD8F70E5939,
    0x67332667FFC00B31, 0x8EB44A8768581511, 0xDB0C2E0D64F98FA7, 0x47B5481DBEFA4FA4]

/-! ### SHA-2 (FIPS 180-4) -/

/-- Padding of a Merkle-Damgard hash with blocks of `blk` bytes and a length field of `lenBytes`. -/
def shaPad (blk lenBytes : Nat) (m : Data) : Data :=
  let used := m.length + 1 + lenBytes
  m ++ [0x80] ++ List.replicate ((blk - used % blk) % blk) 0 ++ bytesBE lenBytes (8 * m.length)

/-- The next message-schedule word from the sixteen before it, oldest first. -/
def shaSched {w : Nat} (a b c d e f : Nat) (win : List (BitVec w)) : BitVec w :=
  let x := win.getD 1 0
  let y := win.getD 14 0
  let s0 := x.rotateRight a ^^^ x.rotateRight b ^^^ (x >>> c)
  let s1 := y.rotateRight d ^^^ y.rotateRight e ^^^ (y >>> f)
  win.getD 0 0 + s0 + win.getD 9 0 + s1

/-- The rotation counts of one SHA-2 word size: big sigma 0, big sigma 1, small sigma 0 and 1. -/
structure ShaRot where
  a0 : Nat
  a1 : Nat
  a2 : Nat
  e0 : Nat
  e1 : Nat
  e2 : Nat
  s0 : Nat
  s1 : Nat
  s2 : Nat
  t0 : Nat
  t1 : Nat
  t2 : Nat
  deriving DecidableEq, Repr

/-- Rotations of SHA-256. -/
def sha256Rot : ShaRot := ⟨2, 13, 22, 6, 11, 25, 7, 18, 3, 17, 19, 10⟩

/-- Rotations of SHA-512. -/
def sha512Rot : ShaRot := ⟨28, 34, 39, 14, 18, 41, 1, 8, 7, 19, 61, 6⟩

/-- One round over the eight working words. -/
def shaRound {w : Nat} (r : ShaRot) (v : List (BitVec w)) (k x : BitVec w) : List (BitVec w) :=
  match v with
  | [a, b, c, d, e, f, g, h] =>
    let s1 := e.rotateRight r.e0 ^^^ e.rotateRight r.e1 ^^^ e.rotateRight r.e2
    let ch := (e &&& f) ^^^ (~~~e &&& g)
    let t1 := h + s1 + ch + k + x
    let s0 := a.rotateRight r.a0 ^^^ a.rotateRight r.a1 ^^^ a.rotateRight r.a2
    let mj := (a &&& b) ^^^ (a &&& c) ^^^ (b &&& c)
    [t1 + (s0 + mj), a, b, c, d + t1, e, f, g]
  | v => v

/-- All rounds: the constants one by one with the schedule window sliding beside them. -/
def shaRounds {w : Nat} (r : ShaRot) : List (BitVec w) → List (BitVec w) → List (BitVec w) →
    List (BitVec w)
  | [], _, v => v
  | k :: ks, win, v =>
    shaRounds r ks (win.drop 1 ++ [shaSched r.s0 r.s1 r.s2 r.t0 r.t1 r.t2 win])
      (shaRound r v k (win.getD 0 0))

/-- One block compressed into the chaining value. -/
def shaBlock {w : Nat} (r : ShaRot) (ks : List (BitVec w)) (h : List (BitVec w)) (blk : Data) :
    List (BitVec w) :=
  let ws := (chunksOf (w / 8) 16 blk).map fun c => BitVec.ofNat w (natBE c)
  List.zipWith (· + ·) h (shaRounds r ks ws h)

/-- SHA-256. -/
def sha256 (m : Data) : Data :=
  let p := shaPad 64 8 m
  let h := (chunksOf 64 (p.length / 64) p).foldl (shaBlock sha256Rot sha256K) sha256Init
  h.flatMap fun x => bytesBE 4 x.toNat

/-- SHA-512 or, with its initial value and 48 bytes of result, SHA-384. -/
def sha512With (init : List (BitVec 64)) (n : Nat) (m : Data) : Data :=
  let p := shaPad 128 16 m
  let h := (chunksOf 128 (p.length / 128) p).foldl (shaBlock sha512Rot sha512K) init
  (h.flatMap fun x => bytesBE 8 x.toNat).take n

def sha384 (m : Data) : Data := sha512With sha384Init 48 m

def sha512 (m : Data) : Data := sha512With sha512Init 64 m

/-! ### SHA-3 (FIPS 202)

The permutation is written over the five sheets of the state: a sheet is the five lanes of one x, and
lane (x, y) is number y of sheet x.  The round constants and the lane rotations are computed from the
rules that FIPS 202 gives for them, and not listed. -/

/-- A Keccak-f[1600] state: five sheets of five lanes. -/
abbrev Sheets : Type := List (List (BitVec 64))

/-- Lane (x, y), the coordinates taken modulo 5. -/
def Sheets.lane (a : Sheets) (x y : Nat) : BitVec 64 := (a.getD (x % 5) []).getD (y % 5) 0

/-- The state whose lane (x, y) is f x y. -/
def Sheets.of (f : Nat → Nat → BitVec 64) : Sheets :=
  (List.range 5).map fun x => (List.range 5).map (f x)

/-- One step of the shift register that yields the bits of the round constants
(feedback polynomial x^8 + x^6 + x^5 + x^4 + 1). -/
def rcShift (r : BitVec 8) : BitVec 8 := if r.msb then (r <<< 1) ^^^ 0x71 else r <<< 1

/-- Seven bits of the register from r on: bit j goes to place 2^j - 1 of the constant. -/
def rcBits : Nat → Nat → BitVec 8 → BitVec 64 × BitVec 8
  | 0, _, r => (0, r)
  | n + 1, j, r =>
    let rest := rcBits n (j + 1) (rcShift r)
    (if r.getLsbD 0 then rest.1 ||| (1 <<< (2 ^ j - 1)) else rest.1, rest.2)

/-- The constants of n rounds, from the register's value before the first. -/
def rcFrom : Nat → BitVec 8 → List (BitVec 64)
  | 0, _ => []
  | n + 1, r => (rcBits 7 0 r).1 :: rcFrom n (rcBits 7 0 r).2

/-- Rotations of rho: from lane (1, 0), step t turns its lane by (t + 1)(t + 2) / 2 and goes to
(y, 2x + 3y). -/
def rhoWalk : Nat → Nat → Nat → Nat → List (Nat × Nat × Nat)
  | 0, _, _, _ => []
  | n + 1, t, x, y => (x, y, (t + 1) * (t + 2) / 2 % 64) :: rhoWalk n (t + 1) y ((2 * x + 3 * y) % 5)

/-- Rotation of lane (x, y) out of the walk's list; lane (0, 0) is not turned. -/
def rhoOf (w : List (Nat × Nat × Nat)) (x y : Nat) : Nat :=
  ((w.find? fun v => v.1 = x % 5 ∧ v.2.1 = y % 5).map (·.2.2)).getD 0

/-- Theta: every lane takes in the parity of the sheet before and of the sheet after, that one turned by 1. -/
def theta (a : Sheets) : Sheets :=
  let par := a.map fun sheet => sheet.foldl (· ^^^ ·) 0
  (List.range 5).map fun x =>
    let d := par.getD ((x + 4) % 5) 0 ^^^ (par.getD ((x + 1) % 5) 0).rotateLeft 1
    (a.getD x []).map (· ^^^ d)

/-- Rho and pi: lane (x, y) is the turned lane (x + 3y, x). -/
def rhoPi (w : List (Nat × Nat × Nat)) (a : Sheets) : Sheets :=
  Sheets.of fun x y => (a.lane (x + 3 * y) x).rotateLeft (rhoOf w (x + 3 * y) x)

/-- Chi along the rows, then iota: the round's constant on lane (0, 0). -/
def chiIota (rc : BitVec 64) (a : Sheets) : Sheets :=
  Sheets.of fun x y =>
    let v := a.lane x y ^^^ (~~~ a.lane (x + 1) y &&& a.lane (x + 2) y)
    if x = 0 ∧ y = 0 then v ^^^ rc else v

/-- All 24 rounds. -/
def permute (a : Sheets) : Sheets :=
  let w := rhoWalk 24 0 1 0
  (rcFrom 24 1).foldl (fun a rc => chiIota rc (rhoPi w (theta a))) a

/-- One block taken in: its words are the lanes (0, 0), (1, 0) and so on, x first. -/
def takeBlock (a : Sheets) (blk : Data) : Sheets :=
  permute (Sheets.of fun x y =>
    a.lane x y ^^^ BitVec.ofNat 64 (natLE ((blk.drop (8 * (x + 5 * y))).take 8)))

/-- SHA3 with a digest of `n` bytes: the rate is 200 - 2 n bytes; the message is followed by 06 and
zeros up to the block's last byte, whose top bit is set. -/
def sha3 (n : Nat) (m : Data) : Data :=
  let rate := 200 - 2 * n
  let blocks := m.length / rate + 1
  let filled := m ++ (6 : Byte) :: List.replicate (blocks * rate - m.length - 1) 0
  let padded := filled.take (blocks * rate - 1) ++ [filled.getLastD 0 ||| 0x80]
  let a := (chunksOf rate blocks padded).foldl takeBlock (Sheets.of fun _ _ => 0)
  (((List.range 25).flatMap fun i => bytesLE 8 (a.lane i (i / 5)).toNat)).take n

end Sys2Proof.Machine
end

