-- ==== Sys2Proof/Machine/Operands.lean ====
section
/-!
DEFINITION. Operand forms: bit fields of requests and register values, lists kept by key, and the
message area as a canonical list of cells.
-/

namespace Sys2Proof.Machine

open Sys2Proof

/-! ### Bit fields (R3, R399) -/

/-- Bits [lo + n - 1 : lo] of `v`. -/
def bitsAt (v lo n : Nat) : Nat := v / 2 ^ lo % 2 ^ n

/-- Bit `i` of `v`. -/
def bitAt (v i : Nat) : Bool := bitsAt v i 1 == 1

/-- A Bool as a bit. -/
def b2n (b : Bool) : Nat := if b then 1 else 0

/-- Payload bits [lo + n - 1 : lo] of a request (R399). -/
def fld (r : MbReq) (lo n : Nat) : Nat := bitsAt r.payload lo n

/-- Payload bytes `lo` to `lo + n - 1` of a request, as a little-endian number. -/
def fldB (r : MbReq) (lo n : Nat) : Nat := bitsAt r.payload (8 * lo) (8 * n)

/-! ### Lists kept by key -/

/-- `f` applied to the elements that `p` picks. -/
def updIf {α : Type} (p : α → Bool) (f : α → α) (l : List α) : List α :=
  l.map fun x => if p x then f x else x

/-- Element `i` changed by `f`. -/
def updAt {α : Type} (l : List α) (i : Nat) (f : α → α) : List α :=
  match l[i]? with
  | some x => l.set i (f x)
  | none => l

/-- The sum of `f` over a list. -/
def sumBy {α : Type} (f : α → Nat) (l : List α) : Nat := l.foldl (fun a x => a + f x) 0

/-- The highest of a list of numbers. -/
def maxOf (l : List Nat) : Nat := l.foldl max 0

/-- The value that an association list gives `k`, or 0. -/
def assoc (l : List (Nat × Nat)) (k : Nat) : Nat :=
  match l.find? (fun x => x.1 == k) with
  | some x => x.2
  | none => 0

/-- An association list with `k` given `v`. -/
def setAssoc {β : Type} (l : List (Nat × β)) (k : Nat) (v : β) : List (Nat × β) :=
  if l.any (fun x => x.1 == k) then l.map fun x => if x.1 == k then (k, v) else x
  else l ++ [(k, v)]

/-- The count of `k` in an association list raised by `n`. -/
def bump (l : List (Nat × Nat)) (k n : Nat) : List (Nat × Nat) := setAssoc l k (assoc l k + n)

/-- `x` put into a list that is sorted by `key`. -/
def insertOn {α : Type} (key : α → Nat) (x : α) : List α → List α
  | [] => [x]
  | y :: ys => if key x ≤ key y then x :: y :: ys else y :: insertOn key x ys

/-- A list sorted by `key`; elements of one key keep their order. -/
def sortOn {α : Type} (key : α → Nat) (l : List α) : List α := l.foldr (insertOn key) []

/-- A 32-bit counter that saturates (R447). -/
def sat32 (n : Nat) : Nat := min n 4294967295

/-! ### The message area (R398): a list of cells, addresses strictly rising, no zero byte listed -/

/-- What address `a` of the area reads as; an unlisted address reads 0. [log 12: DEDUCED] -/
def Mem.read (m : List Host.Cell) (a : Nat) : Byte :=
  match m.find? (fun c => c.1 == a) with
  | some c => c.2
  | none => 0

/-- One byte written; writing 0 removes the entry. [log 12: DEDUCED] -/
def Mem.put : List Host.Cell → Nat → Byte → List Host.Cell
  | [], a, b => if b = 0 then [] else [(a, b)]
  | (x, v) :: m, a, b =>
    if a < x then (if b = 0 then (x, v) :: m else (a, b) :: (x, v) :: m)
    else if a = x then (if b = 0 then m else (a, b) :: m)
    else (x, v) :: Mem.put m a b

/-- Bytes written from address `a` on. -/
def Mem.putBytes : List Host.Cell → Nat → Data → List Host.Cell
  | m, _, [] => m
  | m, a, b :: bs => Mem.putBytes (Mem.put m a b) (a + 1) bs

/-- `n` bytes read from address `a` on. -/
def Mem.readBytes (m : List Host.Cell) (a n : Nat) : Data :=
  (List.range n).map fun i => Mem.read m (a + i)

/-- Every listed address lies at or above `lo`, addresses rise, and no zero byte is listed. -/
def Mem.wfFrom : Nat → List Host.Cell → Bool
  | _, [] => true
  | lo, (a, b) :: m => decide (lo ≤ a) && decide (b ≠ 0) && Mem.wfFrom (a + 1) m

/-- The canonical form of a message area. -/
def Mem.wf (m : List Host.Cell) : Bool := Mem.wfFrom 0 m

/-- Header and payload of a request as the host writes them (R399). -/
def requestBytes (opcode : Nat) (r : MbReq) : Data :=
  bytesLE 2 opcode ++ bytesLE 2 r.len ++ bytesLE 2 r.tag ++ bytesLE 10 r.hdrRsv ++
    bytesLE (r.len % 65536) r.payload

/-- The request that the bytes of an area hold: opcode and fields (R399). The payload is read as
far as LEN says and the area, of `size` bytes, reaches. -/
def requestOf (m : List Host.Cell) (size : Nat) : Nat × MbReq :=
  let rd := fun a n => natLE (Mem.readBytes m a n)
  let len := rd 2 2
  (rd 0 2, { hdrRsv := rd 6 10, len := len, tag := rd 4 2, payload := rd 16 (min len (size - 16)) })

/-- A temperature as a reply value: two's complement of 16 bits. -/
def tempVal (t : Int) : Nat := (t % 65536).toNat

end Sys2Proof.Machine
end

