-- ==== Sys2Proof/Machine/Ops.lean ====
section
/-!
DEFINITION. The named operations over the state that every family of commands shares: access to
functions, settings in force, the log and event rings, host writes, completions, the pool of
resources, long commands and mailbox replies.
-/

namespace Sys2Proof.Machine

open Sys2Proof

/-! ### Updates of one subsystem -/

def State.modStore (s : State) (f : Store → Store) : State := { s with store := f s.store }
def State.modHz (s : State) (f : Horizon → Horizon) : State := { s with hz := f s.hz }
def State.modNs (s : State) (f : NsVol → NsVol) : State := { s with ns := f s.ns }
def State.modFlash (s : State) (f : Flash → Flash) : State := { s with flash := f s.flash }
def State.modQ (s : State) (f : Queues → Queues) : State := { s with q := f s.q }
def State.modLink (s : State) (f : Link → Link) : State := { s with link := f s.link }
def State.modHalo (s : State) (f : Halo → Halo) : State := { s with halo := f s.halo }
def State.modSq (s : State) (f : Squall → Squall) : State := { s with sq := f s.sq }
def State.modAnv (s : State) (f : Anvil → Anvil) : State := { s with anv := f s.anv }
def State.modZl (s : State) (f : Zelim → Zelim) : State := { s with zl := f s.zl }
def State.modFw (s : State) (f : Firmware → Firmware) : State := { s with fw := f s.fw }
def State.modPw (s : State) (f : Power → Power) : State := { s with pw := f s.pw }
def State.modRecs (s : State) (f : Records → Records) : State := { s with recs := f s.recs }

/-! ### Functions (R350, R357) -/

/-- Function `n`, where the device has it. -/
def State.fn? (s : State) (n : Nat) : Option Fn := s.fns.find? (fun f => f.num == n)

/-- Function `n` changed by `g`. -/
def State.modFn (s : State) (n : Nat) (g : Fn → Fn) : State :=
  { s with fns := updIf (fun f => f.num == n) g s.fns }

/-- The state of function `n`: UNCREATED where nothing created it. -/
def State.fnState (s : State) (n : Nat) : FnState :=
  match s.fn? n with
  | some f => f.st
  | none => .uncreated

/-- Function `n` is created (R357: not UNCREATED). -/
def State.fnExists (s : State) (n : Nat) : Bool := s.fnState n != .uncreated

/-- Function `n` is ACTIVE and its BAR0 and doorbells are live (R357). -/
def State.fnLive (s : State) (n : Nat) : Bool :=
  match s.fn? n with
  | some f => f.st == .active && decide (f.liveFrom ≤ s.hz.epoch)
  | none => false

/-- The grant of function `n`. -/
def State.grantOf (s : State) (n : Nat) : Grant :=
  match s.fn? n with
  | some f => f.grant
  | none => .none

/-- Function numbers that the mode allows beside PF0 (R350). -/
def State.maxFn (s : State) : Nat := if s.link.mode = 0 then 63 else 255

/-- The numbers of the functions that are created, in the order of their creation. -/
def State.created (s : State) : List Nat :=
  (s.fns.filter fun f => f.st != .uncreated).map (·.num)

/-- The numbers of the ACTIVE functions. -/
def State.actives (s : State) : List Nat :=
  (s.fns.filter fun f => f.st == .active).map (·.num)

/-! ### Host writes (R343, R380) -/

/-- The function whose requester ID function `n`'s DMA carries (R352): PF0's for a share. -/
def State.requester (s : State) (n : Nat) : Nat := if s.link.mode = 0 then n else 0

/-- The device cannot issue memory writes of function `n` now (R343). -/
def State.dmaHeld (s : State) (n : Nat) : Bool :=
  match s.fn? (s.requester n) with
  | some f => !f.bme || f.d3 || s.link.recovering || s.link.gen == 0
  | none => true

/-- A write toward the host: issued, or held in order until the hold ends (R343). [log 65: DESIGN CHOICE] -/
def State.hostWrite (s : State) (n : Nat) (w : HostWrite) : State :=
  if s.dmaHeld n then s.modQ fun q => { q with held := q.held ++ [(n, w)] }
  else s.modQ fun q => { q with issued := q.issued ++ [w] }

/-- Every held write whose hold has ended is issued, in order (R343). [log 65: DESIGN CHOICE] -/
def State.releaseHeld (s : State) : State :=
  s.modQ fun q =>
    { q with
      issued := q.issued ++ (q.held.filter fun x => !s.dmaHeld x.1).map (·.2)
      held := q.held.filter fun x => s.dmaHeld x.1 }

/-- The function and entry of the MSI-X table that serve vector `v` of function `n` (R352). -/
def State.vecHome (s : State) (n v : Nat) : Nat × Nat :=
  if s.link.mode = 0 ∨ n = 0 then (n, v)
  else (0, (match s.fn? n with | some f => f.firstVector | none => 0) + v)

/-- The MSI-X message of vector `v` of function `n`: its pending bit while the vector is masked, as
PCI Express defines; otherwise a host write. -/
def State.msix (s : State) (n v : Nat) : State :=
  let h := s.vecHome n v
  match (s.fn? h.1).bind (fun f => f.vecs.find? (fun x => x.num == h.2)) with
  | some x =>
    if x.masked then
      s.modFn h.1 fun f => { f with vecs := updIf (fun y => y.num == h.2) (fun y => { y with pend := true }) f.vecs }
    else s.hostWrite n (.msix h.1 h.2)
  | none =>
    s.modFn h.1 fun f => { f with vecs := f.vecs ++ [⟨h.2, 0, 0, true, true⟩] }

/-! ### Log and events (R393, R394, R420) -/

/-- FUNCTION of a log entry that concerns the device (R420). [log 20: DEDUCED] -/
def deviceFn : Nat := 65535

/-- The newest 16,384 entries of a log (R420). -/
def keepNewest (l : List LogEntry) : List LogEntry := l.drop (l.length - Config.logEntries)

/-- One log entry; the ring keeps the newest. [log 20: DEDUCED] -/
def State.log (s : State) (cls fn : Nat) (st : Status) (detail : Nat) : State :=
  s.modRecs fun r =>
    { r with
      log := keepNewest (r.log ++ [⟨r.nextIdx, s.hz.epoch, st, cls, fn, detail⟩])
      nextIdx := r.nextIdx + 1
      perClass := bump r.perClass (256 * fn + cls) 1 }

/-- Entries of an event ring that the host has not released. -/
def EventRing.used (e : EventRing) : Nat := (e.tail + e.entries - e.head) % e.entries

/-- The ring after one entry is written. [log 21: DEDUCED] -/
def EventRing.push (e : EventRing) : EventRing :=
  let wrap := e.tail + 1 = e.entries
  { e with
    tail := if wrap then 0 else e.tail + 1
    phase := if wrap then !e.phase else e.phase
    seq := (e.seq + 1) % 65536 }

/-- One event toward the ring of function `n`: nothing without a ring or once the function is fenced; counted, in SEQ
too, when only the slot kept for OVERFLOW remains (R393, R394). [log 21: DEDUCED] -/
def State.ringEvent (s : State) (n cls : Nat) (st : Status) (detail : Nat) : State :=
  match s.fn? n with
  | none => s
  | some f =>
    if f.evq.entries = 0 ∨ f.st ≠ .active then s
    else if f.evq.used + 1 ≥ f.evq.entries then
      s.modFn n fun f => { f with
        evq := { f.evq with overflow := f.evq.overflow + 1, seq := (f.evq.seq + 1) % 65536 }
        intStatus := f.intStatus ||| 4 }
    else
      ((s.modFn n fun f => { f with evq := f.evq.push, intStatus := f.intStatus ||| 2 }).hostWrite n
        (.event n cls st detail f.evq.seq f.evq.phase)).msix n 0

/-- An event: logged once, then written to the ring of each recipient (R393). -/
def State.event (s : State) (cls fn : Nat) (rcpt : List Nat) (st : Status) (detail : Nat) : State :=
  rcpt.foldl (fun a n => a.ringEvent n cls st detail) (s.log cls fn st detail)

/-- HORIZON event to PF0 (R60). -/
def State.hzEvent (s : State) (st : Status) (epoch : Nat) : State :=
  s.event 3 deviceFn [0] st epoch

/-- MEDIA event to PF0: die or member (R393). -/
def State.mediaEvent (s : State) (st : Status) (unit : Nat) : State :=
  s.event 4 deviceFn [0] st (unit % 256)

/-- ZELIM event to PF0: port and node (R393). -/
def State.zlEvent (s : State) (st : Status) (port node : Nat) : State :=
  s.event 5 deviceFn [0] st (port % 4 + 65536 * (node % 65536))

/-- DEVICE event to every ACTIVE function (R393). [log 20: DEDUCED] -/
def State.devEvent (s : State) (st : Status) (detail : Nat) : State :=
  s.event 6 deviceFn s.actives st detail

/-- The functions attached to a namespace, and PF0 (R393). -/
def State.nsRecipients (s : State) (nsid : Nat) : List Nat :=
  let a := (s.ns.attachments.filter fun x => x.nsid == nsid).map (·.fn)
  if a.contains 0 then a else a ++ [0]

/-- NAMESPACE event (R393). [log 20: DEDUCED] -/
def State.nsEvent (s : State) (st : Status) (nsid lost : Nat) : State :=
  s.event 2 deviceFn (s.nsRecipients nsid) st (nsid + 4294967296 * lost)

/-! ### Settings: durable, in force, accepted -/

/-- The opcode group of an expert parameter (R25, R407). -/
def paramGroup (id : Nat) : Nat := id / 256

/-- The claims of R408 with every claim of `opcode` on a comparator dropped. -/
def dropClaim (opcode : Nat) (cs : List Claim) : List Claim :=
  cs.filter fun c => c.opcode != opcode

/-- The parameters of one subsystem dropped, so that each is derived again (R26). `ids` picks the
subsystem's parameters, `target` the object of the scope. -/
def derive (ids : Nat → Bool) (target : Nat) (ps : List Param) : List Param :=
  ps.filter fun p => !(ids p.id && p.target == target)

/-- The durable settings after a change of settings is recorded; changes of namespaces, images and the pool leave
settings as they are. [log 17: DEDUCED] -/
def Ctrl.setting (c : Ctrl) (d : Store) : Store :=
  match c with
  | .hzConfig p src w =>
    { d with
      period := p, source := src, window := w,
      params := derive (fun i => paramGroup i == 4) 0 d.params }
  | .ftProfile op wp =>
    { d with
      op := op, writeProfile := wp,
      params := derive (fun i => decide (0x0510 ≤ i) && decide (i < 0x0520)) 0 d.params }
  | .mediaCare cls =>
    { d with
      patrolClass := cls,
      params := derive (fun i => decide (0x0520 ≤ i) && decide (i < 0x0530)) 0 d.params }
  | .rdProfile cls =>
    { d with protection := cls, params := derive (fun i => paramGroup i == 6) 0 d.params }
  | .param id t v => { d with params := derive (fun i => i == id) t d.params ++ [⟨id, t, v⟩] }
  | .claim r o f => { d with claims := d.claims ++ [⟨r, o, f⟩] }
  | .unclaim o => { d with claims := dropClaim o d.claims }
  | .tickOut w => { d with tickOutWidth := w }
  | .sampling p => { d with samplePeriod := p }
  | .hostCfg m fl =>
    { d with
      hostMode := m, linkFloor := fl,
      params := derive (fun i => i == 0x0210) 0 d.params }
  | .pf0Grant g => { d with pf0Grant := g }
  | .keyEnroll n k => { d with modKeys := setAssoc d.modKeys n k }
  | .keyRevoke n => { d with modKeys := d.modKeys.filter fun x => x.1 != n }
  | .portCfg p cfg =>
    { d with
      ports := updAt d.ports p fun _ => cfg,
      params := derive (fun i => i == 0x0B10 || i == 0x0B11 || i == 0x0B15) p d.params }
  | .nodeSet n => { d with node := n }
  | .trustEnroll n t => { d with trust := setAssoc d.trust n t }
  | .trustRevoke n => { d with trust := d.trust.filter fun x => x.1 != n }
  | .membership g c b o _ =>
    { d with grouped := g, committed := c, groupBase := b, offset := o }
  | .rclkSet _ | .nsCreate .. | .nsDelete _ | .attach .. | .detach .. | .streamOpen ..
  | .streamClose .. | .retain .. | .trim .. | .freeze .. | .unfreeze .. | .slot ..
  | .slotErase .. | .slotFormer .. | .poolForm .. | .memberFail _ | .dieFail _ | .reshapeStart ..
  | .reshapeSwitch | .reshapeCancel | .mirrorBreak _ | .mirrorCopied _ | .deferred ..
  | .retire _ => d

/-- The settings in force (R27): the durable ones with the changes accepted before this tick. [log 17: DEDUCED] -/
def State.inForce (s : State) : Store :=
  (s.hz.epochs.filter fun e => decide (e.n < s.hz.epoch)).foldl
    (fun d e => e.ctrl.foldl (fun d c => c.setting d) d) s.store

/-- The settings with every change accepted so far: what a new request is checked against. [log 17: DEDUCED] -/
def State.accepted (s : State) : Store :=
  s.hz.epochs.foldl (fun d e => e.ctrl.foldl (fun d c => c.setting d) d) s.store

/-! ### Expert parameters (R25, R406, R407) -/

/-- Scope of an expert parameter (R25). -/
inductive Scope where
  | device | function | table | port
  deriving DecidableEq, Repr

/-- One expert parameter: ID, range, step (0 for a listed set), scope and persistence. -/
structure ParamDef where
  id      : Nat
  min     : Nat
  max     : Nat
  step    : Nat
  scope   : Scope
  persist : Bool
  deriving DecidableEq, Repr

/-- Parameters of queues, Horizon and namespaces (R69, R97, R362, R396). -/
def paramsA : List ParamDef :=
  [⟨0x0210, 2, 4, 1, .device, true⟩, ⟨0x0220, 1, 32, 1, .function, false⟩,
    ⟨0x0221, 0, 20, 1, .function, false⟩, ⟨0x0320, 1, 1000, 1, .device, true⟩,
    ⟨0x0321, 0, 10000, 100, .device, true⟩, ⟨0x0322, 1, 64, 1, .device, true⟩,
    ⟨0x0410, 2500, 10000, 2500, .device, true⟩, ⟨0x0411, 10, 30, 5, .device, true⟩,
    ⟨0x0412, 500, 5000, 500, .device, true⟩, ⟨0x0413, 4, 64, 1, .device, true⟩,
    ⟨0x0414, 25, 100, 25, .device, true⟩, ⟨0x0415, 25, 100, 25, .device, true⟩]

/-- Parameters of flash translation, media and redundancy (R130, R166, R199). -/
def paramsB : List ParamDef :=
  [⟨0x0510, 2, 8, 1, .device, true⟩, ⟨0x0511, 4, 20, 1, .device, true⟩,
    ⟨0x0512, 0, 1, 1, .device, true⟩, ⟨0x0513, 16, 256, 16, .device, true⟩,
    ⟨0x0514, 1024, 16384, 1024, .device, true⟩, ⟨0x0520, 2, 4, 1, .device, true⟩,
    ⟨0x0521, 2, 16, 1, .device, true⟩, ⟨0x0522, 25, 75, 5, .device, true⟩,
    ⟨0x0523, 24, 720, 24, .device, true⟩, ⟨0x0524, 50, 100, 10, .device, true⟩,
    ⟨0x0525, 30, 100, 10, .device, true⟩, ⟨0x0610, 0, 10, 1, .device, true⟩,
    ⟨0x0611, 168, 8736, 168, .device, true⟩]

/-- Parameters of Halo, Squall, Anvil, Zelim and power (R223, R246, R294, R336, R443). -/
def paramsC : List ParamDef :=
  [⟨0x0710, 16, 256, 0, .table, false⟩, ⟨0x0711, 1024, 4096, 1024, .device, true⟩,
    ⟨0x0712, 0, 1, 1, .device, false⟩, ⟨0x0810, 10, 23, 1, .function, false⟩,
    ⟨0x0811, 1, 4096, 0, .function, false⟩, ⟨0x0812, 0, 258, 1, .function, false⟩,
    ⟨0x0813, 3, 7, 1, .function, false⟩, ⟨0x0814, 16, 128, 16, .function, false⟩,
    ⟨0x0A10, 1, 100, 1, .device, true⟩, ⟨0x0A11, 10, 200, 10, .function, false⟩,
    ⟨0x0A12, 16, 256, 16, .function, false⟩, ⟨0x0A13, 2, 8, 1, .function, false⟩] ++
  [⟨0x0B10, 10, 60, 5, .port, true⟩, ⟨0x0B11, 10, 40, 5, .port, true⟩,
    ⟨0x0B12, 1, 2, 1, .device, true⟩, ⟨0x0B13, 4, 64, 4, .device, true⟩,
    ⟨0x0B14, 4, 64, 4, .device, true⟩, ⟨0x0B15, 128, 1024, 128, .port, true⟩,
    ⟨0x0B16, 500, 5000, 500, .device, true⟩, ⟨0x0B17, 4, 64, 1, .device, true⟩,
    ⟨0x0C10, 95, 130, 5, .device, true⟩, ⟨0x0C11, 50, 150, 50, .device, true⟩,
    ⟨0x0C12, 450, 1350, 450, .device, true⟩]

/-- Every expert parameter of the subsystem chapters. [log 18: DESIGN CHOICE] -/
def paramDefs : List ParamDef := paramsA ++ paramsB ++ paramsC

/-- The parameter with an ID, where some chapter lists it (R407 check 1). -/
def paramDef (id : Nat) : Option ParamDef := paramDefs.find? (fun p => p.id == id)

/-- A value lies in a parameter's range and on its step (R8, R407 check 4). A listed set is the
powers of two of its range; 0 is also a value of the stripe check interval (R199). -/
def ParamDef.ok (p : ParamDef) (v : Nat) : Bool :=
  if p.id = 0x0611 ∧ v = 0 then true
  else decide (p.min ≤ v) && decide (v ≤ p.max) &&
    (if p.step = 0 then (List.range 13).any (fun i => v == 2 ^ i)
     else (v - p.min) % p.step == 0)

/-- The Squall level table (R230): window log, chain depth, lazy threshold, minimum match, block. -/
def sqLevels : List (List Nat) :=
  [[16, 1, 0, 6, 64], [17, 2, 0, 5, 64], [17, 4, 8, 5, 64], [18, 8, 16, 4, 64],
    [18, 16, 24, 4, 128], [19, 32, 32, 4, 128], [19, 64, 64, 4, 128], [20, 128, 96, 4, 128],
    [20, 256, 128, 4, 128], [21, 512, 258, 4, 128], [22, 1024, 258, 3, 128],
    [23, 4096, 258, 3, 128]]

/-- The default of a parameter: the value that the basic profile in `d`, or the profile of the
function, derives (R69, R97, R129, R165, R198, R222, R230, R293, R335, R362, R396, R443). The
hole spacing of a table is that of its update class, held in the table. -/
def State.paramDefault (s : State) (d : Store) (id target : Nat) : Nat :=
  let row := fun (k : Nat) (l : List Nat) => l.getD k 0
  let sq := fun (k : Nat) =>
    (sqLevels.getD ((match s.fn? target with | some f => f.sqLevel | none => 3) - 1) []).getD k 0
  let anv := fun (l : List Nat) => l.getD (match s.fn? target with | some f => f.anvClass | none => 1) 0
  let port := d.ports.getD target .default
  let margin := fun (_ : Unit) => if port.lr then 25 else if port.fec then 20 else 30
  if id = 0x0210 then 4 else if id = 0x0220 then 8 else if id = 0x0221 then 2
  else if id = 0x0320 then 50 else if id = 0x0321 then 1000 else if id = 0x0322 then 16
  else if id = 0x0410 then 5000 else if id = 0x0411 then 10 else if id = 0x0412 then 2000
  else if id = 0x0413 then 8 else if id = 0x0414 then 100 else if id = 0x0415 then 50
  else if id = 0x0510 then row d.writeProfile [8, 8, 6]
  else if id = 0x0511 then row d.writeProfile [6, 10, 14]
  else if id = 0x0512 then row d.writeProfile [0, 1, 1]
  else if id = 0x0513 then row d.writeProfile [32, 64, 128]
  else if id = 0x0514 then row d.writeProfile [8192, 4096, 2048]
  else if id = 0x0520 then row d.patrolClass [4, 3, 2]
  else if id = 0x0521 then row d.patrolClass [12, 8, 4]
  else if id = 0x0522 then row d.patrolClass [60, 50, 40]
  else if id = 0x0523 then row d.patrolClass [336, 168, 48]
  else if id = 0x0524 then row d.patrolClass [90, 80, 60]
  else if id = 0x0525 then row d.patrolClass [60, 60, 100]
  else if id = 0x0610 then row d.protection [2, 4]
  else if id = 0x0611 then row d.protection [1344, 336]
  else if id = 0x0710 then
    (match s.halo.tables.find? (fun t => t.id == target) with | some t => t.hole | none => 64)
  else if id = 0x0711 then 4096 else if id = 0x0712 then 1
  else if id = 0x0810 then sq 0 else if id = 0x0811 then sq 1 else if id = 0x0812 then sq 2
  else if id = 0x0813 then sq 3 else if id = 0x0814 then sq 4
  else if id = 0x0A10 then 10 else if id = 0x0A11 then anv [50, 100, 200]
  else if id = 0x0A12 then anv [32, 64, 128] else if id = 0x0A13 then anv [4, 4, 3]
  else if id = 0x0B10 then margin () else if id = 0x0B11 then margin ()
  else if id = 0x0B12 then 1 else if id = 0x0B13 then 16 else if id = 0x0B14 then 16
  else if id = 0x0B15 then 256 else if id = 0x0B16 then 2000 else if id = 0x0B17 then 8
  else if id = 0x0C10 then 120 else if id = 0x0C11 then 100 else if id = 0x0C12 then 900
  else 0

/-- The value that `param.set` put in force for a parameter, where it did (R26). -/
def State.paramSet? (s : State) (id target : Nat) : Option Nat :=
  match s.recs.vparams.find? (fun p => p.id == id && p.target == target) with
  | some p => some p.value
  | none =>
    (s.inForce.params.find? (fun p => p.id == id && p.target == target)).map (·.value)

/-- The subsystem of an expert parameter: the settings of chapters 4 and 5 share an opcode group (R25, R26). -/
def subsystem (id : Nat) : Nat := if paramGroup id = 5 then id / 16 else 16 * paramGroup id

/-- The basic profile of a parameter's subsystem and scope is modified: `param.set` put some parameter of them in force (R26).
-/
def State.modified (s : State) (p : ParamDef) (target : Nat) : Bool :=
  (s.recs.vparams ++ s.inForce.params).any fun x =>
    subsystem x.id == subsystem p.id && x.target == target && ((paramDef x.id).map (·.scope)) == some p.scope

/-- The value of an expert parameter in force. [log 18: DESIGN CHOICE] -/
def State.param (s : State) (id target : Nat) : Nat :=
  match s.paramSet? id target with
  | some v => v
  | none => s.paramDefault s.inForce id target

/-! ### Capacities and the resource pool (R52, R341, R353, R436) -/

/-- Write capacity of R52 at a period in steps of 250 µs, in granules. -/
def writeCapacity (period : Nat) : Nat := min 4096 (16000 * (250 * period) / 4096)

/-- Usable payload of a link generation in MB/s (R340). -/
def genPayload (gen : Nat) : Nat := if gen ≤ 2 then 2100 else if gen = 3 then 4200 else 8500

/-- Read capacity of R52 with the payload of a LINK_FLOOR generation (R341). -/
def readCapacity (period floor : Nat) : Nat := genPayload floor * (250 * period) / 4096

/-- Scan capacity of R52. -/
def scanCapacity (period : Nat) : Nat := 48000 * (250 * period) / 4096

/-- Write capacity in force at a period: with a pool, at most C_d (R436). -/
def Store.writeCap (d : Store) (period : Nat) : Nat :=
  if d.pool.formed then min (writeCapacity period) d.pool.cd else writeCapacity period

/-- The sum of the write credits of the ports (R52). -/
def Store.portCredit (d : Store) : Nat := sumBy (·.credit) d.ports

/-- The grants of every function but `n`. -/
def State.otherGrants (s : State) (n : Nat) : List Grant :=
  (s.fns.filter fun f => f.num != n).map (·.grant)

/-- The grants of every function. -/
def State.grants (s : State) : List Grant := s.fns.map (·.grant)

/-- Sixteenths of engine time that Squall grants may take (R227). -/
def State.squallPool (s : State) : Nat := 128 * (100 - s.param 0x0415 0) / 100

/-- Module data memory in units of 64 MiB (R353). -/
def State.memPool (s : State) : Nat := if s.part = 16 then 64 else 320

/-- Queue pairs, vectors, tags, banks, Squall time and memory of `g` are free beside `others`
(R355 check 6). -/
def State.poolFits (s : State) (others : List Grant) (g : Grant) : Bool :=
  decide (sumBy (·.qpairs) others + g.qpairs ≤ 1024) &&
  decide (sumBy (·.vectors) others + g.vectors ≤ 2048) &&
  decide (sumBy (·.tags) others + g.tags ≤ 8192) &&
  decide (sumBy (·.banks) others + g.banks ≤ 128) &&
  decide (sumBy (·.squall) others + g.squall ≤ s.squallPool) &&
  decide (sumBy (·.mem) others + g.mem ≤ s.memPool)

/-- Credits fit the capacities of R52 at a period and LINK_FLOOR. -/
def Store.creditsFit (d : Store) (period floor : Nat) (gs : List Grant) (ports : Nat) : Bool :=
  decide (sumBy (·.write) gs + ports ≤ d.writeCap period) &&
  decide (sumBy (·.read) gs ≤ readCapacity period floor) &&
  decide (sumBy (·.scan) gs ≤ scanCapacity period)

/-- The lowest-numbered banks that no function holds (R355). -/
def State.freeBanks (s : State) : List Nat :=
  (List.range 128).filter fun b => !s.fns.any fun f => f.bankMask.contains b

/-- The lowest entry at which `n` free entries of PF0's MSI-X table run (R352). -/
def State.vectorRun (s : State) (n : Nat) : Option Nat :=
  let taken := fun v => s.fns.any fun f =>
    if f.num = 0 then decide (v < f.grant.vectors)
    else decide (f.firstVector ≤ v) && decide (v < f.firstVector + f.grant.vectors)
  (List.range 2049).find? fun b =>
    decide (b + n ≤ 2048) && (List.range n).all fun i => !taken (b + i)

/-- Bytes [addr, addr + len) lie in the DMA window of function `n`; PF0 and VFs have none (R352). -/
def State.dmaOk (s : State) (n addr len : Nat) : Bool :=
  if s.link.mode = 0 ∨ n = 0 ∨ len = 0 then true
  else
    let g := s.grantOf n
    decide (g.dmaBase ≤ addr) && decide (addr + len ≤ g.dmaBase + g.dmaLen)

/-! ### Long commands and replies (R399 to R403) -/

/-- The long commands of function `n` that have not ended (R403). -/
def State.longsOpen (s : State) (n : Nat) : Nat :=
  (s.recs.longs.filter fun l => l.fn == n && l.status == none).length

/-- A new long command of function `n`; its ID is `s.recs.nextLong`. -/
def State.startLong (s : State) (n opcode : Nat) : State :=
  s.modRecs fun r => { r with
    longs := r.longs ++ [⟨r.nextLong, n, opcode, none, [], false⟩]
    nextLong := (r.nextLong + 1) % 4294967296 }

/-- The 64 most recent results of function `n` are kept (R403). -/
def keepResults (n : Nat) (ls : List LongCmd) : List LongCmd :=
  let ended := ls.filter fun l => l.fn == n && l.status != none
  let old := (ended.take (ended.length - Config.longResults)).map (·.id)
  ls.filter fun l => !(l.fn == n && old.contains l.id)

/-- DETAIL of a MAILBOX event (R403). -/
def mbDetail (opcode id fn : Nat) : Nat := opcode + 65536 * id + 281474976710656 * fn

/-- Long command `id` ends: its result is kept and its completion event follows (R403); after a
reset of its function the event goes to the log only (R359). -/
def State.endLong (s : State) (id : Nat) (st : Status) (result : List Nat) : State :=
  match s.recs.longs.find? (fun l => l.id == id && l.status == none) with
  | none => s
  | some l =>
    let s1 := s.modRecs fun r => { r with
      longs := keepResults l.fn (updIf (fun x => x.id == id)
        (fun x => { x with status := some st, result := result }) r.longs) }
    s1.event 7 l.fn (if l.logOnly then [] else [l.fn]) st (mbDetail l.opcode id 0)

/-- Sutas firmware has the reply of function `n`'s command ready (R400 step 5). It reaches the area
by MAILBOX_REPLY, once the epoch it awaits is sealed. -/
def State.stage (s : State) (n opcode tag : Nat) (st : Status) (vals : List Nat)
    (await : Option Nat) : State :=
  s.modFn n fun f => { f with mb := { f.mb with
    request := none, reply := some ⟨opcode, tag, st, vals, await⟩ } }

/-! ### Persistent changes -/

/-- The epoch being accepted changed by `f`. -/
def State.modEpoch (s : State) (f : Epoch → Epoch) : State :=
  s.modHz fun h => { h with epochs := updIf (fun e => e.n == h.epoch) f h.epochs }

/-- Changes recorded by the epoch being accepted (R43 row 8). -/
def State.record (s : State) (cs : List Ctrl) : State :=
  s.modEpoch fun e => { e with ctrl := e.ctrl ++ cs }

/-- The epoch being accepted, where the device ticks. -/
def State.epoch? (s : State) : Option Epoch := s.hz.epochs.find? (fun e => e.n == s.hz.epoch)

/-- A device key use is open: debug is not UNLOCKED (R418). -/
def State.keyUsable (s : State) : Bool := s.fw.debug != .unlocked

/-- A free value, and the state with the next one due. [log 4: DESIGN CHOICE] -/
def State.free (s : State) : BitVec 256 × State :=
  (Config.freeValue s.freeCtr, { s with freeCtr := s.freeCtr + 1 })

/-- A status that the spec does not state: a free one among ST_OK and those of an area, and the state after it (R6).
[log 4: DESIGN CHOICE] -/
def State.freeStatus (s : State) (area : Nat) : Status × State :=
  let v := s.free.1.toNat % 257
  (if v = 256 then St.ok else BitVec.ofNat 16 (256 * area + v), s.free.2)

/-- A ZELIM event whose status the spec does not state: a free one of its area. [log 19: DESIGN CHOICE] -/
def State.zlOpenEvent (s : State) (port node : Nat) : State :=
  (s.freeStatus 9).2.zlEvent (s.freeStatus 9).1 port node

/-- A number that the device chooses among those that `ok` admits, and the state after the choice: a free value where
it is one of them, `least` otherwise. [log 5: DESIGN CHOICE] -/
def State.choose (s : State) (ok : Nat → Bool) (least : Nat) : Nat × State :=
  (if ok s.free.1.toNat then s.free.1.toNat else least, s.free.2)

end Sys2Proof.Machine
end

