-- ==== Sys2Proof/Machine/StoreOps.lean ====
section
/-!
DEFINITION. Operations over what is durable and over the pending index: keys and addresses (R99,
R100, R172 to R175), the map and its resolution (R104), streams, records and their chains (R79 to
R84), frozen regions (R90, R91), space (R128, R171).
-/

namespace Sys2Proof

/-! ### Codewords of a block (R138) -/

/-- Bytes of a page: main and spare. -/
def FlashProfile.pageBytes (p : FlashProfile) : Nat := p.pageMain + p.pageSpare

/-- L: data, metadata and LDPC parity of a codeword. -/
def FlashProfile.cwBytes (p : FlashProfile) : Nat := 4128 + p.parityBytes

/-- Codewords of a block in QLC mode. -/
def FlashProfile.cwPerBlock (p : FlashProfile) : Nat := p.pagesPerBlock * p.pageBytes / p.cwBytes

/-- Codewords of a block in pSLC mode: a quarter of the pages, packed by the same rule. -/
def FlashProfile.slcCw (p : FlashProfile) : Nat := p.pagesPerBlock / 4 * p.pageBytes / p.cwBytes

/-- Bytes that the device fills at the end of a block in QLC mode. -/
def FlashProfile.filler (p : FlashProfile) : Nat := p.pagesPerBlock * p.pageBytes % p.cwBytes

/-- The pages that codeword `c` of a block lies in: one, or two where it spans (R139). -/
def FlashProfile.pagesOf (p : FlashProfile) (c : Nat) : Nat × Nat :=
  (c * p.cwBytes / max 1 p.pageBytes, ((c + 1) * p.cwBytes - 1) / max 1 p.pageBytes)

/-- The first codeword that begins after the page in which codeword `c - 1` ends (R174).
[log 149: DEDUCED] -/
def FlashProfile.pageEnd (p : FlashProfile) (c : Nat) : Nat :=
  if c = 0 then 0 else (((p.pagesOf (c - 1)).2 + 1) * p.pageBytes + p.cwBytes - 1) / max 1 p.cwBytes

end Sys2Proof

namespace Sys2Proof.Machine

open Sys2Proof

/-! ### Keys and addresses (R99, R100) -/

/-- The unit key of a stream byte offset (R100). -/
def streamKey (stream offset : Nat) : Nat := stream * 2 ^ 32 + offset / 4096

/-- The extent key of a unit key (R100). -/
def extentKey (key : Nat) : Nat := key / 256

/-- A media address from member, die, block and codeword (R99). -/
def mkAddr (ch die blk cw : Nat) : Nat := ch * 2 ^ 34 + die * 2 ^ 30 + blk * 2 ^ 15 + cw

def addrCh (a : Nat) : Nat := bitsAt a 34 4
def addrDie (a : Nat) : Nat := bitsAt a 30 4
def addrBlock (a : Nat) : Nat := bitsAt a 15 15
def addrCw (a : Nat) : Nat := bitsAt a 0 15

/-- The block of an address: its codeword field 0 (R118). -/
def blockOf (a : Nat) : Nat := a / 2 ^ 15 * 2 ^ 15

/-- The global die index of an address (R135). -/
def globalDie (a : Nat) : Nat := 16 * addrCh a + addrDie a

/-- The super-block number of an address: its BLOCK field. -/
def superOf (a : Nat) : Nat := addrBlock a

/-- The members of the pool that take new stripes, in ascending order (R173, R178). -/
def Pool.online (p : Pool) : List Nat :=
  (p.members.filter fun m => m.2 == .online).map (·.1)

/-- The members whose die in slot `t` takes new stripes: slots on failed dies are left out (R172). -/
def Pool.groupOf (p : Pool) (t : Nat) : List Nat :=
  p.online.filter fun c => !p.failedDies.contains (16 * c + t)

/-- Data codewords and width of a redundancy code under a pool (R170). -/
def Pool.code (p : Pool) (redun : Nat) : Nat × Nat :=
  let k := if bitsAt redun 0 4 = 0 then p.k0 else bitsAt redun 0 4
  (k, k + if bitsAt redun 4 2 = 0 then 2 else 1)

/-- A redundancy code that R170 allows under a pool. -/
def Pool.codeOk (p : Pool) (redun : Nat) : Bool :=
  let kf := bitsAt redun 0 4
  bitsAt redun 6 2 == 0 && decide (bitsAt redun 4 2 ≤ 1) && kf != 1 && kf != 15 &&
    decide ((p.code redun).2 ≤ p.members.length)

/-- Data codewords and width of a new stripe in a group of `m` members: narrowed where fewer than the
code's width are healthy (R185). -/
def narrow (m k w : Nat) : Nat × Nat :=
  if m < w then (max 1 (m + k - w), max 1 (m + k - w) + (w - k)) else (k, w)

/-! ### Namespaces and streams -/

/-- Namespace `nsid`, where it exists. -/
def Store.ns? (d : Store) (nsid : Nat) : Option Ns := d.nss.find? (fun n => n.f.nsid == nsid)

/-- Namespace `nsid` changed by `g`. -/
def Store.modNsp (d : Store) (nsid : Nat) (g : Ns → Ns) : Store :=
  { d with nss := updIf (fun n => n.f.nsid == nsid) g d.nss }

/-- Classes of R72. -/
def Ns.isBlock (n : Ns) : Bool := n.f.cls == 0 || n.f.cls == 3
def Ns.isStream (n : Ns) : Bool := n.f.cls == 1 || n.f.cls == 2
def Ns.isRns (n : Ns) : Bool := n.f.cls == 2
def Ns.isSns (n : Ns) : Bool := n.f.cls == 1
def Ns.isIns (n : Ns) : Bool := n.f.cls == 3
/-- FLAGS of R73: ring-synchronous, wrap, mirror. -/
def Ns.ring (n : Ns) : Bool := bitAt n.f.flags 0
def Ns.wrap (n : Ns) : Bool := bitAt n.f.flags 1
def Ns.mirror (n : Ns) : Bool := bitAt n.f.flags 2

/-- NSID under which the new layout of a reshape keeps its map (R192). [log 73: DESIGN CHOICE] -/
def newLayout (nsid : Nat) : Nat := nsid + 0x8000

/-- The namespace is ring-synchronous, its new layout with it; one that does not exist is not. -/
def Store.isRing (d : Store) (nsid : Nat) : Bool :=
  match d.ns? (nsid % 0x8000) with
  | some n => n.ring
  | none => false

/-- The NSIDs of the ring-synchronous namespaces. -/
def Store.ringIds (d : Store) : List Nat := (d.nss.filter Ns.ring).map (·.f.nsid)

/-- `d` with its ring-synchronous namespaces, their streams, records and map as `b` has them (R23). [log 142: DEDUCED]
-/
def Store.withRing (d b : Store) : Store :=
  let ring := fun i => (d.ringIds ++ b.ringIds).contains (i % 0x8000)
  { d with
    nss := (d.nss.filter fun n => !ring n.f.nsid) ++ b.nss.filter fun n => ring n.f.nsid
    streams := (d.streams.filter fun x => !ring x.nsid) ++ b.streams.filter fun x => ring x.nsid
    recs := (d.recs.filter fun x => !ring x.nsid) ++ b.recs.filter fun x => ring x.nsid
    map := (d.map.filter fun x => !ring x.nsid) ++ b.map.filter fun x => ring x.nsid
    extents := (d.extents.filter fun x => !ring x.nsid) ++ b.extents.filter fun x => ring x.nsid
    lost := (d.lost.filter fun x => !ring x.1) ++ b.lost.filter fun x => ring x.1
    released := (d.released.filter fun x => !ring x.1) ++ b.released.filter fun x => ring x.1 }

/-- A stream, where it is bound (R78). -/
def Store.stream? (d : Store) (num : Nat) : Option Stream := d.streams.find? (fun x => x.num == num)

/-- A stream of a namespace changed by `g`. -/
def Store.modStream (d : Store) (num : Nat) (g : Stream → Stream) : Store :=
  { d with streams := updIf (fun x => x.num == num) g d.streams }

/-! ### The record header (R79, R80) -/

/-- Bytes 0x00 to 0x1B of a header. -/
def recFront (h : RecHeader) : Data :=
  bytesLE 4 h.declLen ++ bytesLE 2 h.stream ++ bytesLE 1 h.rtype ++ bytesLE 1 h.rflags ++
    bytesLE 8 h.epoch ++ bytesLE 4 h.tag ++ bytesLE 2 h.srcNode ++ bytesLE 2 h.rsv ++
    bytesLE 4 h.payCrc

/-- The 32 bytes of a header. -/
def recBytes (h : RecHeader) : Data := recFront h ++ bytesLE 4 h.hdrCrc

/-- The header as the device stores it: SRC_NODE kept for a link record, EPOCH the epoch of
admission, HDR_CRC computed again (R80). -/
def recStored (h : RecHeader) (fromLink : Bool) (node epoch : Nat) : RecHeader :=
  let h1 := { h with srcNode := if fromLink then h.srcNode else node, epoch := epoch }
  { h1 with hdrCrc := (crc32c (recFront h1)).toNat }

/-- The header that 32 bytes spell. -/
def headerOf (b : Data) : RecHeader :=
  let rd := fun a n => natLE ((b.drop a).take n)
  { declLen := rd 0 4, stream := rd 4 2, rtype := rd 6 1, rflags := rd 7 1, epoch := rd 8 8,
    tag := rd 16 4, srcNode := rd 20 2, rsv := rd 22 2, payCrc := rd 24 4, hdrCrc := rd 28 4 }

/-- A record as stored: header followed by payload (R83). -/
def Rec.bytes (r : Rec) : Data := recBytes r.hdr ++ r.payload

/-! ### Map entries -/

/-- Every unit of the range is in namespace `nsid`, keys [first, first + count). -/
def inRange (nsid first count : Nat) (n key : Nat) : Bool :=
  n == nsid && decide (first ≤ key) && decide (key < first + count)

/-- One map entry set; the LOST state of the unit clears with it (R125). -/
def Store.setUnit (d : Store) (nsid key : Nat) (e : MapEntry) : Store :=
  { d with
    map := (d.map.filter fun u => !(u.nsid == nsid && u.key == key)) ++ [⟨nsid, key, e⟩]
    lost := d.lost.filter fun x => !(x.1 == nsid && x.2 == key) }

/-- The namespace, or the one whose new layout the number names, is mapped in extents (R100, R192). -/
def Store.inExtents (d : Store) (nsid : Nat) : Bool := (d.ns? (nsid % 0x8000)).elim false Ns.isStream

/-- Overlay slots in use (R107). -/
def Store.slotsUsed (d : Store) : List Nat := d.extents.filterMap (·.ovl)

/-- The lowest overlay slot that is free. [log 148: DESIGN CHOICE] -/
def Store.freeSlot (d : Store) : Nat :=
  ((List.range (d.slotsUsed.length + 1)).find? fun i => !d.slotsUsed.contains i).getD 0

/-- The overlay of an extent takes the units `ks`: an UNMAPPED extent becomes FINE, a COARSE one COARSE_OVL, whose touched
units are then hot (R107). -/
def Store.overlay (d : Store) (nsid ek epoch : Nat) (ks : List Nat) : Store :=
  let same := fun x : Extent => x.nsid == nsid && x.key == ek
  let slot := d.freeSlot
  { d with extents :=
      if d.extents.any same then
        updIf same (fun x => { x with
          ovl := some (x.ovl.getD slot), changed := epoch
          hot := if x.run = [] then [] else (x.hot ++ ks).dedup }) d.extents
      else d.extents ++ [⟨nsid, ek, some slot, [], [], [], epoch⟩] }

/-- One map entry set, in the overlay of its extent where the namespace is mapped in extents (R118). -/
def Store.putUnit (d : Store) (nsid key epoch : Nat) (e : MapEntry) : Store :=
  let d1 := d.setUnit nsid key e
  if d.inExtents nsid then d1.overlay nsid (extentKey key) epoch [key] else d1

/-- The units of a range that lie in extents that `p` picks. -/
def Store.extentKeys (d : Store) (p : Extent → Bool) (nsid first count : Nat) : List Nat :=
  (d.extents.filter fun x => x.nsid == nsid && p x).flatMap fun x =>
    ((List.range 256).map fun i => x.key * 256 + i).filter fun k => decide (first ≤ k) && decide (k < first + count)

/-- Units [first, first + count) of a stream set to ZERO in the overlays of their extents (R109). -/
def Store.zeroUnits (d : Store) (nsid first count epoch : Nat) : Store :=
  (d.extentKeys (fun _ => true) nsid first count).foldl (fun d k => d.putUnit nsid k epoch .zero) d

/-- Units [first, first + count) set to UNMAPPED; extents that lie inside the range go with them, and a unit of a run that
stays is set to ZERO, since it must not fall through (R99). -/
def Store.unmap (d : Store) (nsid first count : Nat) : Store :=
  let ks := d.extentKeys (fun x => x.run != [] &&
    !(decide (first ≤ x.key * 256) && decide (x.key * 256 + 256 ≤ first + count))) nsid first count
  let d1 := { d with
    map := d.map.filter fun u => !inRange nsid first count u.nsid u.key
    lost := d.lost.filter fun x => !inRange nsid first count x.1 x.2
    extents := d.extents.filter fun x =>
      !(x.nsid == nsid && decide (first ≤ x.key * 256) && decide (x.key * 256 + 256 ≤ first + count)) }
  ks.foldl (fun d k => d.putUnit nsid k d.sealed .zero) d1

/-- An extent becomes COARSE over the codewords `run`, with the offsets of its head where it has one; units in `lost` stay
LOST in an overlay over it (R106, R108, R112, R241). -/
def Store.putRun (d : Store) (nsid ek epoch : Nat) (run offs lost : List Nat) : Store :=
  let d1 := { d with
    map := d.map.filter fun u => !(u.nsid == nsid && extentKey u.key == ek && !lost.contains u.key)
    extents := d.extents.filter fun x => !(x.nsid == nsid && x.key == ek) }
  { d1 with extents := d1.extents ++
      [⟨nsid, ek, if lost = [] then none else some d1.freeSlot, run, offs, lost, epoch⟩] }

/-- The redundancy code of a namespace, 0 where it does not exist; that of a new layout is the reshape's. -/
def Store.redunOf (d : Store) (nsid : Nat) : Nat :=
  if 0x8000 ≤ nsid then d.reshape.code else
  match d.ns? nsid with
  | some n => n.f.redun
  | none => 0

/-- A landing item at its seal: each unit names the item's first codeword (R107, R118, R240). -/
def Store.applyItem (d : Store) (it : Item) (epoch : Nat) : Store :=
  it.units.foldl (fun d u => d.putUnit it.nsid u.1 epoch (.flash (it.addr.getD 0))) d

/-- A record at its seal: it stands in the namespace's record sequence (R84). -/
def Store.applyRecord (d : Store) (r : Rec) : Store :=
  { d with recs := d.recs ++ [r] }

/-- One effect of an epoch's data on the durable state. -/
def Store.applyFx (d : Store) (epoch : Nat) : Fx → Store
  | .item it => d.applyItem it epoch
  | .unmap nsid first count => d.unmap nsid first count
  | .zero nsid first count => d.zeroUnits nsid first count epoch
  | .lost nsid key =>
    { d.putUnit nsid key epoch .lost with
      lost := (d.lost.filter fun x => !(x.1 == nsid && x.2 == key)) ++ [(nsid, key)] }
  | .record r => d.applyRecord r
  | .stored nsid stream n =>
    if d.streams.any (fun x => x.num == stream) then d.modStream stream fun x => { x with stored := n }
    else { d with streams := d.streams ++ [⟨stream, nsid, true, false, n⟩] }
  | .release nsid stream ext =>
    { d.unmap nsid ((stream * 2 ^ 24 + ext) * 256) 256 with
      released := d.released ++ [(nsid, stream, ext)] }

/-- The namespace that an effect touches. -/
def Fx.nsid : Fx → Nat
  | .item it => it.nsid
  | .unmap n _ _ => n
  | .zero n _ _ => n
  | .lost n _ => n
  | .record r => r.nsid
  | .stored n _ _ => n
  | .release n _ _ => n

/-! ### The record chain (R83, R84) -/

/-- Genesis value of an RNS (R83). -/
def chainGenesis (nsid created : Nat) : Data :=
  sha256 (bytesLE 4 nsid ++ bytesLE 4 0 ++ bytesLE 8 created)

/-- The chain head of a namespace. -/
def Ns.chainHead (n : Ns) : Data :=
  match n.links.getLast? with
  | some l => l.head
  | none => n.genesis

/-- The link of epoch `epoch` over its records, in order of admission (R83, R84). -/
def Ns.chainLink (n : Ns) (epoch rclk : Nat) (rs : List Rec) : ChainLink :=
  let digest := sha256 (rs.flatMap Rec.bytes)
  { epoch := epoch, rclk := rclk, count := rs.length, payload := sumBy (fun r => r.payload.length) rs,
    firstOffset := n.admitted, digest := digest,
    head := sha256 (n.chainHead ++ bytesLE 8 epoch ++ bytesLE 8 rclk ++ bytesLE 4 rs.length ++ digest) }

/-- An RNS after an epoch that admitted `rs` to it: no record, no link. -/
def Ns.addLink (n : Ns) (epoch rclk : Nat) (rs : List Rec) : Ns :=
  if n.isRns ∧ rs ≠ [] then
    { n with
      links := n.links ++ [n.chainLink epoch rclk rs]
      admitted := n.admitted + sumBy (fun r => 32 + r.payload.length) rs
      records := n.records + rs.length }
  else n

/-- The records of a list of effects in one namespace. -/
def fxRecords (nsid : Nat) (fx : List Fx) : List Rec :=
  fx.filterMap fun x => match x with
    | .record r => if r.nsid = nsid then some r else none
    | _ => none

/-- The effects of an epoch on the namespaces that `p` picks, chain links included. -/
def Store.applyEpoch (d : Store) (e : Epoch) (p : Nat → Bool) : Store :=
  let fx := e.fx.filter fun x => p x.nsid
  let d1 := fx.foldl (fun d x => d.applyFx e.n x) d
  { d1 with
    nss := d1.nss.map fun n =>
      if p n.f.nsid then n.addLink e.n (e.rclkCut / 1000000) (fxRecords n.f.nsid fx) else n }

/-! ### Resolution (R104) -/

/-- What a unit resolves to: data staged or landed in an unsealed epoch, zeros, LOST, or a codeword
on flash. -/
inductive Hit where
  | pending (epoch : Nat) (bytes : Data) (pi : Option PiField)
  | zero (epoch : Option Nat)
  | lost
  | flash (addr : Nat)
  deriving DecidableEq, Repr

/-- What one effect says of a unit. -/
def Fx.hit (nsid key epoch : Nat) : Fx → Option Hit
  | .item it =>
    if it.nsid = nsid then
      (it.units.find? (fun u => u.1 == key)).map fun u => .pending epoch u.2 it.pi
    else none
  | .unmap n f c => if inRange n f c nsid key then some (.zero (some epoch)) else none
  | .zero n f c => if inRange n f c nsid key then some (.zero (some epoch)) else none
  | .lost n k => if n = nsid ∧ k = key then some .lost else none
  | .record _ => none
  | .stored .. => none
  | .release n st x =>
    if inRange n ((st * 2 ^ 24 + x) * 256) 256 nsid key then some (.zero (some epoch)) else none

/-- The newest unsealed effect on a unit: the newest epoch first, within it the latest first. -/
def State.pendingHit (s : State) (nsid key : Nat) : Option Hit :=
  (s.hz.epochs.reverse).findSome? fun e => (e.fx.reverse).findSome? fun x => x.hit nsid key e.n

/-- The codeword of the run of an extent at which unit `i` of it is found: START + i, or by the offsets of its head (R241).
-/
def Extent.at_ (x : Extent) (i : Nat) : Option Nat := if x.offs = [] then x.run[i]? else x.run[x.offs.getD i 0xFFFF]?

/-- What the durable map says of a unit: an overlay entry first, then the coarse run (R106, R107). -/
def Store.mapHit (d : Store) (nsid key : Nat) : Hit :=
  match d.map.find? (fun u => u.nsid == nsid && u.key == key) with
  | some u =>
    (match u.entry with
     | .flash a => .flash a
     | .zero => .zero none
     | .lost => .lost)
  | none =>
    match (d.extents.find? (fun x => x.nsid == nsid && x.key == extentKey key)).bind fun x => x.at_ (key % 256) with
    | some a => .flash a
    | none => .zero none

/-- The durable map names the codeword at `a`. -/
def Store.names (d : Store) (a : Nat) : Bool :=
  d.map.any (fun u => u.entry == .flash a) || d.extents.any fun x => x.run.contains a

/-- resolve of R104. -/
def State.resolve (s : State) (nsid key : Nat) : Hit :=
  match s.pendingHit nsid key with
  | some h => h
  | none => s.store.mapHit nsid key

/-- The data of a unit padded to 4,096 bytes. [log 128: DESIGN CHOICE] -/
def padUnit (d : Data) : Data := (d ++ List.replicate (4096 - d.length) 0).take 4096

/-- The codeword at an address, where one is programmed. -/
def State.cell? (s : State) (addr : Nat) : Option Codeword :=
  s.flash.cells.find? (fun c => c.addr == addr)

/-- The data of a unit as it would be read: zeros where nothing holds it. -/
def State.unitData (s : State) (nsid key : Nat) : Data :=
  match s.resolve nsid key with
  | .pending _ b _ => b
  | .zero _ => []
  | .lost => []
  | .flash a =>
    match s.cell? a with
    | some c => ((c.units.find? (fun u => u.1 == key)).map (·.2)).getD []
    | none => []

/-- The protection information stored with a block unit. -/
def State.unitPi (s : State) (nsid key : Nat) : Option PiField :=
  match s.resolve nsid key with
  | .pending _ _ p => p
  | .flash a => (s.cell? a).bind (·.pi)
  | _ => none

/-- The stored end of a stream as admission sees it: the newest admitted end. -/
def State.streamEnd (s : State) (num : Nat) : Nat :=
  let pend := (s.hz.epochs.reverse).findSome? fun e => (e.fx.reverse).findSome? fun x =>
    match x with
    | .stored _ st n => if st = num then some n else none
    | _ => none
  match pend with
  | some n => n
  | none => (s.store.stream? num).elim 0 (·.stored)

/-! ### Streams in force (R78) -/

/-- A stream's binding, with open and designated as they stand in this tick: until the tick from
which a sealed change takes effect, as they stood before it. -/
def State.streamNow (s : State) (num : Nat) : Option Stream :=
  (s.store.stream? num).map fun x =>
    match s.ns.streamChg.find? (fun c => c.stream == num && decide (s.hz.epoch < c.from_)) with
    | some c => { x with isOpen := c.isOpen, designated := c.designated }
    | none => x

/-- The stream is bound to the namespace and open now. -/
def State.streamOpen (s : State) (nsid num : Nat) : Bool :=
  match s.streamNow num with
  | some x => x.nsid == nsid && x.isOpen
  | none => false

/-! ### Space -/

/-- User space that a namespace of these fields consumes, in bytes (R171). [log 23: DEDUCED] -/
def Pool.consumes (p : Pool) (n : NsFields) : Nat :=
  let (k, w) := p.code n.redun
  let one := n.capacity * 4096 * w
  let mib := (one + k * 1048576 - 1) / (max 1 k * 1048576) * 1048576
  if n.cls = 3 then 4 * mib else mib

/-- The user space of the pool in bytes (R128): raw capacity less over-provisioning. Until a pool
is formed it is 0 (R169). -/
def State.userSpace (s : State) (op : Nat) : Nat :=
  if s.store.pool.formed then
    let raw := sumBy (fun c =>
      if s.store.pool.members.any (fun m => m.1 == c.ch) then
        c.dies * (c.profile.blocksPerDie * c.profile.cwPerBlock) * 4096
      else 0) s.flash.channels
    raw * (100 - op) / 100
  else 0

/-- The namespaces as every accepted change leaves them: created and not yet sealed ones included,
deleted ones excluded. -/
def State.nsFieldsAccepted (s : State) : List NsFields :=
  s.hz.epochs.foldl (fun l e => e.ctrl.foldl (fun l c =>
    match c with
    | .nsCreate n _ _ => l ++ [n]
    | .nsDelete i => l.filter fun x => x.nsid != i
    | _ => l) l) (s.store.nss.map (·.f))

/-- User space that no namespace consumes. [log 32: DESIGN CHOICE] -/
def State.freeSpace (s : State) (op : Nat) : Nat :=
  s.userSpace op - sumBy s.store.pool.consumes s.nsFieldsAccepted

/-! ### Frozen regions (R90, R91) -/

/-- A region joined to a list: regions that overlap or adjoin it merge with it. -/
def mergeRegion (rs : List (Nat × Nat)) (r : Nat × Nat) : List (Nat × Nat) :=
  let touch := fun x : Nat × Nat => decide (x.1 ≤ r.2 + 1) && decide (r.1 ≤ x.2 + 1)
  let hit := rs.filter touch
  rs.filter (fun x => !touch x) ++
    [(hit.foldl (fun a x => min a x.1) r.1, hit.foldl (fun a x => max a x.2) r.2)]

/-- The epochs that a trigger in tick `n` covers at a period (R90). -/
def freezeSpan (freezeS periodUs n : Nat) : Nat × Nat :=
  (n + 1 - (freezeS * 1000000 + periodUs - 1) / periodUs, n)

/-- The record counts as freeze-designated and lies in the region. -/
def Rec.inRegion (r : Rec) (g : Nat × Nat) : Bool :=
  r.designated && decide (g.1 ≤ r.epoch) && decide (r.epoch ≤ g.2)

/-- Tick period in µs. -/
def State.periodUs (s : State) : Nat := 250 * s.hz.period

/-- Records of a namespace, sealed and pending, oldest first. -/
def State.records (s : State) (nsid : Nat) : List Rec :=
  (s.store.recs.filter fun r => r.nsid == nsid) ++
    s.hz.epochs.flatMap fun e => fxRecords nsid e.fx

/-- The frozen regions of a namespace, those triggered and not yet sealed included (R82, R90). -/
def State.regionsNow (s : State) (nsid : Nat) : List (Nat × Nat) :=
  ((s.store.ns? nsid).elim [] (·.regions)) ++
    (s.ns.triggered.filter fun t => t.1 == nsid).map fun t => (t.2.1, t.2.2)

end Sys2Proof.Machine
end

