-- ==== Sys2Proof/Machine/Mailbox.lean ====
section
/-!
DEFINITION. The mailbox: what R404 lists of each command, the checks of R401 in their order, and
the one operation by which every mailbox command runs (R398 to R403, R431, R485).
-/

namespace Sys2Proof.Machine

open Sys2Proof

/-! ### The catalogue -/

/-- Who may issue a command: PF0; any function; PF0 or a function with the admin right to the NSID
in payload [31:0]; PF0 or the function that a payload field names, where 0 names the issuer
(`self lo n`) or PF0 (`own lo n`). -/
inductive Issuer where
  | pf0
  | any
  | nsAdmin
  | self (lo n : Nat)
  | own (lo n : Nat)
  deriving DecidableEq, Repr

/-- Reply kinds of R402. -/
inductive MbKind where
  | basic | persist | long
  deriving DecidableEq, Repr

/-- What the chapter of a command says of its message: opcode, payload bytes, RSV fields
(first bit, width) with the status of row 7 of R401, ranges (first bit, width, least, greatest),
issuers, whether R431 serves it in HELD, and its kind. -/
structure MbMeta where
  opcode : Nat
  len    : Nat
  rsv    : List (Nat × Nat)
  rng    : List (Nat × Nat × Nat × Nat)
  issuer : Issuer
  held   : Bool
  kind   : MbKind
  deriving DecidableEq, Repr

/-! Device (R405) -/

def Mb.devIdentify : MbMeta :=
  ⟨0x0101, 0, [], [], .any, true, .basic⟩
def Mb.devCertRead : MbMeta :=
  ⟨0x0102, 8, [(8, 24)], [(0, 8, 0, 2)], .any, true, .basic⟩
def Mb.paramSet : MbMeta :=
  ⟨0x0103, 16, [(16, 16)], [], .any, false, .basic⟩
def Mb.paramGet : MbMeta :=
  ⟨0x0104, 8, [(16, 16)], [], .any, true, .basic⟩
def Mb.devResources : MbMeta :=
  ⟨0x0105, 0, [], [], .any, true, .basic⟩
def Mb.devShockConfigure : MbMeta :=
  ⟨0x0106, 4, [(1, 31)], [], .pf0, false, .persist⟩
/-- The pulse width has the range 1 to 100. [log 41: DEDUCED] -/
def Mb.devTickoutConfigure : MbMeta :=
  ⟨0x0107, 4, [(2, 14), (24, 8)], [(16, 8, 1, 100)], .pf0, false, .persist⟩
def Mb.devLongResult : MbMeta :=
  ⟨0x0108, 4, [], [], .any, true, .basic⟩

/-! Functions and queues (R363, R395) -/

def Mb.fnCreate : MbMeta :=
  ⟨0x0201, 64, [], [], .pf0, false, .basic⟩
def Mb.fnDestroy : MbMeta :=
  ⟨0x0202, 4, [(16, 16)], [(0, 16, 1, 255)], .pf0, false, .basic⟩
def Mb.fnReset : MbMeta :=
  ⟨0x0203, 4, [(16, 16)], [(0, 16, 0, 255)], .pf0, false, .basic⟩
def Mb.fnInfo : MbMeta :=
  ⟨0x0204, 4, [(16, 16)], [], .own 0 16, true, .basic⟩
def Mb.fnPool : MbMeta :=
  ⟨0x0205, 0, [], [], .pf0, true, .basic⟩
def Mb.fnHostConfigure : MbMeta :=
  ⟨0x0206, 4, [], [], .pf0, false, .persist⟩
def Mb.fnPf0Grant : MbMeta :=
  ⟨0x0207, 64, [], [], .pf0, false, .persist⟩
def Mb.fnLinkStatus : MbMeta :=
  ⟨0x0208, 0, [], [], .pf0, true, .basic⟩
def Mb.fnQueueCreate : MbMeta :=
  ⟨0x0209, 32, [], [], .any, false, .basic⟩
def Mb.fnQueueDelete : MbMeta :=
  ⟨0x020A, 4, [(16, 16)], [], .any, false, .long⟩
def Mb.fnQueueStatus : MbMeta :=
  ⟨0x020B, 8, [(32, 32)], [], .self 16 16, false, .basic⟩
def Mb.fnCmdAbort : MbMeta :=
  ⟨0x020C, 8, [(48, 16)], [], .self 32 16, false, .basic⟩
def Mb.fnQueueTimer : MbMeta :=
  ⟨0x020D, 4, [(2, 30)], [], .pf0, false, .persist⟩
def Mb.fnEventConfigure : MbMeta :=
  ⟨0x020E, 16, [], [], .any, false, .basic⟩

/-! Namespaces (R96) -/

def Mb.nsCreate : MbMeta :=
  ⟨0x0301, 32, [], [], .pf0, false, .persist⟩
def Mb.nsDelete : MbMeta :=
  ⟨0x0302, 4, [], [(0, 32, 1, 1024)], .pf0, false, .persist⟩
def Mb.nsAttach : MbMeta :=
  ⟨0x0303, 8, [(53, 11)], [(0, 32, 1, 1024)], .pf0, false, .persist⟩
def Mb.nsDetach : MbMeta :=
  ⟨0x0304, 8, [(48, 16)], [(0, 32, 1, 1024)], .pf0, false, .persist⟩
def Mb.nsInfo : MbMeta :=
  ⟨0x0305, 4, [], [(0, 32, 1, 1024)], .nsAdmin, false, .basic⟩
def Mb.nsStreamOpen : MbMeta :=
  ⟨0x0306, 8, [(45, 19)], [(0, 32, 1, 1024)], .nsAdmin, false, .persist⟩
def Mb.nsStreamClose : MbMeta :=
  ⟨0x0307, 8, [(44, 20)], [(0, 32, 1, 1024)], .nsAdmin, false, .persist⟩
def Mb.nsRetentionLengthen : MbMeta :=
  ⟨0x0308, 8, [], [(0, 32, 1, 1024)], .nsAdmin, false, .persist⟩
def Mb.nsRclockSet : MbMeta :=
  ⟨0x0309, 8, [], [], .pf0, false, .persist⟩
def Mb.nsChainAnchor : MbMeta :=
  ⟨0x030A, 4, [], [(0, 32, 1, 1024)], .nsAdmin, false, .basic⟩
def Mb.nsRnsTrim : MbMeta :=
  ⟨0x030B, 16, [(32, 32)], [(0, 32, 1, 1024)], .pf0, false, .long⟩
def Mb.nsFreeze : MbMeta :=
  ⟨0x030C, 4, [], [(0, 32, 1, 1024)], .nsAdmin, false, .persist⟩
def Mb.nsUnfreeze : MbMeta :=
  ⟨0x030D, 16, [(32, 32)], [(0, 32, 1, 1024)], .nsAdmin, false, .persist⟩
def Mb.nsImageOpen : MbMeta :=
  ⟨0x030E, 8, [(34, 30)], [(0, 32, 1, 1024)], .nsAdmin, false, .persist⟩
def Mb.nsImageVerify : MbMeta :=
  ⟨0x030F, 48, [(34, 30)], [(0, 32, 1, 1024)], .nsAdmin, false, .long⟩
def Mb.nsImageActivate : MbMeta :=
  ⟨0x0310, 8, [(34, 30)], [(0, 32, 1, 1024)], .nsAdmin, false, .persist⟩
def Mb.nsImageRollback : MbMeta :=
  ⟨0x0311, 4, [], [(0, 32, 1, 1024)], .nsAdmin, false, .persist⟩
def Mb.nsImageErase : MbMeta :=
  ⟨0x0312, 8, [(34, 30)], [(0, 32, 1, 1024)], .nsAdmin, false, .persist⟩

/-! Horizon (R70) -/

def Mb.hzConfigure : MbMeta :=
  ⟨0x0401, 4, [(24, 8)], [(0, 8, 1, 40), (8, 8, 0, 2), (16, 8, 1, 4)], .pf0, false, .persist⟩
def Mb.hzStatus : MbMeta :=
  ⟨0x0402, 0, [], [], .any, true, .basic⟩
def Mb.hzPlanRead : MbMeta :=
  ⟨0x0403, 0, [], [], .any, false, .basic⟩
def Mb.hzRingRelease : MbMeta :=
  ⟨0x0404, 0, [], [], .pf0, false, .persist⟩

/-! Flash translation and media (R131, R167) -/

def Mb.ftStatus : MbMeta :=
  ⟨0x0501, 0, [], [], .pf0, true, .basic⟩
def Mb.ftProfile : MbMeta :=
  ⟨0x0502, 4, [(10, 22)], [(0, 8, 7, 28), (8, 2, 0, 2)], .pf0, false, .persist⟩
def Mb.ftLostList : MbMeta :=
  ⟨0x0503, 4, [], [], .pf0, false, .basic⟩
def Mb.mediaStatus : MbMeta :=
  ⟨0x0504, 4, [(4, 28)], [], .pf0, true, .basic⟩
def Mb.mediaHealth : MbMeta :=
  ⟨0x0505, 4, [(8, 24)], [], .pf0, true, .basic⟩
def Mb.mediaOffsetsRead : MbMeta :=
  ⟨0x0506, 4, [(13, 19)], [], .pf0, false, .basic⟩
def Mb.mediaProfileList : MbMeta :=
  ⟨0x0507, 0, [], [], .pf0, false, .basic⟩
def Mb.mediaPatrol : MbMeta :=
  ⟨0x0508, 0, [], [], .pf0, false, .long⟩
def Mb.mediaCare : MbMeta :=
  ⟨0x0509, 4, [(2, 30)], [(0, 2, 0, 2)], .pf0, false, .persist⟩

/-! Redundancy (R200) -/

def Mb.rdPoolForm : MbMeta :=
  ⟨0x0601, 4, [(20, 12)], [], .pf0, false, .long⟩
def Mb.rdStatus : MbMeta :=
  ⟨0x0602, 0, [], [], .pf0, true, .basic⟩
def Mb.rdReshape : MbMeta :=
  ⟨0x0603, 8, [(40, 24)], [], .pf0, false, .long⟩
def Mb.rdReshapeCancel : MbMeta :=
  ⟨0x0604, 4, [], [], .pf0, false, .basic⟩
def Mb.rdProfile : MbMeta :=
  ⟨0x0605, 4, [(1, 31)], [], .pf0, false, .persist⟩
def Mb.rdMemberFail : MbMeta :=
  ⟨0x0606, 4, [(4, 28)], [], .pf0, false, .persist⟩

/-! Halo (R224) -/

def Mb.haloTableCreate : MbMeta :=
  ⟨0x0701, 8, [(14, 18)], [(0, 8, 1, 128), (8, 3, 1, 4), (12, 2, 0, 2)], .any, false, .basic⟩
def Mb.haloTableDestroy : MbMeta :=
  ⟨0x0702, 4, [(8, 24)], [], .any, false, .basic⟩
def Mb.haloTableInsert : MbMeta :=
  ⟨0x0703, 48, [(274, 6), (280, 8), (352, 32)], [], .any, false, .basic⟩
def Mb.haloTableDelete : MbMeta :=
  ⟨0x0704, 8, [(8, 24)], [], .any, false, .basic⟩
def Mb.haloTableModify : MbMeta :=
  ⟨0x0705, 48, [(274, 6), (280, 8), (352, 32)], [(272, 2, 0, 0)], .any, false, .basic⟩
def Mb.haloTableRead : MbMeta :=
  ⟨0x0706, 8, [(9, 23)], [], .any, false, .basic⟩
def Mb.haloTableCompact : MbMeta :=
  ⟨0x0707, 4, [(8, 24)], [], .any, false, .long⟩
def Mb.haloTableSearch : MbMeta :=
  ⟨0x0708, 32, [], [], .any, false, .basic⟩
def Mb.haloStatus : MbMeta :=
  ⟨0x0709, 0, [], [], .any, false, .basic⟩

/-! Squall (R247) -/

def Mb.sqProfile : MbMeta :=
  ⟨0x0801, 4, [(4, 4), (16, 16)], [(0, 4, 1, 12)], .self 8 8, false, .basic⟩
def Mb.sqStatus : MbMeta :=
  ⟨0x0802, 0, [], [], .any, false, .basic⟩

/-! Anvil and modules (R295) -/

def Mb.modKeyEnroll : MbMeta :=
  ⟨0x0A01, 100, [(8, 24)], [(0, 8, 0, 7)], .pf0, false, .persist⟩
def Mb.modKeyRevoke : MbMeta :=
  ⟨0x0A02, 4, [(8, 24)], [(0, 8, 0, 7)], .pf0, false, .persist⟩
def Mb.modLoad : MbMeta :=
  ⟨0x0A03, 16, [(96, 32)], [], .any, false, .long⟩
def Mb.modUnload : MbMeta :=
  ⟨0x0A04, 4, [(16, 16)], [], .any, false, .basic⟩
def Mb.modList : MbMeta :=
  ⟨0x0A05, 0, [], [], .any, false, .basic⟩
def Mb.anvConfigure : MbMeta :=
  ⟨0x0A06, 4, [(2, 30)], [], .pf0, false, .persist⟩
def Mb.anvProfile : MbMeta :=
  ⟨0x0A07, 4, [(2, 6), (16, 16)], [(0, 2, 0, 2)], .self 8 8, false, .basic⟩
def Mb.anvStatus : MbMeta :=
  ⟨0x0A08, 0, [], [], .any, false, .basic⟩
def Mb.anvStats : MbMeta :=
  ⟨0x0A09, 4, [(13, 19)], [(6, 7, 1, 64)], .any, false, .basic⟩
def Mb.anvFaultRead : MbMeta :=
  ⟨0x0A0A, 4, [(4, 28)], [], .any, false, .basic⟩

/-! Zelim (R337) -/

def Mb.zlPortConfigure : MbMeta :=
  ⟨0x0B01, 8, [(8, 24)], [(0, 2, 0, 2)], .pf0, false, .persist⟩
def Mb.zlPortStatus : MbMeta :=
  ⟨0x0B02, 4, [(2, 30)], [(0, 2, 0, 2)], .pf0, true, .basic⟩
def Mb.zlNodeSet : MbMeta :=
  ⟨0x0B03, 4, [(16, 16)], [(0, 16, 1, 65534)], .pf0, false, .persist⟩
def Mb.zlTrustEnroll : MbMeta :=
  ⟨0x0B04, 68, [(16, 16)], [(0, 8, 0, 7), (8, 8, 0, 1)], .pf0, false, .persist⟩
def Mb.zlTrustRevoke : MbMeta :=
  ⟨0x0B05, 4, [(8, 24)], [(0, 8, 0, 7)], .pf0, false, .persist⟩
def Mb.zlPeerAdmit : MbMeta :=
  ⟨0x0B06, 20, [(2, 30)], [(0, 2, 0, 2)], .pf0, false, .basic⟩
def Mb.zlGroupForm : MbMeta :=
  ⟨0x0B07, 4, [(1, 31)], [], .pf0, false, .long⟩
def Mb.zlGroupJoin : MbMeta :=
  ⟨0x0B08, 4, [(1, 31)], [], .pf0, false, .long⟩
def Mb.zlGroupLeave : MbMeta :=
  ⟨0x0B09, 0, [], [], .pf0, false, .persist⟩
def Mb.zlGroupStatus : MbMeta :=
  ⟨0x0B0A, 0, [], [], .pf0, true, .basic⟩
def Mb.zlMemberAdmit : MbMeta :=
  ⟨0x0B0B, 4, [(17, 15)], [], .pf0, false, .basic⟩
def Mb.zlRouteSet : MbMeta :=
  ⟨0x0B0C, 16, [(112, 16)], [(32, 16, 0, 4095), (64, 32, 1, 1024), (96, 16, 0, 4095)], .pf0, false, .basic⟩
def Mb.zlRouteClear : MbMeta :=
  ⟨0x0B0D, 8, [(48, 16)], [(32, 16, 0, 4095)], .pf0, false, .basic⟩
def Mb.zlMirrorBreak : MbMeta :=
  ⟨0x0B0E, 4, [], [], .pf0, false, .persist⟩
def Mb.zlFenceClear : MbMeta :=
  ⟨0x0B0F, 4, [(2, 30)], [(0, 2, 0, 2)], .pf0, false, .basic⟩

/-! Power (R444) -/

def Mb.pwStateSet : MbMeta :=
  ⟨0x0C01, 4, [(3, 29)], [(0, 3, 0, 4)], .pf0, false, .basic⟩
def Mb.pwStatus : MbMeta :=
  ⟨0x0C02, 0, [], [], .any, true, .basic⟩
def Mb.pwHoldupMeasure : MbMeta :=
  ⟨0x0C03, 68, [(1, 31)], [], .pf0, true, .long⟩

/-! Firmware (R421) -/

def Mb.fwStatus : MbMeta :=
  ⟨0x0D01, 0, [], [], .pf0, true, .basic⟩
def Mb.fwDownload : MbMeta :=
  ⟨0x0D02, 16, [(96, 32)], [], .pf0, true, .long⟩
def Mb.fwActivate : MbMeta :=
  ⟨0x0D03, 4, [(2, 30)], [], .pf0, true, .long⟩
def Mb.fwCommit : MbMeta :=
  ⟨0x0D04, 0, [], [], .pf0, false, .basic⟩
def Mb.fwDebugChallenge : MbMeta :=
  ⟨0x0D05, 0, [], [], .pf0, false, .basic⟩
def Mb.fwDebugUnlock : MbMeta :=
  ⟨0x0D06, 128, [], [], .pf0, false, .basic⟩
def Mb.fwDebugDisable : MbMeta :=
  ⟨0x0D07, 4, [], [(0, 32, 1146048069, 1146048069)], .pf0, false, .basic⟩
def Mb.fwKeyRevoke : MbMeta :=
  ⟨0x0D08, 4, [(2, 30)], [], .pf0, false, .basic⟩

/-! Log and telemetry (R421) -/

def Mb.logRead : MbMeta :=
  ⟨0x0E01, 8, [(40, 24)], [], .any, true, .basic⟩
def Mb.logStatus : MbMeta :=
  ⟨0x0E02, 0, [], [], .any, true, .basic⟩
def Mb.telSampleConfigure : MbMeta :=
  ⟨0x0E03, 4, [(2, 14)], [], .pf0, false, .persist⟩

/-- Every command of R404. -/
def catalogue : List MbMeta :=
  [Mb.devIdentify, Mb.devCertRead, Mb.paramSet, Mb.paramGet, Mb.devResources,
    Mb.devShockConfigure, Mb.devTickoutConfigure, Mb.devLongResult] ++
  [Mb.fnCreate, Mb.fnDestroy, Mb.fnReset, Mb.fnInfo, Mb.fnPool, Mb.fnHostConfigure,
    Mb.fnPf0Grant, Mb.fnLinkStatus, Mb.fnQueueCreate, Mb.fnQueueDelete, Mb.fnQueueStatus,
    Mb.fnCmdAbort, Mb.fnQueueTimer, Mb.fnEventConfigure] ++
  [Mb.nsCreate, Mb.nsDelete, Mb.nsAttach, Mb.nsDetach, Mb.nsInfo, Mb.nsStreamOpen,
    Mb.nsStreamClose, Mb.nsRetentionLengthen, Mb.nsRclockSet, Mb.nsChainAnchor, Mb.nsRnsTrim,
    Mb.nsFreeze, Mb.nsUnfreeze, Mb.nsImageOpen, Mb.nsImageVerify, Mb.nsImageActivate,
    Mb.nsImageRollback, Mb.nsImageErase] ++
  [Mb.hzConfigure, Mb.hzStatus, Mb.hzPlanRead, Mb.hzRingRelease] ++
  [Mb.ftStatus, Mb.ftProfile, Mb.ftLostList, Mb.mediaStatus, Mb.mediaHealth, Mb.mediaOffsetsRead,
    Mb.mediaProfileList, Mb.mediaPatrol, Mb.mediaCare] ++
  [Mb.rdPoolForm, Mb.rdStatus, Mb.rdReshape, Mb.rdReshapeCancel, Mb.rdProfile, Mb.rdMemberFail] ++
  [Mb.haloTableCreate, Mb.haloTableDestroy, Mb.haloTableInsert, Mb.haloTableDelete,
    Mb.haloTableModify, Mb.haloTableRead, Mb.haloTableCompact, Mb.haloTableSearch, Mb.haloStatus] ++
  [Mb.sqProfile, Mb.sqStatus] ++
  [Mb.modKeyEnroll, Mb.modKeyRevoke, Mb.modLoad, Mb.modUnload, Mb.modList, Mb.anvConfigure,
    Mb.anvProfile, Mb.anvStatus, Mb.anvStats, Mb.anvFaultRead] ++
  [Mb.zlPortConfigure, Mb.zlPortStatus, Mb.zlNodeSet, Mb.zlTrustEnroll, Mb.zlTrustRevoke,
    Mb.zlPeerAdmit, Mb.zlGroupForm, Mb.zlGroupJoin, Mb.zlGroupLeave, Mb.zlGroupStatus,
    Mb.zlMemberAdmit, Mb.zlRouteSet, Mb.zlRouteClear, Mb.zlMirrorBreak, Mb.zlFenceClear] ++
  [Mb.pwStateSet, Mb.pwStatus, Mb.pwHoldupMeasure] ++
  [Mb.fwStatus, Mb.fwDownload, Mb.fwActivate, Mb.fwCommit, Mb.fwDebugChallenge, Mb.fwDebugUnlock,
    Mb.fwDebugDisable, Mb.fwKeyRevoke] ++
  [Mb.logRead, Mb.logStatus, Mb.telSampleConfigure]
/-! ### The checks of R401 -/

/-- Function `n` holds the admin right to a namespace now (R14). -/
def State.hasRight (s : State) (nsid n bit : Nat) : Bool :=
  s.ns.attachments.any fun a =>
    a.nsid == nsid && a.fn == n && bitAt a.rights bit && decide (a.from_ ≤ s.hz.epoch) &&
      (match a.until_ with | some u => decide (s.hz.epoch < u) | none => true)

/-- The issuing function may issue the command (R401 row 5). For a command of the admin right R484
names the statuses of a function without it, so row 5 lets the command pass. -/
def mayIssue (m : MbMeta) (n : Nat) (r : MbReq) : Bool :=
  n == 0 ||
  match m.issuer with
  | .pf0 => false
  | .any => true
  | .nsAdmin => true
  | .self lo w => fld r lo w == 0 || fld r lo w == n
  | .own lo w => fld r lo w == n

/-- Commands that the ROM mailbox service accepts in recovery mode (R410). -/
def servedInRecovery (opcode payload : Nat) : Bool :=
  opcode == 0x0101 || opcode == 0x0102 || opcode == 0x0D01 || opcode == 0x0D02 ||
    (opcode == 0x0D03 && bitAt payload 1) || opcode == 0x0E01

/-- Commands that run in HALTED (R64). -/
def servedInHalted (opcode : Nat) : Bool :=
  opcode == 0x0101 || opcode == 0x0102 || opcode == 0x0E01 || opcode == 0x0E02

/-- Row 4 of R401: outside recovery the command is one that R431 lists, or the device is in
neither BOOT nor HELD. -/
def State.row4 (s : State) (m : MbMeta) (r : MbReq) : Option Status :=
  if s.fw.recovery then
    if servedInRecovery m.opcode r.payload then none else some St.fwNoImage
  else if s.pw.st = .boot ∨ s.pw.st = .held then
    if m.held ∧ (m.opcode = 0x0D03 → bitAt r.payload 1 = true) then none else some St.pwHeld
  else none

/-- The command records a persistent change, or is long, in the sense of R485. -/
def refusedInP4 (m : MbMeta) (r : MbReq) : Bool :=
  match m.kind with
  | .persist => true
  | .long => !(m.opcode == 0x0D02 || (m.opcode == 0x0D03 && bitAt r.payload 1))
  | .basic =>
    m.opcode == 0x0103 && (match paramDef (fld r 0 16) with | some p => p.persist | none => false)

/-! ### Rows 7 and 8 of R401 whose conditions or statuses are the chapters' own -/

/-- The grant that a payload of R354 asks for. -/
def grantOfReq (r : MbReq) : Grant :=
  { qpairs := fldB r 2 2, vectors := fldB r 4 2, tags := fldB r 6 2, engines := fldB r 8 8, banks := fldB r 0x10 1
    squall := fldB r 0x11 1, mem := fldB r 0x12 2, write := fldB r 0x14 4, read := fldB r 0x18 4, scan := fldB r 0x1C 4
    dmaBase := fldB r 0x20 8, dmaLen := fldB r 0x28 8 }

/-- The DMA window of a share: aligned, of at least 4 KiB; no other function names one (R354). -/
def dmaFieldOk (share : Bool) (g : Grant) : Bool :=
  if share then g.dmaBase % 4096 == 0 && g.dmaLen % 4096 == 0 && decide (4096 ≤ g.dmaLen) &&
    decide (g.dmaBase + g.dmaLen ≤ 2 ^ 64)
  else g.dmaBase == 0 && g.dmaLen == 0

/-- Every field but FUNC lies within R353 and R354, for a function with at most `maxQ` pairs and `maxV` vectors. -/
def State.grantFieldsOk (s : State) (maxQ maxV : Nat) (share : Bool) (g : Grant) : Bool :=
  let d := s.accepted
  decide (1 ≤ g.qpairs) && decide (g.qpairs ≤ maxQ) && decide (1 ≤ g.vectors) && decide (g.vectors ≤ maxV) &&
    decide (1 ≤ g.tags) && decide (g.tags ≤ 4096) && decide (g.banks ≤ 128) && decide (g.squall ≤ s.squallPool) &&
    decide (g.mem ≤ min 256 s.memPool) && decide (g.write ≤ d.writeCap d.period) &&
    decide (g.read ≤ readCapacity d.period d.linkFloor) && decide (g.scan ≤ scanCapacity d.period) && dmaFieldOk share g

/-- The fields of an `ns.create` payload (R73). -/
def nsFieldsOf (r : MbReq) : NsFields :=
  { nsid := fldB r 0x00 4, cls := fldB r 0x04 1, flags := fldB r 0x05 1, pi := fldB r 0x06 1, redun := fldB r 0x07 1,
    capacity := fldB r 0x08 8, retainDays := fldB r 0x10 4, mirrorNode := fldB r 0x14 2, freezeS := fldB r 0x16 2,
    rsv := fldB r 0x18 8 }

/-- Every field lies in its range and the RSV fields are 0 (R73, and rows 7 and 8 of R401). [log 22, 23: DEDUCED] -/
def nsInRange (f : NsFields) : Bool :=
  decide (f.nsid ≤ 1024) && decide (f.cls ≤ 3) && decide (f.flags < 8) && decide (f.pi ≤ 2) &&
    decide (f.retainDays ≤ 36500) && decide (f.freezeS ≤ 600) && f.rsv == 0 &&
    (f.cls != 3 || (decide (1 ≤ f.capacity) && decide (f.capacity ≤ 16777216)))

/-- The board record that payload bytes 4 to 67 spell (R433), with STORE set and every field in order. [log 118:
DEDUCED] -/
def recordOf (req : MbReq) : Option BoardRecord :=
  let f := fun a n => fldB req (4 + a) n
  let bytes := bytesLE 60 (fldB req 4 60)
  let r : BoardRecord := ⟨0, f 0x0C 4, f 0x10 4, f 0x14 4, f 0x18 4, f 0x1C 1⟩
  if bitAt req.payload 0 = true ∧ f 0 4 = 0x50554448 ∧ f 4 2 = 1 ∧ f 6 2 = 0 ∧ f 8 4 = 0 ∧ f 0x1D 31 = 0 ∧
      f 0x3C 4 = (crc32c bytes).toNat ∧
      3000 ≤ r.vMin ∧ r.vMin ≤ 60000 ∧ 5000 ≤ r.pHold ∧ r.pHold ≤ 200000 ∧
      100 ≤ r.iTest ∧ r.iTest ≤ 20000 ∧ 1000 ≤ r.divider ∧ r.divider ≤ 100000 ∧
      50 ≤ r.eta ∧ r.eta ≤ 100 then some r else none

/-- Rows 7 and 8 of R401 beyond the lists of `MbMeta`: a comparator is none, HC2 or HC3; the count and the period have
ranges of their own; and where a chapter names its own status for a field outside its range or a reserved one, that
status is given (R74, R87, R297, R356, R363, R433). [log 22, 39, 40, 130: DEDUCED] -/
def State.ownRows (s : State) (m : MbMeta) (n : Nat) (r : MbReq) : Option Status :=
  let d := s.accepted
  let p := s.store.pool
  let bad : Status × Bool := match m.opcode with
    | 0x0107 | 0x020D | 0x0A06 => (St.mbRange, fld r 0 2 == 1)
    | 0x0206 => (St.fnField, fld r 1 2 != 0 || fld r 6 26 != 0 || decide (fld r 3 3 < 2) || decide (4 < fld r 3 3))
    | 0x0207 => (St.fnField, fldB r 0x30 16 != 0 || fldB r 0 2 != 0 ||
        !s.grantFieldsOk 256 (if d.hostMode = 0 then 256 else 2048) false (grantOfReq r))
    | 0x0301 => (St.nsClassField, !nsInRange (nsFieldsOf r) || (p.formed && !p.codeOk (nsFieldsOf r).redun))
    | 0x0308 => (St.nsClassField, decide (36500 < fld r 32 32))
    | 0x0703 => (St.mbRange, fld r 272 2 == 3 || (fld r 272 2 != 2 && fldB r 36 4 != 0))
    | 0x0B01 => (St.zlPortConfig, fld r 2 3 == 0 || decide (4 < fld r 2 3) || (bitAt r.payload 5 && bitAt r.payload 6))
    | 0x0C03 => if bitAt r.payload 0 then (St.pwHoldupRecord, (recordOf r).isNone) else (St.mbFormat, fldB r 4 64 != 0)
    | 0x0E01 => (St.mbRange, fld r 32 8 == 0 || decide ((if n = 0 then 127 else 31) < fld r 32 8))
    | 0x0E03 => let k := fld r 16 16
      (St.mbRange, fld r 0 2 == 1 || decide (k < 25) || decide (1000 < k) || k % 25 != 0 || decide (250 * d.period ≤ k))
    | _ => (St.ok, false)
  if bad.2 then some bad.1 else none

/-- The checks of R401 in their order, then that of R485. [log 130: DEDUCED] -/
def State.mbCheck (s : State) (m : MbMeta) (n : Nat) (r : MbReq) : Option Status :=
  if s.pw.st = .halted ∧ ¬ servedInHalted m.opcode then some St.halted
  else if r.hdrRsv ≠ 0 then some St.mbFormat
  else match s.row4 m r with
  | some st => some st
  | none =>
    if ¬ mayIssue m n r then some St.mbNotPermitted
    else if r.len ≠ m.len then some St.mbLength
    else if m.rsv.any fun x => fld r x.1 x.2 != 0 then some St.mbFormat
    else if m.rng.any fun x => decide (fld r x.1 x.2.1 < x.2.2.1) || decide (x.2.2.2 < fld r x.1 x.2.1)
    then some St.mbRange
    else match s.ownRows m n r with
    | some st => some st
    | none => if s.pw.st = .p4 ∧ refusedInP4 m r then some St.pwState else none

/-! ### Running a command -/

/-- How a command's own part ends. -/
inductive MbResult where
  /-- Refused after R401: the status and reply values; no state changes. -/
  | refuse (st : Status) (vals : List Nat)
  /-- A basic command: the reply values and the state after it. -/
  | basic (vals : List Nat) (s : State)
  /-- A persistent change: the state with the change recorded; the reply follows the seal. -/
  | persist (vals : List Nat) (s : State)
  /-- A long command: the body runs on the state that holds the new long command. -/
  | long (go : State)
  /-- The reply follows a later event that the body has arranged (R218, R426). -/
  | later (s : State)

/-- Sutas firmware, or the ROM mailbox service, takes commands now: not in BOOT before firmware
runs, not during a watchdog restart, a reset, a drain or STOPPED (R400, R401, R403, R437, R440). -/
def State.fwRuns (s : State) : Bool :=
  !s.pw.restarting &&
  (s.fw.recovery ||
    (s.pw.st != .boot && s.pw.st != .resetting && s.pw.st != .draining && s.pw.st != .stopped))

/-- The bytes of function `n`'s message area (R398). -/
def areaSize (n : Nat) : Nat := if n = 0 then 4096 else 1024

/-- An access to function `n`'s BARs that R347 or R400 counts. -/
def State.violate (s : State) (n : Nat) : State :=
  s.modFn n fun f => { f with viol := sat32 (f.viol + 1) }

/-- The host's message and GO: the request stands in the area, STATE becomes BUSY, and the command waits its turn
(R400 steps 2 to 4). [log 44: DEDUCED] -/
def State.accept (s : State) (n opcode : Nat) (r : MbReq) (area : List Host.Cell) : State :=
  (s.modFn n fun f => { f with
    mb := { f.mb with
    area := area, state := 1, request := some (opcode, r), reply := none } }).modRecs
    fun x => { x with goOrder := x.goOrder ++ [n] }

/-- Sutas firmware is done with function `n`'s request: the next one is due. -/
def State.taken (s : State) (n : Nat) : State :=
  s.modRecs fun r => { r with goOrder := r.goOrder.filter fun x => x != n }

/-- The reply that a command's own part gives is staged. -/
def State.finish (s : State) (m : MbMeta) (n : Nat) (r : MbReq) (body : State → MbResult) : State :=
  match body s with
  | .refuse st vals => s.stage n m.opcode r.tag st vals none
  | .basic vals s' => s'.stage n m.opcode r.tag St.ok vals none
  | .persist vals s' => s'.stage n m.opcode r.tag St.ok vals (some s.hz.epoch)
  | .long s' => s'.stage n m.opcode r.tag St.mbAccepted [s.recs.nextLong] none
  | .later s' => s'

/-- The reply of a basic command that an event after its own part brings, where the request still waits for it. -/
def State.laterReply (s : State) (n opcode tag : Nat) (vals : List Nat) : State :=
  if (s.fn? n).elim false fun f => f.mb.request.elim false fun r => r.1 == opcode && r.2.tag == tag then
    s.stage n opcode tag St.ok vals none
  else s

/-- A long command's own part: refused at eight open ones (R403), otherwise run on the state that holds it. [log 130:
DEDUCED] -/
def State.long (s : State) (m : MbMeta) (n : Nat) (go : State → State) : MbResult :=
  if 8 ≤ s.longsOpen n then .refuse St.mbLongLimit [] else .long (go (s.startLong n m.opcode))

/-- The request of function `n`, next in order, is checked and run (R401). -/
def State.serve (s : State) (m : MbMeta) (n : Nat) (r : MbReq) (body : State → MbResult) : State :=
  let s1 := s.taken n
  match s1.mbCheck m n r with
  | some st => s1.stage n m.opcode r.tag st [] none
  | none => s1.finish m n r body

/-- Function `n`'s accepted request is (`m`, `r`), it is next in order and firmware runs. [log 44: DEDUCED] -/
def State.mbReady (s : State) (m : MbMeta) (n : Nat) (r : MbReq) : Bool :=
  match s.fn? n with
  | some f =>
    f.mb.state == 1 && f.mb.request == some (m.opcode, r) &&
      s.recs.goOrder.head? == some n && s.fwRuns
  | none => false

/-- A mailbox command of function `n`. In a mailbox that is not BUSY the row stands for the host's message and GO, and
the command runs at once where it is its turn; in a BUSY mailbox it runs the request that GO accepted, and any other
message is a violation (R400). [log 44: DEDUCED] -/
def State.mbRun (s : State) (m : MbMeta) (n : Nat) (r : MbReq) (body : State → MbResult) : State :=
  match s.fn? n with
  | none => s
  | some f =>
    if ¬ s.fnLive n then
      -- a command accepted before a reset's t0 takes effect; its reply is discarded (R359)
      if f.st ≠ .active ∧ s.mbReady m n r then s.serve m n r body else s.violate n
    else if f.mb.state = 1 then
      if s.mbReady m n r then s.serve m n r body
      else if f.mb.request = some (m.opcode, r) then s
      else s.violate n
    else
      let s1 := s.accept n m.opcode r (Mem.putBytes f.mb.area 0 ((requestBytes m.opcode r).take (areaSize n)))
      if s1.mbReady m n r then s1.serve m n r body else s1

/-! ### Replies in the area -/

/-- The bytes of a reply's payload: those whose layout the spec states (R85, R292, R403, R405, R406, R408); for every
other reply the spec lists the values and no layout, so the bytes are open. [log 14: DESIGN CHOICE] -/
def replyBytes (r : Reply) : Data :=
  if r.status = St.resourceConflict then r.vals.flatMap fun v => bytesLE 2 v
  else if r.status = St.mbAccepted then
    (match r.opcode, r.vals with
     | 0x0108, _ => Config.replyLayout r.opcode r.vals
     | _, vals => vals.flatMap fun v => bytesLE 4 v)
  else if r.vals = [] then []
  else if r.opcode = 0x0102 then
    (match r.vals with
     | total :: bs => bytesLE 4 total ++ bs.map fun b => BitVec.ofNat 8 b
     | [] => [])
  else if r.opcode = 0x030A ∨ r.opcode = 0x0A09 then r.vals.map (BitVec.ofNat 8)
  else Config.replyLayout r.opcode r.vals

/-- Header and payload of a reply (R399). [log 14: DESIGN CHOICE] -/
def replyArea (r : Reply) : Data :=
  let p := replyBytes r
  bytesLE 2 r.opcode ++ bytesLE 2 p.length ++ bytesLE 2 r.tag ++ bytesLE 2 r.status.toNat ++
    bytesLE 8 0 ++ p

/-- The epoch that a reply awaits is sealed (R402). -/
def Reply.due (r : Reply) (sealed : Nat) : Bool :=
  match r.await with
  | some e => decide (e ≤ sealed)
  | none => true

end Sys2Proof.Machine
end

