-- ==== Sys2Proof/Machine/Layout.lean ====
section
/-!
DEFINITION. The layouts of what the device programs for itself (chapters 2 to 6 and 8): codeword metadata (R140), map entries
and segments (R99 to R101, R106), map delta entries (R117, R118), the epoch descriptor (R44), chain entries (R84), intent
entries (R187), open-block parity (R155), compressed segments and extent heads (R239, R241); and the arithmetic of P and Q
(R176, R177).
-/

namespace Sys2Proof.Machine

open Sys2Proof

/-! ### Bytes -/

/-- Bytes filled with zeros to `n`. -/
def fillTo (n : Nat) (d : Data) : Data := (d ++ List.replicate (n - d.length) 0).take n

/-- Bytes with their CRC-32C in the last four of `n` (R44, R84, R155, R187). -/
def withCrc (n : Nat) (d : Data) : Data :=
  let body := fillTo (n - 4) d
  body ++ bytesLE 4 (crc32c body).toNat

/-- Exclusive or of two byte strings; the shorter stands for itself followed by zeros. -/
def xorData : Data → Data → Data
  | [], ys => ys
  | xs, [] => xs
  | x :: xs, y :: ys => (x ^^^ y) :: xorData xs ys

/-- Every byte is 0. -/
def zeroData (d : Data) : Bool := d.all fun b => b == 0

/-- Two byte strings agree, the shorter followed by zeros. -/
def sameData (a b : Data) : Bool := zeroData (xorData a b)

/-- The 4,096-byte parts of a byte string, one at least. -/
def codewordsOf (d : Data) : List Data :=
  if d.isEmpty then [[]] else chunksOf 4096 (d.length / 4096 + 1) d

/-! ### Codewords (R140) -/

/-- CHECK of a codeword: its PI bytes, or CRC-32C over its data (R140, R195, R240). -/
def checkBytes (pi : Option PiField) (wide : Bool) (d : Data) : Data :=
  match pi with
  | some p =>
    if wide then bytesBE 8 p.guard ++ bytesBE 2 p.app ++ bytesBE 6 p.ref
    else bytesBE 2 p.guard ++ bytesBE 2 p.app ++ bytesBE 4 p.ref
  | none => bytesLE 4 (crc32c (padUnit d)).toNat

/-- The 32 metadata bytes of a codeword. -/
def Codeword.metaBytes (c : Codeword) : Data :=
  fillTo 32 (bytesLE 2 (c.nsid % 2048) ++ bytesLE 1 c.utype ++ bytesLE 1 c.flags ++ bytesLE 6 c.key ++ bytesLE 6 c.epoch ++
    checkBytes c.pi (bitAt c.flags 2) c.data)

/-- The 4,128 bytes that parity covers (R153, R176): data and metadata; those of a parity codeword are parity. -/
def Codeword.bytes (c : Codeword) : Data :=
  if c.utype = 4 then fillTo 4128 c.data else padUnit c.data ++ c.metaBytes

/-- A data or system codeword agrees with 4,128 bytes: R142 holds for them. -/
def Codeword.agrees (c : Codeword) (d : Data) : Bool := sameData c.bytes d

/-! ### GF(2^8) (R176, R177) -/

/-- A byte times g = 2 with the polynomial 0x11D. -/
def gfTwice (x : Byte) : Byte := if x.getLsbD 7 then (x <<< 1) ^^^ 0x1D else x <<< 1

/-- The product of two bytes: the multiples of `x` by powers of 2 that `y` picks. -/
def gfMul (x y : Byte) : Byte :=
  ((List.range 8).foldl (fun (a : Byte × Byte) i => (if y.getLsbD i then a.1 ^^^ a.2 else a.1, gfTwice a.2))
    ((0 : Byte), x)).1

/-- g to the power `n`. -/
def gfPow (n : Nat) : Byte := (List.range n).foldl (fun a _ => gfTwice a) 1

/-- The inverse of a byte that is not 0: its 254th power. -/
def gfInv (x : Byte) : Byte := (List.range 253).foldl (fun a _ => gfMul a x) x

/-- A byte string times a byte. -/
def gfScale (c : Byte) (d : Data) : Data := d.map (gfMul c)

/-- P of the data codewords of a stripe, D0 first. -/
def parityP (ds : List Data) : Data := ds.foldl xorData []

/-- Q of the data codewords of a stripe, D0 first. -/
def parityQ (ds : List Data) : Data :=
  (ds.zipIdx.map fun x => gfScale (gfPow x.2) x.1).foldl xorData []

/-- P or Q with every surviving data codeword removed (R177): `ds` has none where a codeword is an erasure. -/
def stripP (p : Data) (ds : List (Option Data)) : Data := xorData p (parityP (ds.map fun d => d.getD []))

def stripQ (q : Data) (ds : List (Option Data)) : Data := xorData q (parityQ (ds.map fun d => d.getD []))

/-- The two data codewords x < y from P′ and Q′ (R177). -/
def solveTwo (x y : Nat) (p q : Data) : Data × Data :=
  let dx := gfScale (gfInv (gfPow x ^^^ gfPow y)) (xorData q (gfScale (gfPow y) p))
  (dx, xorData p dx)

/-- The data codewords of a stripe reconstructed under the table of R177: `ds`, `p` and `q` have none where a codeword is an
erasure; `two` says that the code has Q. None where there are more erasures than parity. A single erasure is solved from P
where it is there. -/
def solveStripe (two : Bool) (ds : List (Option Data)) (p q : Option Data) : Option (List Data) :=
  let gone := (ds.zipIdx.filter fun x => x.1.isNone).map (·.2)
  let put := fun (v : Nat → Data) => ds.zipIdx.map fun x => x.1.getD (v x.2)
  match gone with
  | [] => some (put fun _ => [])
  | [x] =>
    match p with
    | some p => some (put fun _ => stripP p ds)
    | none => if two then q.map fun q => put fun _ => gfScale (gfInv (gfPow x)) (stripQ q ds) else none
  | [x, y] =>
    match p, q with
    | some p, some q =>
      if two then
        let r := solveTwo x y (stripP p ds) (stripQ q ds)
        some (put fun i => if i = x then r.1 else r.2)
      else none
    | _, _ => none
  | _ => none

/-- Reconstruction with the fallbacks of R177 for a single erasure `x`: from P, then from Q, then with each other data
codeword in turn as a second erasure. `ok` says that the reconstructed codewords pass R142. -/
def solveWith (two : Bool) (ds : List (Option Data)) (p q : Option Data) (ok : List Data → Bool) : Option (List Data) :=
  let one := (ds.filter (·.isNone)).length == 1
  let tries := solveStripe two ds p q ::
    (if one && two then solveStripe two ds none q ::
      (List.range ds.length).map fun y => solveStripe two (ds.set y none) p q else [])
  (tries.filterMap id).find? ok

/-! ### Map entries and segments (R99 to R101, R106) -/

/-- The 40-bit entry of a unit; none is UNMAPPED (R99). -/
def entryWord (e : Option MapEntry) : Nat :=
  match e with
  | none => 0
  | some (.flash a) => 2 ^ 38 + a % 2 ^ 38
  | some .zero => 2 * 2 ^ 38
  | some .lost => 3 * 2 ^ 38

/-- The 64-bit entry of an extent; none is UNMAPPED (R106). -/
def extentWord (x : Option Extent) : Nat :=
  match x with
  | none => 0
  | some x =>
    let kind := match x.run, x.ovl with
      | [], _ => 2
      | _ :: _, none => 1
      | _ :: _, some _ => 3
    kind * 2 ^ 62 + x.ovl.getD 0 % 2 ^ 14 * 2 ^ 48 + (x.run.length - 1) % 256 * 2 ^ 38 + x.run.headD 0 % 2 ^ 38

/-- The 8-byte directory entry of a segment: EMPTY, or ON_FLASH at an address (R101). -/
def dirWord (a : Option Nat) : Nat :=
  match a with
  | none => 0
  | some a => 2 ^ 62 + a % 2 ^ 38

/-- Entry of a unit in the durable map. -/
def Store.unitEntry (d : Store) (nsid key : Nat) : Option MapEntry :=
  (d.map.find? fun u => u.nsid == nsid && u.key == key).map (·.entry)

/-- An extent of the durable map. -/
def Store.extent? (d : Store) (nsid ek : Nat) : Option Extent :=
  d.extents.find? fun x => x.nsid == nsid && x.key == ek

/-- The entries of a segment, packed (R100). -/
def Store.segEntries (d : Store) (nsid typ idx : Nat) : Data :=
  if typ = 0 then (List.range 3264).flatMap fun i => bytesLE 5 (entryWord (d.unitEntry nsid (idx * 3264 + i)))
  else (List.range 2040).flatMap fun i => bytesLE 8 (extentWord (d.extent? nsid (idx * 2040 + i)))

/-- The 16 KiB of a segment as written back after epoch `epoch` (R100): its CRC is taken over the whole with the CRC field
as 0. -/
def Store.segBytes (d : Store) (nsid typ idx epoch : Nat) : Data :=
  let head := fillTo 60 (bytesLE 4 0x47534D43 ++ bytesLE 2 1 ++ bytesLE 1 typ ++ bytesLE 1 0 ++ bytesLE 4 nsid ++
    bytesLE 4 0 ++ bytesLE 8 idx ++ bytesLE 8 epoch)
  let body := d.segEntries nsid typ idx
  head ++ bytesLE 4 (crc32c (head ++ bytesLE 4 0 ++ body)).toNat ++ body

/-- An overlay: 256 unit entries of 40 bits (R107). -/
def Store.overlayBytes (d : Store) (x : Extent) : Data :=
  (List.range 256).flatMap fun i => bytesLE 5 (entryWord (d.unitEntry x.nsid (x.key * 256 + i)))

/-- What a directory checkpoint writes: the directory entries that are not EMPTY, then every overlay in use, in order
of slot (R121). [log 147: DESIGN CHOICE] -/
def Store.checkpointBytes (d : Store) (dir : List (Nat × Nat × Nat × Nat)) : Data :=
  dir.flatMap (fun x => bytesLE 8 (dirWord (some x.2.2.2))) ++
    (sortOn (fun x => x.ovl.getD 0) (d.extents.filter (·.ovl.isSome))).flatMap d.overlayBytes

/-! ### The map delta entry (R117, R118) -/

/-- A record of the map delta journal (R118). -/
structure DeltaRec where
  op    : Nat
  inner : Bool
  nsid  : Nat
  run   : Nat
  key   : Nat
  value : Nat
  deriving DecidableEq, Repr

/-- The 24 bytes of a record. -/
def DeltaRec.bytes (r : DeltaRec) : Data :=
  bytesLE 1 r.op ++ bytesLE 1 (b2n r.inner) ++ bytesLE 2 r.nsid ++ bytesLE 4 r.run ++ bytesLE 8 r.key ++ bytesLE 8 r.value

/-- The entry of epoch `n`: a 64-byte header, the records of commands, then the internal ones (R117). -/
def deltaBytes (n replay : Nat) (host inner : List DeltaRec) : Data :=
  fillTo 64 (bytesLE 4 0x444D4643 ++ bytesLE 2 1 ++ bytesLE 2 0 ++ bytesLE 8 n ++ bytesLE 4 (host.length + inner.length) ++
    bytesLE 4 host.length ++ bytesLE 8 replay) ++ (host ++ inner).flatMap DeltaRec.bytes

/-- A record that continues another: the next key, and for FLASH the next address in super-block order; other kinds the
same entry (R118). -/
def DeltaRec.joins (next : Nat → Nat → Nat) (a b : DeltaRec) : Bool :=
  a.op == b.op && decide (a.op ≤ 2) && a.inner == b.inner && a.nsid == b.nsid && b.key == a.key + a.run + 1 && b.run == 0 &&
    (if a.value / 2 ^ 38 = 1 then b.value == 2 ^ 38 + next (a.value % 2 ^ 38) (a.run + 1) else b.value == a.value)

/-- Records with consecutive keys made into runs. `next a i` is the address i data positions after `a`. -/
def mergeRuns (next : Nat → Nat → Nat) : List DeltaRec → List DeltaRec
  | [] => []
  | r :: rs =>
    match mergeRuns next rs with
    | [] => [r]
    | x :: xs =>
      if r.run = 0 ∧ r.joins next { x with run := 0, value := x.value } then { r with run := x.run + 1 } :: xs
      else r :: x :: xs

/-- The records of one effect of an epoch's data; a unit that lands names its item's first codeword (R118, R240). `stream`
says that a namespace is mapped in extents. -/
def Fx.delta (stream : Nat → Bool) : Fx → List DeltaRec
  | .item it => it.units.map fun u =>
      ⟨if stream it.nsid then 2 else 1, false, it.nsid, 0, u.1, entryWord (some (.flash (it.addr.getD 0)))⟩
  | .unmap i f c => [⟨1, false, i, c - 1, f, entryWord none⟩]
  | .zero i f c => [⟨2, false, i, c - 1, f, entryWord (some .zero)⟩]
  | .lost i k => [⟨if stream i then 2 else 1, true, i, 0, k, entryWord (some .lost)⟩]
  | .record _ => []
  | .stored .. => []
  | .release i st x => [⟨3, true, i, 0, st * 2 ^ 24 + x, extentWord none⟩]

/-! ### The epoch descriptor (R44) -/

/-- The 512 bytes of a descriptor. -/
def Descriptor.bytes (d : Descriptor) : Data :=
  withCrc 512 (bytesLE 4 0x45485A43 ++ bytesLE 2 1 ++ bytesLE 2 d.flags ++ bytesLE 8 d.epoch ++ bytesLE 8 d.prevEpoch ++
    bytesLE 8 d.prevAddr ++ bytesLE 8 d.highWater ++ bytesLE 8 d.ringMark ++ bytesLE 6 d.groupTick ++ bytesLE 2 0 ++
    bytesLE 8 d.delta1 ++ bytesLE 8 d.delta2 ++ bytesLE 4 d.deltaLen ++ bytesLE 4 d.deltaCrc ++ bytesLE 8 d.obpAddr ++
    bytesLE 8 d.intentSeq ++ bytesLE 4 d.payload ++ bytesLE 4 d.records ++ List.replicate 24 0 ++ fillTo 32 d.chains ++
    bytesLE 4 d.eventFlags)

/-- A copy of a descriptor is valid: its TAG, and its CRC over bytes 0x000 to 0x1FB (R45). -/
def validDescriptor (d : Data) : Bool :=
  natLE (d.take 4) == 0x45485A43 && natLE ((d.drop 508).take 4) == (crc32c (fillTo 508 d)).toNat

/-! ### Chain, intent and parity entries (R84, R155, R187) -/

/-- The 128 bytes of a chain entry (R84). -/
def ChainLink.bytes (l : ChainLink) : Data :=
  withCrc 128 (bytesLE 8 l.epoch ++ bytesLE 8 l.rclk ++ bytesLE 4 l.count ++ bytesLE 4 l.payload ++
    bytesLE 8 l.firstOffset ++ fillTo 32 l.digest ++ fillTo 32 l.head)

/-- The 16 bytes of the range of an intent entry that names one stripe (R187). -/
def Stripe.rangeBytes (p : Stripe) : Data :=
  bytesLE 4 p.sb ++ bytesLE 1 p.grp ++ bytesLE 1 (p.k % 16 + (if p.w - p.k = 2 then 0 else 16)) ++ bytesLE 1 (b2n p.move) ++
    bytesLE 1 0 ++ bytesLE 4 p.n ++ bytesLE 4 1

/-- The 4,096 bytes of an intent entry over the stripes that it names (R187). -/
def intentBytes (seq epoch : Nat) (ps : List Stripe) : Data :=
  withCrc 4096 (bytesLE 4 0x4E544943 ++ bytesLE 2 1 ++ bytesLE 2 (min 253 ps.length) ++ bytesLE 8 seq ++ bytesLE 8 epoch ++
    bytesLE 8 0 ++ (ps.take 253).flatMap Stripe.rangeBytes)

/-- A row mask as 32 bytes: bit i is the die with global index i (R153, R155). -/
def maskBytes (dies : List Nat) : Data :=
  (List.range 32).map fun i => (List.range 8).foldl (fun (a : Byte) j =>
    if dies.contains (8 * i + j) then a ||| (1 <<< j) else a) 0

/-- A record of a parity log: 4,192 bytes (R155). -/
def LogRec.bytes (r : LogRec) : Data :=
  withCrc 4192 (bytesLE 4 r.row.row ++ bytesLE 4 0 ++ bytesLE 8 r.epoch ++ maskBytes r.row.dies ++ fillTo 4128 r.row.parity)

/-- The 32 bytes of a snapshot entry (R155). -/
def SnapEntry.bytes (x : SnapEntry) : Data :=
  bytesLE 4 x.sb ++ bytesLE 1 x.mode ++ bytesLE 1 (b2n x.pending) ++ bytesLE 2 0 ++ bytesLE 8 x.logAddr ++
    bytesLE 4 x.logRecs ++ bytesLE 4 x.rows ++ bytesLE 8 x.opened

/-- The snapshot header of epoch `n` (R155). -/
def snapBytes (n : Nat) (xs : List SnapEntry) : Data :=
  withCrc 4096 (bytesLE 4 0x50424F43 ++ bytesLE 2 1 ++ bytesLE 2 xs.length ++ bytesLE 8 n ++ List.replicate 16 0 ++
    xs.flatMap SnapEntry.bytes)

/-! ### Compressed segments and extent heads (R239, R241) -/

/-- The 96-byte header of a compressed segment (R239). -/
def segHeader (units : List (Nat × Data)) (level frameLen : Nat) : Data :=
  withCrc 96 (bytesLE 4 0x47535153 ++ bytesLE 2 1 ++ bytesLE 1 units.length ++ bytesLE 1 level ++ bytesLE 4 frameLen ++
    bytesLE 4 0 ++ fillTo 64 (units.flatMap fun u => bytesLE 4 (crc32c (padUnit u.2)).toNat))

/-- The data bytes of codeword `j` of an item: the unit itself, or the part of header and frame of a compressed segment. -/
def Item.part (it : Item) (j : Nat) : Data :=
  match it.frame with
  | none => (it.units.head?).elim [] (·.2)
  | some (level, len) =>
    ((segHeader it.units level len ++ fillTo len (Config.squallFrame (it.units.map (·.2)) level len)).drop (4096 * j)).take
      4096

/-- The extent head of a run: the offset of each unit, 0xFFFF beyond the stored end (R241). -/
def headBytes (nsid ek : Nat) (offs : List Nat) : Data :=
  withCrc 4096 (bytesLE 4 0x48585153 ++ bytesLE 2 1 ++ bytesLE 2 0 ++ bytesLE 4 nsid ++ bytesLE 4 0 ++ bytesLE 8 ek ++
    bytesLE 8 0 ++ (List.range 256).flatMap fun i => bytesLE 2 (offs.getD i 0xFFFF))

end Sys2Proof.Machine
end

