-- ==== Sys2Proof/Machine/Stripes.lean ====
section
/-!
DEFINITION. Where codewords go: the pool's geometry (R110, R135, R181), super-blocks (R126, R154, R157, R172), stripes
with their P and Q (R172 to R177, R185), open-block parity rows (R153), and the system codewords of the map area (R101, R140).
-/

namespace Sys2Proof.Machine

open Sys2Proof

/-! ### Pool geometry -/

/-- The channels of the pool whose member serves. A member failure removes that member's blocks from B at once (R178, R181).
-/
def State.poolChannels (s : State) : List Channel :=
  s.flash.channels.filter fun c => s.store.pool.online.contains c.ch && !s.flash.lostMembers.contains c.ch

/-- The profile of the pool's dies (R135: all alike). -/
def State.profile (s : State) : FlashProfile :=
  match s.flash.channels.find? fun c => s.store.pool.members.any fun m => m.1 == c.ch with
  | some c => c.profile
  | none => noProfile

/-- Dies of the pool. -/
def State.poolDies (s : State) : Nat := sumBy Channel.dies s.poolChannels

/-- B: blocks in the pool (R110). [log 68: DEDUCED] -/
def State.blocksB (s : State) : Nat := s.poolDies * s.profile.blocksPerDie

/-- Channel `c` is one of the pool that serves. -/
def State.serves (s : State) (c : Nat) : Bool := s.poolChannels.any fun x => x.ch == c

/-- F: free blocks, erased and assigned to nothing (R110). -/
def State.blocksF (s : State) : Nat :=
  s.blocksB - ((s.flash.blocks.filter fun b => s.serves (addrCh b.blk)).length +
    (s.store.retired.filter fun b => s.serves (addrCh b) && !s.flash.blocks.any fun x => x.blk == b).length)

/-- Landing super-blocks in use: distinct super-blocks that hold a landing block. -/
def State.landingSupers (s : State) : List Nat :=
  ((s.flash.blocks.filter fun b => b.st == .openLanding || b.st == .fullLanding ||
    (b.st == .victim && !b.qlc)).map fun b => superOf b.blk).dedup

/-- Background collection starts when F falls below its start share of B and stops when F reaches that share plus 1 % of B
(R114). -/
def State.noteF (s : State) : State :=
  let share := s.param 0x0511 0
  s.modFlash fun f => { f with collecting :=
    if 100 * s.blocksF < share * s.blocksB then true
    else if (share + 1) * s.blocksB ≤ 100 * s.blocksF then false else f.collecting }

/-! ### Super-blocks (R126, R172) -/

/-- Programs and erases run: the device ticks or drains (R36, R66). -/
def State.programsRun (s : State) : Bool := s.hz.ticking || s.pw.st == .draining

/-- The die in slot `t` of member `c` takes programs: neither it nor its member has failed (R164, R172, R178). -/
def State.dieOk (s : State) (c t : Nat) : Bool :=
  s.serves c && !s.store.pool.failedDies.contains (16 * c + t) &&
    !s.flash.dies.any fun d => d.die == 16 * c + t && d.failed

/-- The members whose die in slot `t` takes new stripes, ascending: failed dies and retired blocks are left out (R163,
R172). -/
def State.openMembers (s : State) (sb t : Nat) : List Nat :=
  sortOn id ((s.poolChannels.filter fun c => decide (t < c.dies) && s.dieOk c.ch t &&
    !s.store.retired.contains (mkAddr c.ch t sb 0)).map (·.ch))

/-- Die slots of the pool's members. -/
def State.dieSlots (s : State) : Nat := maxOf (s.poolChannels.map Channel.dies)

/-- The blocks of super-block `sb` that it would take. -/
def State.sbBlocks (s : State) (sb : Nat) : List Nat :=
  (List.range s.dieSlots).flatMap fun t => (s.openMembers sb t).map fun c => mkAddr c t sb 0

/-- Every block of the super-block is FREE. -/
def State.sbFree (s : State) (sb : Nat) : Bool :=
  decide (sb < s.profile.blocksPerDie) && !(s.sbBlocks sb).isEmpty &&
    !s.flash.blocks.any fun x => superOf x.blk == sb && x.st != .retired

/-- Codewords of a block by the mode of its super-block (R155): 0 landing, 1 QLC, 2 map area, and 3 for map-area blocks
reserved for parity logs (R153). -/
def State.modeCw (s : State) (mode : Nat) : Nat :=
  if mode = 1 then s.profile.cwPerBlock else s.profile.slcCw

/-- Bytes of the parity region that a super-block of a mode needs (R153). -/
def State.parityNeed (s : State) (mode : Nat) : Nat := if mode = 3 then 0 else s.modeCw mode * (4128 + 32)

/-- Bytes of the parity region in use. -/
def State.parityUsed (s : State) : Nat := sumBy (fun p => s.parityNeed p.mode) s.flash.parity

/-- The region has room for a super-block of a mode and for `spare` landing ones after it (R153, R157). -/
def State.regionRoom (s : State) (mode spare : Nat) : Bool :=
  mode == 3 || (decide (s.flash.parity.length + spare < 126) &&
    decide (s.parityUsed + s.parityNeed mode + spare * s.parityNeed 0 ≤ 2147483648))

/-- A super-block may be opened in a mode: free, with room for its parity rows; others than landing ones leave room for two
landing super-blocks; landing ones keep within the allowance of the tick boundary, and within L_min while F is below 1 % of
B; then QLC ones are opened for collection and folding alone, which `must` says (R110, R116, R157). -/
def State.mayOpen (s : State) (must : Bool) (sb mode : Nat) : Bool :=
  let low := decide (100 * s.blocksF < s.blocksB)
  s.sbFree sb && s.regionRoom mode (if mode = 0 then 0 else 2) &&
    (mode != 0 || (decide (s.landingSupers.length < s.flash.allow) &&
      (!low || decide (s.landingSupers.length < s.flash.lMin)))) &&
    (mode != 1 || must || !low)

/-- State of a block that is opened in a mode (R126). -/
def openState (mode : Nat) : BlockState := if mode = 0 then .openLanding else if mode = 1 then .openQlc else .map

/-- State of a block of a mode once its last codeword is programmed (R126). -/
def fullState (mode : Nat) : BlockState := if mode = 0 then .fullLanding else if mode = 1 then .fullQlc else .map

/-- A block as its super-block opens in a mode. -/
def State.newBlock (s : State) (sb mode blk : Nat) : Block :=
  { blk := blk, st := openState mode, qlc := mode == 1, used := 0, failed := false, reads := 0, stamp := s.hz.epoch,
    closedAt := s.hz.rclkUs, refresh := false, eraseFrom := 0, erasing := false,
    ms := s.openMembers sb (addrDie blk), live := 0, cls := 0, seen := 0, suspends := 0 }

/-- Super-block `sb` opened in a mode, with zero parity rows (R154); parity logs have none (R153). -/
def State.openSuper (s : State) (sb mode : Nat) : State :=
  let new := (s.sbBlocks sb).map (s.newBlock sb mode)
  (s.modFlash fun f => { f with
    blocks := f.blocks ++ new
    logSupers := if mode = 3 then f.logSupers ++ [sb] else f.logSupers
    parity := if mode = 3 then f.parity else f.parity ++ [⟨sb, mode, false, [], s.hz.epoch, [], []⟩] }).noteF

/-- Super-block `sb` is open in a mode. -/
def State.sbOpen (s : State) (sb mode : Nat) : Bool :=
  if mode = 3 then s.flash.logSupers.contains sb
  else s.flash.parity.any fun p => p.sb == sb && p.mode == mode && !p.pending

/-- The state in which super-block `sb` is open in a mode, where it is or may be opened. -/
def State.withSuper (s : State) (must : Bool) (sb mode : Nat) : Option State :=
  if s.sbOpen sb mode then some s else if s.mayOpen must sb mode then some (s.openSuper sb mode) else none

/-! ### Stripes (R172 to R175) -/

/-- The members over which a die group was opened. -/
def State.groupMs (s : State) (sb t : Nat) : List Nat :=
  ((s.flash.blocks.find? fun b => superOf b.blk == sb && addrDie b.blk == t).map (·.ms)).getD []

/-- The stripes of a die group, in order. -/
def State.groupStripes (s : State) (sb t : Nat) : List Stripe :=
  s.flash.stripes.filter fun p => p.sb == sb && p.grp == t

/-- The stripe that has a slot at `a`. -/
def State.stripe? (s : State) (a : Nat) : Option Stripe := s.flash.stripes.find? fun p => p.on.contains a

/-- The slot of element `el` of D0 to Dk-1, P, Q: slot i holds element (i - n) mod w (R173). -/
def Stripe.slot (p : Stripe) (el : Nat) : Nat := p.on.getD ((el + p.n % max 1 p.w) % max 1 p.w) 0

/-- The data positions of a stripe, D0 first. -/
def Stripe.dataAt (p : Stripe) : List Nat := (List.range p.k).map p.slot

/-- The positions of its parity codewords, P first. -/
def Stripe.parityAt (p : Stripe) : List Nat := (List.range (p.w - p.k)).map fun i => p.slot (p.k + i)

/-- The next `w` of the numbers from `r` on that `ok` admits. -/
def nextSlots (ok : Nat → Bool) : Nat → Nat → Nat → List Nat
  | 0, _, _ => []
  | f + 1, r, w => if w = 0 then [] else if ok r then r :: nextSlots ok f (r + 1) (w - 1) else nextSlots ok f (r + 1) w

/-- The place in the stream of a group of `ms` of address `a`: codeword position ascending, within it member ascending. -/
def rawSlot (ms : List Nat) (a : Nat) : Nat := addrCw a * ms.length + ms.findIdx fun c => c == addrCh a

/-- The address of place `r` in the stream of a group. -/
def rawAddr (ms : List Nat) (sb t r : Nat) : Nat := mkAddr (ms.getD (r % max 1 ms.length) 0) t sb (r / max 1 ms.length)

/-- The block at `a` takes programs of a mode: its die serves and it is open, or full but for stripes that are. -/
def State.blockTakes (s : State) (mode a : Nat) : Bool :=
  s.dieOk (addrCh a) (addrDie a) &&
    s.flash.blocks.any fun b => b.blk == blockOf a && (b.st == openState mode || b.st == fullState mode)

/-- The next stripe of a die group for epoch `n`: the next w slots of its stream in blocks that take programs, PAD
codewords left out; narrowed where fewer members are healthy than its width (R124, R172, R173, R185). [log 71:
DEDUCED] -/
def State.freshStripe (s : State) (redun sb t n mode : Nat) (move : Bool) : Option Stripe :=
  let ms := s.groupMs sb t
  let old := s.groupStripes sb t
  let top := maxOf (old.flatMap fun p => p.on.map fun a => rawSlot ms a + 1)
  let all := s.modeCw mode * ms.length
  let c := narrow (ms.filter fun x => s.blockTakes mode (mkAddr x t sb 0)).length (s.store.pool.code redun).1 (s.store.pool.code redun).2
  let on := (nextSlots (fun r => s.blockTakes mode (rawAddr ms sb t r) && (s.cell? (rawAddr ms sb t r)).isNone)
    (all - top) top c.2).map (rawAddr ms sb t)
  if on.length = c.2 ∧ c.2 ≠ 0 then some ⟨sb, t, old.length, c.1, c.2, redun, n, on, [], false, move⟩ else none

/-- A stripe opened: the blocks of its group are used up to its slots, and to their end where no further stripe fits. -/
def State.addStripe (s : State) (p : Stripe) (mode : Nat) : State :=
  let s1 := s.modFlash fun f => { f with stripes := f.stripes ++ [p] }
  let last := (s1.freshStripe p.code p.sb p.grp p.epoch mode p.move).isNone
  s1.modFlash fun f => { f with
    blocks := updIf (fun b => superOf b.blk == p.sb && addrDie b.blk == p.grp) (fun b => { b with
      used := if last then s.modeCw mode
        else (p.on.filter fun a => blockOf a == b.blk).foldl (fun u a => max u (addrCw a + 1)) b.used
      stamp := s.hz.epoch, closedAt := s.hz.rclkUs }) f.blocks }

/-- A data position of a stripe taken. -/
def State.markTaken (s : State) (a : Nat) : State :=
  s.modFlash fun f => { f with
    stripes := updIf (fun p => p.on.contains a) (fun p => { p with taken := p.taken ++ [a] }) f.stripes }

/-- The state in which data position `a` is taken for epoch `n`, in a stripe of that code and epoch that is open there or is
the next of its group (R173, R174). -/
def State.takeOne (s : State) (redun n mode : Nat) (move : Bool) (a : Nat) : Option State :=
  if !s.flash.blocks.any (fun b => b.blk == blockOf a && (b.st == openState mode || b.st == fullState mode)) then none
  else match s.stripe? a with
  | some p =>
    if p.epoch = n ∧ p.closed = false ∧ s.store.pool.code p.code = s.store.pool.code redun ∧ p.dataAt.contains a = true ∧
        p.taken.contains a = false then some (s.markTaken a) else none
  | none =>
    match s.freshStripe redun (superOf a) (addrDie a) n mode move with
    | some p => if p.dataAt.contains a then some ((s.addStripe p mode).markTaken a) else none
    | none => none

/-- The data position that follows `a` in super-block order (R175). -/
def State.nextData (s : State) (redun n mode : Nat) (move : Bool) (a : Nat) : Option Nat :=
  match s.stripe? a with
  | none => none
  | some p =>
    match p.dataAt[p.dataAt.findIdx (fun x => x == a) + 1]? with
    | some b => some b
    | none =>
      match (s.groupStripes p.sb p.grp)[p.n + 1]? with
      | some q => q.dataAt.head?
      | none => (s.freshStripe redun p.sb p.grp n mode move).bind fun q => q.dataAt.head?

/-- `k` consecutive data positions from `a` on, taken; none where they are not all to be had. -/
def State.takeRun (redun n mode : Nat) (move : Bool) : Nat → Nat → State → Option (List Nat × State)
  | 0, _, s => some ([], s)
  | k + 1, a, s =>
    match s.takeOne redun n mode move a with
    | none => none
    | some s1 =>
      if k = 0 then some ([a], s1)
      else match s1.nextData redun n mode move a with
      | none => none
      | some b => (State.takeRun redun n mode move k b s1).map fun r => (a :: r.1, r.2)

/-- The first data position of the next stripe of a die group. -/
def State.freshData (s : State) (redun sb t mode : Nat) (move : Bool) : Option Nat :=
  (s.freshStripe redun sb t s.hz.epoch mode move).bind fun p => p.dataAt.head?

/-! ### Codewords programmed (R153, R174, R176) -/

/-- A parity row that a confirmed codeword enters: its die joins the mask, its bytes the XOR (R153). -/
def addRow (rows : List ParityRow) (c : Codeword) : List ParityRow :=
  if rows.any fun r => r.row == addrCw c.addr then
    updIf (fun r => r.row == addrCw c.addr) (fun r =>
      if r.dies.contains (globalDie c.addr) then r
      else { r with dies := r.dies ++ [globalDie c.addr], parity := xorData r.parity c.bytes }) rows
  else rows ++ [⟨addrCw c.addr, [globalDie c.addr], c.bytes⟩]

/-- A codeword whose program is confirmed enters its open-block parity row (R153). -/
def State.confirmCell (s : State) (c : Codeword) : State :=
  s.modFlash fun f => { f with
    cells := f.cells ++ [c]
    parity := updIf (fun p => p.sb == superOf c.addr) (fun p => { p with rows := addRow p.rows c }) f.parity }

/-- A PAD codeword (R140, R174). -/
def padCell (a epoch : Nat) : Codeword := ⟨a, 0, 0, 0, 0, epoch, [], [], none, a⟩

/-- A stripe closed: its unfilled data positions hold PAD codewords, P and Q are computed over all (R174, R176). -/
def State.closeStripe (s : State) (p : Stripe) : State :=
  let s1 := (p.dataAt.filter fun a => (s.cell? a).isNone).foldl (fun st a => st.confirmCell (padCell a p.epoch)) s
  let ds := p.dataAt.map fun a => (s1.cell? a).elim [] Codeword.bytes
  let s2 := (p.parityAt.zip [parityP ds, parityQ ds]).foldl (fun st x =>
    st.confirmCell ⟨x.1, 0, 4, 0, 0, p.epoch, x.2, [], none, x.1⟩) s1
  s2.modFlash fun f => { f with
    stripes := updIf (fun q => q.sb == p.sb && q.grp == p.grp && q.n == p.n) (fun q => { q with closed := true }) f.stripes }

/-- The rest of the pages that an epoch left partly programmed in a block is PAD codewords outside any stripe (R174). -/
def State.padBlock (s : State) (epoch : Nat) (b : Block) : State :=
  let cw := if b.qlc then s.profile.cwPerBlock else s.profile.slcCw
  let stop := min cw (s.profile.pageEnd b.used)
  let pads := ((List.range (stop - b.used)).map fun i => b.blk + b.used + i).filter fun a => (s.cell? a).isNone
  (pads.foldl (fun st a => st.confirmCell (padCell a epoch)) s).modFlash fun f => { f with
    blocks := updIf (fun x => x.blk == b.blk) (fun x => { x with used := max x.used stop }) f.blocks }

/-- Blocks whose last codeword is programmed are FULL; a super-block of which every block is has its verify scan scheduled
(R126, R154). -/
def State.settleFull (s : State) : State :=
  let cw := fun b : Block => if b.qlc then s.profile.cwPerBlock else s.profile.slcCw
  let done := fun b : Block => decide (cw b ≤ b.used) &&
    s.flash.stripes.all fun p => p.closed || !(p.sb == superOf b.blk && p.grp == addrDie b.blk)
  s.modFlash fun f => { f with
    blocks := updIf done (fun b => { b with
      st := if b.st = .openLanding then .fullLanding else if b.st = .openQlc then .fullQlc else b.st }) f.blocks
    parity := updIf (fun p => (f.blocks.filter fun b => superOf b.blk == p.sb && b.st != .retired).all done)
      (fun p => { p with pending := true }) f.parity }

/-- The stripes that `q` picks closed, with the pages that they leave partly programmed (R174). -/
def State.closeStripes (s : State) (q : Stripe → Bool) : State :=
  let ps := s.flash.stripes.filter fun p => !p.closed && q p
  if ps = [] then s
  else
    let s1 := ps.foldl State.closeStripe s
    let bs := s1.flash.blocks.filter fun b => ps.any fun p => p.sb == superOf b.blk && p.grp == addrDie b.blk
    (bs.foldl (fun st b => st.padBlock (maxOf (ps.map (·.epoch))) b) s1).settleFull

/-- At a tick boundary every stripe of an earlier epoch closes whose programs are all confirmed (R174). -/
def State.closeTick (s : State) : State :=
  s.closeStripes fun p => decide (p.epoch < s.hz.epoch) && p.taken.all fun a => (s.cell? a).isSome

/-! ### System codewords (R101, R140) -/

/-- A system codeword of the map area: UTYPE 3, NSID 0, KEY its number within the structure; `item` is the first codeword
programmed with it. -/
def sysCell (a key epoch item : Nat) (d : Data) : Codeword := ⟨a, 0, 3, 0, key, epoch, d, [], none, item⟩

/-- System codewords programmed at the positions `as`, one part of the structure in each, numbered from `key` on. -/
def State.putSys (s : State) (as : List Nat) (key : Nat) (parts : List Data) : State :=
  ((as.zip parts).zipIdx).foldl (fun st x => st.confirmCell (sysCell x.1.1 (key + x.2) s.hz.epoch (as.headD 0) x.1.2)) s

/-- The super-block of the map area in which the device programs next: an open one of mode 2 or 3, or one of its
choice. [log 5, 144: DESIGN CHOICE] -/
def State.mapSuper (s : State) (mode : Nat) : Option (Nat × State) :=
  if s.store.pool.formed = false then none
  else
    let room := fun sb => (List.range s.dieSlots).any fun t => (s.freshStripe 0 sb t s.hz.epoch mode false).isSome
    match (s.flash.logSupers ++ s.flash.parity.map (·.sb)).find? fun sb => s.sbOpen sb mode && room sb with
    | some sb => some (sb, s)
    | none =>
      let r := s.choose (fun sb => s.mayOpen true sb mode) 0
      (r.2.withSuper true r.1 mode).map fun st => (r.1, st)

/-- The data positions of a super-block of the map area that a structure may begin at, on members other than `avoid`: those
left of the stripes of this epoch, and those of the next stripes. -/
def State.sysPlaces (s : State) (sb mode : Nat) (avoid : List Nat) : List Nat :=
  let now := (s.flash.stripes.filter fun p => p.sb == sb && p.epoch == s.hz.epoch && !p.closed).flatMap fun p =>
    p.dataAt.filter fun a => !p.taken.contains a
  let next := (List.range s.dieSlots).flatMap fun t =>
    ((s.freshStripe 0 sb t s.hz.epoch mode false).map Stripe.dataAt).getD []
  (now ++ next).filter fun a => !avoid.contains (addrCh a)

/-- A structure of system codewords programmed from a place of the device's choice on a member other than `avoid`: its
addresses, none where there is no place. Its codewords are numbered from `key` on. [log 144: DESIGN CHOICE] -/
def State.writeSys (s : State) (mode : Nat) (avoid : List Nat) (key : Nat) (d : Data) : List Nat × State :=
  match s.mapSuper mode with
  | none => ([], s)
  | some (sb, s1) =>
    let as := s1.sysPlaces sb mode avoid
    let a := as.getD (s1.free.1.toNat % max 1 as.length) 0
    let parts := codewordsOf d
    if as = [] then ([], s)
    else match State.takeRun 0 s.hz.epoch mode false parts.length a s1.free.2 with
    | some (xs, s2) => (xs, s2.putSys xs key parts)
    | none => ([], s)

/-! ### Reconstruction (R145, R177) -/

/-- The die in slot `t` of member `c` is lost: its member is being rebuilt, or it failed itself (R178). [log 74:
DEDUCED] -/
def Pool.slotLost (p : Pool) (c t : Nat) : Bool :=
  p.members.any (fun m => m.1 == c && m.2 == .rebuilding) || p.failedDies.contains (16 * c + t)

/-- The codeword at `a` cannot be read: its die or member has failed, accepted failures included. -/
def State.unreadable (s : State) (a : Nat) : Bool :=
  s.store.pool.slotLost (addrCh a) (addrDie a) || s.flash.lostMembers.contains (addrCh a) ||
    s.flash.dies.any fun d => d.die == globalDie a && d.failed

/-- The codeword at `a` is an erasure for a reconstruction: not there, on a failed die, or on the ladder past `level`. -/
def State.erasure (s : State) (level a : Nat) : Bool :=
  (s.cell? a).isNone || s.unreadable a || s.flash.ladders.any fun l => l.addr == a && decide (level < l.level)

/-- L5 (R145): the codeword from its parity row and every other codeword of the mask, none of which is an erasure. -/
def State.fromRow (s : State) (a : Nat) : Option Data :=
  match (s.flash.parity.find? fun p => p.sb == superOf a).bind fun p => p.rows.find? fun r => r.row == addrCw a with
  | none => none
  | some r =>
    let others := (r.dies.filter fun g => g != globalDie a).map fun g => mkAddr (g / 16) (g % 16) (superOf a) r.row
    if r.dies.contains (globalDie a) = true ∧ others.all (fun x => !s.erasure 4 x) = true then
      some (others.foldl (fun d x => xorData d ((s.cell? x).elim [] Codeword.bytes)) r.parity)
    else none

/-- L6 (R177): the codeword from its stripe, every erasure of which counts; the codeword itself is one. -/
def State.fromStripe (s : State) (a : Nat) : Option Data :=
  match s.stripe? a with
  | none => none
  | some p =>
    let get := fun x => if x = a ∨ s.erasure 5 x = true then none else (s.cell? x).map Codeword.bytes
    let ok := fun (r : List Data) => (p.dataAt.zip r).all fun x => (s.cell? x.1).elim true fun c => c.agrees x.2
    let i := p.dataAt.findIdx fun x => x == a
    (solveWith (p.w - p.k == 2) (p.dataAt.map get) ((p.parityAt[0]?).bind get) ((p.parityAt[1]?).bind get) ok).bind
      fun r => r[i]?

/-- The stripe of a codeword has more erasures than parity codewords (R177, R186). [log 74: DEDUCED] -/
def State.stripeGone (s : State) (a : Nat) : Bool :=
  match s.stripe? a with
  | none => s.unreadable a
  | some p => decide (p.w - p.k < (p.on.filter fun x => s.store.pool.slotLost (addrCh x) (addrDie x)).length)

/-! ### Failures of blocks, dies and members (R124, R163, R164, R178) -/

/-- A die with no history. [log 150: DESIGN CHOICE] -/
def Die.fresh (g : Nat) : Die :=
  { die := g, failed := false, temp := 0, retired := 0, noReady := 0, progFails := 0, eraseFails := 0,
    levels := [0, 0, 0, 0, 0, 0, 0], l7 := 0, refreshMarks := 0, inhibits := 0, offsets := [] }

/-- Die `g` changed. -/
def State.modDie (s : State) (g : Nat) (h : Die → Die) : State :=
  s.modFlash fun f => { f with
    dies := if f.dies.any fun d => d.die == g then updIf (fun d => d.die == g) h f.dies
      else f.dies ++ [h (Die.fresh g)] }

/-- Die `g`. -/
def State.die (s : State) (g : Nat) : Die := (s.flash.dies.find? fun d => d.die == g).getD (Die.fresh g)

/-- A block changed. -/
def State.modBlock (s : State) (blk : Nat) (h : Block → Block) : State :=
  s.modFlash fun f => { f with blocks := updIf (fun b => b.blk == blk) h f.blocks }

/-- A member of the pool fails: logged, with an event, and recorded at the next seal (R178); it takes no further program, and
what is bound for it is not programmed (R179). -/
def State.failMember (s : State) (m : Nat) : State :=
  if s.store.pool.members.any (fun x => x.1 == m && x.2 == .online) && !s.flash.lostMembers.contains m then
    ((s.modFlash fun f => { f with
      lostMembers := f.lostMembers ++ [m]
      windowFails := if s.hz.phase = .sealWindow then f.windowFails ++ [m] else f.windowFails }).mediaEvent
        St.rdMemberFailed m).record [.memberFail m]
  else s

/-- Die `g` is declared failed (R164); a member all of whose dies have failed fails (R178). -/
def State.failDie (s : State) (g : Nat) : State :=
  if (s.die g).failed then s
  else
    let s1 := ((s.modDie g fun d => { d with failed := true }).mediaEvent St.mediaDieFailed g).record [.dieFail g]
    let dies := ((s.flash.channels.find? fun c => c.ch == g / 16).elim 0 Channel.dies)
    if dies ≠ 0 ∧ (List.range dies).all (fun t => (s1.die (16 * (g / 16) + t)).failed) then s1.failMember (g / 16)
    else s1

/-- A block retired; a die with more retired blocks than its profile allows has failed (R163, R164). -/
def State.retireBlock (s : State) (blk : Nat) : State :=
  let g := globalDie blk
  let s1 := ((s.modBlock blk fun b => { b with st := .retired, erasing := false }).record [.retire blk]).modDie g
    fun d => { d with retired := d.retired + 1 }
  if s.profile.retiredPct * s.profile.blocksPerDie < 100 * (s1.die g).retired then s1.failDie g else s1

/-- A block becomes a victim at once and is retired when nothing names it (R124, R147, R159). -/
def State.condemn (s : State) (blk : Nat) : State :=
  s.modBlock blk fun b => if b.st = .retired ∨ b.st = .eraseWait then b else { b with st := .victim, failed := true }

end Sys2Proof.Machine
end

