-- ==== Sys2Proof/Machine/Bins.lean ====
section
/-!
DEFINITION. Read-offset bins (R149, R150): wear and age classes, the offsets of a bin and those applied in a die, and when a
bin is to be calibrated again.
-/

namespace Sys2Proof.Machine

open Sys2Proof

/-- Age class of a block by its age in µs of RCLK (R149). -/
def ageClass (us : Nat) : Nat :=
  ([1, 4, 24, 72, 168, 720, 2160].filter fun h => decide (h * 3600000000 ≤ us)).length

/-- Erases of a block in a mode (0 pSLC, 1 QLC); the erase of every block by a pool formation counts in each mode.
[log 68: DEDUCED] -/
def State.wearCount (s : State) (blk mode : Nat) : Nat :=
  assoc s.flash.wear (2 * blk + mode) + assoc s.flash.formed (addrCh blk)

/-- P/E limit of a mode (R137). -/
def FlashProfile.peLimit (p : FlashProfile) (mode : Nat) : Nat := if mode = 1 then p.peQlc else p.peSlc

/-- The bin of a block: die, mode (0 pSLC, 1 QLC), age class x 2 + wear class (R149). [log 67: PRESUMED] -/
def State.binOf (s : State) (b : Block) : Nat × Nat × Nat :=
  let mode := b2n b.qlc
  let worn := decide (FlashProfile.peLimit s.profile mode ≤ 2 * s.wearCount b.blk mode)
  (globalDie b.blk, mode, 2 * ageClass (s.hz.rclkUs - b.closedAt) + b2n worn)

/-- A bin never calibrated. [log 150: DESIGN CHOICE] -/
def Bin.fresh (die mode bin : Nat) : Bin :=
  { die := die, mode := mode, bin := bin, offsets := List.replicate (if mode = 1 then 15 else 1) 0, tCal := 0,
    epoch := 0, window := [], wanted := false, sweep := [], sweepT := 0, sample := none }

/-- The bin is that of these numbers. -/
def Bin.is (x : Bin) (k : Nat × Nat × Nat) : Bool := x.die == k.1 && x.mode == k.2.1 && x.bin == k.2.2

/-- A bin changed. -/
def State.modBin (s : State) (k : Nat × Nat × Nat) (h : Bin → Bin) : State :=
  s.modFlash fun f => { f with
    bins := if f.bins.any fun x => x.is k then updIf (fun x => x.is k) h f.bins
      else f.bins ++ [h (Bin.fresh k.1 k.2.1 k.2.2)] }

/-- A bin. -/
def State.bin (s : State) (k : Nat × Nat × Nat) : Bin :=
  (s.flash.bins.find? fun x => x.is k).getD (Bin.fresh k.1 k.2.1 k.2.2)

/-- The sample of a recalibration: the most recently read full block of the bin (R151). -/
def State.sampleOf (s : State) (k : Nat × Nat × Nat) : Option Nat :=
  let full := s.flash.blocks.filter fun b =>
    (b.st == .fullQlc || b.st == .fullLanding || b.st == .map) && s.binOf b == k
  (full.find? fun b => b.seen == maxOf (full.map (·.seen))).map (·.blk)

/-- A recalibration of the bin is due, its sweep from the start over its sample, at the die's temperature, which
becomes T_cal. [log 157: DESIGN CHOICE] -/
def State.wantBin (s : State) (k : Nat × Nat × Nat) : State :=
  s.modBin k fun x => if x.wanted then x else { x with
    wanted := true, sweep := [], sweepT := (s.die k.1).temp, sample := s.sampleOf k }

/-- The corrected bits of a decode feed the tracking of the bin: at each decode the mean over the last 1,024 is compared with the
trigger (R147, R150). -/
def State.track (s : State) (k : Nat × Nat × Nat) (corrected : Nat) : State :=
  let w := (s.bin k).window ++ [corrected]
  let last := w.drop (w.length - 1024)
  let s1 := s.modBin k fun b => { b with window := last }
  if last.length = 1024 ∧ s.param 0x0522 0 * s.profile.hardLimit * 1024 ≤ 100 * sumBy id last then s1.wantBin k else s1

/-- The level at which a read of a block starts: L1 where its bin has an offset that is not zero, else L0 (R144). -/
def State.startLevel (s : State) (b : Block) : Nat :=
  if (s.bin (s.binOf b)).offsets.any fun o => o != 0 then 1 else 0

/-- The threshold offsets applied at L1: the bin's, and TEMP_COEF in sixteenths of a step for each degree since the
calibration, rounded to whole steps, a half upwards (R149). [log 157: DESIGN CHOICE] -/
def State.levelOffsets (s : State) (k : Nat × Nat × Nat) : List Int :=
  let x := s.bin k
  x.offsets.zipIdx.map fun o => o.1 + (s.profile.tempCoef.getD o.2 0 * ((s.die k.1).temp - x.tCal) + 8) / 16

/-- Blocks whose age class has changed: where RCLK was set forward the bins that they are in now are to be calibrated, since they
aged unpowered (R149, R150). -/
def State.ageBlocks (s : State) (jump : Bool) : State :=
  let now := fun b : Block => ageClass (s.hz.rclkUs - b.closedAt)
  let moved := s.flash.blocks.filter fun b => now b != b.cls
  let s1 := if jump then moved.foldl (fun st b => st.wantBin (s.binOf b)) s else s
  s1.modFlash fun f => { f with blocks := f.blocks.map fun b => { b with cls := now b } }

end Sys2Proof.Machine
end

