-- ==== Sys2Proof/Machine/MapArea.lean ====
section
/-!
DEFINITION. The map area and what a seal programs in it: internal moves (R112, R120, R122), what names a codeword (R113,
R122), map segments and their cache (R102 to R105, R121), the open-block parity snapshot (R155), chain entries (R84), intent
entries (R187, R188), the map delta entry and the two copies of the descriptor (R43, R44, R117 to R119, R179).
-/

namespace Sys2Proof.Machine

open Sys2Proof

/-! ### Internal moves (R112, R120) -/

/-- The map entry of a unit after every record of epochs up to `n` (R120). -/
def State.entryUpTo (s : State) (n nsid key : Nat) : Hit :=
  let pend := ((s.hz.epochs.filter fun e => decide (e.n ≤ n)).reverse).findSome? fun e =>
    (e.fx.reverse).findSome? fun x => x.hit nsid key e.n
  match pend with
  | some h => h
  | none => s.store.mapHit nsid key

/-- A unit reads as zeros, or is LOST: a run that is written holds a codeword of zeros for it. -/
def Hit.noData : Hit → Bool
  | .zero _ => true
  | .lost => true
  | .pending .. => false
  | .flash _ => false

/-- The entry of a move's key still names its source after every record of epochs up to `n`. A reshape's copy is tested
against the new map too, which must not name the key yet (R120, R192). -/
def State.moveHolds (s : State) (n : Nat) (m : Move) : Bool :=
  let e := s.entryUpTo n (m.nsid % 0x8000) m.key
  (if m.zero then e.noData else e == .flash m.src) &&
    (decide (m.nsid < 0x8000) || s.entryUpTo n m.nsid m.key == .zero none)

/-- The moves of one EXTENT_SET, in order of key; a unit that moves for itself is alone (R112). -/
def State.moveGroup (s : State) (m : Move) : List Move :=
  if m.coarse then s.flash.moves.filter fun x => x.coarse && x.nsid == m.nsid && extentKey x.key == extentKey m.key
  else [m]

/-- Records that the entry of an epoch has room for beside those of its commands: 256 KiB in all (R117, R119). -/
def Epoch.innerRoom (e : Epoch) : Nat := 10920 - e.hostRecs

/-- Internal records of an epoch that are not moves: units lost, extents released, blocks erased and retired, segments
written back, a checkpoint (R118). -/
def State.otherRecs (s : State) (e : Epoch) : Nat :=
  (e.fx.filter fun x => match x with | .lost .. => true | .release .. => true | _ => false).length +
    (e.ctrl.filter fun c => match c with | .retire _ => true | _ => false).length +
    s.flash.erased.length + s.flash.writeback.length + (if s.flash.ckpt = none then 0 else 1)

/-- At the end of the program phase of N + 2 each confirmed move that still holds is recorded in entry N, as far as it
has room; one that does not hold is dropped, an EXTENT_SET as a whole (R119, R120). -/
def State.recordMoves (s : State) (n : Nat) : State :=
  let todo := fun m : Move => m.recorded == none
  let bad := fun m : Move => todo m && (s.moveGroup m).any fun x => x.confirmed && !s.moveHolds n x
  let good := fun m : Move => todo m && (s.moveGroup m).all fun x => x.confirmed && s.moveHolds n x
  let heads := s.flash.moves.filter fun m => good m && (s.moveGroup m).head? == some m
  let room := (s.hz.epochs.find? fun e => e.n == n).elim 0 fun e => e.innerRoom - s.otherRecs e
  let put := (heads.take room).flatMap s.moveGroup
  s.modFlash fun f => { f with
    moves := updIf (fun m => put.contains m) (fun m => { m with recorded := some n }) (f.moves.filter fun m => !bad m) }

/-- The codewords of an EXTENT_SET's run in order, its head first where it has one (R112, R241). -/
def runOf (g : List Move) : List Nat := (g.flatMap (·.cws)).dedup

/-- The offsets that its head gives, none without a head (R241). -/
def offsOf (g : List Move) : List Nat :=
  match g with
  | [] => []
  | m :: _ => if m.cws.headD m.dst = m.dst then [] else g.map fun x => (runOf g).findIdx fun a => a == x.dst

/-- The moves of entry `n` applied at its seal: each key names its new place, an extent its new run (R118). -/
def State.applyMoves (s : State) (n : Nat) : State :=
  let ms := s.flash.moves.filter fun m => m.recorded == some n
  let one := fun (d : Store) (m : Move) =>
    if m.coarse = false then d.putUnit m.nsid m.key n (.flash m.dst)
    else
      let g := s.moveGroup m
      if g.head? = some m then
        d.putRun m.nsid (extentKey m.key) n (runOf g) (offsOf g)
          ((g.map (·.key)).filter fun k => s.store.mapHit (m.nsid % 0x8000) k == .lost)
      else d
  { s with store := ms.foldl one s.store }

/-! ### What names a codeword (R113, R122) -/

/-- The first codewords of the structures of the map area that are in force. -/
def State.sysNamed (s : State) : List Nat :=
  let f := s.flash
  (f.dirEnts ++ f.writeback).map (fun x => x.2.2.2) ++ f.ckptAt.take 1 ++ f.ckptCws.take 1 ++
    f.journal.flatMap (fun j => j.descs ++ j.delta1.take 1 ++ j.delta2.take 1) ++ s.store.descAt ++ [f.snapAt] ++
    f.logs.flatMap (·.cws) ++ s.store.nss.flatMap (·.chainAt) ++ f.intents.flatMap (·.copies) ++
    s.hz.epochs.filterMap fun e => e.obp.map (·.1)

/-- The durable state `d` names a codeword of a unit, or one that a compressed segment there goes on in. -/
def Store.namesCell (d : Store) (c : Codeword) : Bool := d.names c.addr || d.names c.item

/-- A codeword is live: the map names it, or a structure of the map area that is in force holds it (R113, R182). -/
def State.liveCell (s : State) (d : Store) (c : Codeword) : Bool :=
  d.namesCell c || (c.utype == 3 && (s.sysNamed.contains c.addr || s.sysNamed.contains c.item))

/-- Block `blk` holds something that `d` names. -/
def State.liveIn (s : State) (d : Store) (blk : Nat) : Bool :=
  s.flash.cells.any (fun c => blockOf c.addr == blk && s.liveCell d c) ||
    d.map.any (fun u => match u.entry with | .flash a => blockOf a == blk | _ => false) ||
    d.extents.any fun x => x.run.any fun a => blockOf a == blk

/-- Data of an epoch that is not in the durable map yet has landed in block `blk`. -/
def State.landedIn (s : State) (blk : Nat) : Bool :=
  let at_ := s.hz.epochs.flatMap fun e => e.fx.filterMap fun x => match x with | .item it => it.addr | _ => none
  at_.any (fun a => blockOf a == blk) || s.flash.cells.any fun c => blockOf c.addr == blk && at_.contains c.item

/-- Nothing names block `blk`: no map, no move, no unsealed data. -/
def State.unnamed (s : State) (blk : Nat) : Bool :=
  !s.liveIn s.store blk && !s.hz.ringSaves.any (fun x => s.liveIn x.2 blk) && !s.landedIn blk &&
    !s.flash.moves.any fun m => (!m.zero && blockOf m.src == blk) || m.cws.any fun a => blockOf a == blk

/-- Victims whose live units are all sealed elsewhere await their erase, from the program phase of M + 3 on; a failed one is
retired (R122 step 6, R124). -/
def State.settleVictims (s : State) (n : Nat) : State :=
  let out := s.flash.blocks.filter fun b => b.st == .victim && s.unnamed b.blk
  let s1 := s.modFlash fun f => { f with
    blocks := f.blocks.map fun b =>
      if out.contains b && !b.failed then { b with st := .eraseWait, eraseFrom := n + 3 } else b }
  ((out.filter (·.failed)).map (·.blk)).foldl State.retireBlock s1

/-- Live units of a block: those of its codewords that the map names, and its live system codewords (R113). -/
def State.liveUnits (s : State) (blk : Nat) : Nat :=
  sumBy (fun c => if blockOf c.addr = blk ∧ s.liveCell s.store c = true then max 1 c.units.length else 0) s.flash.cells

/-- The live counts that the device keeps: what a discard takes away is lowered later, in the reserve, so that they are never
too low; `now` says that it is lowered now (R113, R127). -/
def State.countLive (s : State) (now : Bool) : State :=
  s.modFlash fun f => { f with
    blocks := f.blocks.map fun b => { b with live := if now then s.liveUnits b.blk else max b.live (s.liveUnits b.blk) } }

/-! ### Map segments (R100 to R105, R121) -/

/-- Keys of a segment: units, or the units of its extents (R100). -/
def segSpan (typ : Nat) : Nat := if typ = 0 then 3264 else 2040 * 256

/-- The entry of a segment that a unit's key has: the unit's, or its extent's. -/
def segEntry (typ key : Nat) : Nat := if typ = 0 then key else extentKey key

/-- The unit ranges that an effect changes in the map: namespace, first key, count. -/
def Fx.ranges : Fx → List (Nat × Nat × Nat)
  | .item it => it.units.map fun u => (it.nsid, u.1, 1)
  | .unmap i f c => [(i, f, c)]
  | .zero i f c => [(i, f, c)]
  | .lost i k => [(i, k, 1)]
  | .record _ => []
  | .stored .. => []
  | .release i st x => [(i, (st * 2 ^ 24 + x) * 256, 256)]

/-- An effect that leaves its whole range UNMAPPED. -/
def Fx.unmaps : Fx → Bool
  | .unmap .. => true
  | .release .. => true
  | _ => false

/-- TYPE of the segments of a namespace (R100). -/
def Store.segType (d : Store) (nsid : Nat) : Nat := if d.inExtents nsid then 1 else 0

/-- The segments that a range covers whole, by their lowest and highest index; none where the first is above the second. -/
def segWhole (typ first count : Nat) : Nat × Nat :=
  ((first + segSpan typ - 1) / segSpan typ, (first + count) / segSpan typ)

/-- The segments that an effect changes at the ends of its range, or wherever it lies where `part` says that no segment
becomes EMPTY, with the entries changed. -/
def Store.segsOf (d : Store) (empties : Bool) (r : Nat × Nat × Nat) : List (Nat × Nat × Nat × List Nat) :=
  let t := d.segType r.1
  let whole := segWhole t r.2.1 r.2.2
  let idxs := (if empties then [r.2.1, r.2.1 + r.2.2 - 1].map (· / segSpan t)
    else (List.range ((r.2.1 + r.2.2 - 1) / segSpan t - r.2.1 / segSpan t + 1)).map (· + r.2.1 / segSpan t)).dedup
  (idxs.filter fun i => !(empties && decide (whole.1 ≤ i) && decide (i < whole.2))).map fun i =>
    let lo := max r.2.1 (i * segSpan t)
    let hi := min (r.2.1 + r.2.2) (i * segSpan t + segSpan t)
    (r.1, t, i, ((List.range (hi - lo)).map fun j => segEntry t (lo + j)).dedup)

/-- A segment all of whose keys an UNMAPPED range covers: it becomes EMPTY (R101, R127). -/
def segCovered (r : Nat × Nat × Nat) (nsid typ idx : Nat) : Bool :=
  let w := segWhole typ r.2.1 r.2.2
  nsid == r.1 && decide (w.1 ≤ idx) && decide (idx < w.2)

/-- A segment is that of these numbers. -/
def Segment.is (g : Segment) (nsid typ idx : Nat) : Bool := g.nsid == nsid && g.typ == typ && g.idx == idx

/-- Past 524,288 segments the least recently used clean one leaves tier 2, and a segment leaves tier 1 with it (R102). -/
def evictSegs (gs : List Segment) : List Segment :=
  if gs.length ≤ 524288 then gs else gs.eraseP fun g => g.dirtyAt.isNone

/-- A segment accessed moves to the head of tier 1's order. Past 1,024 the least recently used clean one leaves tier 1; where
none is clean the segment stays in tier 2 alone (R102). -/
def Flash.access (f : Flash) (k : Nat × Nat × Nat) : Flash :=
  let clean := fun x : Nat × Nat × Nat => !f.segs.any fun g => g.is x.1 x.2.1 x.2.2 && g.dirtyAt.isSome
  let t := f.tier1.filter fun x => x != k
  { f with
    segs := (f.segs.filter fun g => !g.is k.1 k.2.1 k.2.2) ++ f.segs.filter fun g => g.is k.1 k.2.1 k.2.2
    tier1 := if t.length < 1024 then t ++ [k] else if t.any clean then t.eraseP clean ++ [k] else t }

/-- A segment changed by the seal of epoch `n`: it becomes dirty, a partial one where none is cached, which holds the entries
written alone; one that a write-back under way has programmed notes that it has changed again (R103 to R105). -/
def touchSeg (n : Nat) (f : Flash) (x : Nat × Nat × Nat × List Nat) : Flash :=
  let i := x.2.2.1
  let wb := f.writeback.any fun w => w.1 == x.1 && w.2.1 == x.2.1 && w.2.2.1 == i
  let old := f.segs.find? fun g => g.is x.1 x.2.1 i
  let g : Segment :=
    match old with
    | none => ⟨x.1, x.2.1, i, false, some n, x.2.2.2, none⟩
    | some g => { g with
        dirtyAt := some (g.dirtyAt.getD n)
        held := if g.whole then [] else (g.held ++ x.2.2.2).dedup
        again := if wb then some (g.again.getD n) else none }
  ({ f with segs := evictSegs ((f.segs.filter fun (h : Segment) => !h.is x.1 x.2.1 i) ++ [g]) }).access (x.1, x.2.1, i)

/-- The structures of the map area that have a codeword which `bad` picks are to be rewritten: map segments become dirty, chain
areas are programmed again (R122, R182). -/
def State.renewSys (s : State) (bad : Nat → Bool) : State :=
  let hit := fun a => s.flash.cells.any fun c => (c.addr == a || c.item == a) && c.utype == 3 && bad c.addr
  let gs := (s.flash.dirEnts.filter fun x => hit x.2.2.2).map fun x => (x.1, x.2.1, x.2.2.1, ([] : List Nat))
  ((s.modFlash fun f => gs.foldl (touchSeg s.hz.epoch) f).modStore fun d => { d with
    nss := updIf (fun n => n.chainAt.any bad) (fun n => { n with chained := 0 }) d.nss })

/-- The pending entries and moves of an epoch moved into their segments (R104). -/
def State.touchSegs (s : State) (e : Epoch) : State :=
  let ms := (s.flash.moves.filter fun m => m.recorded == some e.n).map fun m => (m.nsid, m.key, 1)
  let gone := (e.fx.filter Fx.unmaps).flatMap Fx.ranges
  let rest := (e.fx.filter fun x => !x.unmaps).flatMap Fx.ranges ++ ms
  s.modFlash fun f => (gone.flatMap (s.store.segsOf true) ++ rest.flatMap (s.store.segsOf false)).foldl (touchSeg e.n)
    { f with
      segs := f.segs.filter fun g => !gone.any fun r => segCovered r g.nsid g.typ g.idx
      dirEnts := f.dirEnts.filter fun x => !gone.any fun r => segCovered r x.1 x.2.1 x.2.2.1
      writeback := f.writeback.filter fun x => !gone.any fun r => segCovered r x.1 x.2.1 x.2.2.1 }

/-- The oldest epoch whose records are not yet in a written-back segment, where `n` is the last one sealed (R117). -/
def Flash.replayFrom (f : Flash) (n : Nat) : Nat := (f.segs.filterMap (·.dirtyAt)).foldl min (n + 1)

/-- The seal of epoch `n` carries the SEG_LOC, BLOCK_STATE and CKPT records of what has been done: segments written
back become clean, or dirty from their next change on; the checkpoint is complete (R105, R121, R136). [log 129: DESIGN
CHOICE] -/
def State.sealMapArea (s : State) (n : Nat) : State :=
  let of_ := fun (g : Segment) (w : Nat × Nat × Nat × Nat) => g.is w.1 w.2.1 w.2.2.1
  let s1 := s.modFlash fun f => { f with
    segs := f.segs.map fun g => if f.writeback.any (of_ g) then { g with dirtyAt := g.again, again := none } else g
    dirEnts := (f.dirEnts.filter fun x =>
      !f.writeback.any fun w => w.1 == x.1 && w.2.1 == x.2.1 && w.2.2.1 == x.2.2.1) ++ f.writeback
    writeback := [], erased := [] }
  if s.flash.ckpt = none then s1
  else (s1.modFlash fun f => { f with ckpt := none, ckptAt := f.ckptCws, ckptCws := [], binsSaved := f.bins }).modStore
    fun d => { d with ckptEpoch := n, replayFrom := s1.flash.replayFrom n }

/-! ### Open-block parity (R155) -/

/-- The rows of a super-block that have changed since they were last written to its log. -/
def ParityBlock.changed (p : ParityBlock) (recs : List LogRec) : List ParityRow :=
  p.rows.filter fun r => (recs.reverse.find? fun x => x.row.row == r.row).map (·.row) != some r

/-- The codeword at `a` is to go: its block is a victim, or it can be read through its stripe alone (R122, R182). -/
def State.leaving (s : State) (a : Nat) : Bool :=
  s.unreadable a || s.flash.blocks.any fun b => b.blk == blockOf a && b.st == .victim

/-- The parity log of a super-block, begun anew where one of its codewords is to go (R155, R182). -/
def State.logOf (s : State) (sb : Nat) : ParityLog :=
  match s.flash.logs.find? fun l => l.sb == sb with
  | some l => if l.cws.any s.leaving then ⟨sb, [], []⟩ else l
  | none => ⟨sb, [], []⟩

/-- The changed rows of a super-block appended to its parity log, for the persistence of epoch `n` (R155). -/
def State.persistLog (s : State) (n : Nat) (p : ParityBlock) : State :=
  let log := s.logOf p.sb
  let recs := (p.changed log.recs).map fun r => (⟨n, r⟩ : LogRec)
  if recs = [] then s
  else
    let w := s.writeSys 3 [] log.cws.length (recs.flatMap LogRec.bytes)
    w.2.modFlash fun f => { f with
      logs := (f.logs.filter fun l => l.sb != p.sb) ++ [{ log with cws := log.cws ++ w.1, recs := log.recs ++ recs }] }

/-- The snapshot entries of the super-blocks that hold open-block parity (R155). -/
def State.snapEntries (s : State) : List SnapEntry :=
  s.flash.parity.map fun p =>
    let log := (s.flash.logs.find? fun l => l.sb == p.sb).getD ⟨p.sb, [], []⟩
    ⟨p.sb, p.mode, p.pending, log.cws.headD 0, log.recs.length, s.modeCw p.mode, p.opened⟩

/-- The open-block parity of epoch `n` persisted: logs, then the snapshot header, whose address becomes OBP_ADDR (R155). -/
def State.persistParity (s : State) (n : Nat) : State :=
  let s1 := s.flash.parity.foldl (fun st p => st.persistLog n p) s
  let w := s1.writeSys 2 [] 0 (snapBytes n s1.snapEntries)
  w.2.modHz fun h => { h with
    epochs := updIf (fun e => e.n == n) (fun e => { e with obp := some (w.1.headD 0, s1.snapEntries) }) h.epochs }

/-- The parity of epoch `n` is persisted by now (R43 row 4). -/
def State.parityKept (s : State) (n : Nat) : State :=
  if s.hz.epochs.any fun e => e.n == n && e.obp.isNone then s.persistParity n else s

/-! ### Chain entries (R84) -/

/-- The links of a record namespace that no codeword of its chain area holds yet, programmed with 32 entries to a codeword; a
codeword that was not full is programmed again. -/
def State.programChain (s : State) (n : Ns) : State :=
  let k := n.chained / 32
  if n.links.length ≤ n.chained then s
  else
    let w := s.writeSys 2 [] k ((n.links.drop (32 * k)).flatMap ChainLink.bytes)
    if w.1 = [] then s
    else w.2.modStore fun d => d.modNsp n.f.nsid fun x => { x with
      chainAt := x.chainAt.take k ++ w.1, chained := n.links.length }

/-- The chain entries of every record namespace programmed. -/
def State.programChains (s : State) : State := s.store.nss.foldl State.programChain s

/-! ### Intent entries (R187, R188) -/

/-- Three copies of a structure of one codeword on distinct members, as far as there are so many. -/
def State.threeCopies (s : State) : Option (List Nat × State) :=
  let take := fun (x : Option (List Nat × State)) (_ : Nat) => x.bind fun y =>
    match y.2.mapSuper 2 with
    | none => none
    | some (sb, s1) =>
      let as := s1.sysPlaces sb 2 (y.1.map addrCh)
      match as with
      | [] => none
      | a :: _ => (s1.takeOne 0 s.hz.epoch 2 false (as.getD (s1.free.1.toNat % as.length) a)).map fun s2 =>
          (y.1 ++ [as.getD (s1.free.1.toNat % as.length) a], { s2 with freeCtr := s2.freeCtr + 1 })
  (List.range 3).foldl take (some ([], s))

/-- The stripes that epoch `n` has opened. -/
def State.openedBy (s : State) (n : Nat) : List Stripe := s.flash.stripes.filter fun p => p.epoch == n

/-- The entry of epoch `n` with sequence number `seq` in three copies. The ranges that it names are the stripes that
the epoch then opens. [log 151: DEDUCED] -/
def State.programIntent (s : State) (seq n : Nat) : State :=
  match s.threeCopies with
  | some (as, s1) => s1.modFlash fun f => { f with intents := f.intents ++ [⟨seq, n, as⟩] }
  | none => s.modFlash fun f => { f with intents := f.intents ++ [⟨seq, n, []⟩] }

/-- The copies of the intent entries of epochs that open no further stripe hold their ranges. -/
def State.fillIntents (s : State) : State :=
  let done := fun i : Intent => !s.hz.epochs.any fun e => e.n == i.epoch && !e.isSealed
  (s.flash.intents.filter done).foldl (fun st i =>
    (i.copies.filter fun a => (st.cell? a).isNone).foldl (fun st a =>
      st.confirmCell (sysCell a i.seq st.hz.epoch a (intentBytes i.seq i.epoch (st.openedBy i.epoch)))) st) s

/-- Programs of stripes that epoch `n` opened may start: its intent entry is confirmed, or the epoch is sealed (R188). -/
def State.intentKept (s : State) (n : Nat) : Bool := !s.hz.epochs.any fun e => e.n == n && !e.isSealed && !e.intentOk

/-! ### The map delta entry (R117 to R119) -/

/-- The address `i` data positions after `a` in super-block order, PAD positions not counted (R175). -/
def State.after (s : State) : Nat → Nat → Nat
  | a, 0 => a
  | a, i + 1 =>
    match s.stripe? a with
    | none => 0
    | some p =>
      let on := p.dataAt.filter fun x => p.taken.contains x
      match on[on.findIdx (fun x => x == a) + 1]? with
      | some b => s.after b i
      | none => s.after ((((s.groupStripes p.sb p.grp)[p.n + 1]?).bind fun q =>
          (q.dataAt.filter fun x => q.taken.contains x).head?).getD 0) i

/-- The SEG_LOC record of a segment (R118). -/
def segRec (inner : Bool) (nsid idx : Nat) (a : Option Nat) : DeltaRec := ⟨4, inner, 0, 0, nsid * 2 ^ 48 + idx, dirWord a⟩

/-- The segments that an effect makes EMPTY, where they had a place on flash. -/
def State.emptied (s : State) (e : Epoch) : List DeltaRec :=
  let gone := (e.fx.filter Fx.unmaps).flatMap Fx.ranges
  (s.flash.dirEnts.filter fun x => gone.any fun r => segCovered r x.1 x.2.1 x.2.2.1).map fun x => segRec false x.1 x.2.2.1 none

/-- The records of epoch `e` caused by commands. -/
def State.hostDelta (s : State) (e : Epoch) : List DeltaRec :=
  mergeRuns s.after ((e.fx.flatMap (Fx.delta s.store.inExtents)).filter fun r => !r.inner) ++ s.emptied e

/-- The record of a move, or of the extent that it begins, over the map that it leaves. -/
def State.moveDelta (s : State) (d : Store) (m : Move) : List DeltaRec :=
  if m.coarse = false then [⟨if d.inExtents m.nsid then 2 else 1, true, m.nsid, 0, m.key, entryWord (some (.flash m.dst))⟩]
  else if (s.moveGroup m).head? = some m then
    [⟨3, true, m.nsid, 0, extentKey m.key, extentWord (d.extent? m.nsid (extentKey m.key))⟩]
  else []

/-- The internal records of epoch `e`, over the map `d` that its moves leave. -/
def State.innerDelta (s : State) (e : Epoch) (d : Store) : List DeltaRec :=
  let f := s.flash
  (e.fx.flatMap (Fx.delta d.inExtents)).filter (·.inner) ++
    mergeRuns s.after ((f.moves.filter fun m => m.recorded == some e.n).flatMap (s.moveDelta d)) ++
    f.writeback.map (fun w => segRec true w.1 w.2.2.1 (some w.2.2.2)) ++ f.erased.map (fun b => ⟨5, true, 0, 0, b, 0⟩) ++
    e.ctrl.filterMap (fun c => match c with | .retire b => some ⟨5, true, 0, 0, b, 1⟩ | _ => none) ++
    (if f.ckpt = none then [] else [⟨6, true, 0, 0, e.n, f.ckptCws.headD 0⟩])

/-! ### Two copies on distinct members (R43 rows 6 and 7, R179) -/

/-- A structure programmed twice, the copies on distinct members. A member that has failed in this seal window may be the one
that a copy was bound for: P and Q then stand for that copy (R179). -/
def State.twoCopies (s : State) (key : Nat) (d : Data) : List Nat × List Nat × State :=
  let lost := s.flash.lostMembers
  let s0 := s.modFlash fun f => { f with lostMembers := lost.filter fun m => !f.windowFails.contains m }
  let a := s0.writeSys 2 [] key d
  let b := a.2.writeSys 2 ((a.1.map addrCh).dedup) key d
  (a.1, b.1, b.2.modFlash fun f => { f with lostMembers := lost })

/-- A copy is unreadable but through P and Q: it lies on a member that has failed. -/
def State.copyLost (s : State) (as : List Nat) : Bool := as.any fun a => s.flash.lostMembers.contains (addrCh a)

/-- The bytes of a structure whose first codeword is at `a`. -/
def State.sysData (s : State) (as : List Nat) : Data := as.flatMap fun a => (s.cell? a).elim [] (·.data)

/-- A copy on a failed member programmed again on a healthy one, away from the other copy (R179). -/
def State.replaceCopy (s : State) (old other : List Nat) (key : Nat) : List Nat × State :=
  if s.copyLost old then
    let w := s.writeSys 2 (other.map addrCh) key (s.sysData old)
    if w.1 = [] then (old, s) else w
  else (old, s)

/-- The replacement copies of the last seal entries, in the program phase of the next tick (R179). -/
def State.replaceCopies (s : State) : State :=
  match s.flash.journal.getLast? with
  | none => s
  | some j =>
    if !(s.copyLost j.descs || s.copyLost j.delta1 || s.copyLost j.delta2) then s
    else
      let d1 := (j.descs.take 1)
      let d2 := (j.descs.drop 1).take 1
      let a := s.replaceCopy d1 d2 0
      let b := a.2.replaceCopy d2 a.1 0
      let x := b.2.replaceCopy j.delta1 j.delta2 0
      let y := x.2.replaceCopy j.delta2 x.1 0
      (y.2.modFlash fun f => { f with
        journal := f.journal.map fun k => if k = j then { j with descs := a.1 ++ b.1, delta1 := x.1, delta2 := y.1 } else k }).modStore
        fun d => { d with descAt := if d.descAt = j.descs then a.1 ++ b.1 else d.descAt }

/-- The entries that a recovery no longer needs leave the journal (R121). -/
def State.pruneJournal (s : State) : State :=
  let low := min s.store.replayFrom s.store.ckptEpoch
  s.modFlash fun f => { f with
    journal := f.journal.filter fun j => decide (low ≤ j.epoch) || decide (s.store.sealed ≤ j.epoch) }

end Sys2Proof.Machine
end

