-- ==== Sys2Proof/Machine/QueueOps.lean ====
section
/-!
DEFINITION. Operations of queue pairs and commands: lookup, completion entries (R367, R378 to
R380), tags (R371), what falls due at a seal (R39, R40, R384), and the end of commands by abort,
timeout, reset and Halted (R64, R385 to R388).
-/

namespace Sys2Proof.Machine

open Sys2Proof

/-! ### Pairs and commands -/

/-- Pair `qid` of function `n`. -/
def State.pair? (s : State) (n qid : Nat) : Option Pair :=
  s.q.pairs.find? (fun p => p.fn == n && p.qid == qid)

/-- Pair `qid` of function `n` changed by `g`. -/
def State.modPair (s : State) (n qid : Nat) (g : Pair → Pair) : State :=
  s.modQ fun q => { q with pairs := updIf (fun p => p.fn == n && p.qid == qid) g q.pairs }

/-- A fetched, uncompleted command by function, pair and CID. -/
def State.cmd? (s : State) (n qid cid : Nat) : Option Cmd :=
  s.q.cmds.find? (fun c => c.fn == n && c.qid == qid && c.e.cid == cid)

/-- The command with fetch number `seq` changed by `g`. -/
def State.modCmd (s : State) (seq : Nat) (g : Cmd → Cmd) : State :=
  s.modQ fun q => { q with cmds := updIf (fun c => c.seq == seq) g q.cmds }

/-- The command with fetch number `seq` ended: it leaves the queue memory. -/
def State.dropCmd (s : State) (seq : Nat) : State :=
  s.modQ fun q => { q with cmds := q.cmds.filter fun c => c.seq != seq }

/-- Opcodes of R375. -/
def opRead : Nat := 1
def opWrite : Nat := 2
def opAppend : Nat := 3
def opDiscard : Nat := 4
def opFlush : Nat := 5
def opExec : Nat := 6

/-- Completions of a pair whose CQ write the device cannot issue yet (R343, R368). -/
def State.heldOf (s : State) (n qid : Nat) : Nat :=
  (s.q.held.filter fun x => match x.2 with | .cq f q _ => f == n && q == qid | _ => false).length

/-- Tags that function `n` holds: fetched commands, completions not yet written, and commands that a reset under way has ended
(R371, R388). -/
def State.tagsHeld (s : State) (n : Nat) : Nat :=
  (s.fn? n).elim 0 (·.reset.tags) + (s.q.cmds.filter fun c => c.fn == n).length +
    (s.q.held.filter fun x => match x.2 with | .cq f _ _ => f == n | _ => false).length

/-- Entries of the CQ that the host has not released, held ones included. -/
def Pair.cqUsed (p : Pair) : Nat := (p.cqTail + p.depth - p.cqHead) % p.depth

/-- The count of R368: commands not completed plus CQ entries not released. -/
def State.cqLoad (s : State) (p : Pair) : Nat :=
  (s.q.cmds.filter fun c => c.fn == p.fn && c.qid == p.qid).length + p.cqUsed

/-! ### Completion entries -/

/-- The pair after one completion entry. -/
def Pair.push (p : Pair) (e : CqEntry) : Pair :=
  let wrap := p.cqTail + 1 = p.depth
  { p with
    entries := p.entries ++ [e]
    cqTail := if wrap then 0 else p.cqTail + 1
    phase := if wrap then !p.phase else p.phase
    coalescing := true }

/-- A completion entry on pair `qid` of function `n`. A fenced function has none written (R358). -/
def State.postCq (s : State) (n qid cid : Nat) (st : Status) (result : Nat) : State :=
  match s.pair? n qid with
  | none => s
  | some p =>
    if s.fnState n ≠ .active then s
    else
      let e : CqEntry := ⟨result, st, p.sqHead, cid, p.phase⟩
      (s.modPair n qid fun p => p.push e).hostWrite n (.cq n qid e)

/-- RESULT of R379 for a command that ends with status `st` in the ordinary way. -/
def Cmd.result (c : Cmd) : Nat :=
  if c.e.opc = opAppend then (if c.done = 0 then 0 else c.offset) else c.done

/-- A command completes: its entry is written and it leaves the queue memory. -/
def State.endCmd (s : State) (c : Cmd) (st : Status) (result : Nat) : State :=
  (s.dropCmd c.seq).postCq c.fn c.qid c.e.cid st result

/-! ### What falls due (R39, R40, R47, R384) -/

/-- The device is in a ring group (R46, R319). -/
def State.inRing (s : State) : Bool := s.zl.group == .master || s.zl.group == .member

/-- The first epoch that the device ran as a member of its group (R68, R317). -/
def State.firstGroup (s : State) : Nat := s.zl.joinAt + s.zl.offset

/-- Ring-synchronous content of epoch `n` waits for a ring seal: the device was in its group (R38). -/
def State.ringDeferred (s : State) (n : Nat) : Bool := s.inRing && decide (s.firstGroup ≤ n)

/-- The epoch up to which effects in namespace `nsid` are sealed for its completions: the ring mark
for a ring-synchronous namespace of a group. -/
def State.sealedFor (s : State) (nsid : Nat) : Nat :=
  if s.store.isRing nsid ∧ s.inRing then max s.hz.ringMark (min s.hz.sealed (s.firstGroup - 1))
  else s.hz.sealed

/-- A change of stored data: WRITE, APPEND or DISCARD. -/
def Cmd.stores (c : Cmd) : Bool :=
  c.e.opc == opWrite || c.e.opc == opAppend || c.e.opc == opDiscard

/-- A command whose completion is due: every part admitted (or no further part to come), and the
epoch it needs sealed. -/
def State.due (s : State) (c : Cmd) : Bool :=
  if c.stores then
    c.stage == .admitted && (c.left == 0 || c.ended) && decide (0 < c.done) &&
      decide (c.need ≤ s.sealedFor c.e.nsid)
  else if c.e.opc == opRead then
    c.stage == .admitted && decide (c.need ≤ s.sealedFor c.e.nsid)
  else false

/-- A flush for which no earlier command of its pair to its namespace is outstanding. -/
def State.flushReady (s : State) (c : Cmd) : Bool :=
  c.e.opc == opFlush &&
    !s.q.cmds.any fun x =>
      x.fn == c.fn && x.qid == c.qid && decide (x.seq < c.seq) && x.e.nsid == c.e.nsid

/-- Completions may be written: Sutas firmware runs and the device neither drains nor resets
(R39, R66, R440, R441). -/
def State.mayComplete (s : State) : Bool :=
  !s.pw.restarting && s.pw.st != .draining && s.pw.st != .resetting && s.pw.st != .stopped

/-- Flushes that this seal completes: those ready before it. `ring` picks flushes of
ring-synchronous namespaces; RESULT is the epoch closed. -/
def State.endFlushes (s : State) (ring : Bool) (epoch : Nat) : State :=
  (s.q.cmds.filter fun c => s.flushReady c && s.store.isRing c.e.nsid == ring).foldl
    (fun a c => a.endCmd c St.ok epoch) s

/-- Every completion that is due, in fetch order. -/
def State.endDue (s : State) : State :=
  (s.q.cmds.filter fun c => s.due c).foldl (fun a c => a.endCmd c c.status c.result) s

/-! ### Exceptional ends -/

/-- Units of a command that were sealed before the device entered Halted (R379). -/
def State.sealedUnits (s : State) (c : Cmd) : Nat :=
  sumBy (fun p => if p.1 ≤ s.sealedFor c.e.nsid then p.2 else 0) c.pieces

/-- RESULT of a command that ends with ST_HALTED (R379). -/
def State.haltedResult (s : State) (c : Cmd) : Nat :=
  if c.e.opc = opRead then c.done
  else if c.e.opc = opAppend then (if s.sealedUnits c = 0 then 0 else c.offset)
  else if c.stores then s.sealedUnits c
  else 0

/-- Every fetched command completes with ST_HALTED (R64). -/
def State.haltCmds (s : State) : State :=
  s.q.cmds.foldl (fun a c => a.endCmd c St.halted (s.haltedResult c)) s

/-- A command of which no part is admitted, a waiting flush, or an exec that waits for engines. -/
def Cmd.unstarted (c : Cmd) : Bool :=
  c.done == 0 && (c.stage == .fetched || c.stage == .needClass || c.stage == .needData ||
    c.stage == .waiting)

/-- DETAIL values of the entries by which R388 logs a reset: the count, then four (QID, CID) pairs
to an entry. -/
def abortDetails (cs : List Cmd) : List Nat :=
  let listed := (cs.filter fun c => c.done != 0).take 64
  let pairs := listed.map fun c => c.qid + 65536 * c.e.cid
  (cs.length + 4294967296 * listed.length) ::
    (List.range ((listed.length + 3) / 4)).map fun i =>
      ((pairs.drop (4 * i)).take 4).foldr (fun p a => p + 4294967296 * a) 0

/-- The commands of function `n` end at a reset or removal: no completion is written, and the reset
is logged in consecutive entries (R388). -/
def State.abortAll (s : State) (n : Nat) : State :=
  let cs := s.q.cmds.filter fun c => c.fn == n
  let s1 := (abortDetails cs).foldl (fun a d => a.log 1 n St.abortedReset d) s
  s1.modQ fun q => { q with
    cmds := q.cmds.filter fun c => c.fn != n
    held := q.held.filter fun x => x.1 != n }

/-- Mailbox replies that wait for a seal that will not come are turned to ST_HALTED (R403). -/
def State.haltReplies (s : State) : State :=
  { s with
    fns := s.fns.map fun f =>
      match f.mb.reply with
      | some r =>
        (match r.await with
         | some e =>
           if e ≤ s.hz.sealed then f
           else { f with mb := { f.mb with reply := some ⟨r.opcode, r.tag, St.halted, [], none⟩ } }
         | none => f)
      | none => f }

/-- Every long command that has not ended ends with a status (R403). -/
def State.endLongs (s : State) (st : Status) : State :=
  (s.recs.longs.filter fun l => l.status == none).foldl (fun a l => a.endLong l.id st []) s

end Sys2Proof.Machine
end

