-- ==== Sys2Proof/Machine/Seal.lean ====
section
/-!
DEFINITION. What a seal does (R39 to R48): the effects that wait for it, the pending entries moved
into the map, the seal entries programmed, completions, the ring mark, and the discard of what was not
sealed.
-/

namespace Sys2Proof.Machine

open Sys2Proof

/-! ### Effects that wait for the seal (R43 row 8) -/

/-- A slot of four, EMPTY (R95). -/
def Slot.empty : Slot :=
  { st := .empty, len := 0, expect := 0, verifyFrom := 0, longId := 0, issuer := 0 }

/-- A namespace as its creation leaves it (R75, R77, R83). -/
def Ns.create (n : NsFields) (epoch : Nat) (replica : Bool) : Ns :=
  { f := n, st := .online, created := epoch,
    genesis := if n.cls = 2 then chainGenesis n.nsid epoch else [], links := [], admitted := 0,
    records := 0, trimEpoch := 0, regions := [],
    slots := if n.cls = 3 then List.replicate 4 .empty else [], deferred := false,
    replica := replica, chainAt := [], chained := 0 }

/-- A namespace deleted: its space is released and its streams are freed (R77). -/
def Store.deleteNs (d : Store) (nsid : Nat) : Store :=
  { d with
    nss := d.nss.filter fun n => n.f.nsid != nsid
    streams := d.streams.filter fun x => x.nsid != nsid
    recs := d.recs.filter fun r => r.nsid != nsid
    map := d.map.filter fun u => u.nsid != nsid
    extents := d.extents.filter fun x => x.nsid != nsid
    lost := d.lost.filter fun x => x.1 != nsid
    released := d.released.filter fun x => x.1 != nsid }

/-- Records of epochs up to `x` removed, every link kept; units that then hold no record's bytes become UNMAPPED
(R88). [log 25: DEDUCED] -/
def Store.trim (d : Store) (nsid x : Nat) : Store :=
  let recs := d.recs.filter fun r => !(r.nsid == nsid && decide (r.epoch ≤ x))
  let start := fun (st : Stream) =>
    match (recs.filter fun r => r.nsid == nsid && r.stream == st.num).map (·.offset) with
    | [] => st.stored
    | o :: os => os.foldl min o
  ((d.streams.filter fun st => st.nsid == nsid).foldl
    (fun (d : Store) st => d.unmap nsid (streamKey st.num 0) (start st / 4096)) { d with recs := recs }).modNsp nsid
    fun n => { n with trimEpoch := max n.trimEpoch x }

/-- First LBA of slot `i`'s region, and the units of one region (R94). -/
def Ns.regionLba (n : Ns) (i : Nat) : Nat := (i + 1) * n.f.capacity

/-- Slot `i` of an INS set. -/
def Store.setSlot (d : Store) (nsid i : Nat) (sl : Slot) : Store :=
  d.modNsp nsid fun n => { n with slots := updAt n.slots i fun _ => sl }

/-- Slot `i` of an INS emptied: its LBAs are discarded. -/
def Store.eraseSlot (d : Store) (nsid i : Nat) : Store :=
  match d.ns? nsid with
  | some n => (d.unmap nsid (n.regionLba i) n.f.capacity).setSlot nsid i .empty
  | none => d

/-- Every slot in state `former` takes state `next` (R95). -/
def Store.slotFormer (d : Store) (nsid : Nat) (former next : SlotState) : Store :=
  match d.ns? nsid with
  | none => d
  | some n =>
    (n.slots.zipIdx.filter fun x => x.1.st == former).foldl
      (fun d x => if next = .empty then d.eraseSlot nsid x.2
                  else d.setSlot nsid x.2 { x.1 with st := next }) d

/-- What a change does to the durable state when its epoch is sealed. -/
def Ctrl.durable (c : Ctrl) (d : Store) : Store :=
  match c with
  | .nsCreate n e r => { d with nss := d.nss ++ [Ns.create n e r] }
  | .nsDelete i => d.deleteNs i
  | .streamOpen i st des =>
    if d.streams.any (fun x => x.num == st) then
      d.modStream st fun x => { x with isOpen := true, designated := des }
    else { d with streams := d.streams ++ [⟨st, i, true, des, 0⟩] }
  | .streamClose _ st => d.modStream st fun x => { x with isOpen := false }
  | .retain i days => d.modNsp i fun n => { n with f := { n.f with retainDays := days } }
  | .rclkSet sec => { d with rclkUs := max d.rclkUs (sec * 1000000) }
  | .trim i x _ _ => d.trim i x
  | .freeze i a b => d.modNsp i fun n => { n with regions := mergeRegion n.regions (a, b) }
  | .unfreeze i a => d.modNsp i fun n => { n with regions := n.regions.filter fun g => g.1 != a }
  | .slot i k sl => d.setSlot i k sl
  | .slotErase i k => d.eraseSlot i k
  | .slotFormer i a b => d.slotFormer i a b
  | .poolForm p _ => { d with pool := p }
  | .memberFail m =>
    { d with
      pool := { d.pool with
        members := updIf (fun x => x.1 == m) (fun x => (x.1, .rebuilding)) d.pool.members } }
  | .dieFail g => { d with pool := { d.pool with failedDies := d.pool.failedDies ++ [g] } }
  | .reshapeStart i code who long =>
    { d with reshape := ⟨.copying, i, code, long, who⟩ }
  | .reshapeSwitch =>
    let r := d.reshape
    { (d.modNsp r.nsid fun n => { n with f := { n.f with redun := r.code } }) with
      map := (d.map.filter fun u => u.nsid != r.nsid || (u.entry == .lost &&
          !d.map.any fun v => v.nsid == newLayout r.nsid && v.key == u.key)).map fun u =>
        if u.nsid = newLayout r.nsid then { u with nsid := r.nsid } else u
      extents := (d.extents.filter fun x => x.nsid != r.nsid).map fun x =>
        if x.nsid = newLayout r.nsid then { x with nsid := r.nsid } else x
      reshape := .none }
  | .reshapeCancel =>
    { d.deleteNs (newLayout d.reshape.nsid) with reshape := .none }
  | .mirrorBreak i => d.modNsp i fun n =>
      { n with f := { n.f with flags := n.f.flags - 4 * bitsAt n.f.flags 2 1, mirrorNode := 0 } }
  | .deferred i b => d.modNsp i fun n => { n with deferred := b }
  | .retire b => { d with retired := d.retired ++ [b] }
  | .hzConfig .. | .ftProfile .. | .mediaCare _ | .rdProfile _ | .param .. | .claim .. | .unclaim _
  | .tickOut _ | .sampling _ | .hostCfg .. | .pf0Grant _ | .keyEnroll .. | .keyRevoke _ | .portCfg ..
  | .nodeSet _ | .trustEnroll .. | .trustRevoke _ | .membership .. => c.setting d
  | .attach .. | .detach .. | .mirrorCopied _ => d

/-- An attachment as it stands at the tick after the seal (R16): the former one of the pair ends
there. -/
def NsVol.attach (v : NsVol) (nsid n rights tick : Nat) : NsVol :=
  { v with
    attachments := updIf (fun a => a.nsid == nsid && a.fn == n && a.until_ == none)
      (fun a => { a with until_ := some tick }) v.attachments ++ [⟨nsid, n, rights, tick, none⟩] }

/-- A detachment from `tick` on. -/
def NsVol.detach (v : NsVol) (nsid n tick : Nat) : NsVol :=
  { v with
    attachments := updIf (fun a => a.nsid == nsid && a.fn == n && a.until_ == none)
      (fun a => { a with until_ := some tick }) v.attachments }

/-- A change of a stream takes effect at tick `tick`; until then the stream stays as it was (R78). -/
def State.streamLater (s : State) (nsid num tick : Nat) : State :=
  let old := (s.store.stream? num).elim (false, false) fun x => (x.isOpen, x.designated)
  s.modNs fun v => { v with streamChg := v.streamChg ++ [⟨nsid, num, old.1, old.2, tick⟩] }

/-! ### Losses beyond the redundancy (R186) -/

/-- Namespaces that go offline: those with a codeword in a super-block, not yet walked, that holds a stripe of their
scheme with p + 1 members lost. [log 74: DEDUCED] -/
def State.nsGone (s : State) : List Nat :=
  let bad := s.flash.cells.filter fun c => decide (c.utype = 1 ∨ c.utype = 2) &&
    !s.flash.walked.contains (superOf c.addr) && s.stripeGone c.addr
  let scheme := fun r => (s.store.pool.code r).2 - (s.store.pool.code r).1
  ((s.store.nss.filter fun n => n.st == .online && bad.any fun c =>
      (s.stripe? c.addr).elim false (fun p => scheme p.code == scheme n.f.redun) &&
      s.flash.cells.any fun x => x.nsid == n.f.nsid && decide (x.utype = 1 ∨ x.utype = 2) &&
        superOf x.addr == superOf c.addr)).map (·.f.nsid)

/-- Map segments of a namespace and of its new layout deleted. -/
def Flash.dropSegs (f : Flash) (nsid : Nat) : Flash :=
  { f with
    segs := f.segs.filter fun (g : Segment) => g.nsid % 0x8000 != nsid
    dirEnts := f.dirEnts.filter fun (x : Nat × Nat × Nat × Nat) => x.1 % 0x8000 != nsid
    writeback := f.writeback.filter fun (x : Nat × Nat × Nat × Nat) => x.1 % 0x8000 != nsid }

/-- At the switch of a reshape the new layout's segments are the namespace's (R192). [log 73: DESIGN CHOICE] -/
def Flash.switchSegs (f : Flash) (nsid : Nat) : Flash :=
  { f with
    segs := (f.segs.filter fun (g : Segment) => g.nsid != nsid).map
      fun (g : Segment) => if g.nsid = newLayout nsid then { g with nsid := nsid } else g
    dirEnts := (f.dirEnts.filter fun (x : Nat × Nat × Nat × Nat) => x.1 != nsid).map
      fun (x : Nat × Nat × Nat × Nat) => if x.1 = newLayout nsid then (nsid, x.2) else x
    writeback := (f.writeback.filter fun (x : Nat × Nat × Nat × Nat) => x.1 != nsid).map
      fun (x : Nat × Nat × Nat × Nat) => if x.1 = newLayout nsid then (nsid, x.2) else x }

/-! ### Pool formation (R169) -/

/-- Every block of the members erased, their factory bad blocks retired, nothing of the old pool left; each formation
counts one erase of every block of them. [log 68, 72: DEDUCED] -/
def State.formPool (s : State) (p : Pool) : State :=
  let ms := p.members.map (·.1)
  let in_ := fun a => ms.contains (addrCh a)
  let bad := (s.flash.channels.filter fun c => ms.contains c.ch).flatMap (·.bad)
  let s1 := s.modFlash fun f => { f with
    cells := f.cells.filter fun c => !in_ c.addr
    blocks := [], segs := [], tier1 := [], dirEnts := [], writeback := [], ckpt := none, ckptCws := [], ckptAt := []
    moves := [], ladders := [], parity := [], stripes := [], journal := [], intents := [], logs := [], logSupers := []
    snap := [], snapAt := 0, erased := [], walked := [], walking := false, walkTotal := 0, resyncFull := false, resyncLeft := []
    lostMembers := [], windowFails := [], collecting := false
    dies := f.dies.map fun d => if ms.contains (d.die / 16) then { d with failed := false, retired := 0, noReady := 0 } else d
    formed := ms.foldl (fun l m => bump l m 1) f.formed }
  let s2 := s1.modStore fun d => { d with retired := bad, map := [], extents := [], descAt := [], ckptEpoch := 0, replayFrom := 0 }
  bad.foldl (fun st b => st.modDie (globalDie b) fun d => { d with retired := d.retired + 1 }) s2

/-- The long command of a reshape that is cancelled ends with a status that the spec does not state: ST_OK or one of
the redundancy area (R6). [log 72: DEDUCED] -/
def State.endReshape (s : State) : State :=
  (s.freeStatus 4).2.endLong s.store.reshape.longId (s.freeStatus 4).1 []

/-- The reshape under way ends as by a cancel: the new layout goes, its long command ends (R193, R194). -/
def State.dropReshape (s : State) : State :=
  s.endReshape.modStore fun d => { d.deleteNs (newLayout d.reshape.nsid) with reshape := .none }

/-- The namespaces that a failure takes OFFLINE_MEDIA, with their events; a reshape of one of them ends
(R77, R186, R194). -/
def State.takeOffline (s : State) : State :=
  let gone := s.nsGone
  let s1 := s.modStore fun d => { d with
    nss := updIf (fun n => gone.contains n.f.nsid) (fun n => { n with st := .offlineMedia }) d.nss }
  let s2 := gone.foldl (fun a i => a.nsEvent St.nsOffline i 0) s1
  if s2.store.reshape.st != .none && gone.contains s2.store.reshape.nsid then s2.dropReshape else s2

/-- The existing namespace that a change names, if it names one. -/
def Ctrl.nsid? : Ctrl → Option Nat
  | .nsDelete i | .attach i _ _ | .detach i _ | .streamOpen i _ _ | .streamClose i _ | .retain i _ | .trim i _ _ _
  | .freeze i _ _ | .unfreeze i _ | .slot i _ _ | .slotErase i _ | .slotFormer i _ _ | .mirrorBreak i | .mirrorCopied i
  | .deferred i _ => some i
  | .nsCreate .. | .rclkSet _ | .hzConfig .. | .ftProfile .. | .mediaCare _ | .rdProfile _ | .poolForm .. | .memberFail _
  | .dieFail _ | .reshapeStart .. | .reshapeSwitch | .reshapeCancel | .param .. | .claim .. | .unclaim _ | .tickOut _
  | .sampling _ | .hostCfg .. | .pf0Grant _ | .keyEnroll .. | .keyRevoke _ | .portCfg .. | .nodeSet _ | .trustEnroll ..
  | .trustRevoke _ | .membership .. | .retire _ => none

/-- A change of what a ring-synchronous namespace is or holds: recovery takes it back beyond E_ring (R23, R93, R331).
Attachments, the deferred-error flag and the progress of a mirror copy belong to this device alone. [log 142: DEDUCED]
-/
def Ctrl.ofRing (d : Store) (c : Ctrl) : Bool :=
  match c with
  | .nsCreate n _ _ => bitAt n.flags 0
  | .attach .. | .detach .. | .deferred .. | .mirrorCopied _ => false
  | c => c.nsid?.elim false d.isRing

/-- The long commands that a deleted namespace leaves open end with ST_NS_NOT_ATTACHED: the verify of a slot. [log
141: DEDUCED] -/
def State.endVerifies (s : State) (nsid : Nat) : State :=
  ((s.store.ns? nsid).elim [] fun n => n.slots.filter fun x => x.st == .verifyPending).foldl
    (fun a x => a.endLong x.longId St.nsNotAttached []) s

/-- What a change does when the epoch that recorded it is sealed: to the durable state, and beside it to what takes
effect with or after the seal. A change of a namespace that is no more does nothing. [log 141: DEDUCED] -/
def State.applyCtrl (s : State) (c : Ctrl) : State :=
  if c.nsid?.any (fun i => (s.store.ns? i).isNone) then (match c with
    | .trim _ _ _ id => s.endLong id St.nsNotAttached []
    | .slot _ _ sl => if sl.st = .verifyPending then s.endLong sl.longId St.nsNotAttached [] else s
    | _ => s)
  else
  let next := s.hz.epoch + 1
  let s1 : State :=
    match c with
    | .attach i n r => s.modNs fun v => v.attach i n r next
    | .detach i n => s.modNs fun v => v.detach i n next
    | .streamOpen i st _ => s.streamLater i st next
    | .streamClose i st => s.streamLater i st next
    | .rclkSet sec => ((s.ageBlocks false).modHz fun h => { h with rclkUs := max h.rclkUs (sec * 1000000) }).ageBlocks true
    | .freeze i a b => s.modNs fun v =>
        { v with triggered := v.triggered.filter fun t => t != (i, a, b) }
    | .trim _ _ _ id => s.endLong id St.ok []
    | .mirrorCopied i => s.modZl fun z => { z with copying := z.copying.filter fun x => x != i }
    | .reshapeSwitch => (s.endLong s.store.reshape.longId St.ok []).modFlash fun f => f.switchSegs s.store.reshape.nsid
    | .reshapeCancel => s.endReshape
    | .nsCreate n _ _ => s.nsEvent St.ok n.nsid 0
    | .nsDelete i => ((if s.store.reshape.st != .none && s.store.reshape.nsid == i then s.dropReshape else s.endVerifies i).nsEvent
        St.ok i 0).modFlash fun f => f.dropSegs i
    | .slot _ _ sl => if sl.st = .verified then s.endLong sl.longId St.ok [] else s
    | .poolForm p id => (s.formPool p).endLong id St.ok []
    | .membership _ _ _ _ id => s.endLong id St.ok []
    | .memberFail m => s.modFlash fun f => { f with
        lostMembers := f.lostMembers.filter fun x => x != m, windowFails := f.windowFails.filter fun x => x != m }
    | _ => s
  let s2 := s1.modStore c.durable
  match c with
  | .memberFail _ | .dieFail _ => s2.takeOffline
  | _ => s2

/-! ### Sealing an epoch -/

/-- An epoch with no admitted data and no persistent change (R42). -/
def Epoch.empty (e : Epoch) : Bool := e.fx.isEmpty && e.ctrl.isEmpty && e.payload == 0

/-- The seal of an empty epoch programs nothing: no ring mark or join waits for it, it opens no stripe of a move, its entry
carries no move and no record of the map area, and its number is below HIGH_WATER less 32 (R42, R188). -/
def State.programsNothing (s : State) (e : Epoch) (join : Nat) : Bool :=
  e.empty && s.hz.pendingSealMark == 0 && join == 0 &&
    !s.flash.moves.any (fun m => m.recorded == some e.n || m.epoch == e.n) && s.flash.writeback.isEmpty &&
    s.flash.erased.isEmpty && s.flash.ckpt.isNone && decide (e.n + 32 < s.store.highWater)

/-- The ring-synchronous content of epochs given to a durable state. -/
def Store.takeRing (d : Store) (es : List Epoch) : Store := es.foldl (fun d e => d.applyEpoch e d.isRing) d

/-- The sealed epochs up to a ring mark. -/
def State.ringDueTo (s : State) (mark : Nat) : List Epoch := s.hz.epochs.filter fun e => e.isSealed && decide (e.n ≤ mark)

/-- What recovery would take back beyond the ring mark: the states saved for later epochs, with the content up to it. -/
def State.savesPast (s : State) (mark : Nat) : List (Nat × Store) :=
  (s.hz.ringSaves.filter fun x => decide (mark < x.1)).map fun x => (x.1, x.2.takeRing (s.ringDueTo mark))

/-- Epochs up to the ring mark give their ring-synchronous content to the durable state, and their changes stand (R23,
R47). -/
def State.applyRing (s : State) (mark : Nat) : State :=
  { s with
    store := { s.store.takeRing (s.ringDueTo mark) with
      markRclk := max s.store.markRclk (maxOf ((s.ringDueTo mark).map (·.rclkCut))) }
    hz := { s.hz with
      ringSaves := s.savesPast mark
      epochs := s.hz.epochs.filter fun e => !(e.isSealed && decide (e.n ≤ mark)) } }

/-- Before the changes of epoch `e` the ring-synchronous part of the durable state is saved, where they touch it and
the ring mark of `e` is still to come (R23). [log 142: DEDUCED] -/
def State.saveRing (s : State) (e : Epoch) : State :=
  if s.ringDeferred e.n && e.ctrl.any (Ctrl.ofRing s.store) then
    s.modHz fun h => { h with ringSaves := h.ringSaves ++ [(e.n, s.store)] }
  else s

/-- The completions that a seal lets out: flushes that were ready, then every command now due. -/
def State.completeSeal (s : State) (epoch : Nat) (ringMarkNew : Bool) : State :=
  if s.mayComplete then
    let s1 := s.endFlushes false epoch
    let s2 := if ringMarkNew then s1.endFlushes true s.hz.ringMark
      else if s.ringDeferred epoch then s1 else s1.endFlushes true epoch
    s2.endDue
  else s

/-- EVENT_FLAGS of R44 that a change sets: image activation, event freeze, retention change,
namespace or attachment change, persistent setting change. -/
def Ctrl.eventFlag : Ctrl → Nat
  | .slotFormer .. => 1
  | .freeze .. | .unfreeze .. => 2
  | .retain .. | .rclkSet _ | .trim .. => 4
  | .nsCreate .. | .nsDelete _ | .attach .. | .detach .. | .streamOpen .. | .streamClose ..
  | .mirrorBreak _ => 8
  | .slot .. | .slotErase .. | .poolForm .. | .reshapeStart ..
  | .reshapeSwitch | .reshapeCancel | .mirrorCopied _ | .deferred .. | .retire _ => 0
  | .memberFail _ | .dieFail _ => 16
  | .hzConfig .. | .ftProfile .. | .mediaCare _ | .rdProfile _ | .param .. | .claim .. | .unclaim _
  | .tickOut _ | .sampling _ | .hostCfg .. | .pf0Grant _ | .keyEnroll .. | .keyRevoke _ | .portCfg ..
  | .nodeSet _ | .trustEnroll .. | .trustRevoke _ | .membership .. => 16

/-- Bitwise or of the flags of a list of changes. -/
def eventFlags (cs : List Ctrl) : Nat := cs.foldl (fun a c => a ||| c.eventFlag) 0

/-- The group tick number of a local epoch, 0 outside a ring group (R44, R68). -/
def State.groupTick (s : State) (n : Nat) : Nat :=
  if s.ringDeferred n then (n - s.zl.offset) % 281474976710656 else 0

/-- CHAIN_SUMMARY: SHA-256 over the chain heads of all record namespaces in order of ID (R44). -/
def Store.chainSummary (d : Store) : Data :=
  sha256 ((sortOn (fun n => n.f.nsid) (d.nss.filter Ns.isRns)).flatMap Ns.chainHead)

/-- The descriptor of epoch `e` over the state that its effects leave and its map delta entry `delta` with the copies at `a`
and `b`; CHAIN_SUMMARY takes the links of ring-synchronous namespaces at the local seal too (R44, R84). -/
def State.descriptor (s : State) (e : Epoch) (highWater : Nat) (delta : Data) (a b : Nat) : Descriptor :=
  { flags := (if s.groupTick e.n = 0 then 0 else 1) + (if s.hz.pendingSealMark = 0 then 0 else 2) +
      (if e.ctrl = [] then 0 else 4)
    epoch := e.n, prevEpoch := s.store.desc.elim 0 (·.epoch), prevAddr := s.store.descAt.headD 0, highWater := highWater,
    delta1 := a, delta2 := b, deltaLen := delta.length, deltaCrc := (crc32c delta).toNat
    obpAddr := ((s.hz.epochs.find? fun x => x.n == e.n).bind (·.obp)).elim 0 (·.1)
    ringMark := max s.store.ringMark s.hz.pendingSealMark, groupTick := s.groupTick e.n,
    intentSeq := e.intentSeq.getD (s.store.desc.elim 0 (·.intentSeq)), payload := e.payload,
    records := e.records, chains := (s.store.takeRing ((s.hz.epochs.filter (·.isSealed)) ++
      (if s.ringDeferred e.n then [e] else []))).chainSummary, eventFlags := eventFlags e.ctrl }

/-- HIGH_WATER of the next descriptor: 64 above the epoch being accepted, or the higher value of a pending join (R44). -/
def State.nextHighWater (s : State) (join : Nat) : Nat := max (s.hz.epoch + 64) join

/-- The seal entries of epoch `e` programmed: the map delta entry in two copies, then the descriptor in two copies (R43 rows 6
and 7, R117). `rs` are the records of the entry: those of commands, then internal ones. -/
def State.sealEntries (s : State) (e : Epoch) (join : Nat) (rs : List DeltaRec × List DeltaRec) : State :=
  let delta := deltaBytes e.n (s.flash.replayFrom e.n) rs.1 rs.2
  let w := s.twoCopies 0 delta
  let desc := w.2.2.descriptor e (s.nextHighWater join) delta (w.1.headD 0) (w.2.1.headD 0)
  let x := w.2.2.twoCopies 0 desc.bytes
  ((x.2.2.modStore fun d => { d with desc := some desc, descAt := x.1 ++ x.2.1 }).modFlash fun f => { f with
    journal := f.journal ++ [⟨e.n, x.1 ++ x.2.1, w.1, w.2.1⟩]
    snap := ((s.hz.epochs.find? fun y => y.n == e.n).bind (·.obp)).elim f.snap (·.2)
    snapAt := ((s.hz.epochs.find? fun y => y.n == e.n).bind (·.obp)).elim f.snapAt (·.1) }).pruneJournal

/-- The durable marks of the seal of epoch `e` (R42, R44). -/
def State.sealMarks (s : State) (e : Epoch) (join : Nat) (quiet : Bool) : State :=
  { s with
    store := { s.store with
      sealed := e.n
      highWater := if quiet then s.store.highWater else s.nextHighWater join
      ringMark := max s.store.ringMark s.hz.pendingSealMark
      rclkUs := max s.store.rclkUs e.rclkCut
      sealRclk := e.rclkCut
      markRclk := if s.ringDeferred e.n then s.store.markRclk else e.rclkCut }
    hz := { s.hz with
      sealed := e.n
      ringMark := max s.hz.ringMark s.hz.pendingSealMark
      pendingSealMark := 0
      epochs := updIf (fun x => x.n == e.n)
        (fun x => { x with
          isSealed := true, ctrl := [],
          fx := x.fx.filter fun y => s.ringDeferred e.n && s.store.isRing y.nsid })
        s.hz.epochs } }

/-- The data and the moves of epoch `e` become the durable state, with the records of its map delta entry (R104, R118, R120).
-/
def State.sealData (s : State) (e : Epoch) : State × (List DeltaRec × List DeltaRec) :=
  let s1 := s.modStore fun d => d.applyEpoch e fun i => !(s.ringDeferred e.n && d.isRing i)
  let s2 := s1.applyMoves e.n
  let rs := (s.hostDelta e, s1.innerDelta e s2.store)
  let s3 := (s2.touchSegs e).sealMapArea e.n
  (s3.modFlash fun f => { f with moves := f.moves.filter fun m => m.recorded != some e.n }, rs)

/-- Ticks that have begun after the tick in which an epoch was accepted. -/
def State.ageOf (s : State) (e : Epoch) : Nat := (s.hz.epochs.filter fun x => decide (e.n < x.n)).length

/-- HIGH_WATER that a pending join asks of every descriptor (R317), 0 without one. -/
def State.joinMark (s : State) : Nat :=
  if s.zl.joinAt = 0 ∨ s.inRing then 0 else s.zl.joinAt + s.zl.joinOffset + 64

/-- The stripes up to epoch `n` whose programs are all confirmed are closed with their P and Q (R43 row 2, R174). -/
def State.closeUpTo (s : State) (n : Nat) : State :=
  s.closeStripes fun p => decide (p.epoch ≤ n) && p.taken.all fun a => (s.cell? a).isSome

/-- Epoch `e` sealed: its open-block parity is persisted, its data and moves become the durable state, the changes
that wait for the seal take effect in the order in which they were accepted, the seal entries are programmed, and
completions follow (R43). Row 8 of R43 comes after row 7; the model does both in one step, so that the descriptor is
that of the state left. [log 126: DEDUCED] -/
def State.sealEpoch (s : State) (e : Epoch) (join : Nat) : State :=
  let mark := s.hz.pendingSealMark
  let quiet := s.programsNothing e join
  let s0 := (if mark = 0 then s else s.applyRing mark).saveRing e
  let s1 := (if quiet then s0 else (s0.closeUpTo e.n).parityKept e.n).sealData e
  let s3 := e.ctrl.foldl State.applyCtrl s1.1
  let s4 := if quiet then s3 else s3.programChains.sealEntries e join s1.2
  let s5 := ((s4.sealMarks e join quiet).settleVictims e.n).countLive false
  let s6 := s5.modHz fun h => { h with
    epochs := h.epochs.filter fun x => !(x.isSealed && x.fx.isEmpty && !s.ringDeferred x.n) }
  s6.completeSeal e.n (mark != 0)

/-- The oldest epoch that is not sealed. -/
def State.oldest (s : State) : Option Epoch := s.hz.epochs.find? (fun e => !e.isSealed)

/-- Changes that the next seal records: that of the oldest epoch not sealed yet (R95, R391). [log 135: DEDUCED] -/
def State.recordNext (s : State) (cs : List Ctrl) : State :=
  match s.oldest with
  | none => s
  | some o => s.modHz fun h => { h with
      epochs := updIf (fun e => e.n == o.n) (fun e => { e with ctrl := e.ctrl ++ cs }) h.epochs }

/-- Every landing program of the epoch is confirmed (R43 row 3). -/
def Epoch.confirmed (e : Epoch) : Bool :=
  e.fx.all fun x => match x with | .item it => it.confirmed | _ => true

/-- The seal entries of the epoch may be programmed: its staging is closed, its intent entry and
its landing programs are confirmed (R43); an empty epoch that opens no stripe has no intent entry. -/
def State.ready (s : State) (e : Epoch) : Bool :=
  e.closed && e.confirmed && (e.intentOk || (e.empty && !s.flash.moves.any fun m => m.epoch == e.n))

/-! ### Discarding what was not sealed (R22, R64, R66) -/

/-- Every epoch beyond the last sealed one discarded. -/
def State.discardUnsealed (s : State) : State :=
  (s.modHz fun h => { h with epochs := h.epochs.filter (·.isSealed) }).modNs
    fun v => { v with triggered := [] }

end Sys2Proof.Machine
end

