-- ==== Sys2Proof/Machine/Resets.lean ====
section
/-!
DEFINITION. The ways in which work ends from outside: Halted (R64), the reset and removal of a
function (R291, R357 to R359), the loss of the device's volatile state at power-on and controller
reset (R439, R440), the boot ROM (R410), and leaving a ring group (R48, R323).
-/

namespace Sys2Proof.Machine

open Sys2Proof

/-! ### Engines of one function (R291) -/

/-- Function `n` has a running activation. -/
def State.engineBusy (s : State) (n : Nat) : Bool :=
  s.anv.running.any fun r => s.anv.threads.any fun t => t.tid == r.2 && t.fn == n

/-- At t0: WAITING and READY threads are cancelled, delays removed, puts not yet written dropped,
execs that wait for engines ended, queued Squall jobs dropped. Running activations go on. -/
def State.stopThreads (s : State) (n : Nat) : State :=
  let own := fun tid => s.anv.threads.any fun t => t.tid == tid && t.fn == n
  let s1 := s.modAnv fun a => { a with
    delays := a.delays.filter fun d => !own d.tid
    stalled := a.stalled.filter fun x => !own x.tid
    threads := a.threads.filter fun t => t.fn != n || t.st == .running
    insts := (a.insts.filter fun i => !(i.fn == n && i.st == .waitEngines)).map fun i =>
      if i.fn == n then { i with puts := [], st := .ending } else i }
  s1.modSq fun q => { q with jobs := q.jobs.filter fun j => j.fn != n || j.engine.isSome }

/-- The activation is over: Sutas kernel runs in M-mode, and a reservation lapses (R263, R265). -/
def Engine.leave (c : Engine) : Engine := { c with user := false, resv := none }

/-- The end of a function's activations zeroes the scratchpads of its engines (R291). -/
def State.zeroScratch (s : State) (n : Nat) : State :=
  s.modAnv fun a => { a with
    engines := a.engines.zipIdx.map fun x => if bitAt (s.grantOf n).engines x.2 then { x.1 with scratch := [] } else x.1 }

/-- The engines are power-gated: scratchpads and L1 contents are lost (R425). [log 165: DESIGN CHOICE] -/
def State.gateEngines (s : State) : State :=
  s.modAnv fun a => { a with engines := a.engines.map fun _ => Engine.fresh }

/-- The reply of an abort that caught a running exec: the exec's completion has been written, or never will be (R385). -/
def State.abortReply (s : State) (i : Inst) : State :=
  match i.abortBy with
  | some (n, tag) => s.laterReply n 0x020C tag [1]
  | none => s

/-- Once the last activation has ended: Squall jobs stopped, chunks and instances gone, the function's scratchpads zeroed, the
zeroing of module data memory begun; `window` is the first tick whose seal window counts. -/
def State.enginesEnded (s : State) (n : Nat) : State :=
  match s.fn? n with
  | none => s
  | some f =>
    if f.reset.fenced ∧ f.reset.window = none ∧ ¬ s.engineBusy n then
      let s1 := (s.zeroScratch n).modAnv fun a => { a with
        threads := a.threads.filter fun t => t.fn != n
        insts := a.insts.filter fun i => i.fn != n
        mem := a.mem.filter fun m => m.1 != n
        zeroing := if f.grant.mem = 0 ∨ a.zeroing.contains n then a.zeroing else a.zeroing ++ [n] }
      let s2 := s1.modSq fun q => { q with
        jobs := q.jobs.filter fun j => j.fn != n
        states := q.states.filter fun x => x.fn != n }
      let s3 := (s.anv.insts.filter fun i => i.fn == n).foldl State.abortReply s2
      s3.modFn n fun f => { f with
        reset := { f.reset with
        window := some (if s.hz.phase = .accept then s.hz.epoch else s.hz.epoch + 1) } }
    else s

/-! ### Digest contexts (R253) -/

/-- The contexts that `p` picks are freed and cleared. -/
def State.freeDg (s : State) (p : Nat → Bool) : State :=
  { s with dg := s.dg.map fun c => if c.st != .free && p c.owner then .free else c }

/-! ### Reset and removal of a function (R357 to R359) -/

/-- t0 of a reset or removal: the DMA fence, the end of the function's commands and waiting threads.
Long commands go on; their events go to the log only. `opcode` is that of the mailbox command that
asked for it, if one did. -/
def State.fence (s : State) (n : Nat) (st : FnState) (opcode : Option Nat) : State :=
  let s1 := (s.abortAll n).stopThreads n
  let s2 := s1.modFn n fun f => { f with
    st := st
    reset := { fenced := true, t0 := s.hz.uptimeUs, byMb := opcode.toList, window := none, tags := s.tagsHeld n } }
  let s3 := s2.modRecs fun r => { r with
    longs := updIf (fun l => l.fn == n && l.status == none) (fun l => { l with logOnly := true }) r.longs }
  s3.enginesEnded n

/-- A reset or removal under way absorbs a further one: a mailbox command has its own completion event (R357, R363).
[log 51: DEDUCED] -/
def Fn.absorb (f : Fn) (opcode : Option Nat) : Fn :=
  { f with reset := { f.reset with byMb := f.reset.byMb ++ opcode.toList } }

/-- A reset of function `n` begins; one under way absorbs it (R357). -/
def State.beginReset (s : State) (n : Nat) (opcode : Option Nat) : State :=
  match s.fnState n with
  | .active => s.fence n .resetting opcode
  | .resetting | .removing => s.modFn n fun f => f.absorb opcode
  | .uncreated => s

/-- A removal of function `n` begins; a reset under way turns into it (R357). -/
def State.beginRemoval (s : State) (n : Nat) (opcode : Option Nat) : State :=
  match s.fnState n with
  | .active => s.fence n .removing opcode
  | .resetting => s.modFn n fun f => { f.absorb opcode with st := .removing }
  | .removing => s.modFn n fun f => f.absorb opcode
  | .uncreated => s

/-- A reset of PF0 first removes every VF or share (R357). [log 49: DEDUCED] -/
def State.resetPf0 (s : State) (opcode : Option Nat) : State :=
  ((s.created.filter fun n => n != 0).foldl (fun a n => a.beginRemoval n none) s).beginReset 0 opcode

/-- The function's registers, queues, mailbox and digest contexts as a completed reset leaves them (R359, R447). [log
9: PRESUMED] -/
def State.clearFn (s : State) (n : Nat) (st : FnState) (g : Grant) : State :=
  let s1 := (s.freeDg fun o => o == n).modQ fun q => { q with pairs := q.pairs.filter fun p => p.fn != n }
  let s2 := s1.modRecs fun r => { r with goOrder := r.goOrder.filter fun x => x != n }
  s2.modFn n fun f => { Fn.fresh n st g with
    liveFrom := f.liveFrom, firstVector := f.firstVector, bankMask := f.bankMask,
    sqLevel := f.sqLevel, anvClass := f.anvClass }

/-- A change of attachments whose seal is still to come goes with the function: nothing is attached by it (R16, R359).
[log 134: DEDUCED] -/
def Ctrl.detached (n : Nat) (c : Ctrl) : Ctrl :=
  match c with
  | .attach i m r => if m = n then .detach i n else .attach i m r
  | c => c

/-- A function-scoped volatile setting of function `n` (R25, R359). [log 134: DEDUCED] -/
def Param.scopedTo (n : Nat) (p : Param) : Bool :=
  (p.id / 256 == 8 || p.id == 0x0220 || p.id == 0x0221 || p.id / 16 == 0xA1) && p.target == n

/-- What a removal takes beside a reset: attachments, Halo tables, modules, profiles and the grant, those still to
take effect too; module data memory stays taken until its zeroing ends (R357, R359). A compaction of such a table
stops, and its long command stays open (R221). [log 134: DEDUCED; 169: DESIGN CHOICE] -/
def State.dropFn (s : State) (n : Nat) : State :=
  let mem := if s.anv.zeroing.contains n then (s.grantOf n).mem else 0
  let s1 := s.modNs fun v => { v with attachments := v.attachments.filter fun a => a.fn != n }
  let s2 := s1.modHalo fun h => { h with tables := h.tables.filter fun t => t.owner != n }
  let s3 := s2.modAnv fun a => { a with
    modules := a.modules.filter fun m => m.fn != n
    faults := a.faults.filter fun x => x.fn != n }
  let s4 := s3.modRecs fun r => { r with
    vparams := r.vparams.filter fun p => !p.scopedTo n
    pendParams := r.pendParams.filter fun x => !x.2.scopedTo n }
  let s5 := s4.modHz fun h => { h with
    epochs := h.epochs.map fun e => { e with ctrl := e.ctrl.map (Ctrl.detached n) } }
  s5.modFn n fun _ => Fn.fresh n .uncreated { Grant.none with mem := mem }

/-- The reset or removal of function `n` is complete: R359, and the completion event of
`fn.reset` and `fn.destroy` (R363), which for PF0 goes to the log only. -/
def State.completeFn (s : State) (n : Nat) : State :=
  match s.fn? n with
  | none => s
  | some f =>
    let s1 := s.clearFn n .active f.grant
    let s2 := if f.st = .removing then s1.dropFn n else s1
    f.reset.byMb.foldl (fun a op => a.event 7 n (if n = 0 then [] else [0]) St.ok (mbDetail op 0 n)) s2

/-! ### Halted (R64) -/

/-- A namespace's state as commands see it: HALTED while the device is (R77). -/
def State.nsStateOf (s : State) (n : Ns) : NsState :=
  if s.hz.st = .halted then .halted else n.st

/-- Every instance ends and every job of a module is dropped (R244, R290). -/
def State.stopEngines (s : State) : State :=
  s.anv.insts.foldl State.abortReply <| (s.modAnv fun a => { a with
    insts := [], threads := [], running := [], stalled := [], delays := [], counts := []
    engines := a.engines.map Engine.leave }).modSq
    fun q => { q with jobs := [] }

/-- The commands of every function end (R388). -/
def State.abortCreated (s : State) : State := (s.created).foldl (fun a n => a.abortAll n) s

/-- The state changes of namespaces that leave HALTED, raised as NAMESPACE events (R77, R393). [log 133: DEDUCED] -/
def State.nsRestored (s : State) : State :=
  s.store.nss.foldl (fun a n => a.nsEvent (if n.st = .online then St.ok else St.nsOffline) n.f.nsid 0) s

/-- A firmware activation under way ends without a change of firmware (R415). -/
def State.abortActivation (s : State) (st : Status) : State :=
  if s.fw.phase = .idle then s
  else (s.endLong s.fw.longId st []).modFw fun f => { f with phase := .idle, holding := false }

/-- The device enters Halted (R64): commands and waiting replies end with ST_HALTED, engines stop,
what was not sealed is discarded, every namespace takes the state HALTED with its event (R77), and FAULT_N is asserted
(R468). -/
def State.enterHalted (s : State) : State :=
  let s1 := (s.abortActivation St.fwActivateAborted).haltCmds
  let s2 := (s1.haltReplies.endLongs St.halted).stopEngines
  let s3 := (s2.store.nss.map (·.f.nsid)).foldl (fun a i => a.nsEvent St.halted i 0) s2.discardUnsealed
  (s3.modHz fun h => { h with st := .halted, ticking := false }).modPw
    fun p => { p with st := .halted, entry := .none, request := none, replyTo := none, fault := true }

/-! ### Ring groups (R48, R323) -/

/-- Ring-synchronous content and changes of epochs after `mark` discarded; those up to it become durable (R23, R48,
R93). [log 142: DEDUCED] -/
def State.settleRing (s : State) (mark : Nat) : State :=
  let d := s.store.takeRing (s.ringDueTo mark)
  let e := match s.savesPast mark with
    | [] => d
    | x :: _ => d.withRing x.2
  { s with
    store := { e with
      ringMark := max d.ringMark mark
      markRclk := max d.markRclk (maxOf ((s.ringDueTo mark).map (·.rclkCut))) }
    hz := { s.hz with
      ringMark := max s.hz.ringMark mark
      pendingSealMark := 0
      ringSaves := []
      epochs := (s.hz.epochs.filter fun e => !e.isSealed).map fun e =>
        { e with
          fx := e.fx.filter fun x => !s.store.isRing x.nsid
          ctrl := e.ctrl.filter fun c => !c.ofRing s.store } } }

/-- Every ring-synchronous namespace in state `a` takes state `b`. -/
def Store.moveRing (d : Store) (a b : NsState) : Store :=
  { d with nss := d.nss.map fun n => if n.ring && n.st == a then { n with st := b } else n }

/-- The state changes of ring-synchronous namespaces, raised as NAMESPACE events (R77, R393). -/
def State.ringNsEvents (s : State) (st : Status) : State :=
  ((s.store.nss.filter Ns.ring).map (·.f.nsid)).foldl (fun a i => a.nsEvent st i 0) s

/-- Fetched commands to ring-synchronous namespaces with a part admitted after `mark` complete with
ST_ZL_ISOLATED (R323). -/
def State.isolateCmds (s : State) (mark : Nat) : State :=
  (s.q.cmds.filter fun c => c.stores && s.store.isRing c.e.nsid && c.done != 0 && decide (mark < c.need)).foldl
    (fun a c => a.endCmd c St.zlIsolated c.result) s

/-- This device's node ID. -/
def State.node (s : State) : Nat := s.inForce.node

/-- The device becomes ISOLATED (R323). -/
def State.isolate (s : State) : State :=
  let s1 := s.isolateCmds s.hz.ringMark
  let s2 := (s1.settleRing s.hz.ringMark).modStore fun d => d.moveRing .online .offlineRing
  let s3 := s2.ringNsEvents St.nsOffline
  ((s3.modZl fun z => { z with group := .isolated, lock := .none, tickPort := 3, votes := [], joinAt := 0 }).modHz
    fun h => { h with source := 0 }).zlOpenEvent 0 s.node

/-- The device leaves its group for SOLO with its own RING_MARK as E_ring (R48). -/
def State.releaseRing (s : State) : State :=
  let s1 := (s.settleRing s.hz.ringMark).modStore fun d => d.moveRing .offlineRing .online
  ((s1.ringNsEvents St.ok).modZl fun z => { z with
    group := .solo, master := 0, members := [], base := 0, lock := .none, tickPort := 3, votes := [], joinAt := 0
    }).zlOpenEvent 0 s.node

/-! ### Power-on and controller reset (R439, R440) -/

/-- Flash contents and what reset leaves of the media cores: the map cache and the moves under way go, an erase that a
die has begun runs on, and so does an inhibit. At a controller reset channels keep their training, at power-on the
bins are those of the last checkpoint (R121, R136). A die failure that no seal recorded is found anew (R178). After an
unclean stop, one that left epochs unsealed, no super-block takes further programs (R154). [log 156: DEDUCED] -/
def Flash.afterReset (f : Flash) (d : Store) (powerOn unclean : Bool) : Flash :=
  { Flash.reset with
    cells := f.cells
    blocks := f.blocks
    dirEnts := f.dirEnts
    parity := f.parity
    channels := if powerOn then [] else f.channels
    dies := f.dies.map fun x => { x with
      failed := d.pool.failedDies.contains x.die, offsets := if powerOn then [] else x.offsets }
    bins := if powerOn then f.binsSaved else f.bins
    binsSaved := f.binsSaved
    monitors := f.monitors
    inhibited := f.inhibited
    wear := f.wear
    formed := f.formed
    stripes := f.stripes
    ckptAt := f.ckptAt
    journal := f.journal
    intents := f.intents
    logs := f.logs
    logSupers := f.logSupers
    snap := f.snap.map fun x => { x with pending := x.pending || unclean }
    snapAt := f.snapAt
    erased := f.erased
    readSeq := f.readSeq
    trained := if powerOn then false else f.trained
    wpAsserted := powerOn || f.wpAsserted }

/-- PF0 as power-on and controller reset create it: ACTIVE with the PF0 grant (R356, R357). -/
def Store.pf0 (d : Store) : Fn :=
  { Fn.fresh 0 .active d.pf0Grant with bankMask := List.range d.pf0Grant.banks }

/-- Debug state of a part whose DISABLED fuse is `off` (R418). -/
def debugAtReset (off : Bool) : DebugState := if off then .disabled else .locked

/-- What every power-on and controller reset makes of the device: all volatile state at its reset
value over the durable state, PSTATE BOOT. The log and LPDDR5X content outlive a controller reset
only (R420, R439). -/
def State.restart (s : State) (powerOn : Bool) : State :=
  { s with
    hz := { Horizon.stopped s.store with epochs := s.hz.epochs.filter (·.isSealed), ringSaves := s.hz.ringSaves }
    ns := .reset
    flash := s.flash.afterReset s.store powerOn (s.hz.epochs.any fun e => !e.isSealed)
    q := .reset
    fns := [s.store.pf0]
    link := .reset s.store
    halo := .reset
    sq := .reset
    dg := List.replicate 16 .free
    anv := .reset
    zl := { Zelim.reset s.store with
      ports := s.zl.ports.map fun p => { Port.reset with backoff := if powerOn then 1 else p.backoff } }
    fw := { s.fw with
      romDone := false, recovery := false, phase := .idle, holding := false, holdTicks := 0,
      download := none, debug := debugAtReset s.fw.debugDisabled, nonce := none }
    pw := { Power.reset with
      lastReset := if powerOn then 0 else 1
      resetN := s.pw.resetN
      pwrfailLow := s.pw.pwrfailLow
      record1 := s.pw.record1
      record2 := s.pw.record2
      tjMax := s.pw.tjMax
      tripped := powerOn && s.pw.tripped
      pwrSafe := !s.pw.resetN }
    recs := if powerOn then .reset
      else { Records.reset with log := s.recs.log, nextIdx := s.recs.nextIdx, perClass := s.recs.perClass } }

/-! ### The boot ROM (R410) -/

/-- The image of a slot passes steps 3 to 5 of R410: header, key, signature, SVN, load. -/
def Firmware.bootable (f : Firmware) (i : Nat) : Bool :=
  match f.slots[i]? with
  | some sl =>
    sl.st == .valid && sl.img.headerOk && sl.img.sigOk && sl.img.programOk &&
      decide (f.svn ≤ sl.img.svn) &&
      f.keyHashes[sl.img.keyIndex]? == some sl.img.keyHash &&
      f.revoked[sl.img.keyIndex]? == some false
  | none => false

/-- The slot that the boot ROM starts: the TRIAL slot if one is set, else the COMMITTED slot, slot 0 where neither copy of the
selector is valid, and the other slot where that one fails. -/
def Firmware.pick (f : Firmware) : Option Nat :=
  let first := if f.selectorOk then f.trial.getD f.committed else 0
  if f.bootable first then some first
  else if f.bootable (1 - first) then some (1 - first)
  else none

/-- The boot ROM: it stops on an OTP failure, clears a TRIAL slot that it picks, starts a slot, or
enters recovery mode. -/
def State.bootRom (s : State) : State :=
  if s.fw.otpOk then
    s.modFw fun f =>
      match f.pick with
      | some i =>
        { f with
          running := i, runImg := (f.slots.getD i ⟨.empty, shippedImage⟩).img,
          isCommitted := i == f.committed, trial := none, romDone := true, recovery := false }
      | none => { f with trial := none, recovery := true, romDone := false }
  else { s with fns := [] }

end Sys2Proof.Machine
end

