-- ==== Sys2Proof/Machine/TickOps.lean ====
section
/-!
DEFINITION. What every tick is opened with: the factors of foreground collection (R57, R110, R111,
R115), credits (R52, R57, R58), the order of turns (R483), and the new accepting epoch (R36, R67).
-/

namespace Sys2Proof.Machine

open Sys2Proof

/-! ### Landing zone and factors (R110, R111, R115) -/

/-- C_w: write capacity per tick at the current period, in granules (R110). -/
def State.cw (s : State) : Nat := s.inForce.writeCap s.hz.period

/-- Codewords that one landing super-block holds. -/
def State.superCw (s : State) : Nat := s.poolDies * s.profile.slcCw

/-- L_min in super-blocks (R110): the least whose pSLC capacity reaches 8 x C_w. -/
def State.landingMin (s : State) : Nat :=
  if s.superCw = 0 then 0 else (8 * s.cw + s.superCw - 1) / s.superCw

/-- A_cap in super-blocks (R110): the lower of the landing share of B and F / 2. -/
def State.landingCap (s : State) : Nat :=
  if s.poolDies = 0 then 0
  else min (s.param 0x0510 0 * s.blocksB / 100) (s.blocksF / 2) / s.poolDies

/-- The landing allowance A (R110). -/
def State.landingAllow (s : State) : Nat := max s.landingCap s.landingMin

/-- Landing super-blocks that may still be allocated under an allowance, as far as the parity region has room for their rows
(R111, R157). -/
def State.landingLeft (s : State) (a : Nat) : Nat :=
  let left := a - s.landingSupers.length
  let slots := 126 - s.flash.parity.length
  min left (min slots ((2147483648 - s.parityUsed) / max 1 (s.parityNeed 0)))

/-- Erased pSLC codewords of the zone, counting super-blocks that A still allows (R111). -/
def State.landingErased (s : State) : Nat :=
  s.landingLeft s.landingAllow * s.superCw +
    sumBy (fun b => if b.st == .openLanding then s.profile.slcCw - b.used else 0) s.flash.blocks

/-- Dirty segments D (R115). -/
def State.dirty (s : State) : Nat := (s.flash.segs.filter fun g => g.dirtyAt.isSome).length

/-- f_free in sixteenths (R115). -/
def State.factorFree (s : State) : Nat :=
  if s.blocksB = 0 then 16 else min 16 (800 * s.blocksF / s.blocksB - 8)

/-- f_land in sixteenths (R115). -/
def State.factorLand (s : State) : Nat :=
  if s.blocksB = 0 ∨ s.cw = 0 then 16 else min 16 (4 * s.landingErased / (2 * s.cw) - 16)

/-- f_map in sixteenths (R115). -/
def State.factorMap (s : State) : Nat := min 16 (48 - (s.dirty + 8191) / 8192)

/-- The factors, the allowance and the headroom as a tick boundary leaves them (R110, R111, R115). -/
def State.recompute (s : State) : State :=
  let ff := s.factorFree
  let fl := s.factorLand
  let fm := s.factorMap
  let a := s.landingAllow
  let l := s.landingMin
  s.modFlash fun f => { f with
    fFree := ff, fLand := fl, fMap := fm, f := min ff (min fl fm), allow := a, lMin := l, headroom := s.landingErased,
    headDen := 2 * s.cw }

/-! ### Credits and turns -/

/-- The holder number of a Zelim port. -/
def portHolder (p : Nat) : Nat := 256 + p

/-- What each holder may use in a tick: write credit scaled by f, read and scan credit whole (R57,
R58). A function holds its credits while it is ACTIVE and live; a port while it is enabled. -/
def State.newCredits (s : State) : List CreditLeft :=
  ((s.fns.filter fun f => f.st == .active && decide (f.liveFrom ≤ s.hz.epoch)).map fun f =>
    ⟨f.num, 4096 * (f.grant.write * s.flash.f / 16), 4096 * f.grant.read, 4096 * f.grant.scan, false⟩) ++
  ((s.inForce.ports.zipIdx.filter fun x => x.1.enable).map fun x =>
    ⟨portHolder x.2, 4096 * (x.1.credit * s.flash.f / 16), 0, 0, false⟩)

/-- Credit left of a holder. -/
def State.credit (s : State) (h : Nat) : CreditLeft :=
  match s.hz.credits.find? (fun c => c.holder == h) with
  | some c => c
  | none => ⟨h, 0, 0, 0, false⟩

/-- Credit charged to a holder. -/
def State.charge (s : State) (h write read scan : Nat) : State :=
  s.modHz fun z => { z with
    credits := updIf (fun c => c.holder == h)
      (fun c => { c with write := c.write - write, read := c.read - read, scan := c.scan - scan })
      z.credits }

/-- The holder whose turn follows that of `h`, round robin in ascending order (R483). [log 61: DEDUCED] -/
def nextHolder (hs : List Nat) (h : Nat) : Nat :=
  let above := hs.filter fun x => decide (h < x)
  let pool := if above.isEmpty then hs else above
  match pool with
  | [] => h
  | x :: xs => xs.foldl min x

/-! ### Opening a tick -/

/-- A new epoch, open for admission. -/
def Epoch.fresh (n : Nat) : Epoch :=
  { n := n, closed := false, fx := [], ctrl := [], payload := 0, records := 0, metaUsed := 0,
    hostRecs := 0, intentSeq := none, intentOk := false, isLate := false, ringLate := false,
    isSealed := false, rclkCut := 0, obp := none }

/-- Tick and epoch `n` open: credits anew, the first turn to the holder after the one that had it
in the tick before (R36, R52, R58, R483). -/
def State.openTick (s : State) (n : Nat) : State :=
  let s1 := (s.modHz fun h => { h with epoch := n, phase := .accept, elapsedNs := 0, blocked := false }).recompute
  let cs := s1.newCredits
  let first := nextHolder (cs.map (·.holder)) s.hz.firstTurn
  s1.modHz fun h => { h with
    credits := cs, firstTurn := first, turn := first, epochs := h.epochs ++ [.fresh n],
    tick := { TickRec.zero with tick := n, f := s1.flash.f } }

/-- Ticking starts from STOPPED at HIGH_WATER + 1 (R65, R67); with source 1 the local source runs until the edges have
gained the lock again (R34). [log 136: DEDUCED] -/
def State.startTicking (s : State) : State :=
  let n := s.store.highWater + 1
  let watch := s.hz.source == 1 || s.store.source == 1
  let s1 := s.modHz fun h => { h with
    st := .running, ticking := true, lateCount := 0, source := if watch then 0 else h.source
    tickIn := if watch then .watch h.period n else h.tickIn }
  s1.openTick n

/-- The first tick runs and P0 begins: recovery is done and the hold-up accepted (R424, R430). -/
def State.leaveHeld (s : State) : State :=
  (s.modPw fun p => { p with st := .p0, entry := .none, quiesced := false }).startTicking

/-- Ticking stops: Horizon STOPPED (R65); the epochs that no seal took hold nothing, and the next start counts on from
HIGH_WATER (R67). -/
def State.stopTicking (s : State) : State :=
  s.modHz fun h => { h with st := .stopped, ticking := false, credits := [], epochs := h.epochs.filter (·.isSealed) }

/-- No epoch that holds admitted data or a change is unsealed. -/
def State.allSealed (s : State) : Bool := s.hz.epochs.all fun e => e.isSealed || e.empty

/-- Every epoch past its cut point is sealed (R66). -/
def State.drained (s : State) : Bool := s.hz.epochs.all (·.isSealed)

end Sys2Proof.Machine
end

