-- ==== Sys2Proof/Machine/LinkOps.lean ====
section
/-!
DEFINITION. Operations of Zelim ports and of the group that several families share (chapter 11): frames
sent, ports that go down and are fenced, violations, membership changes, the seal vote, the rate
estimate of a tick source (R31).
-/

namespace Sys2Proof.Machine

open Sys2Proof

/-! ### Ports and frames (R298, R303 to R306) -/

/-- Port `p`. -/
def State.port (s : State) (p : Nat) : Port := s.zl.ports.getD p .reset

/-- Port `p` changed by `g`. -/
def State.modPort (s : State) (p : Nat) (g : Port → Port) : State :=
  s.modZl fun z => { z with ports := updAt z.ports p g }

/-- The settings of port `p` in force. -/
def State.portCfg (s : State) (p : Nat) : PortCfg := s.inForce.ports.getD p .default

/-- Port `p` is up and its peer authenticated: out of quarantine (R329). -/
def State.portUp (s : State) (p : Nat) : Bool := (s.port p).st == .up && (s.port p).auth == .authed

/-- A port that carries group traffic: up, with a member of the group behind it. -/
def State.groupPort (s : State) (p : Nat) : Bool :=
  s.portUp p && s.zl.members.any fun m => m.node == (s.port p).peer

/-- The ports that carry group traffic. -/
def State.groupPorts (s : State) : List Nat := (List.range 3).filter s.groupPort

/-- Frames of R304 by name. -/
def fDiscover : Nat := 0x01
def fAuth : Nat := 0x02
def fDelay : Nat := 0x03
def fData : Nat := 0x10
def fNak : Nat := 0x11
def fRetrans : Nat := 0x12
def fPause : Nat := 0x13
def fCredit : Nat := 0x14
def fReady : Nat := 0x20
def fCommit : Nat := 0x21
def fMembership : Nat := 0x22
def fJoin : Nat := 0x23
def fLost : Nat := 0x24
def fMirror : Nat := 0x30
/-- A tick mark among what a port sends (R309). -/
def fMark : Nat := 0x5A

/-- DST that names the adjacent peer only (R303). -/
def adjacent : Nat := 65535

/-- A frame sent on port `p` with the next SEQ, kept until it is acknowledged (R305). A port that is not up sends only
what brings it up. [log 99: DESIGN CHOICE] -/
def State.sendFrame (s : State) (p typ dst rid arg : Nat) : State :=
  let x := s.port p
  let opening : Bool := match x.st with | .step _ => decide (typ ≤ 3) | _ => false
  if s.portUp p || opening then
    let f : Sent := ⟨p, typ, dst, rid, arg⟩
    (s.modPort p fun x => { x with
      txSeq := x.txSeq + 1, unacked := x.unacked ++ [(x.txSeq + 1, f)], ackDue := false }).modZl
      fun z => { z with sent := z.sent ++ [f] }
  else s

/-- The 8 DELAY frames of a delay measurement (R299). -/
def State.sendDelay (s : State) (p : Nat) : State :=
  (List.range 8).foldl (fun a _ => a.sendFrame p fDelay adjacent 0 0) s

/-! ### Paths over the cabling (R313, R315, R316) -/

/-- The cables to go by: those of this device's ports that are up, from both ends, and what DISCOVER data told of the
others. A cable that ends here counts while a port to its other end is up. [log 105: DESIGN CHOICE] -/
def State.cablesNow (s : State) : List Cable :=
  let own := (List.range 3).filter s.portUp
  let far := s.zl.cables.filter fun c =>
    c.node != s.node && (c.peer != s.node || own.any fun p => (s.port p).peer == c.node)
  own.flatMap (fun p =>
    let x := s.port p
    ⟨s.node, p, x.peer, x.dPort + 400⟩ ::
      (if far.any fun c => c.node == x.peer && c.peer == s.node then [] else [⟨x.peer, 3, s.node, x.dPort + 400⟩])) ++ far

/-- A node's place in a tree of shortest paths: its distance to the root in ns of hop latency, the next node toward the root
and the port to it. -/
structure Hop where
  node : Nat
  dist : Nat
  via  : Nat
  port : Nat
  deriving DecidableEq, Repr

/-- The shorter path; ties go to the lower node ID, then to the lower port number (R315). -/
def Hop.beats (a b : Hop) : Bool :=
  decide (a.dist < b.dist) ||
    (a.dist == b.dist && (decide (a.via < b.via) || (a.via == b.via && decide (a.port < b.port))))

/-- A path found for a node is kept where it beats the one held. -/
def keepHop (t : List Hop) (h : Hop) : List Hop :=
  match t.find? (fun x => x.node == h.node) with
  | some x => if h.beats x then h :: t.filter (fun y => y.node != h.node) else t
  | none => h :: t

/-- Every path lengthened by one cable. -/
def stepHops (cs : List Cable) (t : List Hop) : List Hop :=
  cs.foldl (fun t c =>
    match t.find? (fun x => x.node == c.peer) with
    | some x => keepHop t ⟨c.node, x.dist + c.latency, c.peer, c.port⟩
    | none => t) t

/-- The tree of shortest paths to `root` over cables, by the sum of hop latencies (R315). -/
def hopTree (root : Nat) (cs : List Cable) : List Hop :=
  let on := cs.filter fun c => c.node != root
  (List.range on.length).foldl (fun t _ => stepHops on t) [⟨root, 0, root, 3⟩]

/-- The path of a node to `root`. -/
def hopOf (root : Nat) (cs : List Cable) (n : Nat) : Option Hop := (hopTree root cs).find? fun h => h.node == n

/-- The second path of a node to `root`: the shortest one once the cable on its tick port is gone (R313). -/
def secondHop (root : Nat) (cs : List Cable) (n : Nat) : Option Hop :=
  match hopOf root cs n with
  | some h => hopOf root (cs.filter fun c => !(c.node == n && c.port == h.port)) n
  | none => none

/-- L of R316: for the worst of some nodes, its path from `root` over the tick tree and over the path it can switch to. -/
def worstLatency (root : Nat) (cs : List Cable) (ns : List Nat) : Nat :=
  maxOf (ns.filter (· != root) |>.flatMap fun n =>
    ((hopOf root cs n).toList ++ (secondHop root cs n).toList).map (·.dist))

/-- The port of the route to a node, 3 where there is none (R306, R315). -/
def State.routePort (s : State) (dst : Nat) : Nat :=
  if dst = s.node then 3 else (hopOf dst s.cablesNow s.node).elim 3 (·.port)

/-- A frame sent to a node along its route. -/
def State.sendTo (s : State) (typ dst rid arg : Nat) : State := s.sendFrame (s.routePort dst) typ dst rid arg

/-- NAK of a frame or record with a status (R304). -/
def State.sendNak (s : State) (p dst rid seq : Nat) (st : Status) : State :=
  s.sendFrame p fNak dst rid (st.toNat + 65536 * (seq % 281474976710656))

/-- PAUSE on every port that is up, naming the next group tick (R308, R389, R428). -/
def State.pauseAll (s : State) : State :=
  ((List.range 3).filter s.portUp).foldl (fun a p => (a.modPort p fun x => { x with sentPause := true }).sendFrame p
    fPause adjacent 0 (s.hz.epoch - s.zl.offset + 1)) s

/-- A port that leaves service: keys, retransmit buffer and partial records go (R298, R334). [log 97: DEDUCED] -/
def Port.drop (p : Port) (st : PortState) : Port :=
  { Port.reset with
    st := st, fails := p.fails, peer := p.peer, peerCert := p.peerCert, peerCaps := p.peerCaps,
    dPort := p.dPort, admitted := p.admitted, backoff := p.backoff, violations := p.violations,
    window := p.window, windowAt := p.windowAt, recs := p.recs.filter (·.complete) }

/-! ### The group -/

/-- The group tick of the epoch being accepted. -/
def State.gtickNow (s : State) : Nat := s.hz.epoch - s.zl.offset

/-- The members from which a commit of group tick `g` needs a vote: a joiner only from its join tick on
(R317, R321). -/
def State.votersOf (s : State) (g : Nat) : List Nat :=
  (s.zl.members.filter fun m =>
    !s.zl.joins.any fun j => j.node == m.node && j.accepted && decide (g < j.gJ)).map (·.node)

/-- Every voter's SEAL_READY for group tick `g` is held. -/
def State.allVoted (s : State) (g : Nat) : Bool :=
  (s.votersOf g).all fun n => s.zl.votes.any fun v => v.gtick == g && v.node == n

/-- A frame to every other member. -/
def State.sendMembers (s : State) (typ arg : Nat) : State :=
  ((s.zl.members.map (·.node)).filter fun n => n != s.node).foldl (fun a n => a.sendTo typ n 0 arg) s

/-- The commit of group tick `g`: SEAL_COMMIT to every member, and the master's own commit is held (R321). -/
def State.commitTick (s : State) (g : Nat) : State :=
  let s1 := (s.modZl fun z => { z with
    committed := g, votes := z.votes.filter fun v => decide (g < v.gtick) }).modHz
    fun h => { h with commitHeld := max h.commitHeld (g + s.zl.offset) }
  s1.sendMembers fCommit g

/-- The master commits group ticks in order while it holds every vote. -/
def State.commitLoop : Nat → State → State
  | 0, s => s
  | k + 1, s =>
    if s.zl.group = .master ∧ s.allVoted (s.zl.committed + 1) = true then
      State.commitLoop k (s.commitTick (s.zl.committed + 1))
    else s

/-- Every commit that the votes held allow. -/
def State.tryCommit (s : State) : State := State.commitLoop s.zl.votes.length s

/-- A vote for group tick `g` by a member (R321). -/
def State.addVote (s : State) (g node : Nat) : State :=
  if s.zl.votes.any (fun v => v.gtick == g && v.node == node) then s
  else s.modZl fun z => { z with votes := z.votes ++ [⟨g, node⟩] }

/-- LOCK of a SEAL_READY (R320). -/
def LockState.code : LockState → Nat
  | .flywheel => 1
  | .unlocked => 2
  | _ => 0

/-- The vote of this device for an epoch that it has sealed (R46): SEAL_READY to the master, or its own vote
where it is the master. -/
def State.voteFor (s : State) (n : Nat) : State :=
  if ¬ s.ringDeferred n ∨ s.pw.st = .draining ∨ s.hz.st = .halted then s
  else if s.zl.group = .master then (s.addVote (n - s.zl.offset) s.node).tryCommit
  else s.sendTo fReady s.zl.master 0 (n - s.zl.offset + 281474976710656 * s.zl.lock.code)

/-- The commit held becomes the ring mark of the next descriptor once the vote window of its epoch is open (R47,
R321). [log 107: DEDUCED] -/
def State.takeCommit (s : State) : State :=
  let m := min s.hz.commitHeld (min (s.hz.epoch - 3) s.hz.sealed)
  if s.inRing ∧ s.hz.ringMark < m ∧ s.firstGroup ≤ m then s.modHz fun h => { h with pendingSealMark := max h.pendingSealMark m }
  else s

/-- The committed membership as a persistent setting (R322); its seal ends long command `id`, where there is one (R22). -/
def State.membershipCtrl (s : State) (grouped : Bool) (id : Nat := 0) : Ctrl :=
  .membership grouped ⟨s.zl.gen, s.zl.master, s.zl.members⟩ s.zl.base s.zl.offset id

/-- Mirrored namespaces of this device whose replica is one of `nodes`: their copy starts again (R333). -/
def State.copiesTo (s : State) (nodes : List Nat) : List Nat :=
  (s.store.nss.filter fun n => n.mirror && !n.replica && nodes.contains n.f.mirrorNode).map (·.f.nsid)

/-- A node is in the membership. -/
def State.isMember (s : State) (node : Nat) : Bool := s.zl.members.any fun m => m.node == node

/-- The cables that join members and those that ask to join, and L over them, after a change of membership (R315, R316). -/
def State.rebuildPaths (s : State) : State :=
  let s1 := s.modZl fun z =>
    let on := fun n => z.members.any (fun m => m.node == n) || z.joins.any fun j => j.node == n
    { z with cables := z.cables.filter fun c => on c.node && on c.peer }
  s1.modZl fun z => { z with latency := worstLatency z.master s1.cablesNow (z.members.map (·.node)) }

/-- A new membership adopted with a generation (R322). -/
def State.setMembers (s : State) (gen effective : Nat) (ms : List Member) : State :=
  let fresh := (ms.map (·.node)).filter fun n => !s.isMember n
  let s1 := s.modZl fun z => { z with
    gen := gen, effective := effective, members := ms
    copying := (z.copying ++ s.copiesTo fresh).eraseDups
    slow := z.slow.filter fun x => ms.any fun m => m.node == x.1
    unlocked := z.unlocked.filter fun x => ms.any fun m => m.node == x.1
    joins := z.joins.filter fun j => !j.accepted || ms.any fun m => m.node == j.node }
  let s2 := s1.rebuildPaths
  s2.record [s2.membershipCtrl true]

/-- The master removes members from the lowest uncommitted group tick on, tells every former member and
commits what then holds every vote (R322). -/
def State.removeMembers (s : State) (gone : List Nat) : State :=
  let out := (s.zl.members.map (·.node)).filter fun n => gone.contains n && n != s.node
  if out.isEmpty ∨ s.zl.group ≠ .master then s
  else
    let s1 := s.setMembers (s.zl.gen + 1) (s.zl.committed + 1)
      (s.zl.members.filter fun m => !out.contains m.node)
    let s2 := out.foldl (fun a n => (a.sendTo fMembership n 0 (s.zl.gen + 1)).zlOpenEvent 0 n) s1
    (s2.sendMembers fMembership (s.zl.gen + 1)).tryCommit

/-- Of some nodes, those to which no path is left (R315, R322). -/
def State.cutOff (s : State) (nodes : List Nat) : List Nat :=
  let t := hopTree s.node s.cablesNow
  nodes.filter fun n => n != s.node && !t.any fun h => h.node == n

/-- A member without a path to the master tells the peers that it still has and isolates (R323, R324). [log 127:
DEDUCED] -/
def State.loseMaster (s : State) : State :=
  (s.groupPorts.foldl (fun a p => a.sendFrame p fLost adjacent 0 s.zl.master) s).isolate

/-- What the loss of port `p` does to the group (R313, R322 to R324): the master removes the members it no longer
reaches; a member whose tick port it was takes the second path at once, and isolates where there is none; any other
port is reported to the master. [log 127: DEDUCED] -/
def State.portLost (s : State) (p : Nat) : State :=
  match s.zl.group with
  | .master => s.removeMembers (s.cutOff (s.zl.members.map (·.node)))
  | .member =>
    match hopOf s.zl.master s.cablesNow s.node with
    | none => s.loseMaster
    | some h =>
      if s.zl.tickPort = p then s.modZl fun z => { z with tickPort := h.port }
      else if s.isMember (s.port p).peer then s.sendTo fLost s.zl.master 0 (s.port p).peer
      else s
  | _ => s

/-- Port `p` goes down (R298). -/
def State.portDown (s : State) (p : Nat) : State :=
  let was := s.portUp p
  let s1 := s.modPort p fun x => x.drop .down
  if was then (s1.zlOpenEvent p (s.port p).peer).portLost p else s1

/-- Port `p` is fenced (R330): it drops what it held, its next back-off doubles to at most 64 s. -/
def State.fencePort (s : State) (p : Nat) : State :=
  let was := s.portUp p
  let s1 := s.modPort p fun x => { x.drop .fenced with backoff := min 64 (2 * x.backoff) }
  let s2 := s1.zlEvent St.zlFenced p (s.port p).peer
  if was then
    let gone := [(s.port p).peer]
    (if s.zl.group = .master then s2.removeMembers gone else s2).portLost p
  else s2

/-- A protocol violation on port `p` (R330): logged and counted; at the limit within 1 s the peer is fenced. [log 96:
DESIGN CHOICE] -/
def State.violation (s : State) (p : Nat) (st : Status) : State :=
  let now := s.hz.uptimeUs + s.hz.elapsedNs / 1000
  let x := s.port p
  let inside := decide (now < x.windowAt + 1000000)
  let k := if inside then x.window + 1 else 1
  let s1 := (s.modPort p fun x => { x with
    violations := sat32 (x.violations + 1), window := k, windowAt := if inside then x.windowAt else now }).log
      5 deviceFn st (p + 65536 * x.peer)
  if s.param 0x0B14 0 ≤ k then s1.fencePort p else s1

/-- Authentication fails on port `p`: the port is fenced (R327, R330). [log 93: DEDUCED] -/
def State.authFail (s : State) (p : Nat) : State :=
  ((s.modPort p fun x => { x with fails := x.fails + 1 }).log 5 deviceFn St.zlAuth
    (p + 65536 * (s.port p).peer)).fencePort p

/-! ### Joins (R317, R325) -/

/-- A JOIN frame (R304): 0 request, 1 offer, 2 accept, 3 refuse, and its value, a join tick or a status. [log 28:
DEDUCED; 110: DESIGN CHOICE] -/
def State.sendJoin (s : State) (node code val : Nat) : State := s.sendTo fJoin node 0 (code + 16 * val)

/-- The lead of a join offer in ticks: the relock count plus 8 (R317 step 3). [log 108: DEDUCED] -/
def State.joinLead (s : State) : Nat := s.param 0x0B17 0 + 8

/-- The offset of a member. -/
def State.offsetOf (s : State) (node : Nat) : Nat :=
  match s.zl.members.find? (fun m => m.node == node) with
  | some m => m.offset
  | none => 0

/-- E_ring of R325 as a group tick: the highest RING_MARK among the members. -/
def State.groupRing (s : State) : Nat :=
  maxOf ((s.hz.ringMark - s.zl.offset) :: s.zl.joins.map fun j => j.ringMark - j.offset)

/-- G_R of R325: the first group tick that lies above the HIGH_WATER of every member; a master alone need not announce
it ahead. [log 111: DEDUCED] -/
def State.reformTick (s : State) : Nat :=
  if s.zl.joins = [] then max (s.store.highWater + 1) s.hz.epoch - s.zl.offset
  else maxOf ((max s.store.highWater (s.hz.epoch + s.joinLead) - s.zl.offset) ::
    s.zl.joins.map fun j => j.highWater - j.offset) + 1

/-- The master of the last committed membership re-forms the group once every other member has sent JOIN request:
E_ring and an offer for G_R go to each (R325). [log 111: DEDUCED] -/
def State.tryReform (s : State) : State :=
  if s.zl.group = .reforming ∧ s.zl.master = s.node ∧ s.zl.joinAt = 0 ∧
      (s.zl.members.all fun m => m.node == s.node || s.zl.joins.any fun j => j.node == m.node) = true then
    let g := s.reformTick
    let e := s.groupRing
    let s1 := (s.modZl fun z => { z with
      joinAt := g, joinOffset := z.offset, joinEpoch := if z.joins = [] then s.hz.epoch else s.hz.epoch + s.joinLead
      committed := e
      joins := z.joins.map fun j => { j with gJ := g } }).modHz fun h => { h with
        commitHeld := max h.commitHeld (e + s.zl.offset) }
    (s1.sendMembers fCommit e).sendMembers fJoin (1 + 16 * g)
  else s

/-! ### Tick lock and rate (R30, R31, R311) -/

/-- A measured interval within 150 ppm of the nominal period (R31), in ns. -/
def rateOk (nom i : Nat) : Bool :=
  decide (1000000 * i ≤ 1000150 * nom) && decide (999850 * nom ≤ 1000000 * i)

/-- The estimate moved one sixteenth of the way toward a measured interval; one outside the range is ignored (R31).
Fractions of a ns are dropped. [log 18: DESIGN CHOICE] -/
def rateStep (nom est i : Nat) : Nat :=
  if rateOk nom i then (if est ≤ i then est + (i - est) / 16 else est - (est - i) / 16) else est

/-- The intervals measured on the way to lock, their sum and number: one more counts where its edge or mark follows
another accepted one and it lies in range (R31). [log 114: DEDUCED] -/
def addInterval (nom : Nat) (follows : Bool) (i : Nat) (acc : Nat × Nat) : Nat × Nat :=
  if follows && rateOk nom i then (acc.1 + i, acc.2 + 1) else acc

/-- The estimate with which a lock starts: the mean of the intervals that gained it, nominal where none was in range
(R31). [log 114: DEDUCED] -/
def meanInterval (nom : Nat) (acc : Nat × Nat) : Nat := if acc.2 = 0 then nom else acc.1 / acc.2

/-- The correction of the next boundary: toward the error, at most the limit (R30, R311). [log 18: DESIGN CHOICE; 114:
DEDUCED] -/
def nudge (limit : Nat) (err : Int) : Int := max (-(limit : Int)) (min (limit : Int) err)

/-- The nominal period in ns. -/
def State.periodNs (s : State) : Nat := 1000 * s.periodUs

/-- Tick lock gained: the estimate starts from the intervals that gained it (R31, R312). -/
def State.gainLock (s : State) : State :=
  s.modZl fun z => { z with
    lock := .locked, estNs := meanInterval s.periodNs (z.sumNs, z.ivals), hits := 0, sumNs := 0, ivals := 0, misses := 0 }

/-- Seal window duration W in ns (R38). -/
def windowNs (period window : Nat) : Nat := 250000 * period * window / 16

/-! ### Record traffic (R307, R332) -/

/-- DATA frames that a record of `len` bytes takes. -/
def dataFrames (len : Nat) : Nat := max 1 ((len + 8191) / 8192)

/-- The frames of one record sent to a node: END on the last. -/
def State.sendRecord (s : State) (node rid nsid stream len : Nat) : State :=
  (List.range (dataFrames len)).foldl (fun a _ => a.sendTo fData node rid (nsid + 4294967296 * stream)) s

/-- Record `rid` of the flow to a node numbered (R307). -/
def State.nextRid (s : State) (node : Nat) : Nat × State :=
  (assoc s.zl.rids node + 1, s.modZl fun z => { z with rids := bump z.rids node 1 })

/-- New records toward a node may start: its port has not been paused beyond this group tick (R308). -/
def State.notPaused (s : State) (node : Nat) : Bool :=
  !(List.range 3).any fun p => (s.port p).peer == node && decide (s.gtickNow < (s.port p).pausedTo)

/-- The queued records of every route whose node is a member go out, in order, while no PAUSE holds them. -/
def State.pumpRoutes (s : State) : State :=
  s.zl.routes.foldl (fun a r =>
    if a.isMember r.node && a.notPaused r.node then
      (r.queue.foldl (fun a x => a.sendRecord r.node x.1 r.rnsid r.rstream x.2) a).modZl fun z => { z with
        routes := updIf (fun x => x.nsid == r.nsid && x.stream == r.stream) (fun x => { x with queue := [] }) z.routes }
    else a) s

/-! ### Mirrored namespaces on the primary (R332) -/

/-- The mirror record of a command. -/
def State.mirrorRec? (s : State) (c : Cmd) : Option MirrorRec :=
  s.zl.mirror.find? fun m => m.fn == c.fn && m.qid == c.qid && m.cid == c.e.cid

/-- This device and the replica hold tick lock, or are the master (R332). -/
def State.mirrorLocked (s : State) (node : Nat) : Bool :=
  (s.zl.group == .master || s.zl.lock == .locked) && !s.zl.unlocked.any fun x => x.1 == node

/-- The port that holds mirror credit of the replica for this group tick, for `len` payload bytes. -/
def State.mirrorPort (s : State) (len : Nat) : Option Nat :=
  (List.range 3).find? fun p =>
    s.portUp p && (s.port p).mirrorTick == s.gtickNow && decide (len ≤ 4096 * (s.port p).mirrorCredit)

end Sys2Proof.Machine
end

