-- ==== Sys2Proof/Machine/Admit.lean ====
section
/-!
DEFINITION. Admission (R52 to R58, R119, R483): the checks repeated at admission (R377), overlap
(R381), the staging of units and records (R55, R79 to R82), index entries and hash units (R209 to
R212), reads resolved at admission (R104, R383), and the turn of a function.
-/

namespace Sys2Proof.Machine

open Sys2Proof

/-! ### Streams as bytes -/

/-- Bytes shared by [a, a + n) and [b, b + m). -/
def overlap (a n b m : Nat) : Nat := min (a + n) (b + m) - max a b

/-- The keys of the units that bytes [off, off + n) of a stream touch. -/
def streamKeys (num off n : Nat) : List Nat :=
  if n = 0 then []
  else (List.range ((off + n - 1) / 4096 - off / 4096 + 1)).map fun i =>
    streamKey num (off / 4096 * 4096 + i * 4096)

/-- What the units that `bs`, appended at `off`, touches then hold; `old` is what the first of them
held. -/
def appendUnits (num off : Nat) (old bs : Data) : List (Nat × Data) :=
  let p := off % 4096
  (streamKeys num off bs.length).zipIdx.map fun k =>
    (k.1, if k.2 = 0 then (padUnit old).take p ++ bs.take (4096 - p)
          else (bs.drop (k.2 * 4096 - p)).take 4096)

/-! ### Space of a stream namespace (R81 check 7, R82, R207) -/

/-- Extents of a namespace that wrap has released: stream and extent, pending releases included. -/
def State.releasedNow (s : State) (nsid : Nat) : List (Nat × Nat) :=
  ((s.store.released.filter fun x => x.1 == nsid).map fun x => (x.2.1, x.2.2)) ++
    s.hz.epochs.flatMap fun e => e.fx.filterMap fun f => match f with
      | .release n st x => if n = nsid then some (st, x) else none
      | _ => none

/-- Payload bytes of a record that lie in one extent of its stream. -/
def Rec.bytesIn (r : Rec) (ext : Nat) : Nat :=
  overlap (r.offset + 32) r.payload.length (ext * 1048576) 1048576

/-- Stored payload of a namespace: that of its records less what wrap has released. -/
def State.usedBytes (s : State) (nsid : Nat) : Nat :=
  let rel := s.releasedNow nsid
  sumBy (fun r => r.payload.length -
    sumBy (fun x => if x.1 = r.stream then r.bytesIn x.2 else 0) rel) (s.records nsid)

/-- Fields of a class word (R205). -/
def wordLevel (w : BitVec 32) : Nat := bitsAt w.toNat 0 4
def wordFreeze (w : BitVec 32) : Bool := bitAt w.toNat 4
def wordIdx (w : BitVec 32) : Bool := bitAt w.toNat 8
def wordStream (w : BitVec 32) : Nat := bitsAt w.toNat 12 12
def wordTag (w : BitVec 32) : Nat := bitsAt w.toNat 24 8

/-- The namespace of an index stream, 0 where it is not bound. -/
def State.streamNs (s : State) (num : Nat) : Nat := (s.store.stream? num).elim 0 (·.nsid)

/-- Room that an index entry for `num` takes: 32 bytes, and 32 for the index record's header if it is the first of the
epoch (R207 check 3). [log 58: DEDUCED] -/
def State.indexNeed (s : State) (num : Nat) : Nat :=
  if s.halo.index.any fun x => x.into == num then 32 else 64

/-- Index room taken in a namespace: entries of the epoch not yet appended, and the reservations of
records that have passed R207 and are not yet admitted. -/
def State.indexReserved (s : State) (nsid : Nat) : Nat :=
  let mine := s.halo.index.filter fun x => s.streamNs x.into == nsid
  32 * (mine.length + ((mine.map (·.into)).eraseDups).length) +
    sumBy (fun c => match c.word with
      | some w => if c.room && s.streamNs (wordStream w) == nsid then s.indexNeed (wordStream w) else 0
      | none => 0) s.q.cmds +
    sumBy (fun p => sumBy (fun r => match r.word with
      | some w => if r.complete && wordIdx w && s.streamNs (wordStream w) == nsid
          then s.indexNeed (wordStream w) else 0
      | none => 0) p.recs) s.zl.ports

/-- Free payload bytes of a namespace. -/
def State.freeIn (s : State) (n : Ns) : Nat :=
  4096 * n.f.capacity - (s.usedBytes n.f.nsid + s.indexReserved n.f.nsid)

/-- Epochs that FREEZE_S seconds count (R82, R90). -/
def State.freezeEpochs (s : State) (n : Ns) : Nat :=
  (n.f.freezeS * 1000000 + s.periodUs - 1) / max 1 s.periodUs

/-- A record that wrap never releases (R82): in a frozen or triggered region, or freeze-designated and
admitted within the last FREEZE_S seconds. -/
def State.keeps (s : State) (n : Ns) (r : Rec) : Bool :=
  (s.regionsNow n.f.nsid).any (fun g => r.inRegion g) ||
    (r.designated && decide (s.hz.epoch < r.epoch + s.freezeEpochs n))

/-- Extents of a record's stream that the record touches. -/
def Rec.extents (r : Rec) : List Nat :=
  let a := r.offset / 1048576
  (List.range ((r.offset + 31 + r.payload.length) / 1048576 - a + 1)).map (a + ·)

/-- The whole extents that a release may take, oldest first (R82). -/
def State.releasable (s : State) (n : Ns) : List (Nat × Nat) :=
  let rs := s.records n.f.nsid
  let rel := s.releasedNow n.f.nsid
  ((rs.flatMap fun r => r.extents.map fun x => (r.stream, x)).eraseDups).filter fun x =>
    decide ((x.2 + 1) * 1048576 ≤ s.streamEnd x.1) && !rel.contains x &&
      !rs.any fun r => r.stream == x.1 && r.extents.contains x.2 && s.keeps n r

/-- Bytes that the release of an extent frees. -/
def State.gain (s : State) (nsid : Nat) (x : Nat × Nat) : Nat :=
  sumBy (fun r => if r.stream = x.1 then r.bytesIn x.2 else 0) (s.records nsid)

/-- The extents taken, in batches, until `need` bytes fit. -/
def releasePlan (gain : Nat × Nat → Nat) (batch need : Nat) :
    Nat → List (Nat × Nat) → Nat → List (Nat × Nat)
  | 0, _, _ => []
  | k + 1, xs, free =>
    if need ≤ free ∨ xs = [] then []
    else xs.take batch ++
      releasePlan gain batch need k (xs.drop batch) (free + sumBy gain (xs.take batch))

/-- The extents that a record of `need` payload bytes makes wrap release, or none where even all of
them leave no room. -/
def State.roomPlan (s : State) (n : Ns) (need : Nat) : Option (List (Nat × Nat)) :=
  let free := s.freeIn n
  if need ≤ free then some []
  else if n.isSns ∧ n.wrap then
    let xs := s.releasable n
    let plan := releasePlan (s.gain n.f.nsid) (s.param 0x0322 0) need xs.length xs free
    if need ≤ free + sumBy (s.gain n.f.nsid) plan then some plan else none
  else none

/-! ### The epoch being accepted -/

/-- Admission runs: a tick in its accept phase, no hold, an epoch within HIGH_WATER (R62, R67, R389). -/
def State.admits (s : State) : Bool :=
  s.hz.ticking && s.hz.phase == .accept && !s.hz.blocked && !s.fw.holding &&
    decide (s.hz.epoch ≤ s.store.highWater) && (s.epoch?.elim false fun e => !e.closed)

/-- Metadata bytes and host records still fit the epoch (R53, R119). [log 58: DEDUCED] -/
def State.metaFits (s : State) (bytes recs : Nat) : Bool :=
  match s.epoch? with
  | some e => decide (e.metaUsed + bytes ≤ Config.metaBytes) && decide (e.hostRecs + recs ≤ Config.hostRecords)
  | none => false

/-- Metadata and payload charged to the epoch. [log 58: DEDUCED] -/
def State.chargeEpoch (s : State) (metaB recs payload records : Nat) : State :=
  (s.modEpoch fun e => { e with
    metaUsed := e.metaUsed + metaB, hostRecs := e.hostRecs + recs,
    payload := e.payload + payload, records := e.records + records }).modHz fun h => { h with
      tick := { h.tick with
        admitted := h.tick.admitted + payload, records := h.tick.records + records,
        peak := max h.tick.peak ((h.epochs.find? (fun e => e.n == h.epoch)).elim 0 (·.payload)) } }

/-! ### Overlay slots (R107, R109) -/

/-- Extent keys that bytes [off, off + n) of a stream touch. -/
def extentsOf (num off n : Nat) : List Nat := ((streamKeys num off n).map extentKey).eraseDups

/-- The extents in whose overlays an effect sets a unit, by namespace and extent key. -/
def Fx.extents (d : Store) : Fx → List (Nat × Nat)
  | .item it => if d.inExtents it.nsid then (it.units.map fun u => (it.nsid, extentKey u.1)).eraseDups else []
  | .zero i f c =>
    (List.range (extentKey (f + c - 1) - extentKey f + 1)).filterMap fun j =>
      if (d.extent? i (extentKey f + j)).isSome then some (i, extentKey f + j) else none
  | .lost i k => if d.inExtents i then [(i, extentKey k)] else []
  | .unmap .. => []
  | .record _ => []
  | .stored .. => []
  | .release .. => []

/-- The extents of a stream write or discard that has passed its checks and is not yet admitted. -/
def State.cmdExtents (s : State) (c : Cmd) : List (Nat × Nat) :=
  if (c.e.opc = opWrite ∨ c.e.opc = opDiscard) ∧ (c.stage = .needData ∨ c.stage = .waiting) ∧ c.ended = false ∧
      s.store.inExtents c.e.nsid = true then
    (extentsOf c.e.stream c.e.addr c.e.len).map fun k => (c.e.nsid, k)
  else []

/-- Extents that get an overlay with what is admitted, or checked and to be admitted, where they have none. -/
def State.overlaysDue (s : State) : List (Nat × Nat) :=
  ((s.hz.epochs.flatMap fun e => e.fx.flatMap (Fx.extents s.store)) ++ s.q.cmds.flatMap s.cmdExtents).dedup.filter fun x =>
    (s.store.extent? x.1 x.2).elim true fun e => e.ovl.isNone

/-- Overlay slots in use or taken by what is under way (R107). -/
def State.overlaysUsed (s : State) : Nat := s.store.slotsUsed.length + s.overlaysDue.length

/-- The extents among `ks` of a namespace that would take a slot of their own. -/
def State.slotsFor (s : State) (nsid : Nat) (ks : List Nat) : Nat :=
  (ks.filter fun k => (s.store.extent? nsid k).elim true (fun e => e.ovl.isNone) && !s.overlaysDue.contains (nsid, k)).length

/-- A record of `len` stored bytes at the end of a stream finds a slot for each extent that it begins. [log 152:
DESIGN CHOICE] -/
def State.slotRoom (s : State) (nsid num len : Nat) : Bool :=
  decide (s.overlaysUsed + s.slotsFor nsid (extentsOf num (s.streamEnd num) len) ≤ 16384)

/-- An effect added to the epoch. -/
def State.addFx (s : State) (f : Fx) : State := s.modEpoch fun e => { e with fx := e.fx ++ [f] }

/-- The layouts into which a write or discard of a namespace goes: while it is reshaped, the new one too
(R192). -/
def State.layouts (s : State) (nsid : Nat) : List Nat :=
  if s.store.reshape.st != .none && s.store.reshape.nsid == nsid then [nsid, newLayout nsid] else [nsid]

/-- How often a write to a namespace is charged: twice while it is reshaped (R192). -/
def State.copies (s : State) (nsid : Nat) : Nat := (s.layouts nsid).length

/-- A unit staged in one layout: what the epoch staged for it before gives way. -/
def State.stageOne (s : State) (bytes : Data) (pi : Option PiField) (key nsid : Nat) : State :=
  s.modEpoch fun e => { e with
    fx := (e.fx.filter fun x => match x with
      | .item it => !(it.nsid == nsid && it.units.map (·.1) == [key])
      | _ => true) ++ [.item ⟨nsid, [(key, bytes)], pi, 1, none, false, none⟩] }

/-- A unit staged in every layout of its namespace. -/
def State.stageUnit (s : State) (nsid key : Nat) (bytes : Data) (pi : Option PiField) : State :=
  (s.layouts nsid).foldl (fun a i => a.stageOne bytes pi key i) s

/-- A discard or release staged in every layout of its namespace. -/
def State.dropUnits (s : State) (nsid : Nat) (f : Nat → Fx) : State :=
  (s.layouts nsid).foldl (fun a i => a.addFx (f i)) s

/-! ### Overlap (R381) -/

/-- A command has a part that is not yet admitted. -/
def Cmd.partLeft (c : Cmd) : Bool :=
  c.stage == .fetched || c.stage == .needClass || c.stage == .needData || c.stage == .waiting

/-- The range of a block command or exec in LBAs, or of a stream command in bytes. -/
def State.rangeOf (s : State) (c : Cmd) : Nat × Nat :=
  if c.e.opc = opExec then
    match s.anv.insts.find? (fun i => i.id == c.inst) with
    | some i =>
      if (s.store.ns? c.e.nsid).elim false Ns.isStream then (i.blk.rangeStart, i.blk.rangeLen)
      else (i.blk.rangeStart / 4096, (i.blk.rangeLen + 4095) / 4096)
    | none => (0, 0)
  else (c.e.addr, c.e.len)

/-- The stream of a stream command; none while the header of an append has not been read. -/
def State.streamOf (s : State) (c : Cmd) : Option Nat :=
  if c.e.opc = opAppend then c.hdr.map (·.stream)
  else if c.e.opc = opExec then (s.anv.insts.find? (fun i => i.id == c.inst)).map (·.blk.stream)
  else some c.e.stream

/-- LBA ranges that share an LBA; in an INS, region 0 stands for the slot of the other (R381). -/
def lbaOverlap (n : Ns) (a b : Nat × Nat) : Bool :=
  let hit := fun (x y : Nat × Nat) => decide (x.1 < y.1 + y.2) && decide (y.1 < x.1 + x.2)
  let cap := max 1 n.f.capacity
  let inSlot := fun (x : Nat × Nat) => (x.1 % cap, x.2)
  if n.isIns && (a.1 / cap == 0) != (b.1 / cap == 0) then hit (inSlot a) (inSlot b) else hit a b

/-- Whether the later command `c` waits for the earlier `x` (R381). -/
def State.overlaps (s : State) (x c : Cmd) : Bool :=
  if x.e.nsid ≠ c.e.nsid ∨ x.e.opc = opFlush ∨ c.e.opc = opFlush ∨ x.e.opc = opExec ∨
      (c.e.opc = opExec ∧ (¬ x.stores ∨ (s.rangeOf c).2 = 0)) then false
  else match s.store.ns? c.e.nsid with
  | none => false
  | some n =>
    if n.isBlock then lbaOverlap n (s.rangeOf x) (s.rangeOf c)
    else
      let same := match s.streamOf x, s.streamOf c with
        | some a, some b => a == b
        | _, _ => true
      if c.e.opc = opExec then same
      else same && (x.e.opc == opAppend || c.e.opc == opAppend || lbaOverlap n (s.rangeOf x) (s.rangeOf c))

/-- An earlier command of the pair overlaps `c` and has a part not yet admitted. -/
def State.mustWait (s : State) (c : Cmd) : Bool :=
  s.q.cmds.any fun x =>
    x.fn == c.fn && x.qid == c.qid && decide (x.seq < c.seq) && x.partLeft && !x.ended && s.overlaps x c

/-! ### Checks repeated at admission (R377) -/

/-- The namespace exists and is attached to function `n` now. -/
def State.attached (s : State) (nsid n : Nat) : Bool :=
  (s.store.ns? nsid).isSome &&
    s.ns.attachments.any fun a =>
      a.nsid == nsid && a.fn == n && decide (a.from_ ≤ s.hz.epoch) &&
        (match a.until_ with | some u => decide (s.hz.epoch < u) | none => true)

/-- The attachment holds the right that the opcode needs (R14, R375). -/
def State.rightFor (s : State) (nsid n opc : Nat) : Bool :=
  if opc = opRead then s.hasRight nsid n 0
  else if opc = opWrite ∨ opc = opDiscard then s.hasRight nsid n 1
  else if opc = opAppend then s.hasRight nsid n 2
  else if opc = opFlush then s.hasRight nsid n 1 || s.hasRight nsid n 2
  else s.hasRight nsid n 3

/-- A deferred error is pending: the durable flag is set and no completion has cleared it (R391). -/
def State.deferredNow (s : State) (nsid : Nat) : Bool :=
  (s.store.ns? nsid).elim false (·.deferred) &&
    !s.hz.epochs.any fun e => e.ctrl.any fun c => match c with
      | .deferred i false => i == nsid
      | _ => false

/-- Checks 6, 8, 9 and 10 of R376. -/
def State.accessCheck (s : State) (c : Cmd) : Option Status :=
  if ¬ s.attached c.e.nsid c.fn then some St.nsNotAttached
  else if ¬ s.rightFor c.e.nsid c.fn c.e.opc then some St.nsNoRight
  else if (s.store.ns? c.e.nsid).elim true (fun n => s.nsStateOf n != .online) then some St.nsOffline
  else if s.deferredNow c.e.nsid then some St.cmdDeferredError
  else none

/-- A command completes with the status of a failed check; the report of a deferred error clears its flag, which the
next seal records (R391). [log 135: DEDUCED] -/
def State.failCmd (s : State) (c : Cmd) (st : Status) : State :=
  let s1 := s.endCmd c st 0
  if st = St.cmdDeferredError then s1.recordNext [.deferred c.e.nsid false] else s1

/-- A command ends with a status: at once where nothing of it is admitted, otherwise with the parts admitted (R94,
R348, R383). [log 138: DESIGN CHOICE] -/
def State.cutShort (s : State) (c : Cmd) (st : Status) : State :=
  if c.done = 0 then s.endCmd c st 0
  else s.modCmd c.seq fun x => { x with stage := .admitted, ended := true, status := st }

/-! ### Image slots (R94, R95) -/

/-- The ACTIVE slot of an INS. -/
def Ns.activeSlot (n : Ns) : Option Nat :=
  let i := n.slots.findIdx (fun x => x.st == .active)
  if i < n.slots.length then some i else none

/-- Slot `i` takes writes: STAGING, and no verify accepted before this tick is pending (R95). -/
def State.slotStaging (s : State) (n : Ns) (i : Nat) : Bool :=
  ((n.slots[i]?).elim false fun sl =>
    sl.st == .staging || (sl.st == .verifyPending && decide (s.hz.epoch ≤ sl.verifyFrom))) &&
  !s.hz.epochs.any fun e => decide (e.n < s.hz.epoch) && e.ctrl.any fun c => match c with
    | .slot j k sl => j == n.f.nsid && k == i && sl.st == .verifyPending
    | _ => false

/-- The first LBA of what a read of LBA `addr` reads: in an INS, region 0 is the ACTIVE slot. [log 79: DEDUCED] -/
def Ns.aliasBase (n : Ns) (addr : Nat) : Nat :=
  if n.isIns ∧ addr < n.f.capacity then
    (match n.activeSlot with | some i => n.regionLba i + addr | none => addr)
  else addr

/-! ### Admitting stored data -/

/-- The outcome of trying one command in a turn. -/
inductive Try where
  /-- Not now; later commands of its queue may go. -/
  | pass
  /-- A record waits: later commands of its queue wait behind it (R55, R203). -/
  | block
  /-- The holder meets the hash units or budget and waits for the next tick (R212, R483). -/
  | hold
  /-- The metadata buffer is full: admission stops for the tick (R53, R119). -/
  | full
  /-- The command's turn is taken: the state after it. -/
  | done (s : State)

/-- What one unit of 4,096 bytes counts in the units of R375: one LBA, or 4,096 bytes. -/
def unitLen (n : Ns) : Nat := if n.isBlock then 1 else 4096

/-- PI bytes of one LBA (R195). -/
def piLen (n : Ns) : Nat := if n.f.pi = 1 then 8 else if n.f.pi = 2 then 16 else 0

/-- The key of unit `i` of a write. -/
def writeKey (n : Ns) (c : Cmd) (i : Nat) : Nat :=
  if n.isBlock then c.e.addr + i else streamKey c.e.stream (c.e.addr + i * 4096)

/-- A piece of `k` units of a write admitted: one host record for each layout. [log 153: DESIGN CHOICE] -/
def State.writePiece (s : State) (n : Ns) (c : Cmd) (k : Nat) : State :=
  let u := unitLen n
  let d0 := c.done / u
  let s1 := (List.range k).foldl (fun a i =>
    a.stageUnit c.e.nsid (writeKey n c (d0 + i)) ((c.bytes.drop ((d0 + i) * 4096)).take 4096)
      c.pi[d0 + i]?) s
  let s2 := (s1.charge c.fn (4096 * k * s.copies c.e.nsid) 0 0).chargeEpoch (piLen n * k) (s.copies c.e.nsid) (4096 * k) 0
  s2.modCmd c.seq fun c => { c with
    done := c.done + k * u, left := c.left - k * u, need := s.hz.epoch,
    pieces := c.pieces ++ [(s.hz.epoch, k * u)],
    stage := if c.left ≤ k * u then .admitted else c.stage }

/-- Units of a write whose data is in the ingress buffer and not admitted (R54). -/
def Cmd.fetchedUnits (n : Ns) (c : Cmd) : Nat := c.bytes.length / 4096 - c.done / unitLen n

/-- A write's turn: as much of it as the credit permits and as has been fetched (R54, R55). -/
def State.tryWrite (s : State) (n : Ns) (c : Cmd) : Try :=
  let k := min (min (c.left / unitLen n) (c.fetchedUnits n)) ((s.credit c.fn).write / (4096 * s.copies c.e.nsid))
  if k = 0 then .pass
  else if ¬ s.metaFits (piLen n * k) (s.copies c.e.nsid) then .full
  else .done (s.writePiece n c k)

/-- A discard is admitted whole and charges no credit (R55, R109, R127); one host record for each layout. [log 153:
DESIGN CHOICE] -/
def State.tryDiscard (s : State) (n : Ns) (c : Cmd) : Try :=
  if ¬ s.metaFits 0 (s.copies c.e.nsid) then .full
  else
    let f : Nat → Fx := fun i => if n.isBlock then .unmap i c.e.addr c.e.len
      else .zero i (streamKey c.e.stream c.e.addr) (c.e.len / 4096)
    .done (((s.dropUnits c.e.nsid f).chargeEpoch 0 (s.copies c.e.nsid) 0 0).modCmd c.seq fun x => { x with
      done := x.left, left := 0, need := s.hz.epoch, stage := .admitted,
      pieces := [(s.hz.epoch, x.left)] })

/-! ### Records -/

/-- Budget of the inline SHA-256 unit of an RNS in this epoch (R33, R212): the lower one where the next
tick is shorter. -/
def State.hashBudget (s : State) : Nat :=
  let b := fun period window => 500000 * period * (16 - window) / 16
  let now := b s.hz.period s.hz.window
  match (s.hz.changes.filter fun c => c.1 == s.hz.epoch + 1).getLast? with
  | some (_, p, _, w) => if p < s.hz.period then min now (b p w) else now
  | none => now

/-- What the hash unit bound to an RNS may still take; an RNS without one needs a free unit. -/
def State.hashLeft (s : State) (nsid : Nat) : Option Nat :=
  match s.halo.hash.find? (fun x => x.1 == nsid) with
  | some x => some x.2
  | none => if s.halo.hash.length < 16 then some s.hashBudget else none

/-- The index entry of an admitted record waits for the index record of its epoch (R209). -/
def State.addIndex (s : State) (w : BitVec 32) (matched : Bool) (r : Rec) : State :=
  if wordIdx w then
    s.modHalo fun h => { h with
      indexed := h.indexed + 1
      index := h.index ++ [⟨wordStream w, r.stream, r.offset, r.epoch, r.hdr.tag, r.hdr.declLen,
        r.hdr.srcNode, r.hdr.rtype, wordTag w, b2n matched + 2 * b2n (wordFreeze w)⟩] }
  else s

/-- Windows of 64 KiB that a record touches join the epoch's ingest segments (R238). -/
def State.addSegs (s : State) (r : Rec) : State :=
  if r.level = 0 then s
  else
    let a := r.offset / 65536
    let ws := (List.range ((r.offset + 31 + r.payload.length) / 65536 - a + 1)).map (a + ·)
    s.modHalo fun h => { h with
      segs := h.segs ++ ((ws.filter fun w =>
        !h.segs.any fun g => g.nsid == r.nsid && g.stream == r.stream && g.window == w).map fun w =>
          ⟨r.nsid, r.stream, w, r.level, r.epoch⟩) }

/-- The device's node ID as record headers carry it: 0 outside a ring group, which a device that joins, is isolated or
re-forms is (R80). [log 137: DEDUCED] -/
def State.srcNode (s : State) : Nat := if s.inRing then s.inForce.node else 0

/-- A record as admission stores it at the end of its stream (R78 to R80). -/
def State.recordOf (s : State) (n : Ns) (hdr : RecHeader) (payload : Data) (w : BitVec 32)
    (fromLink : Bool) : Rec :=
  ⟨n.f.nsid, hdr.stream, s.streamEnd hdr.stream, recStored hdr fromLink s.srcNode s.hz.epoch, payload,
    s.hz.epoch, n.isSns && (wordFreeze w || (s.streamNow hdr.stream).elim false (·.designated)),
    if n.isSns then wordLevel w else 0⟩

/-- An extent of a stream released by wrap, in every layout (R82, R192). -/
def State.releaseExtent (s : State) (nsid : Nat) (x : Nat × Nat) : State :=
  s.dropUnits nsid fun i => if i = nsid then .release i x.1 x.2 else .zero i ((x.1 * 2 ^ 24 + x.2) * 256) 256

/-- A record staged in the epoch: its units, and the new end of its stream. -/
def State.putRecord (s : State) (r : Rec) : State :=
  let us := appendUnits r.stream r.offset (s.unitData r.nsid (streamKey r.stream r.offset)) r.bytes
  let s1 := us.foldl (fun a u => a.stageUnit r.nsid u.1 u.2 none) s
  (s1.addFx (.record r)).addFx (.stored r.nsid r.stream (r.offset + r.bytes.length))

/-- Metadata that a record takes: header, index entry, index record header (R53, R210). [log 58: DEDUCED] -/
def State.recordMeta (s : State) (w : BitVec 32) : Nat :=
  32 + (if wordIdx w then s.indexNeed (wordStream w) else 0)

/-- Host records that a record counts: one and one for each extent that it releases, in each layout. [log 153: DESIGN
CHOICE] -/
def State.recordRecs (s : State) (nsid releases : Nat) : Nat := (1 + releases) * s.copies nsid

/-- A record that has passed every check, admitted for `holder` (R79 to R82, R207 to R212). -/
def State.admitRecord (s : State) (holder : Nat) (n : Ns) (r : Rec) (w : BitVec 32)
    (matched : Bool) (plan : List (Nat × Nat)) : State :=
  let len := r.payload.length
  let s0 := plan.foldl (fun a x => a.releaseExtent n.f.nsid x) s
  let s1 := s0.putRecord r
  let s2 := (s1.charge holder (len * s.copies n.f.nsid) 0 0).chargeEpoch (s.recordMeta w)
    (s.recordRecs n.f.nsid plan.length) len 1
  let s3 := (s2.addIndex w matched r).addSegs r
  if n.isRns then s3.modHalo fun h => { h with
    hash := setAssoc h.hash n.f.nsid (((s.hashLeft n.f.nsid).getD 0) - (32 + len)) }
  else s3

/-- What stands in the way of admitting a record now: credit, hash unit, metadata, overlay slots, space; or the
releases with which it goes. -/
inductive RecGate where
  | noCredit | noHash | noMeta | noSlot | noSpace
  | go (plan : List (Nat × Nat))
  deriving DecidableEq, Repr

/-- The gate of a record of `len` payload bytes for `holder` (R55, R82, R119, R212). -/
def State.recGate (s : State) (holder : Nat) (n : Ns) (num len : Nat) (w : BitVec 32) : RecGate :=
  if (s.credit holder).write < len * s.copies n.f.nsid then .noCredit
  else if n.isRns ∧ ((s.hashLeft n.f.nsid).elim true fun b => decide (b < 32 + len)) then .noHash
  else if ¬ s.slotRoom n.f.nsid num (32 + len) then .noSlot
  else match s.roomPlan n len with
  | some plan => if s.metaFits (s.recordMeta w) (s.recordRecs n.f.nsid plan.length) then .go plan else .noMeta
  | none => if s.metaFits (s.recordMeta w) (s.recordRecs n.f.nsid 0) then .noSpace else .noMeta

/-! ### Routes (R307) -/

/-- Bytes that a route queues. -/
def Route.queued (r : Route) : Nat := sumBy (·.2) r.queue

/-- Routes bound to a stream. -/
def State.routesOf (s : State) (nsid num : Nat) : List Route :=
  s.zl.routes.filter fun r => r.nsid == nsid && r.stream == num

/-- Admission to a bound stream waits: the route's queue or the pool is full while the destination is a
member. -/
def State.routeFull (s : State) (nsid num len : Nat) : Bool :=
  (s.routesOf nsid num).any fun r => s.isMember r.node &&
    (decide (Config.routeQueue < r.queued + len) ||
      decide (Config.routePool < sumBy Route.queued s.zl.routes + len))

/-- An admitted record of `len` stored bytes goes to each destination of its stream: queued and
numbered where the destination is a member, counted as not sent otherwise. -/
def State.routeRecord (s : State) (nsid num len : Nat) : State :=
  (s.routesOf nsid num).foldl (fun a r =>
    a.modZl fun z =>
      let here := fun x : Route => x.nsid == nsid && x.stream == num && x.node == r.node
      if z.members.any (fun m => m.node == r.node) then { z with
        rids := bump z.rids r.node 1
        routes := updIf here (fun x => { x with queue := x.queue ++ [(assoc z.rids r.node + 1, len)] }) z.routes }
      else { z with routes := updIf here (fun x => { x with unsent := x.unsent + 1 }) z.routes }) s

/-! ### The turn of an append -/

/-- An append admitted. -/
def State.appendGo (s : State) (n : Ns) (c : Cmd) (h : RecHeader) (w : BitVec 32)
    (plan : List (Nat × Nat)) : State :=
  let r := s.recordOf n h (c.bytes.drop 32) w false
  let s1 := s.admitRecord c.fn n r w c.matched plan
  (s1.routeRecord n.f.nsid h.stream (32 + h.declLen)).modCmd c.seq fun x => { x with
    done := x.e.len, left := 0, need := s.hz.epoch, stage := .admitted, room := false,
    offset := r.offset, pieces := [(s.hz.epoch, x.e.len)] }

/-- The replica of a mirrored RNS accepts no host append; on the primary, appends complete so while the
replica is outside the membership (R331, R333). -/
def State.mirrorCheck (s : State) (n : Ns) : Option Status :=
  if ¬ n.mirror then none
  else if n.replica then some St.zlMirrorReplica
  else if ¬ s.isMember n.f.mirrorNode ∨ s.zl.copying.contains n.f.nsid then some St.zlMirrorAbsent
  else none

/-- ADMIT sent to the replica of a mirrored record, against its credit (R332 step 3). -/
def State.mirrorSend (s : State) (n : Ns) (m : MirrorRec) (p len : Nat) : State :=
  let s1 := s.modPort p fun x => { x with mirrorCredit := x.mirrorCredit - (len + 4095) / 4096 }
  (s1.sendTo fMirror n.f.mirrorNode m.rid s.gtickNow).modZl fun z => { z with
    mirror := z.mirror.filter fun x => x.rid != m.rid }

/-- What the mirror of a namespace says to the append of `c`: it may go, with the state in which ADMIT has
been sent, or waits. -/
def State.mirrorGate (s : State) (n : Ns) (c : Cmd) (len : Nat) : Option (State → State) :=
  if ¬ n.mirror then some id
  else match s.mirrorRec? c, s.mirrorPort len with
  | some m, some p =>
    if m.held = true ∧ s.mirrorLocked n.f.mirrorNode = true then some fun x => x.mirrorSend n m p len else none
  | _, _ => none

/-- An append's turn. -/
def State.tryAppend (s : State) (n : Ns) (c : Cmd) : Try :=
  match c.hdr, c.word with
  | some h, some w =>
    if ¬ s.streamOpen n.f.nsid h.stream then .done (s.failCmd c St.recStream)
    else if (s.mirrorCheck n).isSome then .done (s.failCmd c ((s.mirrorCheck n).getD St.ok))
    else if s.routeFull n.f.nsid h.stream (32 + h.declLen) then .block
    else match s.mirrorGate n c h.declLen with
    | none => .block
    | some send =>
      match (s.dropCmd c.seq).recGate c.fn n h.stream h.declLen w with
      | .noCredit => .block
      | .noHash => .hold
      | .noMeta => .full
      | .noSlot => .block
      | .noSpace => .done (s.failCmd c St.nsFull)
      | .go plan => .done (send (s.appendGo n c h w plan))
  | _, _ => .block

/-! ### Reads (R104, R383) -/

/-- PI of an LBA as bytes (R195): big-endian fields. -/
def piBytes (fmt : Nat) (p : PiField) : Data :=
  if fmt = 1 then bytesBE 2 p.guard ++ bytesBE 2 p.app ++ bytesBE 4 p.ref
  else if fmt = 2 then bytesBE 8 p.guard ++ bytesBE 2 p.app ++ bytesBE 6 p.ref
  else []

/-- PI that a read returns for an LBA. [log 13: DESIGN CHOICE] -/
def State.readPi (s : State) (nsid lba key : Nat) : PiField :=
  match s.unitPi nsid key with
  | some p => p
  | none => let z := Config.zeroPi nsid lba; ⟨z.1, z.2.1, z.2.2⟩

/-- The data and PI of a read go to the host before its completion (R380). -/
def State.returnData (s : State) (c : Cmd) : State :=
  let n := s.store.ns? c.e.nsid
  let bytes := c.bytes.take (if n.elim true Ns.isBlock then 4096 * c.done else c.done)
  let s1 := if c.done = 0 then s else s.hostWrite c.fn (.data c.fn c.e.dptr [(0, bytes)])
  let s2 := if c.e.mptr = 0 ∨ c.done = 0 then s1
    else s1.hostWrite c.fn (.put c.fn c.e.mptr ((c.pi.take c.done).flatMap (piBytes (n.elim 0 (·.f.pi)))))
  s2.modHz fun h => { h with
    tick := { h.tick with read := h.tick.read + (if n.elim true Ns.isBlock then 4096 * c.done else c.done) } }

/-- A read whose parts are all admitted and fetched from media completes, at once or after the seal that
SEALED_ONLY waits for (R383). -/
def State.finishRead (s : State) (c : Cmd) : State :=
  if c.left = 0 ∧ c.toRead = [] ∧ c.loads = [] then
    let s1 := s.returnData c
    let c' := { c with stage := .admitted }
    if s1.mayComplete ∧ c.need ≤ s1.sealedFor c.e.nsid then s1.endCmd c' c.status c.done
    else s1.modCmd c.seq fun _ => c'
  else s

/-- The units that a part of a read covers: index of the unit in the command's order, and key. For a
stream the part is bytes [done, done + k). `offset` holds the first LBA that the command reads. -/
def readKeys (n : Ns) (c : Cmd) (k : Nat) : List (Nat × Nat) :=
  if n.isBlock then (List.range k).map fun i => (c.done + i, c.offset + c.done + i)
  else (streamKeys c.e.stream (c.e.addr + c.done) k).map fun key => (key, key)

/-- Units of a read before the first that resolves to LOST. -/
def State.readable (s : State) (nsid : Nat) : List (Nat × Nat) → List (Nat × Nat)
  | [] => []
  | x :: xs => if s.resolve nsid x.2 = .lost then [] else x :: s.readable nsid xs

/-- How far a read reaches, in the units of R375, whose unit `x` is lost. -/
def lostAt (n : Ns) (c : Cmd) (x : Nat) : Nat :=
  if n.isBlock then x else x % 2 ^ 32 * 4096 - c.e.addr

/-- The newest epoch whose unsealed data the units return, for SEALED_ONLY (R383). -/
def State.newestUnsealed (s : State) (nsid : Nat) (ks : List (Nat × Nat)) : Nat :=
  (ks.filterMap fun x => match s.resolve nsid x.2 with
    | .pending e _ _ => some e
    | .zero (some e) => some e
    | _ => none).foldl max 0

/-- The segment in which the map looks a unit up (R100). -/
def State.segOf (s : State) (nsid key : Nat) : Nat × Nat × Nat :=
  let t := s.store.segType nsid
  (nsid, t, key / segSpan t)

/-- The cached segment lacks the entry of a unit, or the segment is not cached, and a copy of it lies on flash: it is to be
loaded (R103, R104). -/
def State.segMiss (s : State) (nsid key : Nat) : Bool :=
  let k := s.segOf nsid key
  (s.pendingHit nsid key).isNone &&
    s.flash.dirEnts.any (fun x => x.1 == nsid && x.2.1 == k.2.1 && x.2.2.1 == k.2.2) &&
    !s.flash.segs.any fun g => g.is nsid k.2.1 k.2.2 && (g.whole || g.held.contains (segEntry k.2.1 key))

/-- The segments of units looked up move to the head of the order of tier 1 (R102). -/
def State.accessSegs (s : State) (nsid : Nat) (ks : List Nat) : State :=
  let hit := ks.filter fun k => (s.pendingHit nsid k).isNone && !s.segMiss nsid k
  let segs := ((hit.map (s.segOf nsid)).eraseDups).filter fun k => s.flash.segs.any fun g => g.is k.1 k.2.1 k.2.2
  s.modFlash fun f => segs.foldl Flash.access f

/-- A part of `k` LBAs or bytes of a read is admitted: each unit is resolved at this instant; staged
and empty units give their data at once, units on flash are to be read, a missing map segment is to be loaded; a LOST unit
ends the read (R103, R104, R125). The credit is charged for what the part returns (R53). -/
def State.readPart (s : State) (n : Ns) (c : Cmd) (k : Nat) : State :=
  let ks := readKeys n c k
  let ok := s.readable c.e.nsid ks
  let lost := decide (ok.length < ks.length)
  let got := if lost then lostAt n c ((ks[ok.length]?).elim 0 (·.1)) - c.done else k
  let all := ok.flatMap fun x => padUnit (s.unitData c.e.nsid x.2)
  let data := if n.isBlock then all else (all.drop ((c.e.addr + c.done) % 4096)).take got
  let pis := if n.f.pi = 0 then [] else ok.map fun x => s.readPi c.e.nsid (c.e.addr + x.1) x.2
  let media := ok.filterMap fun x => match s.resolve c.e.nsid x.2 with
    | .flash a => some (a, x.1)
    | _ => none
  let newest := if bitAt c.e.flags 0 then s.newestUnsealed c.e.nsid ok else 0
  let c1 : Cmd := { c with
    done := c.done + got, left := if lost then 0 else c.left - k,
    bytes := c.bytes ++ data, pi := c.pi ++ pis, toRead := c.toRead ++ media,
    loads := (c.loads ++ ((ok.filter fun x => s.segMiss c.e.nsid x.2).map fun x => s.segOf c.e.nsid x.2)).eraseDups
    need := max c.need newest, status := if lost then St.ftUnitLost else c.status,
    stage := if lost ∨ c.left ≤ k then .reading else c.stage }
  let s1 := ((s.accessSegs c.e.nsid (ok.map (·.2))).charge c.fn 0 (if n.isBlock then 4096 * got else got) 0).modCmd
    c.seq fun _ => c1
  s1.finishRead c1

/-- A read's turn. -/
def State.tryRead (s : State) (n : Ns) (c : Cmd) : Try :=
  let cr := (s.credit c.fn).read
  let k := if n.isBlock then min c.left (cr / 4096) else min c.left cr
  if n.isIns ∧ c.e.addr < n.f.capacity ∧ n.activeSlot = none ∧ c.done = 0 then
    .done (s.failCmd c St.imgNoActive)
  else if k = 0 then .pass
  else .done (s.readPart n (if c.done = 0 then { c with offset := n.aliasBase c.e.addr } else c) k)

/-! ### The turn of a holder (R55, R483) -/

/-- A write or discard of an INS whose slot has left STAGING (R94). -/
def State.slotRefuses (s : State) (n : Ns) (c : Cmd) : Bool :=
  n.isIns && !s.slotStaging n (c.e.addr / max 1 n.f.capacity - 1)

/-- A command's turn, once nothing of its pair stands before it. -/
def State.tryNs (s : State) (n : Ns) (c : Cmd) : Try :=
  if c.e.opc = opRead then s.tryRead n c
  else if c.e.opc = opWrite then
    if s.slotRefuses n c then
      .done (s.cutShort c St.imgSlotState)
    else s.tryWrite n c
  else if c.e.opc = opDiscard then
    if s.slotRefuses n c then .done (s.failCmd c St.imgSlotState) else s.tryDiscard n c
  else if c.e.opc = opAppend then s.tryAppend n c
  else if c.e.opc = opExec then
    .done ((s.modAnv fun a => { a with
      insts := (a.insts.filter fun i => i.id != c.inst) ++ a.insts.filter fun i => i.id == c.inst }).modCmd
        c.seq fun x => { x with stage := .execing })
  else .pass

/-- One command tried (R55, R377, R381). -/
def State.tryCmd (s : State) (c : Cmd) : Try :=
  if c.stage = .needClass then .block
  else if c.stage ≠ .waiting ∨ c.ended ∨ c.e.opc = opFlush ∨ s.mustWait c then .pass
  else if c.done = 0 ∧ (s.accessCheck c).isSome then
    .done (s.failCmd c ((s.accessCheck c).getD St.ok))
  else match s.store.ns? c.e.nsid with
  | some n => s.tryNs n c
  | none => .pass

/-- The commands of a holder, oldest first; `blk` lists the queues that a waiting record blocks. -/
def State.tryAll (s : State) : List Cmd → List Nat → Try
  | [], _ => .pass
  | c :: cs, blk =>
    if blk.contains c.qid then s.tryAll cs blk
    else match s.tryCmd c with
    | .pass => s.tryAll cs blk
    | .block => s.tryAll cs (c.qid :: blk)
    | r => r

/-- The turn of a function: none while the link holds it (R342). -/
def State.turnFn (s : State) (n : Nat) : Try :=
  if s.link.below ∨ s.fnState n ≠ .active then .pass
  else s.tryAll (s.q.cmds.filter fun c => c.fn == n) []

/-! ### The end of the ingest drain (R210, R37, R212) -/

/-- An index entry as it is stored (R209). -/
def indexBytes (x : IndexEntry) : Data :=
  bytesLE 8 x.offset ++ bytesLE 8 x.epoch ++ bytesLE 4 x.tag ++ bytesLE 4 x.declLen ++
    bytesLE 2 x.stream ++ bytesLE 2 x.srcNode ++ bytesLE 1 x.rtype ++ bytesLE 1 x.ruleTag ++
    bytesLE 2 x.flags

/-- The header of an index record of `k` entries (R210). -/
def indexHeader (num k src : Nat) (payload : Data) : RecHeader :=
  { declLen := 32 * k, stream := num, rtype := 0, rflags := 1, epoch := 0, tag := k, srcNode := src,
    rsv := 0, payCrc := (crc32c payload).toNat, hdrCrc := 0 }

/-- The index record of one stream: appended last, charged to no credit (R210). -/
def State.indexRecord (s : State) (num : Nat) : State :=
  let xs := s.halo.index.filter fun x => x.into == num
  let s0 := s.modHalo fun h => { h with index := h.index.filter fun x => x.into != num }
  match s.store.stream? num with
  | none => s0
  | some st =>
    match s.store.ns? st.nsid with
    | none => s0
    | some n =>
      let payload := xs.flatMap indexBytes
      let h := recStored (indexHeader num xs.length s.srcNode payload) true 0 s.hz.epoch
      let plan := (s0.roomPlan n payload.length).getD []
      let s1 := plan.foldl (fun a x => a.releaseExtent n.f.nsid x) s0
      (s1.putRecord ⟨n.f.nsid, num, s.streamEnd num, h, payload, s.hz.epoch,
        n.isSns && (s.streamNow num).elim false (·.designated), 0⟩).routeRecord n.f.nsid num
          (32 + payload.length)

/-- Records of the accepting epoch with bytes in a segment that no Squall pipe has compressed. -/
def State.leftRecords (s : State) : Nat :=
  sumBy (fun g => ((fxRecords g.nsid (s.epoch?.elim [] (·.fx))).filter fun r =>
    r.stream == g.stream && decide (0 < r.level) &&
      decide (0 < overlap r.offset (32 + r.payload.length) (g.window * 65536) 65536)).length) s.halo.segs

/-- The drain of the accepting epoch ends: segments not compressed stay as admitted, the index records are
appended, the hash units come free. -/
def State.ingestDrain (s : State) : State :=
  let left := s.leftRecords
  let s1 := (s.modSq fun q => { q with atBoundary := q.atBoundary + s.halo.segs.length }).modHalo
    fun h => { h with uncompressed := h.uncompressed + left, segs := [], hash := [] }
  ((s1.halo.index.map (·.into)).eraseDups).foldl State.indexRecord s1

end Sys2Proof.Machine
end

