-- ==== Sys2Proof/Machine/ModMem.lean ====
section
/-!
DEFINITION. Engines and the memory of modules (R263 to R267): memory as cells in one canonical form, the rights of a thread,
its accesses, and what an engine holds from dispatch to return.
-/

namespace Sys2Proof.Machine

open Sys2Proof

/-! ### Memory as cells -/

/-- Cells in their canonical form: addresses rise strictly, and no byte is 0. -/
abbrev memOk (m : List Host.Cell) : Prop :=
  m.Pairwise (fun a b => a.1 < b.1) ∧ ∀ c ∈ m, c.2 ≠ 0

/-- The byte at an address: 0 where nothing is listed. [log 165: DESIGN CHOICE] -/
def byteAt (m : List Host.Cell) (a : Nat) : Byte := (m.find? fun c => c.1 == a).elim 0 (·.2)

/-- `n` bytes from an address on. -/
def memRead (m : List Host.Cell) (a n : Nat) : Data := (List.range n).map fun i => byteAt m (a + i)

/-- Bytes as cells from an address on, those that are 0 left out. -/
def cellsOf : Nat → Data → List Host.Cell
  | _, [] => []
  | a, b :: bs => if b = 0 then cellsOf (a + 1) bs else (a, b) :: cellsOf (a + 1) bs

/-- Bytes written from an address on. -/
def memWrite (m : List Host.Cell) (a : Nat) (bs : Data) : List Host.Cell :=
  m.filter (fun c => decide (c.1 < a)) ++ cellsOf a bs ++ m.filter fun c => decide (a + bs.length ≤ c.1)

/-- Zeros written from an address on. -/
def memZero (m : List Host.Cell) (a n : Nat) : List Host.Cell :=
  m.filter fun c => decide (c.1 < a) || decide (a + n ≤ c.1)

/-! ### Engines -/

/-- Engine `e`. -/
def State.engine (s : State) (e : Nat) : Engine := s.anv.engines.getD e .fresh

/-- Engine `e` changed by `g`. -/
def State.modEngine (s : State) (e : Nat) (g : Engine → Engine) : State :=
  s.modAnv fun a => { a with engines := updAt a.engines e g }

/-- Integer registers set one after another; x0 stays 0. -/
def Engine.setRegs (c : Engine) (rs : List (Nat × Nat)) : Engine :=
  { c with x := rs.foldl (fun x r => if r.1 = 0 then x else x.set r.1 (BitVec.ofNat 64 r.2)) c.x }

/-! ### The address map (R266) -/

/-- The windows of R266 by their first addresses and the end of the scratchpad. -/
def scratchBase : Nat := 0x1000000
def scratchEnd : Nat := 0x1080000
def imageBase : Nat := 0x100000000
def dataBase : Nat := 0x200000000

/-- Bytes of module data memory of a function. -/
def State.dataBytes (s : State) (n : Nat) : Nat := (s.grantOf n).mem * 67108864

/-- Module `handle` of function `n`. -/
def State.module? (s : State) (n handle : Nat) : Option Module :=
  s.anv.modules.find? (fun m => m.fn == n && m.handle == handle)

/-- Bytes [a, a + len) lie in the scratchpad. -/
def inScratch (a len : Nat) : Bool := decide (scratchBase ≤ a) && decide (a + len ≤ scratchEnd)

/-- Bytes [a, a + len) lie in the module data memory of function `n`. -/
def State.inData (s : State) (n a len : Nat) : Bool :=
  decide (dataBase ≤ a) && decide (a + len ≤ dataBase + s.dataBytes n)

/-- Bytes [a, a + len) lie where a module of function `n` may write: its engine's scratchpad or its data memory. -/
def State.writable (s : State) (n a len : Nat) : Bool := inScratch a len || s.inData n a len

/-- Bytes [a, a + len) lie in the image of a module. -/
def Module.holds (m : Module) (a len : Nat) : Bool :=
  decide (imageBase ≤ a) && decide (a + len ≤ imageBase + m.file.imageBytes)

/-- Bytes [a, a + len) lie where the module may read. -/
def State.readable_ (s : State) (m : Module) (a len : Nat) : Bool := s.writable m.fn a len || m.holds a len

/-- A byte of a module's image: that of the segment that holds it, 0 between segments. -/
def Module.byteAt (m : Module) (a : Nat) : Byte :=
  match m.file.segs.find? (fun g => decide (g.1 ≤ a) && decide (a < g.1 + g.2.length)) with
  | some g => g.2.getD (a - g.1) 0
  | none => 0

/-! ### Accesses -/

/-- The module data memory of function `n`. -/
def State.dataMem (s : State) (n : Nat) : List Host.Cell := ((s.anv.data.find? fun x => x.1 == n).map (·.2)).getD []

/-- `len` bytes that a device unit reads for function `n` from its data memory, or from the scratchpad of engine `e`. -/
def State.modRead (s : State) (n e a len : Nat) : Data :=
  if a < imageBase then memRead (s.engine e).scratch a len else memRead (s.dataMem n) a len

/-- Bytes written for function `n` to its data memory, or to the scratchpad of engine `e`. -/
def State.modWrite (s : State) (n e a : Nat) (bs : Data) : State :=
  if a < imageBase then s.modEngine e fun c => { c with scratch := memWrite c.scratch a bs }
  else s.modAnv fun v => { v with data := setAssoc v.data n (memWrite (s.dataMem n) a bs) }

/-- `len` bytes that a module reads, of its image too. -/
def State.userRead (s : State) (m : Module) (e a len : Nat) : Data :=
  if m.holds a len then (List.range len).map fun i => m.byteAt (a + i) else s.modRead m.fn e a len

/-- The stores of a thread in order: each reaches the scratchpad, or module data memory through the write-through L1 D; one
outside the thread's rights does nothing, for it faults (R265, R266). -/
def State.stores (s : State) (n e : Nat) (ws : List (Nat × Data)) : State :=
  ws.foldl (fun a w => if a.writable n w.1 w.2.length then a.modWrite n e w.1 w.2 else a) s

/-- What a thread has run reaches its engine and memory. [log 90: DESIGN CHOICE] -/
def State.ran (s : State) (n e : Nat) (r : ThreadRun) : State :=
  (s.modEngine e fun c => { c with
    pc := r.pc, x := 0 :: r.x.drop 1, f := r.f, v := r.v, fcsr := r.fcsr, vcsr := r.vcsr, vl := r.vl, vtype := r.vtype
    vstart := r.vstart, resv := r.resv, cached := true }).stores n e r.stores

end Sys2Proof.Machine
end

