-- ==== Sys2Proof/Machine/ModuleFile.lean ====
section
/-!
DEFINITION. Lirok module files (R280, R281, R283): the ELF header and segments, the manifest, the digest.
-/

namespace Sys2Proof.Machine

open Sys2Proof

/-! ### ELF (R280) -/

/-- A field of `n` bytes at an offset of a file. -/
def fileField (d : Data) (off n : Nat) : Nat := natLE ((d.drop off).take n)

/-- A program header: type, flags, offset and address, sizes in the file and in memory. -/
structure ElfSeg where
  kind   : Nat
  flags  : Nat
  off    : Nat
  vaddr  : Nat
  fileSz : Nat
  memSz  : Nat

/-- A section header: its name's place, type, flags, offset and size. -/
structure ElfSec where
  name  : Nat
  kind  : Nat
  flags : Nat
  off   : Nat
  size  : Nat

/-- The program headers of a file. -/
def elfSegs (d : Data) : List ElfSeg :=
  (List.range (fileField d 56 2)).map fun i =>
    let a := fileField d 32 8 + 56 * i
    ⟨fileField d a 4, fileField d (a + 4) 4, fileField d (a + 8) 8, fileField d (a + 16) 8, fileField d (a + 32) 8,
      fileField d (a + 40) 8⟩

/-- The section headers of a file. -/
def elfSecs (d : Data) : List ElfSec :=
  (List.range (fileField d 60 2)).map fun i =>
    let a := fileField d 40 8 + 64 * i
    ⟨fileField d a 4, fileField d (a + 4) 4, fileField d (a + 8) 8, fileField d (a + 24) 8, fileField d (a + 32) 8⟩

/-- `.lirok.manifest` in ASCII with its terminator. -/
def manifestName : Data :=
  [0x2E, 0x6C, 0x69, 0x72, 0x6F, 0x6B, 0x2E, 0x6D, 0x61, 0x6E, 0x69, 0x66, 0x65, 0x73, 0x74, 0]

/-- The sections named `.lirok.manifest`. -/
def manifestSecs (d : Data) : List ElfSec :=
  let strs := ((elfSecs d)[fileField d 62 2]?).elim 0 (·.off)
  (elfSecs d).filter fun x => (d.drop (strs + x.name)).take 16 == manifestName

/-- A loadable segment with a bit of its flags: 1 execute, 2 write. -/
def ElfSeg.writes (g : ElfSeg) : Bool := bitAt g.flags 1

/-- The segments that are loaded. -/
def loadSegs (d : Data) : List ElfSeg := (elfSegs d).filter fun g => g.kind == 1

/-- The header: ELF64, little-endian, version 1, ET_EXEC, RISC-V, tables of the standard entry sizes inside the file. -/
def elfHeaderOk (d : Data) : Bool :=
  decide (64 ≤ d.length) && fileField d 0 4 == 0x464C457F && fileField d 4 1 == 2 && fileField d 5 1 == 1 &&
    fileField d 6 1 == 1 && fileField d 16 2 == 2 && fileField d 18 2 == 243 && fileField d 54 2 == 56 &&
    fileField d 58 2 == 64 && decide (fileField d 32 8 + 56 * fileField d 56 2 ≤ d.length) &&
    decide (fileField d 40 8 + 64 * fileField d 60 2 ≤ d.length)

/-- The segments: no PT_INTERP or PT_DYNAMIC; those that are not writable in the image window, at most one writable one, in the
scratchpad with no bytes of the file. -/
def elfSegsOk (d : Data) : Bool :=
  (elfSegs d).all (fun g => g.kind != 2 && g.kind != 3) &&
    decide ((loadSegs d).countP ElfSeg.writes ≤ 1) &&
    (loadSegs d).all fun g =>
      if g.writes then g.fileSz == 0 && inScratch g.vaddr g.memSz
      else decide (imageBase ≤ g.vaddr) && decide (g.vaddr + g.memSz ≤ imageBase + 67108864) &&
        decide (g.fileSz ≤ g.memSz) && decide (g.off + g.fileSz ≤ d.length)

/-- The sections: none of relocations, and one non-allocated manifest of 256 bytes in the file. -/
def elfSecsOk (d : Data) : Bool :=
  (elfSecs d).all (fun x => x.kind != 4 && x.kind != 9) &&
    match manifestSecs d with
    | [x] => x.size == 256 && !bitAt x.flags 1 && decide (x.off + 256 ≤ d.length)
    | _ => false

/-- The file meets R280, but for its entry, which check 2 of R283 compares. -/
def elfOk (d : Data) : Bool := decide (d.length ≤ 83886080) && elfHeaderOk d && elfSegsOk d && elfSecsOk d

/-! ### The manifest (R281) -/

/-- Where the manifest begins. -/
def manifestAt (d : Data) : Nat := ((manifestSecs d).head?).elim 0 (·.off)

/-- The manifest of a file. -/
def manifest (d : Data) : Data := (d.drop (manifestAt d)).take 256

/-- Bytes of the image: up to the end of its last segment. -/
def imageSize (d : Data) : Nat :=
  maxOf (((loadSegs d).filter fun g => !g.writes).map fun g => g.vaddr + g.memSz - imageBase)

/-- What a file that meets R280 holds. -/
def moduleOf (d : Data) : ModuleFile :=
  let m := manifest d
  { moduleId := fileField m 8 8, moduleVer := fileField m 16 4, keySlot := fileField m 20 1, maxPrio := fileField m 21 1
    flags := fileField m 6 2, entry := fileField m 24 8, chunkEntry := fileField m 32 8, stackBytes := fileField m 40 4
    scratchBytes := fileField m 44 4, maxThreads := fileField m 48 4, imageBytes := imageSize d, name := fileField m 128 32
    segs := ((loadSegs d).filter fun g => !g.writes).map fun g => (g.vaddr, (d.drop g.off).take g.fileSz)
    scratchAt := ((loadSegs d).find? ElfSeg.writes).elim scratchBase (·.vaddr) }

/-- The manifest fields are in range, its RSV bytes 0, ENTRY is e_entry, and CHUNK_ENTRY lies in the image window or is 0
(R281, R283 order 2). -/
def manifestOk (d : Data) : Bool :=
  let m := manifest d
  let f := moduleOf d
  fileField m 0 4 == 0x4B52494C && fileField m 4 2 == 1 && decide (f.flags < 8) && decide (f.keySlot ≤ 7) &&
    decide (f.maxPrio ≤ 31) && fileField m 22 2 == 0 && f.entry == fileField d 24 8 &&
    (f.chunkEntry == 0 || (decide (imageBase ≤ f.chunkEntry) && decide (f.chunkEntry < imageBase + 67108864))) &&
    decide (4096 ≤ f.stackBytes) && decide (f.stackBytes ≤ 262144) && f.stackBytes % 4096 == 0 &&
    decide (f.scratchBytes ≤ 458752) && f.scratchBytes % 4096 == 0 &&
    decide (((loadSegs d).find? ElfSeg.writes).elim 0 (·.memSz) ≤ f.scratchBytes) && decide (1 ≤ f.maxThreads) &&
    decide (f.maxThreads ≤ 32768) && fileField m 52 12 == 0 && fileField m 96 32 == 0 && fileField m 160 32 == 0

/-- IMAGE_DIGEST is SHA-256 of the file with the manifest bytes taken as zero (R281). -/
def digestOk (d : Data) : Bool :=
  let a := manifestAt d
  sha256 (d.take a ++ List.replicate 256 0 ++ d.drop (a + 256)) ==
    ((manifest d).drop 64).take 32

end Sys2Proof.Machine
end

