-- ==== Sys2Proof/Machine/AnvilOps.lean ====
section
/-!
DEFINITION. The hardware thread scheduler and Halo searches as operations: threads and their slots
(R268 to R272), tokens (R274 to R276), the end of an instance (R286), puts (R279), and the search of a
Halo table (R216, R221).
-/

namespace Sys2Proof.Machine

open Sys2Proof

/-! ### Halo search (R216) -/

/-- Table `id`, where it exists. -/
def State.table? (s : State) (id : Nat) : Option HaloTable := s.halo.tables.find? (fun t => t.id == id)

/-- Table `id` changed by `g`. -/
def State.modTable (s : State) (id : Nat) (g : HaloTable → HaloTable) : State :=
  s.modHalo fun h => { h with tables := updIf (fun t => t.id == id) g h.tables }

/-- A slot that takes part in searches matches the key. -/
def HaloEntry.matches (e : HaloEntry) (key : BitVec 128) : Bool :=
  e.valid && decide (key &&& e.mask = e.value)

/-- The winner among the slots of a table, in ascending slot order: the highest priority, and among
equals the lowest slot. -/
def bestEntry (key : BitVec 128) (es : List HaloEntry) : Option HaloEntry :=
  es.foldl (fun b e =>
    if e.matches key then
      (match b with
       | some x => if x.prio < e.prio then some e else b
       | none => some e)
    else b) none

/-- The entry wins a search of replica `k` (R215). -/
def HaloEntry.hit (e : HaloEntry) (k : Nat) : HaloEntry :=
  { e with hits := e.hits.modify k fun h => sat32 (h + 1) }

/-- One search of replica `k` of a table: the winner, and the table with its counts. -/
def HaloTable.search (t : HaloTable) (k : Nat) (countHits : Bool) (key : BitVec 128) :
    Option HaloEntry × HaloTable :=
  match bestEntry key t.entries with
  | some e =>
    (some e, { t with
      searches := t.searches + 1, hits := t.hits + 1,
      entries := if countHits then updIf (fun x => x.slot == e.slot) (fun x => x.hit k) t.entries
        else t.entries })
  | none => (none, { t with searches := t.searches + 1 })

/-- The replica that serves a search: the one whose banks are first free, which banks' load decides (R214). [log 5:
DESIGN CHOICE] -/
def State.replica (s : State) (t : HaloTable) : Nat × State :=
  if t.replicas ≤ 1 then (0, s) else s.choose (fun k => decide (k < t.replicas)) 0

/-- A search of table `t` in the state: the winner and the state after it (R223: hit counting). -/
def State.search (s : State) (t : HaloTable) (key : BitVec 128) : Option HaloEntry × State :=
  let k := s.replica t
  let r := t.search k.1 (k.2.param 0x0712 0 == 1) key
  (r.1, k.2.modTable t.id fun _ => r.2)

/-! ### Engines and threads -/

/-- Source codes of R271. -/
def srcDma : Nat := 1
def srcHalo : Nat := 2
def srcSquall : Nat := 3
def srcSend : Nat := 4
def srcDelay : Nat := 5

/-- Credits per engine of a producer (R274). -/
def poolPerEngine (src : Nat) : Nat :=
  if src = srcDma then 64 else if src = srcHalo then 128 else if src = srcSquall then 16
  else if src = srcSend then 256 else 512

/-- The cluster of an engine: eight engines to a cluster. -/
def clusterOf (e : Nat) : Nat := e / 8

/-- Engines that a grant names, ascending. -/
def Grant.engineList (g : Grant) : List Nat := (List.range 64).filter fun e => bitAt g.engines e

/-- Thread `tid`. -/
def State.thread? (s : State) (tid : Nat) : Option Thread := s.anv.threads.find? (fun t => t.tid == tid)

/-- Thread `tid` changed by `g`. -/
def State.modThread (s : State) (tid : Nat) (g : Thread → Thread) : State :=
  s.modAnv fun a => { a with threads := updIf (fun t => t.tid == tid) g a.threads }

/-- The thread that runs on engine `e`. -/
def State.runningOn (s : State) (e : Nat) : Option Thread :=
  (s.anv.running.find? (fun r => r.1 == e)).bind fun r => s.thread? r.2

/-- Instance `id`. -/
def State.inst? (s : State) (id : Nat) : Option Inst := s.anv.insts.find? (fun i => i.id == id)

/-- Instance `id` changed by `g`. -/
def State.modInst (s : State) (id : Nat) (g : Inst → Inst) : State :=
  s.modAnv fun a => { a with insts := updIf (fun i => i.id == id) g a.insts }

/-- Tokens discarded with a thread's operand slots: each producer's discards are counted (R269). -/
def countDiscards (d : List (Nat × Nat)) (ops : List (Option Token)) : List (Nat × Nat) :=
  ops.foldl (fun d o => match o with | some k => bump d k.source 1 | none => d) d

/-- A thread slot freed: its tokens are discarded, its generation advances and its delays go (R268,
R269). -/
def State.freeThread (s : State) (tid : Nat) : State :=
  s.modAnv fun a => { a with
    discards := countDiscards a.discards ((s.thread? tid).elim [] (·.ops))
    threads := a.threads.filter fun t => t.tid != tid
    gens := bump a.gens (tid % 32768) 1
    delays := a.delays.filter fun d => d.tid != tid
    running := a.running.filter fun r => r.2 != tid }

/-- Free slots of an engine's partition (R268). -/
def State.freeSlots (s : State) (part : Nat) : List Nat :=
  ((List.range 512).map (512 * part + ·)).filter fun x => !s.anv.threads.any fun t => t.tid % 32768 == x

/-- READY threads of a function in a cluster, against its share of 128 entries per engine held there
(R270). -/
def State.readyFull (s : State) (n cluster : Nat) : Bool :=
  decide (128 * (((s.grantOf n).engineList.filter fun e => clusterOf e == cluster).length) ≤
    (s.anv.threads.filter fun t => t.fn == n && t.st == .ready && t.cluster == cluster).length)

/-- A thread spawned in a slot of partition `part`, and its ID; none where the partition is full. Which free slot it
takes is the device's choice. [log 5: DESIGN CHOICE] -/
def State.spawn (s : State) (t : Thread) : Option (Nat × State) :=
  match s.freeSlots t.part with
  | [] => none
  | least :: _ =>
    let r := s.choose (fun v => (s.freeSlots t.part).contains v) least
    let tid := r.1 + 32768 * (assoc s.anv.gens r.1 % 131072)
    some (tid, r.2.modAnv fun a => { a with
      threads := a.threads ++ [{ t with
        tid := tid, order := a.order, st := if t.nslots = 0 then .ready else .waiting }]
      order := a.order + 1 })

/-! ### Tokens (R274 to R276) -/

/-- Tokens of one producer that wait in operand slots of a function's threads: the credits it has out. -/
def State.tokensOut (s : State) (n src : Nat) : Nat :=
  sumBy (fun t => if t.fn = n then
    (t.ops.filter fun o => match o with | some k => k.source == src | none => false).length else 0)
    s.anv.threads

/-- A token discarded: its credit returns at once, and the producer's discards are counted. -/
def State.discard (s : State) (src : Nat) : State :=
  s.modAnv fun a => { a with discards := bump a.discards src 1 }

/-- Every declared operand slot of a thread is full. -/
def Thread.allFull (t : Thread) : Bool := (t.ops.take t.nslots).all Option.isSome

/-- A token delivered to slot `slot` of thread `tid`: the state after it, or none where the producer
stalls (R275). -/
def State.deliver (s : State) (tid slot : Nat) (k : Token) : Option State :=
  match s.thread? tid with
  | none => some (s.discard k.source)
  | some t =>
    if 4 ≤ slot ∨ (t.st ≠ .running ∧ t.nslots ≤ slot) then some (s.discard k.source)
    else if (t.ops[slot]?).join.isSome then none
    else if poolPerEngine k.source * (s.grantOf t.fn).engineList.length ≤ s.tokensOut t.fn k.source then none
    else
      let t1 := { t with ops := t.ops.set slot (some k) }
      if t.st = .waiting ∧ t1.allFull then
        if s.readyFull t.fn t.cluster then none
        else some ((s.modThread tid fun _ => { t1 with st := .ready, order := s.anv.order }).modAnv
          fun a => { a with order := a.order + 1 })
      else some (s.modThread tid fun _ => t1)

/-- A producer's token: delivered, or held until it can be. -/
def State.produce (s : State) (tid slot : Nat) (k : Token) : State :=
  match s.deliver tid slot k with
  | some s' => s'
  | none => s.modAnv fun a => { a with stalled := a.stalled ++ [⟨none, tid, slot, k⟩] }

/-! ### Ends -/

/-- A thread cancelled (R269): a running activation goes on to its return. -/
def State.cancel (s : State) (tid : Nat) : State :=
  match s.thread? tid with
  | some t => if t.st = .running then s.modThread tid fun t => { t with cancelled := true } else s.freeThread tid
  | none => s

/-- Instance `id` ends as under `inst_done`, with a status, a module code and a result length: delivery
stops, its threads are cancelled, its queued Squall jobs are dropped and running ones stop (R286). An
instance that already ends keeps its status. -/
def State.endInst (s : State) (id : Nat) (st : Status) (code len : Nat) : State :=
  match s.inst? id with
  | none => s
  | some i =>
    if i.st = .ending then s
    else
      let s1 := (s.anv.threads.filter fun t => t.inst == id).foldl (fun a t => a.cancel t.tid) s
      (s1.modInst id fun i => { i with st := .ending, status := st, code := code, resultLen := len }).modSq
        fun q => { q with
          jobs := (q.jobs.filter fun j => j.inst != id || j.engine.isSome).map fun j =>
            if j.inst = id then { j with stopping := true } else j }

/-- Range delivered, every chunk released, no thread left, no service outstanding: a RUNNING instance ends
with ST_ANV_INSTANCE_IDLE (R286). -/
def State.idleCheck (s : State) (id : Nat) : State :=
  match s.inst? id with
  | some i =>
    if i.st = .running ∧ i.blk.rangeLen ≤ i.delivered ∧ i.chunks = [] ∧ i.puts = [] ∧
        ¬ s.anv.threads.any (fun t => t.inst == id) ∧ ¬ s.sq.jobs.any (fun j => j.inst == id)
    then s.endInst id St.anvInstanceIdle 0 0 else s
  | none => s

/-- The status, code and length that an instance ends with, where a timeout or an abort ends it. -/
def State.stopInst (s : State) (id : Nat) (st : Status) : State := s.endInst id st 0 0

/-! ### Puts (R279) -/

/-- The puts of instance `i` in call order: each is written once the tick holds read credit for all of it,
and none of a thread passes an earlier one of that thread. -/
def State.putLoop (s : State) (i : Inst) : List Put → List Nat → State
  | [], _ => s
  | p :: ps, wait =>
    if wait.contains p.tid ∨ (s.credit i.fn).read < p.bytes.length then s.putLoop i ps (p.tid :: wait)
    else
      let s1 := (s.charge i.fn 0 p.bytes.length 0).hostWrite i.fn
        (.put i.fn (i.blk.resultAddr + p.offset) p.bytes)
      let s2 := s1.modInst i.id fun x => { x with puts := x.puts.erase p }
      (s2.produce p.tid p.slot ⟨p.bytes.length, St.ok, srcDma, none⟩).putLoop i ps wait

/-- Waiting puts of every instance written as credit and the host allow (R279, R343). -/
def State.runPuts (s : State) : State :=
  s.anv.insts.foldl (fun a i =>
    if a.dmaHeld i.fn ∨ a.fnState i.fn ≠ .active then a
    else (a.putLoop i i.puts []).idleCheck i.id) s

end Sys2Proof.Machine
end

