-- ==== Sys2Proof/Machine/Power.lean ====
section
/-!
DEFINITION. Power, reset and hold-up (chapter 15): power-on and controller reset, boot, bring-up and
recovery, the drain, the thermal trip, supply inhibits, the hold-up measurement, entries to P3 and
P4, the watchdog, and the power mailbox commands.
-/

namespace Sys2Proof.Machine

open Sys2Proof

/-- An outcome that is a next state. -/
abbrev Res := Host.Outcome State Fault Refusal

/-- An event whose DETAIL the spec leaves open (R393: event-specific): a free value. [log 19: DESIGN CHOICE] -/
def State.openEvent (s : State) (cls : Nat) (rcpt : List Nat) (st : Status) : State :=
  (s.free.2).event cls deviceFn rcpt st (s.free.1.toNat % 18446744073709551616)

/-! ### Power-on and boot -/

/-- Power fails in a seal window while the seal entries are being programmed. Whether the first copy of the descriptor
is valid by then is open; where it is, the epoch is the one that recovery finds, with that copy alone (R43 row 7,
R45). [log 155: DESIGN CHOICE] -/
def State.cutSeal (s : State) : State :=
  match s.oldest with
  | none => s
  | some e =>
    if s.hz.ticking = true ∧ s.hz.phase = .sealWindow ∧ s.ready e = true ∧ s.ageOf e = 2 ∧ e.isLate = false ∧
        s.flash.inhibited = false then
      if s.free.1.getLsbD 0 then (s.free.2.sealEpoch e s.joinMark).modStore fun d => { d with descAt := d.descAt.take 1 }
      else s.free.2
    else s

/-- POWER_ON_RESET (R439): held off during a drain (R471); otherwise every SRAM and LPDDR5X content
ends and RESET_N is low. -/
def execPowerOnReset (s : State) : Res :=
  if s.pw.st = .draining then .next (s.modPw fun p => { p with heldPor := true })
  else
    let s1 := s.cutSeal.modPw fun p => { p with resetN := false }
    .next (s1.restart true)

/-- STOPPED at once: nothing is to be drained (R424, R438). [log 132, 139: DEDUCED] -/
def State.stopNow (s : State) : State :=
  (s.modPw fun p => { p with st := .stopped, pwrSafe := true }).modFlash fun f => { f with wpAsserted := true }

/-- RESET_N_RELEASE (R430, R438, R472): the boot ROM starts, unless TEST_EN is high (no function is presented),
PWRFAIL_N is low, which stops the boot, or a tripped part has not cooled below 125 °C (R442). [log 132: DEDUCED] -/
def execResetNRelease (testEn : Bool) (s : State) : Res :=
  if s.pw.resetN then .next s
  else
    let s1 := s.modPw fun p => { p with resetN := true, pwrSafe := false }
    if testEn then .next { s1 with fns := [] }
    else if s.pw.pwrfailLow then .next s1.stopNow
    else if s.pw.tripped = true ∧ 125 ≤ s.pw.tjMax then .next s1
    else .next ((s1.modPw fun p => { p with tripped := false }).bootRom)

/-- A hold-up measurement begins (R434): without a valid board record it ends at once (R435). [log 118: DEDUCED] -/
def State.boardRecord (s : State) : Option BoardRecord :=
  match s.pw.record1, s.pw.record2 with
  | some a, some b => some (if a.seq < b.seq then b else a)
  | some a, none => some a
  | none, b => b

/-- The end of a measurement: its figures are kept, its long command ends with them, and a failed
one in P0 to P3 starts the return to HELD (R435). -/
def State.endHoldup (s : State) (st : Status) (ok : Bool) (h : Holdup) : State :=
  let s1 := s.modPw fun p => { p with
    holdup := { h with phase := .idle, samples := [], status := st, ok := ok, longId := none }
    huLoad := false
    entry := if !ok && s.hz.ticking && p.entry == .none then .toHeld else p.entry }
  match s.pw.holdup.longId with
  | some (_, id) => s1.endLong id st [h.c, h.vStart, h.t, h.dV, h.eU, h.eReq]
  | none => s1

/-- A measurement starts; `long` names the function and long command it belongs to, if one. [log 118: DEDUCED] -/
def State.startHoldup (s : State) (long : Option (Nat × Nat)) : State :=
  let s1 := s.modPw fun p => { p with
    holdup := { p.holdup with phase := .settling, samples := [], longId := long } }
  match s.boardRecord with
  | some _ => s1
  | none => s1.endHoldup St.pwHoldupRecord false { Holdup.reset with longId := long }

/-- SUTAS_FIRMWARE_RUNNING (R424, R430): BOOT becomes HELD, and the hold-up measurement of step 5
starts. -/
def execSutasFirmwareRunning (s : State) : Res :=
  if s.pw.st = .boot ∧ s.fw.romDone = true ∧ s.pw.resetN = true ∧ s.pw.pwrfailLow = false then
    .next ((s.modPw fun p => { p with st := .held }).startHoldup none)
  else .next s

/-! ### Bring-up and recovery -/

/-- The Read ID bytes of a die match a profile under its mask (R137). -/
def profileFits (p : FlashProfile) (id : Data) : Bool :=
  (List.range p.matchVal.length).all fun i =>
    (id.getD i 0 &&& p.matchMask.getD i 0) == (p.matchVal.getD i 0 &&& p.matchMask.getD i 0)

/-- The profile of a die: of those that it matches, the one with the highest REVISION (R137). -/
def profileOf (ps : List FlashProfile) (id : Data) : Option FlashProfile :=
  let fit := ps.filter fun p => profileFits p id
  fit.find? fun p => p.revision == maxOf (fit.map (·.revision))

/-- Data rates of the interfaces (R133). -/
def flashRates : List Nat := [800, 1200, 1600, 2400, 3200, 3600]

/-- What a report says of a channel under the profiles of the running image: its dies in the order of their numbers,
step 3 computed from their Read ID bytes, and the status of a stop (R133, R135 to R137). The temperature at training
is the last one read of its first die. [log 154: DEDUCED] -/
def State.channelOf (s : State) (r : ChannelReport) : Channel × Status :=
  let ps := s.fw.runImg.profiles
  let dies := (sortOn (fun d : DieReport => 4 * d.ce + d.lun) r.dies).take 16
  let found := dies.map fun d => profileOf (ps.filter (·.valid)) d.id
  let step := if r.failed = 1 ∨ r.failed = 2 then r.failed else if found.all (·.isSome) then r.failed else 3
  let p := ((found.head?).bind id).getD noProfile
  ({ ch := r.ch, populated := r.failed != 0 || dies != [], failed := step, luns := dies.map fun d => (d.ce, d.lun),
     rate := maxOf (flashRates.filter fun x => decide (x ≤ min r.rate p.maxRate)), profile := p,
     mixed := found.any fun x => x != some p,
     bad := dies.zipIdx.flatMap fun d => d.1.bad.map fun b => mkAddr r.ch d.2 b 0
     trainTemp := (s.die (16 * r.ch)).temp, trainFails := 0, training := 0, action := .none, senses := 0 },
   if step ≠ 3 then St.mediaTraining
   else if dies.any fun d => (profileOf (ps.filter (·.valid)) d.id).isNone && (profileOf ps d.id).isSome then
     St.mediaProfileInvalid
   else St.mediaNoProfile)

/-- One channel's report: a channel that stopped reports its status; one of the pool is a failed member, one outside the pool
raises a media event (R136, R178). -/
def State.bringChannel (s : State) (r : ChannelReport) : State :=
  let c := s.channelOf r
  let s1 := s.modFlash fun f => { f with channels := (f.channels.filter fun x => x.ch != r.ch) ++ [c.1] }
  if c.1.failed = 0 then s1
  else if s.store.pool.members.any fun m => m.1 == r.ch && m.2 == .online then
    ((((s1.log 4 deviceFn c.2 r.ch).modStore fun d => (Ctrl.memberFail r.ch).durable d).takeOffline).mediaEvent
      St.rdMemberFailed r.ch)
  else s1.mediaEvent c.2 r.ch

/-- CHANNEL_BRINGUP (R136): after a controller reset channels keep their training. -/
def execChannelBringup (reports : List ChannelReport) (s : State) : Res :=
  if (s.pw.st = .boot ∨ s.pw.st = .held) ∧ s.pw.bringupDone = false ∧ s.pw.resetN = true then
    let s1 := if s.flash.trained then s else reports.foldl State.bringChannel s
    .next ((s1.modFlash fun f => { f with trained := true, wpAsserted := false }).modPw
      fun p => { p with bringupDone := true })
  else .next s

/-! ### Recovery (R45, R121, R123, R156, R189, R190) -/

/-- The copy of the descriptor that is missing or not valid programmed again (R45). -/
def State.mendDescriptor (s : State) : State :=
  match s.store.desc with
  | none => s
  | some d =>
    let good := s.store.descAt.filter fun a => (s.cell? a).elim false (fun c => validDescriptor c.data) && !s.unreadable a
    if 2 ≤ good.length then s
    else
      let w := s.writeSys 2 (good.map addrCh) 0 d.bytes
      (w.2.modStore fun x => { x with descAt := good ++ w.1 }).modFlash fun f => { f with
        journal := f.journal.map fun j => if j.epoch = d.epoch then { j with descs := good ++ w.1 } else j }

/-- A super-block's open-block parity from its snapshot entry: of the first LOG_RECORDS records of its log the last one of each
row (R156). -/
def SnapEntry.rebuilt (x : SnapEntry) (logs : List ParityLog) : ParityBlock :=
  let recs := (((logs.find? fun l => l.sb == x.sb).elim [] (·.recs)).take x.logRecs).map (·.row)
  let rows := (recs.map (·.row)).eraseDups.filterMap fun r => (recs.reverse).find? fun y => y.row == r
  ⟨x.sb, x.mode, x.pending, rows, x.opened, [], []⟩

/-- Open-block parity rebuilt from the snapshot of E; the records that logs hold beyond it are void (R156). -/
def Flash.rebuildParity (f : Flash) : Flash :=
  { f with
    parity := f.snap.map fun x => x.rebuilt f.logs
    logs := f.logs.map fun l => { l with recs := l.recs.take ((f.snap.find? fun x => x.sb == l.sb).elim 0 (·.logRecs)) } }

/-- The written end of every block of a listed super-block, and the stripes that were open: those whose programs had all been
issued are closed, and of the others, which hold discarded data alone, none is used again (R136, R189). -/
def State.recoverStripes (s : State) : State :=
  let s1 := s.closeStripes fun p => p.taken.all fun a => (s.cell? a).isSome
  s1.modFlash fun f => { f with
    stripes := f.stripes.map fun p => { p with closed := true }
    blocks := updIf (fun b => f.parity.any fun p => p.sb == superOf b.blk) (fun b => { b with
      used := max b.used (maxOf ((f.cells.filter fun c => blockOf c.addr == b.blk).map fun c => addrCw c.addr + 1)) })
      f.blocks
    intents := f.intents.filter fun i => decide (i.epoch ≤ s.store.sealed) }

/-- Blocks that only discarded epochs named, or in a super-block that E does not list and nothing names, are erased,
as are victims that no sealed entry names, whether or not their erase began (R121, R123, R189). [log 126: DEDUCED] -/
def State.recoverBlocks (s : State) (old : List Nat) : State :=
  let dead := fun b : Block => b.st != .retired && s.unnamed b.blk &&
    (b.st == .victim || b.st == .eraseWait || (old.contains (superOf b.blk) && !s.flash.parity.any fun p => p.sb == superOf b.blk) ||
      s.flash.cells.any fun c => blockOf c.addr == b.blk && decide (s.store.sealed < c.epoch))
  s.modFlash fun f => { f with
    blocks := f.blocks.map fun b => if dead b then { b with st := .eraseWait, eraseFrom := 0, erasing := false }
      else { b with erasing := false } }

/-- What recovery requests again: the switch of a reshape that was not sealed (R193, R194), and a slot whose verify
did not end is STAGING (R95). [log 126: DEDUCED] -/
def Store.recovered (d : Store) : Store :=
  { d with
    reshape := { d.reshape with st := if d.reshape.st = .none then .none else .copying }
    nss := d.nss.map fun n => { n with
      slots := updIf (fun x => x.st == .verifyPending) (fun x => { x with st := .staging }) n.slots } }

/-- The media cores' recovery over E: parity, stripes, blocks, the missing copy of the descriptor. -/
def State.recoverMedia (s : State) : State :=
  let old := s.flash.parity.map (·.sb)
  (((s.modFlash Flash.rebuildParity).recoverStripes).recoverBlocks old).mendDescriptor

/-- RECOVERY (R45, R48, R121, R156, R189, R190): the state is the one after E; open-block parity and stripes are
resynchronised, narrowed where an intent copy was found, in full otherwise; a former group member holds its
ring-synchronous namespaces offline. The stripes of E agree with their P and Q in the model. [log 126: DEDUCED] -/
def execRecovery (intentHeld : Bool) (s : State) : Res :=
  if s.pw.st = .held ∧ s.pw.bringupDone = true ∧ s.pw.recovered = false ∧ s.pw.pwrfailLow = false then
    let s1 := s.recoverMedia.modStore Store.recovered
    let s2 := if intentHeld then s1.modFlash fun f => { f with resyncFull := false, resyncLeft := [] }
      else (s1.modFlash fun f => { f with
        resyncFull := true, resyncLeft := f.parity.map (·.sb),
        parity := f.parity.map fun p => { p with pending := true } }).mediaEvent St.rdResyncFull 0
    let s3 := if s.store.grouped then
        (s2.modStore fun d => d.moveRing .online .offlineRing).ringNsEvents St.nsOffline
      else s2
    .next (s3.modPw fun p => { p with recovered := true })
  else .next s

/-- HELD_EXIT (R424, R430, R435): recovery done and the hold-up accepted: the first tick. -/
def execHeldExit (s : State) : Res :=
  if s.pw.st = .held ∧ s.pw.recovered = true ∧ s.pw.holdup.ok = true then .next s.leaveHeld
  else .next s

/-! ### The drain -/

/-- Freezes that the ending epoch recorded, moved to the descriptor of epoch `last`, back from it by
the same span (R93). -/
def shiftFreezes (cs : List Ctrl) (last : Nat) : List Ctrl :=
  cs.filterMap fun c => match c with
    | .freeze i a b => some (.freeze i (a + last - b) last)
    | _ => none

/-- The open accept phase ends and its epoch is discarded (R66); its freezes go to the last epoch
that the drain seals (R93). -/
def State.dropAccepting (s : State) : State :=
  match s.epoch? with
  | none => s
  | some e =>
    if e.closed then s
    else
      let rest := s.hz.epochs.filter fun x => x.n != e.n
      let last := ((rest.filter fun x => !x.isSealed).getLast?).map (·.n)
      s.modHz fun h => { h with
        epochs := match last with
          | some n => updIf (fun x => x.n == n)
              (fun x => { x with ctrl := x.ctrl ++ shiftFreezes e.ctrl n }) rest
          | none => rest }

/-- The drain begins (R66, R424, R437, R438): by the state the device is in. A boot that stops leaves the device
STOPPED, so that the deassertion restarts it; while RESET_N is low nothing is to stop; PWRFAIL_N in HALTED leaves the
device there (R438). [log 132, 139: DEDUCED] -/
def State.startDrain (s : State) : State :=
  let stop := fun (s : State) => s.modPw fun p => { p with
    st := .draining, huLoad := false, entry := .none, request := none,
    holdup := { p.holdup with phase := .idle, samples := [] } }
  match s.pw.st with
  | .draining => s
  | .stopped => s
  | .halted => s
  | .boot => if s.pw.resetN then s.stopNow else s
  | .p4 => s.stopNow
  | .held => stop s
  | .p0 | .p1 | .p2 | .p3 | .resetting =>
    let s0 := if s.hz.ticking = true ∧ s.hz.phase ≠ .accept then s.ingestDrain else s
    (stop (s0.dropAccepting.stopEngines.modFw fun f => { f with phase := .idle, holding := false })).modHz
      fun h => { h with st := .draining, ticking := false, phase := .slack }

/-- PWRFAIL_ASSERT (R437, R438). -/
def execPwrfailAssert (s : State) : Res :=
  .next ((s.modPw fun p => { p with pwrfailLow := true, highTimer := false }).startDrain)

/-- The reset itself (R440 step 3): the power-on sequence restarts; namespaces that were HALTED are back in their
state at E, with the event of that state change (R77, R393). [log 133: DEDUCED] -/
def State.resetNow (s : State) : State :=
  let s1 := s.restart false
  (if s.hz.st = .halted then s1.nsRestored else s1).bootRom

/-- A controller reset from STOPPED (R388, R438, R440): the commands that the drain left end, and nothing is left to
seal. -/
def State.resetStopped (s : State) : State := s.abortCreated.resetNow

/-- What was held off during the drain happens at its end (R440, R471): a power-on reset before a
controller reset; after a trip only power-on restarts the device (R442). -/
def State.afterDrain (s : State) : State :=
  if s.pw.heldPor then (s.modPw fun p => { p with resetN := false }).restart true
  else if s.pw.heldReset ∧ s.pw.tripped = false then s.resetStopped
  else s

/-- DRAIN_END (R162, R424, R437): every epoch past its cut point is sealed, or an inhibit has begun and what is left
is discarded. [log 2: DESIGN CHOICE] -/
def execDrainEnd (s : State) : Res :=
  if s.pw.st = .draining ∧ (s.drained = true ∨ s.flash.inhibited = true) then
    let s1 := (s.modFlash fun f => { f with
      snap := f.snap.map fun x => { x with pending := x.pending || !s.drained } }).discardUnsealed
    let s2 := (s1.modHz fun h => { h with st := .stopped, ticking := false }).modFlash
      fun f => { f with wpAsserted := true }
    .next ((s2.modPw fun p => { p with st := .stopped, pwrSafe := true }).afterDrain)
  else .next s

/-- PWRFAIL_DEASSERT (R438): the 100 ms wait starts during a drain or in STOPPED. -/
def execPwrfailDeassert (s : State) : Res :=
  .next (s.modPw fun p => { p with
    pwrfailLow := false, highTimer := p.st == .draining || p.st == .stopped })

/-- PWRFAIL_HIGH_TIMER_EXPIRY (R438): a controller reset, held while the drain lasts. -/
def execPwrfailHighTimerExpiry (s : State) : Res :=
  if s.pw.highTimer then
    let s1 := s.modPw fun p => { p with highTimer := false }
    if s.pw.st = .draining then .next (s1.modPw fun p => { p with heldReset := true })
    else if s.pw.st = .stopped ∧ s.pw.tripped = false then .next s1.resetStopped
    else .next s1
  else .next s

/-! ### Thermal and supplies -/

/-- The highest of the readings. [log 120: DEDUCED] -/
def maxReading : List Int → Int
  | [] => 0
  | r :: rs => rs.foldl max r

/-- THERMAL_SENSOR_SAMPLE (R442): TJ_MAX, and the warning event at the rise through the threshold and at the fall 5 °C
below it. A tripped part that has cooled boots. [log 16: DESIGN CHOICE; 120: DEDUCED] -/
def execThermalSensorSample (readings : List Int) (s : State) : Res :=
  if readings = [] ∨ s.pw.st = .stopped then .next s
  else
    let tj := maxReading readings
    let th : Int := s.param 0x0C10 0
    let s1 := s.modPw fun p => { p with tjMax := tj }
    if s.pw.st = .boot ∧ s.pw.tripped = true ∧ s.pw.resetN = true ∧ tj < 125 ∧ s.pw.pwrfailLow = false then
      .next ((s1.modPw fun p => { p with tripped := false }).bootRom)
    else if s.pw.warn = false ∧ th ≤ tj then
      .next ((s1.modPw fun p => { p with warn := true }).openEvent 6 s1.actives St.pwThermalWarn)
    else if s.pw.warn = true ∧ tj ≤ th - 5 then
      .next ((s1.modPw fun p => { p with warn := false }).openEvent 6 s1.actives St.pwThermalWarn)
    else .next s1

/-- THERMAL_TRIP (R2, R442): DEVICE event and log, the drain, then STOPPED; FAULT_N is asserted until power-on (R468).
In HALTED nothing is left to seal (R64, R438), so the device is STOPPED at once. [log 120, 139: DEDUCED] -/
def execThermalTrip (s : State) : Res :=
  if s.pw.st = .stopped ∨ s.pw.tripped then .next s
  else
    let s1 := (s.openEvent 6 s.actives St.pwThermalTrip).modPw fun p => { p with tripped := true, fault := true }
    .next (if s.pw.st = .halted then s1.stopNow.modHz fun h => { h with st := .stopped } else s1.startDrain)

/-- The dies of every channel. -/
def State.allDies (s : State) : List Nat :=
  s.flash.channels.flatMap fun c => (List.range c.dies).map fun t => 16 * c.ch + t

/-- SUPPLY_INHIBIT (R161): no program and no erase starts; a media event and log entry. -/
def execSupplyInhibit (monitor : Nat) (s : State) : Res :=
  if s.flash.monitors.contains monitor then .next s
  else
    let s1 := s.allDies.foldl (fun st g => st.modDie g fun d => { d with inhibits := d.inhibits + 1 })
      (s.modFlash fun f => { f with monitors := f.monitors ++ [monitor], inhibited := true })
    .next (s1.openEvent 4 [0] St.mediaInhibited)

/-- SUPPLY_INHIBIT_RELEASE (R161): every monitor has stayed above its release threshold. -/
def execSupplyInhibitRelease (s : State) : Res :=
  .next (s.modFlash fun f => { f with monitors := [], inhibited := false })

/-! ### Hold-up measurement (R434, R435) -/

/-- Ten samples lie within 0.5 % of their mean. -/
def settled (v : List Nat) : Bool :=
  let sum := v.foldl (· + ·) 0
  v.length == 10 && v.all fun x => decide (200 * (10 * x - sum) ≤ sum) && decide (200 * (sum - 10 * x) ≤ sum)

/-- HOLDUP_SAMPLE (R434 step 1): a bus sample in mV; once the last ten lie together V_start is their
mean and the test load is switched on. -/
def execHoldupSample (mv : Nat) (s : State) : Res :=
  if s.pw.holdup.phase = .settling then
    let w := (s.pw.holdup.samples ++ [mv]).drop (s.pw.holdup.samples.length - 9)
    if settled w then
      .next (s.modPw fun p => { p with
        holdup := { p.holdup with phase := .loaded, samples := [], vStart := w.foldl (· + ·) 0 / 10 }
        huLoad := true })
    else .next (s.modPw fun p => { p with holdup := { p.holdup with samples := w } })
  else .next s

/-- HOLDUP_CHARGE_TIMEOUT (R434): the bus has not settled within 10 s. -/
def execHoldupChargeTimeout (s : State) : Res :=
  if s.pw.holdup.phase = .settling then
    .next (s.endHoldup St.pwHoldupCharge false s.pw.holdup)
  else .next s

/-- C as a fraction in µF: I_TEST x t / ΔV, with the floor of 0.5 % of V_start for ΔV at 2 ms (R434
step 3). -/
def holdupC (r : BoardRecord) (vStart t dV : Nat) : Nat × Nat :=
  if 200 * dV < vStart ∧ 2000 ≤ t then (r.iTest * 2000 * 200, vStart) else (r.iTest * t, dV)

/-- The figures of a measurement (R434 steps 3 and 4): C in µF, E_u and E_req in mJ, rounded down. -/
def holdupFigures (h : Holdup) (r : BoardRecord) (t dV : Nat) : Holdup :=
  let (n, d) := holdupC r h.vStart t dV
  let sq := (97 * h.vStart) * (97 * h.vStart) - (100 * r.vMin) * (100 * r.vMin)
  { h with
    t := t, dV := dV, c := n / d,
    eU := n * sq * r.eta / (2000000000000000 * d), eReq := r.pHold * 8 / 1000 }

/-- The acceptance of R435, without rounding: E_u ≥ E_req and 0.97 x V_start > V_MIN. [log 18: DESIGN CHOICE] -/
def holdupOk (h : Holdup) (r : BoardRecord) (t dV : Nat) : Bool :=
  let (n, d) := holdupC r h.vStart t dV
  let sq := (97 * h.vStart) * (97 * h.vStart) - (100 * r.vMin) * (100 * r.vMin)
  decide (100 * r.vMin < 97 * h.vStart) &&
    decide (16000000000000 * r.pHold * d ≤ n * sq * r.eta)

/-- HOLDUP_LOAD_SAMPLE (R434 steps 2 to 4): the first sample 3 % below V_start, or the one at 2 ms, ends the test.
[log 16: DESIGN CHOICE] -/
def execHoldupLoadSample (mv us : Nat) (s : State) : Res :=
  if s.pw.holdup.phase = .loaded then
    let h := s.pw.holdup
    let dV := h.vStart - mv
    if 3 * h.vStart ≤ 100 * dV ∨ 2000 ≤ us then
      match s.boardRecord with
      | some r =>
        let ok := holdupOk h r us dV
        .next (s.endHoldup (if ok then St.ok else St.pwHoldupLow) ok (holdupFigures h r us dV))
      | none => .next (s.endHoldup St.pwHoldupRecord false h)
    else .next s
  else .next s

/-! ### Entries to P3, P4 and HELD (R428, R429, R435) -/

/-- The quiesce toward HELD ends once no command remains and every epoch with data is sealed. -/
def State.tryHeld (s : State) : State :=
  if s.pw.entry = .toHeld ∧ s.q.cmds = [] ∧ s.allSealed = true then
    (s.stopTicking).modPw fun p => { p with st := .held, entry := .none }
  else s

/-- P3_QUIESCED (R428): no fetched command remains and the last epoch with data is sealed; P3 begins
at the next tick boundary. -/
def execP3Quiesced (s : State) : Res :=
  if s.q.cmds = [] ∧ s.allSealed = true then
    match s.pw.entry with
    | .toP3 | .toP4 => .next (s.modPw fun p => { p with quiesced := true })
    | .toHeld => .next s.tryHeld
    | .none => .next s
  else .next s

/-- P4_CHECKPOINT_SEALED (R425, R429, R253): ticking stops after the seal that carries the checkpoint. -/
def execP4CheckpointSealed (s : State) : Res :=
  if s.pw.entry = .toP4 ∧ (s.pw.quiesced = true ∨ s.pw.st = .p3) ∧ s.dirty = 0 ∧
      s.flash.ckpt = none ∧ s.allSealed = true then
    let s1 := (s.stopTicking.freeDg fun _ => true).gateEngines.modZl fun z => { z with
      ports := z.ports.map fun p => p.drop .off }
    let s2 := s1.modPw fun p => { p with
      st := .p4, entry := .none, entryLong := none, quiesced := false, pwrSafe := true }
    match s.pw.entryLong with
    | some (_, id) => .next (s2.endLong id St.ok [])
    | none => .next s2
  else .next s

/-! ### Controller reset (R440) -/

/-- The controller reset is accepted: the accept phase ends, commands end without completions
(R388), and admitted epochs are still to be sealed. -/
def State.beginCtrlReset (s : State) : State :=
  let s2 := s.abortCreated.modEpoch fun e => { e with closed := true }
  (s2.modFw fun f => { f with phase := .idle, holding := false }).modPw fun p => { p with
    st := .resetting, entry := .none, request := none, replyTo := none,
    holdup := { p.holdup with phase := .idle, samples := [] }, huLoad := false }

/-- CTRL_RESET (R439, R440): ignored with another KEY; held while DRAINING; none in BOOT, while a
reset runs, or after a thermal trip. -/
def execCtrlReset (key : Nat) (s : State) : Res :=
  if key ≠ 0xC4A5 then .next s
  else match s.pw.st with
  | .boot | .resetting => .next s
  | .draining => .next (s.modPw fun p => { p with heldReset := true })
  | .stopped => if s.pw.tripped then .next s else .next s.beginCtrlReset
  | _ => .next s.beginCtrlReset

/-- CTRL_RESET_SEALS_DONE (R440): every epoch with data is sealed, or none is to be (R64): the
processors, engines and HTS reset and the power-on sequence restarts. -/
def execCtrlResetSealsDone (s : State) : Res :=
  if s.pw.st = .resetting ∧ (s.allSealed = true ∨ s.hz.ticking = false) then .next s.resetNow
  else .next s

/-! ### Watchdog (R441) -/

/-- Restarts within the last 60 s. [log 119: DEDUCED] -/
def State.recentRestarts (s : State) : List Nat :=
  s.pw.restarts.filter fun t => decide (s.hz.uptimeUs < t + 60000000)

/-- WATCHDOG_EXPIRY (R415, R441): all four control processors restart; a third restart within 60 s halts a ticking
device. [log 19: DESIGN CHOICE; 119: DEDUCED] -/
def execWatchdogExpiry (s : State) : Res :=
  if s.pw.restarting ∨ s.pw.st = .boot ∨ s.pw.st = .stopped then .next s
  else
    let r := s.recentRestarts ++ [s.hz.uptimeUs]
    let s1 := (s.free.2).log 6 deviceFn St.pwWatchdog (s.free.1.toNat % 18446744073709551616)
    let s2 := (s1.abortActivation St.fwActivateAborted).modPw fun p => { p with
      restarting := true, restarts := r, restartSealed := s.hz.sealed }
    if 3 ≤ r.length ∧ (s.hz.st = .running ∨ s.hz.st = .late) then .next s2.enterHalted
    else .next s2

/-- FW_RESTART_DONE (R39, R441): the image check passed and Sutas firmware runs again: completions of
epochs sealed meanwhile are posted; a failed check is a controller reset. -/
def execFwRestartDone (imageOk : Bool) (s : State) : Res :=
  if s.pw.restarting then
    let s1 := s.modPw fun p => { p with restarting := false }
    if imageOk then
      if s.pw.restartSealed < s.hz.sealed then .next (s1.completeSeal s.hz.sealed true)
      else .next s1.endDue
    else .next s1.beginCtrlReset
  else .next s

/-! ### Mailbox commands (R444) -/

/-- Code of R423. -/
def PState.code : PState → Nat
  | .p0 => 0
  | .p1 => 1
  | .p2 => 2
  | .p3 => 3
  | .p4 => 4
  | .boot => 8
  | .held => 9
  | .draining => 10
  | .stopped => 11
  | .halted => 12
  | .resetting => 13

/-- The state of a `pw.state.set` code. -/
def pstateOf (n : Nat) : PState :=
  match n with
  | 0 => .p0
  | 1 => .p1
  | 2 => .p2
  | 3 => .p3
  | _ => .p4

/-- An exec instance runs or waits for engines. -/
def State.instActive (s : State) : Bool :=
  !s.anv.insts.isEmpty || s.q.cmds.any fun c => c.e.opc == opExec

/-- The refusals of `pw.state.set` in the order of R427. [log 121: DEDUCED] -/
def State.pstateRefusal (s : State) (target : PState) : Option Status :=
  let deep := target == .p3 || target == .p4
  if s.pw.st = .boot ∨ s.pw.st = .held then some St.pwHeld
  else if s.pw.st = .p4 then some St.pwState
  else if s.pw.entry ≠ .none then some St.pwBusy
  else if s.pw.st = target then none
  else if (deep ∨ target = .p2) ∧ s.instActive = true then some St.anvActive
  else if deep ∧ s.zl.group ≠ .solo then some St.zlInGroup
  else if deep ∧ (s.recs.longs.any (fun l => l.status == none) ∨ s.fw.phase ≠ .idle ∨ s.fw.download ≠ none)
  then some St.pwBusy
  else none

/-- Minimum interval of R426 from the present state, in µs. -/
def PState.interval : PState → Nat
  | .p2 => 200
  | .p3 => 1000
  | _ => 0

/-- PW_STATE_SET (R426 to R429, R444): a change among P0 to P2 is due at the boundary of R426 and replied after it; P3
and P4 are long commands that begin to quiesce. [log 121: DEDUCED] -/
def execPwStateSet (fn : Nat) (req : MbReq) (s : State) : Res :=
  .next (s.mbRun Mb.pwStateSet fn req fun s =>
    let target := pstateOf (fld req 0 3)
    match s.pstateRefusal target with
    | some st => .refuse st []
    | none =>
      if s.pw.st = target then .basic [] s
      else if target = .p3 ∨ target = .p4 then
        s.long Mb.pwStateSet fn fun s' => s'.pauseAll.modPw fun p => { p with
          entry := if target = .p3 then .toP3 else .toP4
          entryLong := some (fn, s.recs.nextLong), quiesced := false }
      else .later (s.modPw fun p => { p with
        request := some (target, s.hz.uptimeUs + s.hz.elapsedNs / 1000 + s.pw.st.interval)
        replyTo := some (fn, req.tag) }))

/-- The board record's fields as a reply lists them. -/
def recordVals (r : Option BoardRecord) : List Nat :=
  match r with
  | some r => [1, r.seq, r.vMin, r.pHold, r.iTest, r.divider, r.eta]
  | none => [0, 0, 0, 0, 0, 0, 0]

/-- PW_STATUS (R444). -/
def execPwStatus (fn : Nat) (req : MbReq) (s : State) : Res :=
  .next (s.mbRun Mb.pwStatus fn req fun s =>
    let h := s.pw.holdup
    .basic ([s.pw.st.code, s.pw.lastReset] ++ recordVals s.boardRecord ++
      [h.status.toNat, h.c, h.vStart, h.t, h.dV, h.eU, h.eReq, s.store.pool.cd, tempVal s.pw.tjMax,
        s.recentRestarts.length]) s)

/-- PW_HOLDUP_MEASURE (R433, R434, R444): with STORE the record, which row 7 or 8 of R401 has
checked, is stored in both copies with the next SEQ, and then the measurement runs. -/
def execPwHoldupMeasure (fn : Nat) (req : MbReq) (s : State) : Res :=
  .next (s.mbRun Mb.pwHoldupMeasure fn req fun s =>
    if s.pw.holdup.phase ≠ .idle ∨ (s.pw.entry = .toP3 ∨ s.pw.entry = .toP4) then
      .refuse St.pwBusy []
    else s.long Mb.pwHoldupMeasure fn fun s' =>
      let s1 := match recordOf req with
        | none => s'
        | some r =>
          let r1 := { r with seq := s.boardRecord.elim 1 fun b => b.seq + 1 }
          s'.modPw fun p => { p with record1 := some r1, record2 := some r1 }
      s1.startHoldup (some (fn, s.recs.nextLong)))

end Sys2Proof.Machine
end

