-- ==== Sys2Proof/Machine/Queues.lean ====
section
/-!
DEFINITION. Queues and commands (chapter 13): doorbells, fetch, the checks of R376, data fetch,
timeouts, abort, deletion, and the queue mailbox commands of R395.
-/

namespace Sys2Proof.Machine

open Sys2Proof

/-! ### Pairs -/

/-- A pair stops: no further fetch, and a QUEUE event to its function (R366, R348, R369). -/
def State.stopPair (s : State) (n qid : Nat) (st : Status) : State :=
  match s.pair? n qid with
  | some p =>
    if p.st = .active then
      (s.modPair n qid fun p => { p with st := .stopped }).event 1 n [n] st qid
    else s
  | none => s

/-- The pair's doorbell page is live: its function is ACTIVE and its first tick boundary has passed
(R347, R369). -/
def State.pairLive (s : State) (n qid : Nat) : Option Pair :=
  match s.pair? n qid with
  | some p => if s.fnLive n ∧ p.liveFrom ≤ s.hz.epoch then some p else none
  | none => none

/-- SQ_TAIL_DOORBELL_WRITE (R366, R462): the value held changes nothing, one of D or more stops the pair; a pair that is not
ACTIVE ignores the write, and a page without a pair is a violation (R347). -/
def execSqTailDoorbellWrite (fn qid value : Nat) (s : State) : Res :=
  match s.pairLive fn qid with
  | none => .next (s.violate fn)
  | some p =>
    if p.st ≠ .active ∨ value = p.sqTail then .next s
    else if p.depth ≤ value then .next (s.stopPair fn qid St.cmdDoorbell)
    else .next (s.modPair fn qid fun p => { p with sqTail := value })

/-- CQ_HEAD_DOORBELL_WRITE (R366, R462): releases the entries up to the value, which lies between the old
head and the next write position. -/
def execCqHeadDoorbellWrite (fn qid value : Nat) (s : State) : Res :=
  match s.pairLive fn qid with
  | none => .next (s.violate fn)
  | some p =>
    if p.st ≠ .active ∨ value = p.cqHead then .next s
    else
      let k := (value + p.depth - p.cqHead) % p.depth
      if p.depth ≤ value ∨ p.cqUsed < k then .next (s.stopPair fn qid St.cmdDoorbell)
      else .next (s.modPair fn qid fun p => { p with cqHead := value, entries := p.entries.drop k })

/-! ### Fetch (R368, R370 to R372) -/

/-- Function `n` may have entries fetched: not held by the link, an activation or an entry to a deeper
state, and its reads can be issued (R342, R370, R389, R428). -/
def State.fetches (s : State) (n : Nat) : Bool :=
  s.fnLive n && !s.link.below && !s.fw.holding && s.pw.entry == .none && !s.dmaHeld n &&
    (s.pw.st == .p0 || s.pw.st == .p1 || s.pw.st == .p2 || s.pw.st == .halted)

/-- An entry of the pair may be fetched. -/
def State.pairReady (s : State) (p : Pair) : Bool :=
  p.st == .active && decide (p.liveFrom ≤ s.hz.epoch) && p.sqHead != p.sqTail &&
    decide (s.cqLoad p + 1 < p.depth) && decide (s.tagsHeld p.fn < (s.grantOf p.fn).tags)

/-- A freshly fetched command. -/
def Cmd.fresh (n qid seq tick : Nat) (e : SqEntry) : Cmd :=
  { fn := n, qid := qid, seq := seq, tick := tick, e := e, stage := .fetched, done := 0, left := 0,
    need := 0, ring := false, bytes := [], pi := [], hdr := none, word := none, matched := false,
    offset := 0, room := false, toRead := [], status := St.ok, ended := false, late := 0, inst := 0,
    pieces := [], loads := [] }

/-- One entry fetched by pair `p`: checks 1 to 3 of R376, then a new command. -/
def State.fetchOne (s : State) (p : Pair) (e : SqEntry) : State :=
  let s1 := s.modPair p.fn p.qid fun p => { p with sqHead := (p.sqHead + 1) % p.depth }
  if s.hz.st = .halted then s1.postCq p.fn p.qid e.cid St.halted 0
  else if (s.cmd? p.fn p.qid e.cid).isSome then s1.postCq p.fn p.qid e.cid St.cmdCidInUse 0
  else if e.opc = 0 ∨ 6 < e.opc then s1.postCq p.fn p.qid e.cid St.cmdOpcode 0
  else s1.modQ fun q => { q with
    nextSeq := q.nextSeq + 1
    cmds := q.cmds ++ [Cmd.fresh p.fn p.qid q.nextSeq s.hz.epoch e] }

/-- The pair that serves the next entry of function `n`: the one whose turn runs while its burst lasts and
it is ready, else the next ready one in order; `cur` is that pair and what is left of its burst. -/
def State.nextPair (s : State) (n : Nat) (cur : Nat × Nat) : Option (Pair × Nat) :=
  let ready := s.q.pairs.filter fun p => p.fn == n && s.pairReady p
  match ready.find? (fun p => p.qid == cur.1 && decide (0 < cur.2)) with
  | some p => some (p, cur.2 - 1)
  | none =>
    let q := nextHolder (ready.map (·.qid)) cur.1
    (ready.find? (fun p => p.qid == q)).map fun p => (p, s.param 0x0220 n - 1)

/-- Entries fetched in round-robin bursts until none may be. -/
def State.fetchLoop (n : Nat) : List SqEntry → Nat × Nat → State → State
  | [], cur, s => s.modQ fun q => { q with rr := setAssoc q.rr n cur.1 }
  | e :: es, cur, s =>
    match s.nextPair n cur with
    | some (p, left) => State.fetchLoop n es (p.qid, left) (s.fetchOne p e)
    | none => s.modQ fun q => { q with rr := setAssoc q.rr n cur.1 }

/-- SQ_SUBMISSION_FETCH (R370): `entries` are what host memory holds, in the order of the fetch. -/
def execSqSubmissionFetch (fn : Nat) (entries : List SqEntry) (s : State) : Res :=
  if s.fetches fn then .next (State.fetchLoop fn entries (assoc s.q.rr fn, 0) s) else .next s

/-! ### The checks of R376 -/

/-- The fetched command of a pair that waits for its checks, with opcode `opc`. -/
def State.toCheck (s : State) (n qid cid opc : Nat) : Option Cmd :=
  s.q.cmds.find? fun c => c.fn == n && c.qid == qid && c.e.cid == cid && c.e.opc == opc && c.stage == .fetched

/-- LEN lies within the widest range over all classes (R375). -/
def lenWidest (opc len : Nat) : Bool :=
  if opc = opRead ∨ opc = opWrite then decide (1 ≤ len) && decide (len ≤ 16777216)
  else if opc = opAppend then decide (32 ≤ len) && decide (len ≤ 16777248)
  else if opc = opDiscard then decide (1 ≤ len) && decide (len < 4294967296)
  else if opc = opFlush then len == 0
  else len == 64

/-- The opcode moves data. -/
def movesData (opc : Nat) : Bool := opc != opDiscard && opc != opFlush

/-- Check 4: RSV, FLAGS, LCOUNT, DPTR and LEN (R373, R374). [log 62: DEDUCED] -/
def fieldsOk (e : SqEntry) : Bool :=
  let list := bitAt e.flags 1
  e.rsv == 0 && bitsAt e.flags 2 6 == 0 && (!bitAt e.flags 0 || e.opc == opRead) &&
    (!list || (movesData e.opc && e.opc != opExec)) &&
    (if list then decide (1 ≤ e.lcount) && decide (e.lcount ≤ 4096) else e.lcount == 0) &&
    (if movesData e.opc then e.dptr != 0 && e.dptr % 4 == 0 else e.dptr == 0) && lenWidest e.opc e.len

/-- Timeouts have a comparator (R386). -/
def State.timerOn (s : State) : Bool := s.inForce.claims.any fun c => c.opcode == 0x020D

/-- The opcode is allowed for the class (R375). -/
def opForClass (n : Ns) (opc : Nat) : Bool :=
  if opc = opWrite ∨ opc = opDiscard then !n.isRns
  else if opc = opAppend then n.isStream
  else true

/-- LEN, ADDR and STREAM meet the limits of the class (check 7). -/
def limitsOk (n : Ns) (e : SqEntry) : Bool :=
  if e.opc = opAppend ∨ e.opc = opFlush ∨ e.opc = opExec then e.addr == 0 && e.stream == 0
  else if n.isBlock then
    e.stream == 0 && (e.opc == opDiscard || decide (e.len ≤ 65536))
  else decide (e.addr < 2 ^ 44) && decide (e.stream < 4096)

/-- T of R374 in bytes. -/
def transferLen (n : Ns) (e : SqEntry) : Nat :=
  if ¬ movesData e.opc then 0
  else if n.isBlock ∧ e.opc ≠ opExec then 4096 * e.len
  else e.len

/-- Check 11: the range lies in the namespace, or in one region of an INS. -/
def rangeOk (n : Ns) (e : SqEntry) : Bool :=
  if ¬ n.isBlock ∨ e.opc = opFlush ∨ e.opc = opExec then true
  else if n.isIns then
    e.addr / max 1 n.f.capacity == (e.addr + e.len - 1) / max 1 n.f.capacity &&
      decide (e.addr / max 1 n.f.capacity < 5)
  else decide (e.addr + e.len ≤ n.f.capacity)

/-- Check 13: MPTR is set exactly for a READ or WRITE to a BNS with PI, and aligned. -/
def piBufferOk (n : Ns) (e : SqEntry) : Bool :=
  let needs := n.f.cls == 0 && n.f.pi != 0 && (e.opc == opRead || e.opc == opWrite)
  if needs then e.mptr != 0 && e.mptr % 4 == 0 else e.mptr == 0

/-- Check 14: the buffer list. -/
def listOk (n : Ns) (e : SqEntry) (bufs : List BufEntry) : Bool :=
  if bitAt e.flags 1 then
    e.dptr % 16 == 0 && bufs.length == e.lcount && bufs.all (fun b => decide (1 ≤ b.len) && b.rsv == 0) &&
      sumBy (·.len) bufs == transferLen n e
  else true

/-- Check 15: every buffer of a share lies in its DMA window (R352). -/
def State.windowOk (s : State) (n : Ns) (c : Cmd) (bufs : List BufEntry) : Bool :=
  let e := c.e
  (if bitAt e.flags 1 then
    s.dmaOk c.fn e.dptr (16 * e.lcount) && bufs.all fun b => s.dmaOk c.fn b.addr b.len
   else s.dmaOk c.fn e.dptr (transferLen n e)) &&
    s.dmaOk c.fn e.mptr (if e.mptr = 0 then 0 else piLen n * e.len)

/-- Checks 4 to 15 of R376 over the namespace found. [log 62: DEDUCED] -/
def State.checksNs (s : State) (c : Cmd) (n : Ns) (bufs : List BufEntry) : Option Status :=
  if ¬ opForClass n c.e.opc then some St.cmdOpcode
  else if ¬ limitsOk n c.e then some St.cmdField
  else if ¬ s.rightFor c.e.nsid c.fn c.e.opc then some St.nsNoRight
  else if s.nsStateOf n ≠ .online then some St.nsOffline
  else if s.deferredNow c.e.nsid then some St.cmdDeferredError
  else if ¬ rangeOk n c.e then some St.cmdRange
  else if (c.e.opc = opWrite ∨ c.e.opc = opDiscard) ∧ n.isIns ∧
      (c.e.addr < n.f.capacity ∨ s.slotRefuses n c) then some St.imgSlotState
  else if ¬ piBufferOk n c.e then some St.cmdPiBuffer
  else if ¬ listOk n c.e bufs then some St.cmdList
  else if ¬ s.windowOk n c bufs then some St.fnDmaWindow
  else none

/-- Checks 4 to 15 of R376: the namespace, or the status of the first failure. [log 62: DEDUCED] -/
def State.checks (s : State) (c : Cmd) (bufs : List BufEntry) : Except Status Ns :=
  if ¬ fieldsOk c.e then .error St.cmdField
  else if c.e.timeout ≠ 0 ∧ ¬ s.timerOn then .error St.cmdNoTimer
  else if ¬ s.attached c.e.nsid c.fn then .error St.nsNotAttached
  else match s.store.ns? c.e.nsid with
  | none => .error St.nsNotAttached
  | some n =>
    match s.checksNs c n bufs with
    | some st => .error st
    | none => .ok n

/-- The checks of a fetched command, then its own part; an entry that is not a fetched command of that opcode leaves
the state as it is. [log 62: DEDUCED] -/
def State.checked (s : State) (n qid cid opc : Nat) (bufs : List BufEntry)
    (go : Cmd → Ns → State) : State :=
  match s.toCheck n qid cid opc with
  | none => s
  | some c =>
    match s.checks c bufs with
    | .error st => s.failCmd c st
    | .ok ns => go c ns

/-! ### Check 16: stream writes and discards (R109) -/

/-- A designated record of a frozen region touches bytes [off, off + n) of a stream. -/
def State.frozenIn (s : State) (nsid num off n : Nat) : Bool :=
  (s.records nsid).any fun r => r.stream == num && decide (0 < overlap r.offset (32 + r.payload.length) off n) &&
    (s.regionsNow nsid).any fun g => r.inRegion g

/-- The range touches coarse extents without an overlay, and slots are not free for them (R109). -/
def State.overlayFull (s : State) (nsid num off n : Nat) : Bool :=
  let ks := (extentsOf num off n).filter fun k => (s.store.extent? nsid k).isSome
  decide (s.slotsFor nsid ks ≠ 0) && decide (16384 < s.overlaysUsed + s.slotsFor nsid ks)

/-- The checks of R109. -/
def State.streamWriteCheck (s : State) (n : Ns) (e : SqEntry) : Option Status :=
  if ¬ s.streamOpen n.f.nsid e.stream then some St.recStream
  else if e.addr % 4096 ≠ 0 ∨ e.len % 4096 ≠ 0 then some St.ftAlign
  else if s.streamEnd e.stream < e.addr + e.len then some St.ftBeyondEnd
  else if s.frozenIn n.f.nsid e.stream e.addr e.len then some St.ftFrozen
  else if s.overlayFull n.f.nsid e.stream e.addr e.len then some St.ftOverlayFull
  else none

/-- A stream is bound to the namespace. -/
def State.streamBound (s : State) (nsid num : Nat) : Bool :=
  (s.store.stream? num).elim false fun x => x.nsid == nsid

/-- READ (R375, R376): its checks; then it waits for admission. -/
def execRead (fn qid cid : Nat) (bufs : List BufEntry) (s : State) : Res :=
  .next (s.checked fn qid cid opRead bufs fun c n =>
    if n.isStream ∧ ¬ s.streamBound n.f.nsid c.e.stream then s.failCmd c St.recStream
    else if n.isStream ∧ s.streamEnd c.e.stream < c.e.addr + c.e.len then s.failCmd c St.ftBeyondEnd
    else s.modCmd c.seq fun c => { c with stage := .waiting, left := c.e.len })

/-- WRITE (R109, R375, R376): its checks; then its data is fetched into the ingress buffer. -/
def execWrite (fn qid cid : Nat) (bufs : List BufEntry) (s : State) : Res :=
  .next (s.checked fn qid cid opWrite bufs fun c n =>
    match (if n.isStream then s.streamWriteCheck n c.e else none) with
    | some st => s.failCmd c st
    | none => s.modCmd c.seq fun c => { c with stage := .needData, left := c.e.len })

/-- DISCARD (R109, R127, R376): its checks; then it waits for admission. -/
def execDiscard (fn qid cid : Nat) (s : State) : Res :=
  .next (s.checked fn qid cid opDiscard [] fun c n =>
    match (if n.isStream then s.streamWriteCheck n c.e else none) with
    | some st => s.failCmd c st
    | none => s.modCmd c.seq fun c => { c with stage := .waiting, left := c.e.len })

/-- FLUSH (R376, R384): its checks; then it waits for the commands before it and the next seal. -/
def execFlush (fn qid cid : Nat) (s : State) : Res :=
  .next (s.checked fn qid cid opFlush [] fun c n =>
    s.modCmd c.seq fun c => { c with stage := .waiting, ring := n.ring })

/-! ### Records: checks 1 to 7 of R81 -/

/-- Checks 1 to 3 of R81; `host` is false for a link record, whose EPOCH and SRC_NODE stand as received. -/
def headerCheck (h : RecHeader) (host : Bool) : Option Status :=
  if h.hdrCrc ≠ (crc32c (recFront h)).toNat then some St.recHdrCrc
  else if bitsAt h.stream 12 4 ≠ 0 ∨ bitsAt h.rflags 1 7 ≠ 0 ∨ h.rsv ≠ 0 ∨
      (host ∧ (h.epoch ≠ 0 ∨ h.srcNode ≠ 0)) ∨ (¬ bitAt h.rflags 0 ∧ h.payCrc ≠ 0) then some St.recHdrRsv
  else if 16777216 < h.declLen then some St.recTooLarge
  else none

/-- Room that releases could make, for check 7 (R81, R82). -/
def State.hasRoom (s : State) (n : Ns) (len : Nat) : Bool :=
  decide (len ≤ s.freeIn n + (if n.isSns && n.wrap then
    sumBy (s.gain n.f.nsid) (s.releasable n) else 0))

/-- Checks 1 to 7 of R81 for a record of `len` bytes in all against a write credit in granules. -/
def State.recordCheck (s : State) (n : Ns) (h : RecHeader) (host : Bool) (len credit : Nat) : Option Status :=
  match headerCheck h host with
  | some st => some st
  | none =>
    if ¬ s.streamOpen n.f.nsid h.stream then some St.recStream
    else if len < 32 + h.declLen then some St.lengthShort
    else if 32 + h.declLen < len then some St.lengthLong
    else if 4096 * credit < h.declLen then some St.hzOverCredit
    else if ¬ s.hasRoom n h.declLen then some St.nsFull
    else none

/-- APPEND (R81, R202, R376): checks 1 to 7 on its header; then it waits for its class. -/
def execAppend (fn qid cid : Nat) (hdr : RecHeader) (bufs : List BufEntry) (s : State) : Res :=
  .next (s.checked fn qid cid opAppend bufs fun c n =>
    match s.mirrorCheck n with
    | some st => s.failCmd c st
    | none =>
      match s.recordCheck n hdr true c.e.len (s.grantOf fn).write with
      | some st => s.failCmd c st
      | none => s.modCmd c.seq fun c => { c with stage := .needClass, left := c.e.len, hdr := some hdr })

/-! ### Data fetch (R54, R197) -/

/-- Bytes of a function's data in the ingress buffer, not yet admitted. -/
def State.ingressOf (s : State) (n : Nat) : Nat :=
  sumBy (fun c => if c.fn = n ∧ c.stores ∧ c.stage = .waiting then
    c.bytes.length - (if c.e.opc = opWrite ∧ (s.store.ns? c.e.nsid).elim false Ns.isBlock
      then 4096 * c.done else c.done) else 0) s.q.cmds

/-- Bytes in the ingress buffer: functions and ports. -/
def State.ingressAll (s : State) : Nat :=
  sumBy (fun f => s.ingressOf f.num) s.fns +
    sumBy (fun p => sumBy (fun r => r.bytes.length) p.recs) s.zl.ports

/-- Space for `len` more bytes: within the buffer, and within the function's share, which never is less than the whole
record that `len` bytes are (R54). -/
def State.ingressFits (s : State) (n len : Nat) (isRecord : Bool) : Bool :=
  decide (s.ingressAll + len ≤ Config.ingressBytes) &&
    decide (s.ingressOf n + len ≤ max (4 * (4096 * (s.grantOf n).write)) (if isRecord then len else 0))

/-- PI of one LBA against its data (R195): the status of the first mismatch. [log 63: DEDUCED] -/
def piCheck (fmt lba : Nat) (data : Data) (p : PiField) : Option Status :=
  let guard := if fmt = 1 then (crc16t10 data).toNat else (crc64 data).toNat
  let ref := if fmt = 1 then lba % 2 ^ 32 else lba % 2 ^ 48
  if p.guard ≠ guard then some St.piGuard else if p.ref ≠ ref then some St.piReftag else none

/-- PI of every LBA of a write. [log 63: DEDUCED] -/
def piScan (fmt lba : Nat) (bytes : Data) (pi : List PiField) : Option Status :=
  pi.zipIdx.findSome? fun p => piCheck fmt (lba + p.2) ((bytes.drop (4096 * p.2)).take 4096) p.1

/-- The check that ends a data fetch: PI of what it brings of a write (R197), PAY_CRC of an append (R81 check 8). [log
62: DEDUCED] -/
def dataCheck (n : Ns) (c : Cmd) (bytes : Data) (pi : List PiField) : Option Status :=
  if c.e.opc = opWrite then (if n.f.pi = 0 then none else piScan n.f.pi (c.e.addr + c.bytes.length / 4096) bytes pi)
  else match c.hdr with
  | some h => if bitAt h.rflags 0 ∧ h.payCrc ≠ (crc32c (bytes.drop 32)).toNat then some St.recPayCrc else none
  | none => none

/-- The record of an append to a mirrored RNS goes to the replica once it is fetched and checked (R332). -/
def State.mirrorOut (s : State) (n : Ns) (c : Cmd) : State :=
  if c.e.opc = opAppend ∧ n.mirror = true then
    let r := s.nextRid n.f.mirrorNode
    (r.2.modZl fun z => { z with mirror :=
      (z.mirror.filter fun m => !(m.fn == c.fn && m.qid == c.qid && m.cid == c.e.cid)) ++
        [⟨r.1, c.fn, c.qid, c.e.cid, false⟩] }).sendRecord
      n.f.mirrorNode r.1 n.f.nsid (c.hdr.elim 0 (·.stream)) c.e.len
  else s

/-- Data of the command is still to be fetched: none of it yet, or the rest of a write (R54). [log 138: DESIGN CHOICE]
-/
def Cmd.toFetch (n : Ns) (c : Cmd) : Bool :=
  c.stage == .needData ||
    (c.stage == .waiting && c.e.opc == opWrite && !c.ended && decide (c.bytes.length < transferLen n c.e))

/-- A fetch of `len` bytes is one that the device makes: a record whole; of a write whole units of what is left, all
of it or as much as finds room (R54). [log 138: DESIGN CHOICE] -/
def Cmd.fetchOk (n : Ns) (c : Cmd) (len : Nat) : Bool :=
  if c.e.opc = opWrite then decide (0 < len) && len % 4096 == 0 && decide (c.bytes.length + len ≤ transferLen n c.e)
  else len == transferLen n c.e

/-- DATA_FETCH_DONE (R54, R81, R197): data of a command is in the ingress buffer, and its check values are right. [log
66: DEDUCED; 138: DESIGN CHOICE] -/
def execDataFetchDone (fn qid cid : Nat) (bytes : Data) (pi : List PiField) (s : State) : Res :=
  match s.q.cmds.find? (fun c => c.fn == fn && c.qid == qid && c.e.cid == cid) with
  | none => .next s
  | some c =>
    match s.store.ns? c.e.nsid with
    | none => .next s
    | some n =>
      if c.toFetch n = false ∨ c.fetchOk n bytes.length = false ∨
          pi.length ≠ (if piLen n = 0 then 0 else bytes.length / 4096) ∨
          s.ingressFits fn bytes.length (c.e.opc == opAppend) = false then .next s
      else match dataCheck n c bytes pi with
      | some st => .next (s.cutShort c st)
      | none => .next ((s.modCmd c.seq fun c => { c with
          stage := .waiting, bytes := c.bytes ++ bytes, pi := c.pi ++ pi }).mirrorOut n c)

/-- DMA_READ_ERROR (R348): a command's fetch that fails ends the command; that of an entry stops the
pair. -/
def execDmaReadError (t : DmaTarget) (s : State) : Res :=
  match t with
  | .command n qid cid =>
    match s.q.cmds.find? (fun c => c.fn == n && c.qid == qid && c.e.cid == cid &&
        (c.stage == .fetched || (s.store.ns? c.e.nsid).elim (c.stage == .needData) c.toFetch)) with
    | some c => .next (s.cutShort c St.fnDmaError)
    | none => .next s
  | .entry n qid => .next (s.stopPair n qid St.fnDmaError)

/-! ### Writes toward the host -/

/-- COMPLETION_WRITE_RELEASE (R343): held writes whose hold has ended are issued in order, and puts go
on. -/
def execCompletionWriteRelease (fn : Nat) (s : State) : Res :=
  if s.dmaHeld fn then .next s else .next (s.releaseHeld).runPuts

/-- MSIX_COALESCE_EXPIRY (R380): one message covers the entries written since. -/
def execMsixCoalesceExpiry (fn qid : Nat) (s : State) : Res :=
  match s.pair? fn qid with
  | some p =>
    if p.coalescing then
      .next ((s.modPair fn qid fun p => { p with coalescing := false }).msix fn p.vector)
    else .next s
  | none => .next s

/-! ### Timeouts (R386, R387) -/

/-- A command has expired: its TIMEOUT has passed, later by the ticks of a hold. -/
def State.expired (s : State) (c : Cmd) : Bool :=
  c.e.timeout != 0 && decide (c.tick + c.e.timeout + c.late ≤ s.hz.epoch)

/-- An exec's instance that waits for engines, or none. -/
def State.execState (s : State) (c : Cmd) : Option InstState := (s.inst? c.inst).map (·.st)

/-- What the timeout scan does to an expired command. -/
def State.expire (s : State) (c : Cmd) : State :=
  if c.e.opc = opExec ∧ c.stage = .execing then
    match s.execState c with
    | some .waitEngines => (s.endCmd c St.cmdTimeout 0).modAnv fun a => { a with insts := a.insts.filter fun i => i.id != c.inst }
    | some .starting | some .running => s.stopInst c.inst St.cmdTimeout
    | _ => s
  else if c.done = 0 ∧ c.partLeft then
    (s.endCmd c St.cmdTimeout 0).modAnv fun a => { a with insts := a.insts.filter fun i => i.id != c.inst || c.e.opc != opExec }
  else if c.partLeft then
    let c' : Cmd := { c with
      ended := true, left := 0, status := St.cmdTimeout,
      stage := if c.e.opc = opRead then .reading else .admitted }
    let s1 := s.modCmd c.seq fun _ => c'
    if c.e.opc = opRead then s1.finishRead c' else s1
  else s

/-- COMMAND_TIMEOUT_SCAN (R387): in the slack phase, with a comparator assigned. -/
def execCommandTimeoutScan (s : State) : Res :=
  if s.timerOn ∧ s.hz.ticking = true ∧ s.hz.phase = .slack then
    .next ((s.q.cmds.filter fun c => s.expired c).foldl
      (fun a c => if a.due c then a else a.expire c) s)
  else .next s

/-! ### Deletion -/

/-- A command of a pair being deleted: ended where no part of it is admitted (R369). -/
def State.dropUnstarted (s : State) (n qid : Nat) : State :=
  (s.q.cmds.filter fun c => c.fn == n && c.qid == qid && c.unstarted).foldl
    (fun a c => (a.endCmd c St.cmdAborted 0).modAnv fun v => { v with
      insts := v.insts.filter fun i => i.id != c.inst || c.e.opc != opExec }) s

/-- QUEUE_DELETE_DONE (R369): the last command of a DELETING pair has completed: the completion event, and
the pair and its global number go. -/
def execQueueDeleteDone (fn qid : Nat) (s : State) : Res :=
  match s.pair? fn qid with
  | some p =>
    if p.st = .deleting ∧ ¬ s.q.cmds.any (fun c => c.fn == fn && c.qid == qid) ∧ s.heldOf fn qid = 0 then
      let s1 := s.modQ fun q => { q with pairs := q.pairs.filter fun p => !(p.fn == fn && p.qid == qid) }
      .next ((s1.event 1 fn [fn] St.ok qid).endLong p.longId St.ok [])
    else .next s
  | none => .next s

/-! ### Mailbox commands (R395) -/

/-- A power of two from `lo` to `hi`. -/
def pow2In (v lo hi : Nat) : Bool :=
  decide (lo ≤ v) && decide (v ≤ hi) && (List.range 13).any fun i => v == 2 ^ i

/-- A pair as `fn.queue.create` makes it (R365): ACTIVE, its doorbells live from tick `live`. [log 64: DEDUCED] -/
def Pair.fresh (fn qid g depth vector sq cq live : Nat) : Pair :=
  { fn := fn, qid := qid, global := g, depth := depth, vector := vector, sqBase := sq, cqBase := cq,
    st := .active, liveFrom := live, sqTail := 0, sqHead := 0, cqHead := 0, cqTail := 0,
    phase := true, entries := [], coalescing := false, longId := 0 }

/-- FN_QUEUE_CREATE (R365, R395). [log 64: DEDUCED] -/
def execFnQueueCreate (fn : Nat) (req : MbReq) (s : State) : Res :=
  .next (s.mbRun Mb.fnQueueCreate fn req fun s =>
    let qid := fld req 0 16
    let d := fld req 16 16
    let sq := fldB req 8 8
    let cq := fldB req 16 8
    if (s.grantOf fn).qpairs ≤ qid ∨ (s.pair? fn qid).isSome then .refuse St.cmdQueue []
    else if ¬ pow2In d 16 4096 ∨ (s.grantOf fn).vectors ≤ fld req 32 16 ∨ fld req 48 16 ≠ 0 ∨
        fldB req 24 8 ≠ 0 ∨ sq % 4096 ≠ 0 ∨ cq % 4096 ≠ 0 then .refuse St.cmdField []
    else if ¬ s.dmaOk fn sq (64 * d) ∨ ¬ s.dmaOk fn cq (16 * d) then .refuse St.fnDmaWindow []
    else
      let g := ((List.range 1024).find? fun i => !s.q.pairs.any fun p => p.global == i).getD 0
      .basic [g] (s.modQ fun q => { q with
        pairs := q.pairs ++ [Pair.fresh fn qid g d (fld req 32 16) sq cq (s.hz.epoch + 1)] }))

/-- FN_QUEUE_DELETE (R369, R395). -/
def execFnQueueDelete (fn : Nat) (req : MbReq) (s : State) : Res :=
  .next (s.mbRun Mb.fnQueueDelete fn req fun s =>
    let qid := fld req 0 16
    match s.pair? fn qid with
    | none => .refuse St.cmdQueue []
    | some p =>
      if p.st = .deleting then .refuse St.cmdQueue []
      else s.long Mb.fnQueueDelete fn fun s' =>
        (s'.modPair fn qid fun p => { p with st := .deleting, longId := s.recs.nextLong }).dropUnstarted fn qid)

/-- The function that a field names, 0 for the issuer; none where it is UNCREATED or out of range. -/
def State.targetFn (s : State) (issuer field : Nat) : Option Nat :=
  let t := if field = 0 then issuer else field
  if t ≤ s.maxFn ∧ s.fnExists t then some t else none

/-- Code of R369 in the order of its table. -/
def PairState.code : PairState → Nat
  | .active => 0
  | .stopped => 1
  | .deleting => 2

/-- FN_QUEUE_STATUS (R395). -/
def execFnQueueStatus (fn : Nat) (req : MbReq) (s : State) : Res :=
  .next (s.mbRun Mb.fnQueueStatus fn req fun s =>
    match s.targetFn fn (fld req 16 16) with
    | none => .refuse St.fnNoFunction []
    | some t =>
      match s.pair? t (fld req 0 16) with
      | none => .refuse St.cmdQueue []
      | some p =>
        let cs := s.q.cmds.filter fun c => c.fn == t && c.qid == p.qid
        .basic [p.st.code, p.sqHead, p.sqTail, cs.length, (cs.filter fun c => !c.partLeft).length,
          (cs.filter fun c => c.partLeft).length, s.tagsHeld t] s)

/-- What an abort by function `n` finds (R385). Code 1 follows the completion of its target: at once, or, where the
target is a running instance, after ENDING. -/
def State.abortCmd (s : State) (n tag : Nat) (c : Cmd) : MbResult :=
  if c.e.opc = opExec ∧ c.stage = .execing then
    match s.execState c with
    | some .waitEngines =>
      .basic [1] ((s.endCmd c St.cmdAborted 0).modAnv fun a => { a with insts := a.insts.filter fun i => i.id != c.inst })
    | some .starting | some .running =>
      .later ((s.stopInst c.inst St.cmdAborted).modInst c.inst fun i => { i with abortBy := some (n, tag) })
    | _ => .basic [2] s
  else if c.unstarted then
    .basic [1] ((s.endCmd c St.cmdAborted 0).modAnv fun a => { a with
      insts := a.insts.filter fun i => i.id != c.inst || c.e.opc != opExec })
  else .basic [2] s

/-- FN_CMD_ABORT (R385, R395). -/
def execFnCmdAbort (fn : Nat) (req : MbReq) (s : State) : Res :=
  .next (s.mbRun Mb.fnCmdAbort fn req fun s =>
    match s.targetFn fn (fld req 32 16) with
    | none => .refuse St.fnNoFunction []
    | some t =>
      if (s.pair? t (fld req 0 16)).isNone then .refuse St.cmdQueue []
      else match s.cmd? t (fld req 0 16) (fld req 16 16) with
      | none => .basic [3] s
      | some c => s.abortCmd fn req.tag c)

/-- What a claim of resource `res` by `opcode` meets: the reply of R408 where another feature holds
it. -/
def State.conflict (s : State) (res opcode : Nat) : Option (List Nat) :=
  match s.accepted.claims.find? (fun c => c.res == res && c.opcode != opcode) with
  | some c => some [c.res, c.opcode, c.fn, 0]
  | none => none

/-- A feature moves to comparator `res`, 0 for none (R35, R408). -/
def State.moveClaim (s : State) (res opcode fn : Nat) : State :=
  s.record ([Ctrl.unclaim opcode] ++ if res = 0 then [] else [Ctrl.claim res opcode fn])

/-- FN_QUEUE_TIMER (R386, R395). -/
def execFnQueueTimer (fn : Nat) (req : MbReq) (s : State) : Res :=
  .next (s.mbRun Mb.fnQueueTimer fn req fun s =>
    let k := fld req 0 2
    match (if k = 0 then none else s.conflict k 0x020D) with
    | some vals => .refuse St.resourceConflict vals
    | none => .persist [] (s.moveClaim k 0x020D fn))

/-- FN_EVENT_CONFIGURE (R393, R395). [log 21: DEDUCED] -/
def execFnEventConfigure (fn : Nat) (req : MbReq) (s : State) : Res :=
  .next (s.mbRun Mb.fnEventConfigure fn req fun s =>
    let base := fldB req 0 8
    let n := fld req 64 16
    if ¬ pow2In n 64 4096 ∨ base % 4096 ≠ 0 ∨ fld req 80 48 ≠ 0 then .refuse St.cmdField []
    else if ¬ s.dmaOk fn base (16 * n) then .refuse St.fnDmaWindow []
    else .basic [] (s.modFn fn fun f => { f with
      evq := { f.evq with base := base, entries := n, head := 0, tail := 0, phase := true, overflow := 0 } }))

end Sys2Proof.Machine
end

