-- ==== Sys2Proof/Machine/Inflate.lean ====
section
/-!
DEFINITION. The decoders of the DEFLATE family (R228, R236): raw DEFLATE (RFC 1951), zlib (RFC 1950) and gzip (RFC 1952).
A decoder runs over the bits of a stream from its start and stops at the end of the stream, where the input or the room for
output runs out, or at an error.
-/

namespace Sys2Proof.Machine

open Sys2Proof

/-! ### What a decoder reports -/

/-- Why a decoder stops: at the end of the stream, for want of input, for want of room, or at an error of R236. -/
inductive Halt where
  | ended
  | hungry
  | full
  | bad (st : Status)
  deriving DecidableEq, Repr

/-- What a decoder has done: why it stopped, the bits of the stream it consumed, or the bit offset of the error, the output,
and the stream's own check so far (R232). -/
structure Decoded where
  halt  : Halt
  pos   : Nat
  out   : Data
  check : Nat
  deriving DecidableEq, Repr

/-- What a decoder is given: the most bytes it may produce, the largest window accepted in bytes, and the dictionary that the
job names, empty for none. -/
structure DecodeJob where
  limit  : Nat
  window : Nat
  dict   : Data

/-! ### Bits -/

/-- The bits of a byte, the least significant first. -/
def byteBits (b : Byte) : List Bool := (List.range 8).map fun i => b.getLsbD i

/-- The bits of a buffer in stream order. -/
def dataBits (d : Data) : List Bool := d.flatMap byteBits

/-- A number of `n` bits, least significant first, and what follows it. -/
def readBits : Nat → List Bool → Option (Nat × List Bool)
  | 0, bs => some (0, bs)
  | _ + 1, [] => none
  | n + 1, b :: bs => (readBits n bs).map fun r => (b.toNat + 2 * r.1, r.2)

/-- The stream from its next byte on: a whole number of bytes is left. -/
def toByte (bs : List Bool) : List Bool := bs.drop (bs.length % 8)

/-- Adler-32 (RFC 1950). -/
def adler32 (d : Data) : Nat :=
  let r := d.foldl (fun (x : Nat × Nat) b => let a := (x.1 + b.toNat) % 65521; (a, (x.2 + a) % 65521)) (1, 0)
  r.1 + 65536 * r.2

/-- CRC-32 of gzip (RFC 1952). -/
def crc32 (d : Data) : Nat := (crcR (0xEDB88320 : BitVec 32) d).toNat

/-! ### Prefix codes (RFC 1951) -/

/-- A canonical prefix code: how many codes have each length from 1 to 15, and the symbols in the order of their codes. -/
structure PrefixCode where
  counts : List Nat
  syms   : List Nat

/-- The code that a list of code lengths gives. -/
def prefixCode (lens : List Nat) : PrefixCode :=
  let all := lens.zipIdx
  { counts := (List.range 15).map fun l => lens.count (l + 1)
    syms := (List.range 15).flatMap fun l => (all.filter fun x => x.1 == l + 1).map (·.2) }

/-- The share of the code space that a code takes, in 32,768ths. -/
def PrefixCode.space (c : PrefixCode) : Nat := (c.counts.zipIdx.map fun x => x.1 * 2 ^ (14 - x.2)).sum

/-- A code neither over- nor under-subscribed; a lone code of one bit, and for distances no code at all, are complete too. -/
def PrefixCode.ok (c : PrefixCode) (mayBeEmpty : Bool) : Bool :=
  c.space == 32768 || (c.space == 16384 && c.syms.length == 1) || (mayBeEmpty && c.syms.isEmpty)

/-- What reading a code gives: a value and what follows it, a wish for more input, or bits that are no code. -/
inductive Got where
  | some (v : Nat) (rest : List Bool)
  | more
  | bad

/-- The symbol that the next bits spell: `code` less `first` is its place among the codes of a length. -/
def walkCode (syms : List Nat) : List Nat → Nat → Nat → Nat → List Bool → Got
  | [], _, _, _, _ => .bad
  | _ :: _, _, _, _, [] => .more
  | n :: ns, code, first, index, b :: bs =>
    let k := code + b.toNat
    if k < first + n then .some (syms.getD (index + (k - first)) 0) bs
    else walkCode syms ns (2 * k) (2 * (first + n)) (index + n) bs

/-- The next symbol of a code. -/
def PrefixCode.read (c : PrefixCode) (bs : List Bool) : Got := walkCode c.syms c.counts 0 0 0 bs

/-- The lengths of the fixed literal and length code. -/
def fixedLit : List Nat :=
  List.replicate 144 8 ++ List.replicate 112 9 ++ List.replicate 24 7 ++ List.replicate 8 8

/-- The first length and the extra bits of length symbols 257 to 285. -/
def lenBase : List (Nat × Nat) :=
  [(3, 0), (4, 0), (5, 0), (6, 0), (7, 0), (8, 0), (9, 0), (10, 0), (11, 1), (13, 1)] ++
  [(15, 1), (17, 1), (19, 2), (23, 2), (27, 2), (31, 2), (35, 3), (43, 3), (51, 3), (59, 3)] ++
  [(67, 4), (83, 4), (99, 4), (115, 4), (131, 5), (163, 5), (195, 5), (227, 5), (258, 0)]

/-- The first distance and the extra bits of distance symbols 0 to 29. -/
def distBase : List (Nat × Nat) :=
  (List.range 30).map fun k => if k < 4 then (k + 1, 0) else ((2 + k % 2) * 2 ^ (k / 2 - 1) + 1, k / 2 - 1)

/-! ### Blocks of DEFLATE -/

/-- Output under way: the bits left, the bytes of dictionary and output, the latest first, and how many are output. -/
structure Flow where
  bits : List Bool
  rev  : Data
  size : Nat

/-- `n` bytes copied from `dist` back. -/
def copyBack (dist : Nat) : Nat → Data → Data
  | 0, rev => rev
  | n + 1, rev => copyBack dist n (rev.getD (dist - 1) 0 :: rev)

/-- A match, as far as there is room for it. -/
def Flow.copy (f : Flow) (limit dist len : Nat) (rest : List Bool) : Flow :=
  let n := min len (limit - f.size)
  { bits := rest, rev := copyBack dist n f.rev, size := f.size + n }

/-- The symbols of a block up to its end. A distance beyond the window that the job accepts is reported as a window
too large. [log 164: DESIGN CHOICE] -/
def inflateSymbols (job : DecodeJob) (lit dist : PrefixCode) : Nat → Flow → Option Halt × Flow
  | 0, f => (some .hungry, f)
  | fuel + 1, f =>
    match lit.read f.bits with
    | .more => (some .hungry, f)
    | .bad => (some (.bad St.sqDecCode), f)
    | .some v rest =>
      if v < 256 then
        if job.limit ≤ f.size then (some .full, f)
        else inflateSymbols job lit dist fuel { bits := rest, rev := BitVec.ofNat 8 v :: f.rev, size := f.size + 1 }
      else if v = 256 then (none, { f with bits := rest })
      else if 285 < v then (some (.bad St.sqDecSymbol), f)
      else
        let lb := lenBase.getD (v - 257) (0, 0)
        match readBits lb.2 rest with
        | none => (some .hungry, f)
        | some (le, r1) =>
          match dist.read r1 with
          | .more => (some .hungry, f)
          | .bad => (some (.bad St.sqDecCode), f)
          | .some dv r2 =>
            if 29 < dv then (some (.bad St.sqDecSymbol), f)
            else
              let db := distBase.getD dv (0, 0)
              match readBits db.2 r2 with
              | none => (some .hungry, f)
              | some (de, r3) =>
                let len := lb.1 + le
                let d := db.1 + de
                if f.rev.length < d then (some (.bad St.sqDecDistance), f)
                else if job.window < d then (some (.bad St.sqDecWindow), f)
                else
                  let g := f.copy job.limit d len r3
                  if g.size < f.size + len then (some .full, g) else inflateSymbols job lit dist fuel g

/-- The bytes of a stored block, as far as input and room go. -/
def storedBytes (limit : Nat) : Nat → Flow → Option Halt × Flow
  | 0, f => (none, f)
  | n + 1, f =>
    match readBits 8 f.bits with
    | none => (some .hungry, f)
    | some (v, rest) =>
      if limit ≤ f.size then (some .full, f)
      else storedBytes limit n { bits := rest, rev := BitVec.ofNat 8 v :: f.rev, size := f.size + 1 }

/-- A stored block from its LEN on. -/
def inflateStored (job : DecodeJob) (f : Flow) : Option Halt × Flow :=
  let g := { f with bits := toByte f.bits }
  match readBits 32 g.bits with
  | none => (some .hungry, f)
  | some (v, rest) =>
    if v % 65536 + v / 65536 = 65535 then storedBytes job.limit (v % 65536) { g with bits := rest }
    else (some (.bad St.sqDecBlock), g)

/-- The code lengths of a dynamic block: 16 repeats the last, 17 and 18 give zeros (RFC 1951 3.2.7). -/
def readLens (c : PrefixCode) (n : Nat) : Nat → List Nat → List Bool → Except Halt (List Nat × List Bool)
  | 0, _, _ => .error (.bad St.sqDecCode)
  | fuel + 1, rev, bs =>
    if n ≤ rev.length then (if rev.length = n then .ok (rev.reverse, bs) else .error (.bad St.sqDecCode))
    else match c.read bs with
    | .more => .error .hungry
    | .bad => .error (.bad St.sqDecCode)
    | .some v rest =>
      if v < 16 then readLens c n fuel (v :: rev) rest
      else
        let w := if v = 16 then (2, 3) else if v = 17 then (3, 3) else (7, 11)
        match readBits w.1 rest with
        | none => .error .hungry
        | some (e, r1) =>
          if v = 16 then
            (match rev with
             | [] => .error (.bad St.sqDecCode)
             | x :: _ => readLens c n fuel (List.replicate (w.2 + e) x ++ rev) r1)
          else readLens c n fuel (List.replicate (w.2 + e) 0 ++ rev) r1

/-- The order of the lengths of the code length code. -/
def lensOrder : List Nat := [16, 17, 18, 0, 8, 7, 9, 6, 10, 5, 11, 4, 12, 3, 13, 2, 14, 1, 15]

/-- `k` lengths of 3 bits each. -/
def read3s : Nat → List Bool → Option (List Nat × List Bool)
  | 0, bs => some ([], bs)
  | k + 1, bs =>
    match readBits 3 bs with
    | none => none
    | some (v, rest) => (read3s k rest).map fun r => (v :: r.1, r.2)

/-- The two codes of a dynamic block. A code without an end of block, and more length symbols than the code has, are invalid.
-/
def dynamicCodes (bs : List Bool) : Except Halt (PrefixCode × PrefixCode × List Bool) :=
  match readBits 14 bs with
  | none => .error .hungry
  | some (h, r1) =>
    let nlit := h % 32 + 257
    let ndist := h / 32 % 32 + 1
    match read3s (h / 1024 + 4) r1 with
    | none => .error .hungry
    | some (ls, r2) =>
      let cl := prefixCode ((List.range 19).map fun s =>
        ((lensOrder.zip ls).find? fun x => x.1 == s).elim 0 (·.2))
      if cl.space ≠ 32768 ∨ 286 < nlit then .error (.bad St.sqDecCode)
      else match readLens cl (nlit + ndist) 321 [] r2 with
      | .error e => .error e
      | .ok (lens, r3) =>
        let lit := prefixCode (lens.take nlit)
        let dist := prefixCode (lens.drop nlit)
        if lit.ok false && dist.ok true && lens.getD 256 0 != 0 then .ok (lit, dist, r3)
        else .error (.bad St.sqDecCode)

/-- The blocks of a DEFLATE stream up to the final one. -/
def inflateBlocks (job : DecodeJob) : Nat → Flow → Halt × Flow
  | 0, f => (.hungry, f)
  | fuel + 1, f =>
    match readBits 3 f.bits with
    | none => (.hungry, f)
    | some (h, rest) =>
      let g := { f with bits := rest }
      let r : Option Halt × Flow :=
        if h / 2 = 0 then inflateStored job g
        else if h / 2 = 1 then
          inflateSymbols job (prefixCode fixedLit) (prefixCode (List.replicate 32 5)) (rest.length + 1) g
        else if h / 2 = 2 then
          match dynamicCodes rest with
          | .error e => (some e, f)
          | .ok (lit, dist, r3) => inflateSymbols job lit dist (r3.length + 1) { g with bits := r3 }
        else (some (.bad St.sqDecBlock), f)
      match r with
      | (some e, x) => (e, x)
      | (none, x) => if h % 2 = 1 then (.ended, x) else inflateBlocks job fuel x

/-! ### The three formats -/

/-- The output of a flow in order. -/
def Flow.output (f : Flow) : Data := (f.rev.take f.size).reverse

/-- What a flow has come to in a stream of `total` bits. -/
def Flow.report (f : Flow) (total : Nat) (h : Halt) (check : Data → Nat) : Decoded :=
  ⟨h, total - f.bits.length, f.output, check f.output⟩

/-- Raw DEFLATE. -/
def decodeRaw (job : DecodeJob) (src : Data) : Decoded :=
  let bits := dataBits src
  let r := inflateBlocks job (bits.length + 1) ⟨bits, [], 0⟩
  r.2.report bits.length r.1 fun _ => 0

/-- A header that was cut short or is wrong: nothing is output yet. -/
def stopAt (h : Halt) (pos : Nat) : Decoded := ⟨h, pos, [], 0⟩

/-- The blocks of a stream whose header ends at bit `at_`, and the trailer of `n` bytes that `judge` tests. -/
def decodeBody (job : DecodeJob) (bits : List Bool) (at_ n : Nat) (dict : Data) (check : Data → Nat)
    (judge : Data → Nat → Option Status) : Decoded :=
  let body := bits.drop at_
  let r := inflateBlocks job (body.length + 1) ⟨body, dict.reverse, 0⟩
  if r.1 = .ended then
    let g := { r.2 with bits := toByte r.2.bits }
    match readBits (8 * n) g.bits with
    | none => g.report bits.length .hungry check
    | some (v, rest) =>
      match judge g.output v with
      | some st => g.report bits.length (.bad st) check
      | none => { g with bits := rest }.report bits.length .ended check
  else r.2.report bits.length r.1 check

/-- zlib: CMF and FLG, a preset dictionary named by its Adler-32, the Adler-32 of the output. -/
def decodeZlib (job : DecodeJob) (src : Data) : Decoded :=
  let bits := dataBits src
  if src.length < 2 then stopAt .hungry bits.length
  else
    let cmf := natLE (src.take 1)
    let flg := natLE ((src.drop 1).take 1)
    let preset := flg / 32 % 2 == 1
    if cmf % 16 ≠ 8 ∨ 7 < cmf / 16 ∨ (256 * cmf + flg) % 31 ≠ 0 then stopAt (.bad St.sqDecHeader) 0
    else if job.window < 2 ^ (cmf / 16 + 8) then stopAt (.bad St.sqDecWindow) 0
    else if preset ∧ src.length < 6 then stopAt .hungry bits.length
    else if preset ∧ (job.dict = [] ∨ natBE ((src.drop 2).take 4) ≠ adler32 job.dict) then
      stopAt (.bad St.sqDecDict) 16
    else decodeBody job bits (if preset then 48 else 16) 4 (if preset then job.dict else []) adler32 fun out v =>
      if natBE (bytesLE 4 v) = adler32 out then none else some St.sqDecCheck

/-- The bytes of a zero-ended field and its zero, if the zero has come. -/
def zeroEnded (d : Data) : Option Nat := (d.findIdx? fun b => b == 0).map (· + 1)

/-- Bytes that the header of a gzip member takes, or none where it is cut short: the fixed part, FEXTRA, FNAME, FCOMMENT,
FHCRC (RFC 1952). -/
def gzipHeader (src : Data) (flg : Nat) : Option Nat :=
  let extra := fun (a : Nat) =>
    if flg / 4 % 2 = 0 then some a
    else if src.length < a + 2 then none else some (a + 2 + natLE ((src.drop a).take 2))
  let text := fun (bit a : Nat) => if flg / bit % 2 = 0 then some a else (zeroEnded (src.drop a)).map (a + ·)
  ((extra 10).bind fun a => (text 8 a).bind fun b => (text 16 b).map fun c =>
    if flg / 2 % 2 = 0 then c else c + 2).bind fun n => if src.length < n then none else some n

/-- gzip: its header with FHCRC verified, CRC-32 and ISIZE of the output. -/
def decodeGzip (job : DecodeJob) (src : Data) : Decoded :=
  let bits := dataBits src
  if src.length < 10 then stopAt .hungry bits.length
  else
    let flg := natLE ((src.drop 3).take 1)
    if natLE (src.take 3) ≠ 0x088B1F ∨ 32 ≤ flg then stopAt (.bad St.sqDecHeader) 0
    else match gzipHeader src flg with
    | none => stopAt .hungry bits.length
    | some n =>
      if flg / 2 % 2 = 1 ∧ natLE ((src.drop (n - 2)).take 2) ≠ crc32 (src.take (n - 2)) % 65536 then
        stopAt (.bad St.sqDecCheck) (8 * (n - 2))
      else decodeBody job bits (8 * n) 8 [] crc32 fun out v =>
        if v % 4294967296 ≠ crc32 out then some St.sqDecCheck
        else if v / 4294967296 ≠ out.length % 4294967296 then some St.sqDecSize
        else none

end Sys2Proof.Machine
end

