-- ==== Sys2Proof/Machine/Zstd.lean ====
section
/-!
DEFINITION. The Zstandard decoder (R228, R236): one frame of RFC 8878 after any skippable frames, with raw-content and
formatted dictionaries. What makes a block unreadable and is in no line of R236 is reported as a block error, and an error
inside a block at the bit offset of the block. [log 164: DESIGN CHOICE]
-/

namespace Sys2Proof.Machine

open Sys2Proof

/-! ### XXH64 -/

/-- The five primes of XXH64. -/
def xxP1 : BitVec 64 := 0x9E3779B185EBCA87
def xxP2 : BitVec 64 := 0xC2B2AE3D27D4EB4F
def xxP3 : BitVec 64 := 0x165667B19E3779F9
def xxP4 : BitVec 64 := 0x85EBCA77C2B2AE63
def xxP5 : BitVec 64 := 0x27D4EB2F165667C5

/-- A little-endian word of the input. -/
def word64 (d : Data) : BitVec 64 := BitVec.ofNat 64 (natLE d)

/-- One lane of 8 bytes taken into an accumulator. -/
def xxLane (acc x : BitVec 64) : BitVec 64 := (acc + x * xxP2).rotateLeft 31 * xxP1

/-- An accumulator merged into the hash. -/
def xxMerge (h acc : BitVec 64) : BitVec 64 := (h ^^^ xxLane 0 acc) * xxP1 + xxP4

/-- What is left after the stripes of 32 bytes: words of 8 bytes, one of 4, single bytes. -/
def xxTail : Nat → BitVec 64 → Data → BitVec 64
  | 0, h, _ => h
  | fuel + 1, h, d =>
    if 8 ≤ d.length then
      xxTail fuel ((h ^^^ xxLane 0 (word64 (d.take 8))).rotateLeft 27 * xxP1 + xxP4) (d.drop 8)
    else if 4 ≤ d.length then
      xxTail fuel ((h ^^^ word64 (d.take 4) * xxP1).rotateLeft 23 * xxP2 + xxP3) (d.drop 4)
    else match d with
    | [] => h
    | b :: r => xxTail fuel ((h ^^^ b.setWidth 64 * xxP5).rotateLeft 11 * xxP1) r

/-- XXH64 with seed 0. -/
def xxh64 (d : Data) : Nat :=
  let n := d.length / 32
  let acc := (chunksOf 32 n d).foldl (fun (v : List (BitVec 64)) s => v.zipIdx.map fun x =>
    xxLane x.1 (word64 ((s.drop (8 * x.2)).take 8))) [xxP1 + xxP2, xxP2, 0, 0 - xxP1]
  let lane := fun k => acc.getD k 0
  let h0 := if d.length < 32 then xxP5
    else acc.foldl xxMerge ((lane 0).rotateLeft 1 + (lane 1).rotateLeft 7 + (lane 2).rotateLeft 12 +
      (lane 3).rotateLeft 18)
  let h1 := xxTail (d.length + 1) (h0 + BitVec.ofNat 64 d.length) (d.drop (32 * n))
  let h2 := (h1 ^^^ (h1 >>> 33)) * xxP2
  let h3 := (h2 ^^^ (h2 >>> 29)) * xxP3
  (h3 ^^^ (h3 >>> 32)).toNat

/-! ### Bitstreams that are read from their end -/

/-- The bits of a bitstream from its last one on, without the padding and the mark before them. -/
def backBits (d : Data) : Option (List Bool) :=
  match ((dataBits d).reverse).dropWhile (· == false) with
  | [] => none
  | _ :: bs => if d.getLast? = some 0 then none else some bs

/-- A number of `n` bits, most significant first, and what follows it. -/
def backRead : Nat → Nat → List Bool → Option (Nat × List Bool)
  | 0, v, bs => some (v, bs)
  | _ + 1, _, [] => none
  | n + 1, v, b :: bs => backRead n (2 * v + b.toNat) bs

/-- The next `n` bits as a number, zeros beyond the end. -/
def backPeek : Nat → Nat → List Bool → Nat
  | 0, v, _ => v
  | n + 1, v, [] => backPeek n (2 * v) []
  | n + 1, v, b :: bs => backPeek n (2 * v + b.toNat) bs

/-! ### FSE tables (RFC 8878 4.1) -/

/-- A state of an FSE table: its symbol, the bits that lead to the next state, and what is added to them. -/
structure FseCell where
  sym  : Nat
  bits : Nat
  base : Nat

/-- An FSE table and its accuracy. -/
structure FseTable where
  log   : Nat
  cells : List FseCell

/-- The cell of a state. -/
def FseTable.cell (t : FseTable) (st : Nat) : FseCell := t.cells.getD st ⟨0, 0, 0⟩

/-- The table that always gives one symbol. -/
def fseOne (sym : Nat) : FseTable := ⟨0, [⟨sym, 0, 0⟩]⟩

/-- The cells in order: the n-th cell of a symbol starts from its count plus n. -/
def fseCells (log : Nat) : List Nat → (Nat → Nat) → List FseCell
  | [], _ => []
  | s :: ss, next =>
    let x := next s
    let b := log - Nat.log2 x
    ⟨s, b, x * 2 ^ b - 2 ^ log⟩ :: fseCells log ss fun t => if t = s then x + 1 else next t

/-- The table of normalised counts, where -1 stands for less than one. -/
def fseTable (log : Nat) (norm : List Int) : FseTable :=
  let size := 2 ^ log
  let least := (norm.zipIdx.filter fun x => x.1 == -1).map (·.2)
  let high := size - least.length
  let syms := norm.zipIdx.flatMap fun x => List.replicate x.1.toNat x.2
  let places := ((List.range size).map fun k => k * (size / 2 + size / 8 + 3) % size).filter fun p => decide (p < high)
  let at_ := places.zip syms
  let order := (List.range high).map (fun i => (at_.find? fun x => x.1 == i).elim 0 (·.2)) ++ least.reverse
  ⟨log, fseCells log order fun s => let c := norm.getD s 0; if c = -1 then 1 else c.toNat⟩

/-- Zero counts announced two bits at a time. -/
def fseZeros : Nat → Nat → List Bool → Option (Nat × List Bool)
  | 0, k, bs => some (k, bs)
  | fuel + 1, k, bs =>
    match readBits 2 bs with
    | none => none
    | some (v, r) => if v = 3 then fseZeros fuel (k + 3) r else some (k + v, r)

/-- Normalised counts as a table description gives them. -/
def fseCounts (most : Nat) : Nat → Nat → List Int → List Bool → Option (List Int × List Bool)
  | 0, _, _, _ => none
  | fuel + 1, left, rev, bs =>
    if left = 0 then some (rev.reverse, bs)
    else if most ≤ rev.length then none
    else
      let n := Nat.log2 (left + 1) + 1
      match readBits n bs with
      | none => none
      | some (v, r) =>
        let low := v % 2 ^ (n - 1)
        let spare := 2 ^ n - 1 - (left + 1)
        let short := decide (low < spare)
        let w := if short then low else if v = low then v else v - spare
        let r1 := if short then bs.drop (n - 1) else r
        let c : Int := (w : Int) - 1
        let used := if w = 0 then 1 else w - 1
        if left < used then none
        else if w = 1 then
          match fseZeros (bs.length + 1) 0 r1 with
          | none => none
          | some (z, r2) => fseCounts most fuel (left - used) (List.replicate (z + 1) 0 ++ rev) r2
        else fseCounts most fuel (left - used) (c :: rev) r1

/-- An FSE table description: the table, and the bytes after it. -/
def readFse (mostLog mostSym : Nat) (d : Data) : Option (FseTable × Data) :=
  let bits := dataBits d
  match readBits 4 bits with
  | none => none
  | some (a, r) =>
    let log := a + 5
    if mostLog < log then none
    else match fseCounts (mostSym + 1) (mostSym + 2) (2 ^ log) [] r with
    | none => none
    | some (norm, rest) =>
      if mostSym + 1 < norm.length then none
      else some (fseTable log norm, d.drop ((bits.length - rest.length + 7) / 8))

/-! ### Huffman codes of literals (RFC 8878 4.2) -/

/-- A literal code: the longest length, and the symbols with their weights from the longest code on. -/
structure LitCode where
  most : Nat
  syms : List (Nat × Nat)

/-- The code of weights, the last of which is what completes them. -/
def litCode (ws : List Nat) : Option LitCode :=
  let sum := (ws.map fun w => if w = 0 then 0 else 2 ^ (w - 1)).sum
  if sum = 0 then none
  else
    let most := Nat.log2 sum + 1
    let rest := 2 ^ most - sum
    if 11 < most ∨ rest ≠ 2 ^ Nat.log2 rest then none
    else
      let all := (ws ++ [Nat.log2 rest + 1]).zipIdx
      some ⟨most, (List.range most).flatMap fun w => (all.filter fun x => x.1 == w + 1).map fun x => (x.2, x.1)⟩

/-- The symbol whose share of the code space holds `v`. -/
def litAt : List (Nat × Nat) → Nat → Option (Nat × Nat)
  | [], _ => none
  | x :: xs, v => if v < 2 ^ (x.2 - 1) then some x else litAt xs (v - 2 ^ (x.2 - 1))

/-- `n` literals of a bitstream, which they use up. -/
def readLits (c : LitCode) : Nat → List Bool → Option Data
  | 0, bs => if bs.isEmpty then some [] else none
  | n + 1, bs =>
    match litAt c.syms (backPeek c.most 0 bs) with
    | none => none
    | some (s, w) =>
      let k := c.most + 1 - w
      if bs.length < k then none else (readLits c n (bs.drop k)).map (BitVec.ofNat 8 s :: ·)

/-- Weights that two states of an FSE table give in turn, until one cannot move on. -/
def fseWeights (t : FseTable) : Nat → Nat → Nat → List Bool → Option (List Nat)
  | 0, _, _, _ => none
  | fuel + 1, a, b, bs =>
    let x := t.cell a
    match backRead x.bits 0 bs with
    | none => some [x.sym, (t.cell b).sym]
    | some (v, r) => (fseWeights t fuel b (x.base + v) r).map (x.sym :: ·)

/-- A Huffman tree description: the code, and the bytes after it. -/
def readTree (d : Data) : Option (LitCode × Data) :=
  match d with
  | [] => none
  | h :: r =>
    let n := h.toNat
    if 128 ≤ n then
      let k := n - 127
      let by_ := r.take ((k + 1) / 2)
      if by_.length < (k + 1) / 2 then none
      else (litCode ((by_.flatMap fun b => [b.toNat / 16, b.toNat % 16]).take k)).map fun c => (c, r.drop ((k + 1) / 2))
    else if r.length < n then none
    else match readFse 6 11 (r.take n) with
    | none => none
    | some (t, s) =>
      match backBits s with
      | none => none
      | some bs =>
        match backRead t.log 0 bs with
        | none => none
        | some (a, r1) =>
          match backRead t.log 0 r1 with
          | none => none
          | some (b, r2) =>
            match fseWeights t 256 a b r2 with
            | none => none
            | some ws => (litCode ws).map fun c => (c, r.drop n)

/-! ### The literals of a block (RFC 8878 3.1.1.3.1) -/

/-- What a frame carries from block to block: the literal code, the three tables, the repeat offsets. -/
structure ZState where
  tree : Option LitCode
  ll   : Option FseTable
  off  : Option FseTable
  ml   : Option FseTable
  reps : Nat × Nat × Nat

/-- The four streams of a literals section, whose sizes a jump table gives. -/
def readLits4 (c : LitCode) (n : Nat) (d : Data) : Option Data :=
  let s1 := natLE (d.take 2)
  let s2 := natLE ((d.drop 2).take 2)
  let s3 := natLE ((d.drop 4).take 2)
  let r := d.drop 6
  let part := (n + 3) / 4
  if d.length < 6 + s1 + s2 + s3 ∨ n < 3 * part then none
  else
    let get := fun (k : Nat) (x : Data) => (backBits x).bind (readLits c k)
    (get part (r.take s1)).bind fun a => (get part ((r.drop s1).take s2)).bind fun b =>
      (get part ((r.drop (s1 + s2)).take s3)).bind fun e =>
        (get (n - 3 * part) (r.drop (s1 + s2 + s3))).map fun f => a ++ b ++ e ++ f

/-- The literals section: literals, what follows, and the literal code from now on. -/
def readLiterals (tree : Option LitCode) (d : Data) : Except Status (Data × Data × Option LitCode) :=
  let kind := natLE (d.take 1) % 4
  let sf := natLE (d.take 1) / 4 % 4
  if kind < 2 then
    let w := if sf % 2 = 0 then (1, 3) else if sf = 1 then (2, 4) else (3, 4)
    let n := natLE (d.take w.1) / 2 ^ w.2
    let r := d.drop w.1
    let need := if kind = 0 then n else 1
    if d.length < w.1 ∨ r.length < need then .error St.sqDecBlock
    else .ok ((if kind = 0 then r.take n else List.replicate n (r.getD 0 0)), r.drop need, tree)
  else
    let w := if sf < 2 then (3, 10) else if sf = 2 then (4, 14) else (5, 18)
    let h := natLE (d.take w.1) / 16
    let n := h % 2 ^ w.2
    let k := h / 2 ^ w.2
    let body := (d.drop w.1).take k
    if d.length < w.1 + k then .error St.sqDecBlock
    else
      let got := if kind = 2 then readTree body else tree.map fun c => (c, body)
      match got with
      | none => .error St.sqDecCode
      | some (c, s) =>
        match (if sf = 0 then (backBits s).bind (readLits c n) else readLits4 c n s) with
        | none => .error St.sqDecCode
        | some lits => .ok (lits, d.drop (w.1 + k), some c)

/-! ### The sequences of a block (RFC 8878 3.1.1.3.2) -/

/-- Predefined tables. -/
def llDefault : FseTable := fseTable 6
  ([4, 3, 2, 2, 2, 2, 2, 2, 2, 2, 2, 2, 2, 1, 1, 1, 2, 2] ++ [2, 2, 2, 2, 2, 2, 2, 3, 2, 1, 1, 1, 1, 1, -1, -1, -1, -1])
def offDefault : FseTable := fseTable 5
  ([1, 1, 1, 1, 1, 1, 2, 2, 2] ++ List.replicate 15 1 ++ List.replicate 5 (-1))
def mlDefault : FseTable := fseTable 6
  ([1, 4, 3, 2, 2, 2, 2, 2, 2] ++ List.replicate 37 1 ++ List.replicate 7 (-1))

/-- The first value and the extra bits of literal length codes 0 to 35. -/
def llCodes : List (Nat × Nat) :=
  (List.range 16).map (fun k => (k, 0)) ++
  [(16, 1), (18, 1), (20, 1), (22, 1), (24, 2), (28, 2), (32, 3), (40, 3), (48, 4), (64, 6)] ++
  (List.range 10).map fun k => (2 ^ (k + 7), k + 7)

/-- The first value and the extra bits of match length codes 0 to 52. -/
def mlCodes : List (Nat × Nat) :=
  (List.range 32).map (fun k => (k + 3, 0)) ++
  [(35, 1), (37, 1), (39, 1), (41, 1), (43, 2), (47, 2), (51, 3), (59, 3), (67, 4), (83, 4), (99, 5)] ++
  (List.range 10).map fun k => (2 ^ (k + 7) + 3, k + 7)

/-- The table that a mode names: predefined, one symbol, described, or the one of the block before. -/
def seqTable (mode mostLog mostSym : Nat) (dflt : FseTable) (last : Option FseTable) (d : Data) :
    Except Status (FseTable × Data) :=
  if mode = 0 then .ok (dflt, d)
  else if mode = 1 then
    match d with
    | [] => .error St.sqDecBlock
    | b :: r => if mostSym < b.toNat then .error St.sqDecSymbol else .ok (fseOne b.toNat, r)
  else if mode = 2 then
    match readFse mostLog mostSym d with
    | none => .error St.sqDecCode
    | some x => .ok x
  else match last with
  | none => .error St.sqDecCode
  | some t => .ok (t, d)

/-- One sequence: literals to copy, length of the match, offset value. -/
structure ZSeq where
  ll  : Nat
  ml  : Nat
  off : Nat

/-- The sequences of a bitstream, which they use up; the states move on after every one but the last. -/
def readSeqs (tl to_ tm : FseTable) : Nat → Nat → Nat → Nat → List Bool → Option (List ZSeq)
  | 0, _, _, _, bs => if bs.isEmpty then some [] else none
  | n + 1, a, b, c, bs =>
    let cl := tl.cell a
    let co := to_.cell b
    let cm := tm.cell c
    let lc := llCodes.getD cl.sym (0, 0)
    let mc := mlCodes.getD cm.sym (0, 0)
    (backRead co.sym 0 bs).bind fun x => (backRead mc.2 0 x.2).bind fun y => (backRead lc.2 0 y.2).bind fun z =>
      let q : ZSeq := ⟨lc.1 + z.1, mc.1 + y.1, 2 ^ co.sym + x.1⟩
      if n = 0 then (if z.2.isEmpty then some [q] else none)
      else (backRead cl.bits 0 z.2).bind fun u => (backRead cm.bits 0 u.2).bind fun v =>
        (backRead co.bits 0 v.2).bind fun w =>
          (readSeqs tl to_ tm n (cl.base + u.1) (co.base + w.1) (cm.base + v.1) w.2).map (q :: ·)

/-- How many sequences a block has, and the bytes after that number. -/
def seqCount (d : Data) : Option (Nat × Data) :=
  let b := fun k => (d.getD k 0).toNat
  if d.isEmpty then none
  else if b 0 < 128 then some (b 0, d.drop 1)
  else if b 0 < 255 then (if d.length < 2 then none else some (256 * (b 0 - 128) + b 1, d.drop 2))
  else if d.length < 3 then none
  else some (b 1 + 256 * b 2 + 0x7F00, d.drop 3)

/-- The sequences section: the sequences and the tables from now on. -/
def readSequences (z : ZState) (d : Data) : Except Status (List ZSeq × ZState) :=
  match seqCount d with
  | none => .error St.sqDecBlock
  | some (0, r) => if r.isEmpty then .ok ([], z) else .error St.sqDecBlock
  | some (n, []) => if n = 0 then .ok ([], z) else .error St.sqDecBlock
  | some (n, m :: r) =>
    let mode := fun k => m.toNat / 4 ^ k % 4
    if mode 0 ≠ 0 then .error St.sqDecBlock
    else match seqTable (mode 3) 9 35 llDefault z.ll r with
    | .error e => .error e
    | .ok (tl, r1) =>
      match seqTable (mode 2) 8 31 offDefault z.off r1 with
      | .error e => .error e
      | .ok (to_, r2) =>
        match seqTable (mode 1) 9 52 mlDefault z.ml r2 with
        | .error e => .error e
        | .ok (tm, r3) =>
          let got := (backBits r3).bind fun bs => (backRead tl.log 0 bs).bind fun a =>
            (backRead to_.log 0 a.2).bind fun b => (backRead tm.log 0 b.2).bind fun c =>
              readSeqs tl to_ tm n a.1 b.1 c.1 c.2
          match got with
          | none => .error St.sqDecBlock
          | some qs => .ok (qs, { z with ll := some tl, off := some to_, ml := some tm })

/-- The offset that a sequence means, 0 for an invalid one, and the repeat offsets after it. -/
def repeatOffset (reps : Nat × Nat × Nat) (q : ZSeq) : Nat × (Nat × Nat × Nat) :=
  let (a, b, c) := reps
  if 3 < q.off then (q.off - 3, (q.off - 3, a, b))
  else
    let k := if q.ll = 0 then q.off + 1 else q.off
    if k = 1 then (a, reps) else if k = 2 then (b, (b, a, c)) else if k = 3 then (c, (c, a, b))
    else (a - 1, (a - 1, a, b))

/-- Sequences carried out over the output, the latest byte first. -/
def runSeqs (most : Nat) : List ZSeq → Data → Data → Nat × Nat × Nat → Except (Status × Data) (Data × Nat × Nat × Nat)
  | [], lits, rev, reps => .ok (lits.reverse ++ rev, reps)
  | q :: qs, lits, rev, reps =>
    if lits.length < q.ll then .error (St.sqDecBlock, rev)
    else
      let rev1 := (lits.take q.ll).reverse ++ rev
      let r := repeatOffset reps q
      if r.1 = 0 ∨ rev1.length < r.1 then .error (St.sqDecDistance, rev1)
      else if most < rev1.length + q.ml then .error (St.sqDecBlock, rev1)
      else runSeqs most qs (lits.drop q.ll) (copyBack r.1 q.ml rev1) r.2

/-! ### Frames (RFC 8878 3.1) -/

/-- A compressed block over what the frame has output so far; `room` is the most it may add. -/
def zstdBlock (z : ZState) (d rev : Data) (room : Nat) : Except (Status × Data) (Data × ZState) :=
  match readLiterals z.tree d with
  | .error e => .error (e, rev)
  | .ok (lits, r, tree) =>
    match readSequences { z with tree := tree } r with
    | .error e => .error (e, rev)
    | .ok (qs, z1) =>
      match runSeqs (rev.length + room) qs lits rev z1.reps with
      | .error e => .error e
      | .ok (out, reps) =>
        if rev.length + room < out.length then .error (St.sqDecBlock, rev) else .ok (out, { z1 with reps := reps })

/-- The blocks of a frame: why they stop, the input left, and the output with the dictionary before it, the latest byte
first. `room` is the greatest size of a block, `most` the output that has room. -/
def zstdBlocks (room most : Nat) : Nat → ZState → Data → Data → Halt × Data × Data
  | 0, _, d, rev => (.hungry, d, rev)
  | fuel + 1, z, d, rev =>
    if d.length < 3 then (.hungry, d, rev)
    else
      let h := natLE (d.take 3)
      let kind := h / 2 % 4
      let n := h / 8
      let r := d.drop 3
      let take := if kind = 1 then 1 else n
      if kind = 3 ∨ room < n then (.bad St.sqDecBlock, d, rev)
      else if r.length < take then (.hungry, d, rev)
      else
        let got : Except (Status × Data) (Data × ZState) :=
          if kind = 0 then .ok ((r.take n).reverse ++ rev, z)
          else if kind = 1 then .ok (List.replicate n (r.getD 0 0) ++ rev, z)
          else zstdBlock z (r.take n) rev room
        match got with
        | .error e => (.bad e.1, d, e.2)
        | .ok (out, z1) =>
          if most < out.length then (.full, r.drop take, out)
          else if h % 2 = 1 then (.ended, r.drop take, out)
          else zstdBlocks room most fuel z1 (r.drop take) out

/-- A dictionary as a frame uses it: its ID, none for raw content, the tables, and the content. -/
structure ZDict where
  id      : Option Nat
  state   : ZState
  content : Data

/-- The state of a frame without a dictionary. -/
def zFresh : ZState := ⟨none, none, none, none, (1, 4, 8)⟩

/-- A dictionary: raw content, or formatted with a tag, an ID, tables and repeat offsets (RFC 8878 5). -/
def readDict (d : Data) : Option ZDict :=
  if natLE (d.take 4) ≠ 0xEC30A437 ∨ d.length < 8 then some ⟨none, zFresh, d⟩
  else
    (readTree (d.drop 8)).bind fun t => (readFse 8 31 t.2).bind fun o => (readFse 9 52 o.2).bind fun m =>
      (readFse 9 35 m.2).bind fun l =>
        if l.2.length < 12 then none
        else
          let rep := fun k => natLE ((l.2.drop (4 * k)).take 4)
          some ⟨some (natLE ((d.drop 4).take 4)), ⟨some t.1, some l.1, some o.1, some m.1, (rep 0, rep 1, rep 2)⟩,
            l.2.drop 12⟩

/-- Skippable frames dropped: what follows, or none where one is cut short. -/
def skipFrames : Nat → Data → Option Data
  | 0, d => some d
  | fuel + 1, d =>
    if natLE (d.take 4) / 16 = 0x184D2A5 ∧ 4 ≤ d.length then
      let n := 8 + natLE ((d.drop 4).take 4)
      if d.length < n ∨ d.length < 8 then none else skipFrames fuel (d.drop n)
    else some d

/-- A frame header (RFC 8878 3.1.1.1): its bytes, window, Dictionary_ID, content size and whether a checksum follows. -/
structure ZHeader where
  len    : Nat
  window : Nat
  dictId : Nat
  size   : Option Nat
  check  : Bool

/-- The header from its descriptor on, or none where it is cut short. -/
def zstdHeader (d : Data) : Option ZHeader :=
  match d with
  | [] => none
  | b :: r =>
    let f := b.toNat
    let single := f / 32 % 2 = 1
    let nw := if single then 0 else 1
    let nd := [0, 1, 2, 4].getD (f % 4) 0
    let ns := if f / 64 = 0 then (if single then 1 else 0) else 2 ^ (f / 64)
    let wb := natLE (r.take nw)
    let base := 2 ^ (10 + wb / 8)
    let cs := natLE ((r.drop (nw + nd)).take ns)
    let size := if f / 64 = 1 then cs + 256 else cs
    if r.length < nw + nd + ns then none
    else some ⟨1 + nw + nd + ns, if single then size else base + base / 8 * (wb % 8), natLE ((r.drop nw).take nd),
      if ns = 0 then none else some size, f / 4 % 2 == 1⟩

/-- The body of a frame: its blocks over a dictionary, then the size and checksum that the header announces. -/
def zstdBody (job : DecodeJob) (total : Nat) (h : ZHeader) (dict : ZDict) (d : Data) : Decoded :=
  let dl := dict.content.length
  let r := zstdBlocks (min h.window 131072) (job.limit + dl) (d.length + 1) dict.state d dict.content.reverse
  let whole := (r.2.2.take (r.2.2.length - dl)).reverse
  let out := whole.take job.limit
  let fmt := if h.check then xxh64 out else 0
  let stop := fun (e : Halt) (rest : Data) => (⟨e, 8 * (total - rest.length), out, fmt⟩ : Decoded)
  if r.1 = .ended then
    if h.size.elim false (fun n => n != whole.length) then stop (.bad St.sqDecSize) r.2.1
    else if h.check = false then stop .ended r.2.1
    else if r.2.1.length < 4 then stop .hungry r.2.1
    else if natLE (r.2.1.take 4) ≠ xxh64 whole % 4294967296 then stop (.bad St.sqDecCheck) r.2.1
    else stop .ended (r.2.1.drop 4)
  else stop r.1 r.2.1

/-- Zstandard: one frame. -/
def decodeZstd (job : DecodeJob) (src : Data) : Decoded :=
  let total := src.length
  match skipFrames total src with
  | none => stopAt .hungry (8 * total)
  | some d =>
    let at_ := 8 * (total - d.length)
    if d.length < 4 then stopAt .hungry (8 * total)
    else if natLE (d.take 4) ≠ 0xFD2FB528 then stopAt (.bad St.sqDecHeader) at_
    else match zstdHeader (d.drop 4) with
    | none => if 5 ≤ d.length ∧ natLE ((d.drop 4).take 1) / 8 % 2 = 1 then stopAt (.bad St.sqDecHeader) (at_ + 32)
        else stopAt .hungry (8 * total)
    | some h =>
      if natLE ((d.drop 4).take 1) / 8 % 2 = 1 then stopAt (.bad St.sqDecHeader) (at_ + 32)
      else if 8388608 < h.window ∨ job.window < h.window then stopAt (.bad St.sqDecWindow) (at_ + 32)
      else if h.dictId ≠ 0 ∧ job.dict = [] then stopAt (.bad St.sqDecDict) (at_ + 32)
      else match readDict job.dict with
      | none => stopAt (.bad St.sqDecDict) (at_ + 32)
      | some x =>
        if h.dictId ≠ 0 ∧ x.id.elim false (fun i => i != h.dictId) then stopAt (.bad St.sqDecDict) (at_ + 32)
        else zstdBody job total h x (d.drop (4 + h.len))

/-- The decoder of a format of R231. -/
def decodeFormat (format : Nat) (job : DecodeJob) (src : Data) : Decoded :=
  match format with
  | 0 => decodeRaw job src
  | 1 => decodeZlib job src
  | 2 => decodeGzip job src
  | _ => decodeZstd job src

end Sys2Proof.Machine
end

