-- ==== Sys2Proof/Machine/Squall.lean ====
section
/-!
DEFINITION. Squall (chapter 8): job descriptors and their checks (R229, R231, R233), what the two pipes make of a job (R228 to
R237), the share of pipe time of each function (R227), the start and end of a job, and the Squall mailbox commands.
-/

namespace Sys2Proof.Machine

open Sys2Proof

/-! ### Descriptors (R231) -/

/-- A descriptor of 64 bytes, field by field; `rsv` gathers its RSV bytes. -/
def sqDescOf (d : Data) : SqDesc :=
  { op := fileField d 0 1, format := fileField d 1 1, level := fileField d 2 1, flush := fileField d 3 1
    wlog := fileField d 4 1, flags := fileField d 5 1, src := fileField d 8 8, srcLen := fileField d 16 4
    dstLen := fileField d 20 4, dst := fileField d 24 8, state := fileField d 32 8, dict := fileField d 40 8
    dictLen := fileField d 48 4, expect := fileField d 52 4, tag := fileField d 56 4
    rsv := fileField d 6 2 + fileField d 60 4 }

/-- OP 1: compress. -/
def sqCompress (d : SqDesc) : Bool := d.op == 1

/-- The pipe that a job takes: 0 compress, 1 decompress. -/
def sqPipe (d : SqDesc) : Nat := if sqCompress d then 0 else 1

/-- Every field of a descriptor lies in its range and every RSV field is 0. -/
def sqInRange (d : SqDesc) : Bool :=
  d.rsv == 0 && (d.op == 1 || d.op == 2) && decide (d.format ≤ 3) && bitsAt d.flags 5 3 == 0 &&
    decide (d.srcLen ≤ 16777216) && (d.srcLen != 0 || d.flush == 2) &&
    decide (1 ≤ d.dstLen) && decide (d.dstLen ≤ 16777216) && decide (d.dictLen ≤ 1048576) &&
    (if sqCompress d then
      decide (d.level ≤ 12) && decide (d.flush ≤ 2) && d.dictLen == 0 &&
        (d.wlog == 0 || (if d.format = 3 then decide (10 ≤ d.wlog) && decide (d.wlog ≤ 23)
          else decide (9 ≤ d.wlog) && decide (d.wlog ≤ 15)))
     else d.level == 0 && (d.flush == 0 || d.flush == 2) && decide (d.wlog ≤ 23)) &&
    !(d.flush == 0 && d.state == 0)

/-- What a compress job may not ask for: a feature outside the subset of R229. -/
def sqUnsupportedJob (d : SqDesc) : Bool :=
  sqCompress d && (d.dict != 0 || (d.format != 3 && (bitAt d.flags 0 || bitAt d.flags 1)))

/-- The level of a compress job: its own, or the function's profile (R245). -/
def State.sqLevel (s : State) (n : Nat) (d : SqDesc) : Nat := if d.level = 0 then (s.fn? n).elim 3 (·.sqLevel) else d.level

/-- An expert value of a compress job: of the level that it names, or the function's (R230, R245, R246); `k` counts from the
window log. -/
def State.sqExpert (s : State) (n : Nat) (d : SqDesc) (k : Nat) : Nat :=
  if d.level = 0 then s.param (0x0810 + k) n else (sqLevels.getD (d.level - 1) []).getD k 0

/-- The window of a job in bytes: that of its level where WLOG is 0, at most 2^15 for the DEFLATE family; the largest that a
decompress job accepts (R230, R231). -/
def State.sqWindow (s : State) (n : Nat) (d : SqDesc) : Nat :=
  if sqCompress d then
    let w := if d.wlog = 0 then s.sqExpert n d 0 else d.wlog
    2 ^ (if d.format = 3 then w else min w 15)
  else if d.wlog = 0 then 8388608 else 2 ^ d.wlog

/-- Every buffer lies in module data memory or the scratchpad (R231, R279). -/
def State.sqAddrsOk (s : State) (n : Nat) (d : SqDesc) : Bool :=
  (d.srcLen == 0 || s.writable n d.src d.srcLen) && s.writable n d.dst d.dstLen &&
    (d.state == 0 || s.writable n d.state (4096 + s.sqWindow n d)) &&
    (d.dict == 0 || s.writable n d.dict d.dictLen)

/-- The scratchpad that an address of a job of engine `e` means: the engine plus 1; 0 for module data memory. [log 83:
DEDUCED] -/
def spotOf (e a : Nat) : Nat := if a < imageBase then e + 1 else 0

/-- OP and FORMAT that a state area holds in its first two bytes, 0 and 0 where it is zeroed. [log 80: DESIGN CHOICE]
-/
def State.areaMark (s : State) (n e a : Nat) : Nat × Nat :=
  let b := s.modRead n e a 2
  ((b.getD 0 0).toNat, (b.getD 1 0).toNat)

/-- The stream that a job continues: the one of its state area, where that is not zeroed (R231). -/
def State.sqArea (s : State) (n e : Nat) (d : SqDesc) : Option SqArea :=
  if d.state = 0 ∨ s.areaMark n e d.state ≠ (d.op, d.format) then none
  else s.sq.states.find? fun x => x.fn == n && x.spot == spotOf e d.state && x.addr == d.state

/-- The checks of a job at its submission: grant, fields, addresses, features, state area. [log 80: DESIGN CHOICE] -/
def State.sqCheck (s : State) (n e : Nat) (d : SqDesc) : Option Status :=
  if (s.grantOf n).squall = 0 then some St.sqNoGrant
  else if ¬ sqInRange d then some St.sqDesc
  else if ¬ s.sqAddrsOk n d then some St.sqAddr
  else if sqUnsupportedJob d then some St.sqUnsupported
  else if sqCompress d ∧ bitAt d.flags 1 ∧ (d.flush ≠ 2 ∨ (s.sqArea n e d).isSome) then some St.sqDesc
  else if d.state ≠ 0 ∧ s.sq.jobs.any (fun j =>
      j.fn == n && j.desc.state == d.state && spotOf j.from_ j.desc.state == spotOf e d.state) then some St.sqStateBusy
  else if d.state ≠ 0 ∧ s.areaMark n e d.state ≠ (0, 0) ∧ s.areaMark n e d.state ≠ (d.op, d.format) then some St.sqDesc
  else none

/-! ### What the decompress pipe makes of a job (R228, R233, R234, R236) -/

/-- The end of a job: its outcome, the bytes written, and what its stream has come to (source and output so far). -/
structure SqDone where
  out  : SqOutcome
  data : Data
  src  : Data
  dst  : Data

/-- A decompress job over the stream's source so far: it ends at the end of the stream, at its end of input, where the
destination is full, or at an error. What is left unconsumed at an error counts as not consumed. [log 164: DESIGN
CHOICE] -/
def sqDecode (d : SqDesc) (window : Nat) (dict : Data) (area : Option SqArea) (src : Data) : SqDone :=
  let before := area.elim [] (·.src)
  let made := area.elim 0 (·.dst.length)
  let all := before ++ src
  let r := decodeFormat d.format ⟨made + d.dstLen, window, dict⟩ all
  let data := r.out.drop made
  let upTo := max before.length (min all.length (if r.halt = .hungry then all.length else (r.pos + 7) / 8))
  let st : Status := match r.halt with
    | .ended => St.ok
    | .hungry => if d.flush = 2 then St.sqDecTruncated else St.ok
    | .full => St.sqDstFull
    | .bad e => e
  let bad := match r.halt with | .bad _ => true | .hungry => d.flush == 2 | _ => false
  { out := { status := st, noShrink := false, ended := r.halt == .ended
             stateOk := d.state != 0 && !bad && r.halt != .ended
             consumed := upTo - before.length, produced := data.length
             crcIn := (crc32c (src.take (upTo - before.length))).toNat, crcOut := (crc32c data).toNat
             fmtCheck := if bad then r.pos else r.check }
    data := data, src := all.take upTo, dst := r.out }

/-! ### What the compress pipe makes of a job (R229, R233 to R235) -/

/-- The header that a stream starts with (R229). -/
def sqHeader (d : SqDesc) (level window : Nat) : Data :=
  if d.format = 0 then []
  else if d.format = 1 then
    let cmf := 8 + 16 * (Nat.log2 window - 8)
    let fl := (if level = 1 then 0 else if level ≤ 5 then 1 else if level = 6 then 2 else 3) * 64
    [BitVec.ofNat 8 cmf, BitVec.ofNat 8 (fl + (31 - (256 * cmf + fl) % 31) % 31)]
  else if d.format = 2 then
    [0x1F, 0x8B, 8, 0, 0, 0, 0, 0, if level = 1 then 4 else if 9 ≤ level then 2 else 0, 0xFF]
  else
    let n := d.srcLen
    let sized := bitAt d.flags 1
    let single := sized && decide (n ≤ window)
    let code := if sized = false then 0 else if single && decide (n < 256) then 0 else if decide (256 ≤ n) && decide (n < 65792)
      then 1 else 2
    bytesLE 4 0xFD2FB528 ++ [BitVec.ofNat 8 (64 * code + 32 * b2n single + 4 * b2n (bitAt d.flags 0))] ++
      (if single then [] else [BitVec.ofNat 8 (8 * (Nat.log2 window - 10))]) ++
      (if sized = false then [] else if code = 0 then bytesLE 1 n else if code = 1 then bytesLE 2 (n - 256) else bytesLE 4 n)

/-- The stream's own check over its content (R232, R233). -/
def sqOwnCheck (d : SqDesc) (content : Data) : Nat :=
  match d.format with
  | 0 => 0
  | 1 => adler32 content
  | 2 => crc32 content
  | _ => if bitAt d.flags 0 then xxh64 content else 0

/-- The trailer that ends a stream (R229, R233). -/
def sqTrailer (d : SqDesc) (content : Data) : Data :=
  match d.format with
  | 0 => []
  | 1 => bytesBE 4 (adler32 content)
  | 2 => bytesLE 4 (crc32 content) ++ bytesLE 4 content.length
  | _ => if bitAt d.flags 0 then bytesLE 4 (xxh64 content) else []

/-- Stored blocks of DEFLATE, the last of them final where the stream ends, else an empty one after them (R233, R235). -/
def storedDeflate (final : Bool) (d : Data) : Data :=
  let cs := chunksOf 65535 (d.length / 65535 + 1) d
  let blk := fun (last : Bool) (c : Data) => BitVec.ofNat 8 (b2n last) :: (bytesLE 2 c.length ++ bytesLE 2 (65535 - c.length) ++ c)
  if final then
    (if cs.isEmpty then blk true [] else cs.zipIdx.flatMap fun x => blk (x.2 + 1 == cs.length) x.1)
  else cs.flatMap (blk false) ++ blk false []

/-- Raw blocks of Zstandard. -/
def storedZstd (final : Bool) (room : Nat) (d : Data) : Data :=
  let cs := chunksOf (max 1 room) (d.length / max 1 room + 1) d
  let blk := fun (last : Bool) (c : Data) => bytesLE 3 (b2n last + 8 * c.length) ++ c
  if final && cs.isEmpty then blk true [] else cs.zipIdx.flatMap fun x => blk (final && x.2 + 1 == cs.length) x.1

/-- The stored form of a whole job without a state area (R235). -/
def sqStored (d : SqDesc) (level window : Nat) (input : Data) : Data :=
  let final := d.flush == 2
  sqHeader d level window ++
    (if d.format = 3 then storedZstd final (min window 131072) input else storedDeflate final input) ++
    (if final then sqTrailer d input else [])

/-- The most by which stored blocks exceed `n` bytes of input, with header and trailer (R235). -/
def storedExcess (d : SqDesc) (n : Nat) : Nat :=
  (if d.format = 3 then 3 * (n / 131072 + 1) else 5 * (n / 65535 + 2)) + 18

/-- A compress job whose pipe wrote `enc` for `taken` source bytes: an encoding of the stream so far that decodes to
it, whole where the job ends the stream or a block, else but for what the state area holds. Output no smaller than its
input sets NO_SHRINK, and with STORE_IF_LARGER it is the stored form. None for a report that no pipe makes of the job.
[log 16: DESIGN CHOICE] -/
def sqEncode (d : SqDesc) (level window target : Nat) (area : Option SqArea) (src : Data) (r : SqReport) : Option SqDone :=
  let content := area.elim [] (·.src) ++ src.take r.taken
  let made := area.elim [] (·.dst) ++ r.enc
  let got := decodeFormat d.format ⟨content.length, window, []⟩ made
  let left := content.length - got.out.length
  let slack := if d.format = 3 then 0 else 7 * 258
  let whole := r.taken == src.length && (match d.flush with
    | 0 => got.halt == .hungry && decide (left ≤ 1024 * target + slack)
    | 1 => got.halt == .hungry && left == 0
    | _ => got.halt == .ended && left == 0)
  let full := got.halt == .hungry && decide (left ≤ slack)
  let noShrink := decide (r.taken ≤ r.enc.length)
  let store := noShrink && bitAt d.flags 2
  if got.out == content.take got.out.length && decide (r.taken ≤ src.length) && decide (r.enc.length ≤ d.dstLen) &&
      (sqHeader d level window).isPrefixOf (made ++ List.replicate 18 0) && (whole || full) &&
      (!store || (decide (r.enc.length ≤ r.taken + storedExcess d r.taken) &&
        (d.state != 0 || !whole || r.enc == sqStored d level window src)))
  then some
    { out := { status := if whole then St.ok else St.sqDstFull, noShrink := noShrink, ended := got.halt == .ended
               stateOk := d.state != 0 && got.halt != .ended
               consumed := r.taken, produced := r.enc.length
               crcIn := (crc32c (src.take r.taken)).toNat, crcOut := (crc32c r.enc).toNat
               fmtCheck := sqOwnCheck d content }
      data := r.enc, src := content, dst := made }
  else none

/-! ### Completion records (R232) -/

/-- RFLAGS of an outcome. -/
def sqRflags (o : SqOutcome) : Nat := b2n o.noShrink + 2 * b2n o.ended + 4 * b2n o.stateOk

/-- Bytes 0 to 7 of a completion record: the value of the Squall token (R274). -/
def sqToken (st : Status) (rflags tag : Nat) : Nat :=
  st.toNat + 65536 * rflags + 4294967296 * (tag % 4294967296)

/-- The 32 bytes of a completion record. -/
def sqRecordBytes (tag : Nat) (o : SqOutcome) : Data :=
  bytesLE 8 (sqToken o.status (sqRflags o) tag) ++ bytesLE 4 o.consumed ++ bytesLE 4 o.produced ++ bytesLE 4 o.crcIn ++
    bytesLE 4 o.crcOut ++ bytesLE 8 o.fmtCheck

/-- A job that ends without running: nothing consumed, nothing produced. -/
def sqRefused (st : Status) : SqOutcome :=
  { status := st, noShrink := false, ended := false, stateOk := false, consumed := 0, produced := 0,
    crcIn := 0, crcOut := 0, fmtCheck := 0 }

/-- A format check of R236. -/
def decodeError (st : Status) : Bool := decide (0x0606 ≤ st.toNat) && decide (st.toNat ≤ 0x060F)

/-- The status of a job that ran: a format error first, then EXPECT (R237). [log 81: DEDUCED] -/
def sqFinal (d : SqDesc) (o : SqOutcome) : Status :=
  if decodeError o.status then o.status
  else if bitAt d.flags 3 ∧ (if bitAt d.flags 4 then o.crcOut else o.crcIn) ≠ d.expect then St.sqExpect
  else o.status

/-- A completion record written where the job asks for it, and its token produced (R232, R274). [log 83: DEDUCED] -/
def State.sqRecord (s : State) (n e record tid slot tag : Nat) (o : SqOutcome) : State :=
  ((s.modSq fun q => { q with jobsDone := bump q.jobsDone (65536 * n + o.status.toNat) 1 }).modWrite n e record
    (sqRecordBytes tag o)).produce tid slot ⟨sqToken o.status (sqRflags o) tag, o.status, srcSquall, none⟩

/-! ### Pipe time (R227) -/

/-- A function's time per tick and pipe in ns: its grant in sixteenths of one engine. -/
def State.sqShare (s : State) (n : Nat) : Int := ((s.grantOf n).squall * (1000 * s.periodUs) / 16 : Nat)

/-- Time left to function `n` on a pipe in this tick. -/
def State.sqLeft (s : State) (n pipe : Nat) : Int :=
  match s.sq.time.find? (fun x => x.1 == 2 * n + pipe) with
  | some x => x.2
  | none => s.sqShare n

/-- Time of a new tick: each function's share less the excess it still owes. [log 82: DEDUCED] -/
def State.sqRefill (s : State) : State :=
  s.modSq fun q => { q with time := q.time.map fun x => (x.1, s.sqShare (x.1 / 2) + min 0 x.2) }

/-- The functions with a job queued for a pipe that still hold time. [log 82: DEDUCED] -/
def State.sqReady (s : State) (pipe : Nat) : List Nat :=
  ((s.sq.jobs.filter fun j => j.engine == none && sqPipe j.desc == pipe).map (·.fn)).eraseDups.filter
    fun n => decide (0 < s.sqLeft n pipe)

/-- Working memory of a job: twice its window to compress, its window to decompress (R226). -/
def State.sqMemory (s : State) (j : SqJob) : Nat := (if sqCompress j.desc then 2 else 1) * s.sqWindow j.fn j.desc

/-- The job that starts on an engine needs more than is left of its 1 MiB: a spill (R226). -/
def State.spill (s : State) (engine : Nat) : State :=
  let need := sumBy s.sqMemory (s.sq.jobs.filter fun j => j.engine == some engine)
  if 1048576 < need then s.modSq fun q => { q with spills := bump q.spills engine 1 } else s

/-- SQ_JOB_START (R226, R227): a free pipe takes the oldest queued job of the function whose turn it is; the function
then stands last. [log 82: DEDUCED] -/
def execSqJobStart (engine pipe : Nat) (s : State) : Res :=
  if 8 ≤ engine ∨ 2 ≤ pipe ∨ s.sq.jobs.any (fun j => j.engine == some engine && sqPipe j.desc == pipe) then
    .next s
  else
    let ready := s.sqReady pipe
    let turn := (s.sq.time.map (·.1 / 2)).eraseDups
    let fresh := ready.find? fun n => !turn.contains n
    match fresh.or (turn.find? fun n => ready.contains n) with
    | none => .next s
    | some n =>
      let i := s.sq.jobs.findIdx fun j => j.fn == n && j.engine == none && sqPipe j.desc == pipe
      .next ((s.modSq fun q => { q with
        jobs := updAt q.jobs i fun j => { j with engine := some engine }
        time := (q.time.filter fun x => x.1 / 2 != n) ++
          [(2 * n, s.sqLeft n 0), (2 * n + 1, s.sqLeft n 1)] }).spill engine)

/-- What a pipe makes of a job; none for a report that it cannot make. -/
def State.sqRun (s : State) (j : SqJob) (r : SqReport) : Option SqDone :=
  let d := j.desc
  let src := s.modRead j.fn j.from_ d.src d.srcLen
  let area := s.sqArea j.fn j.from_ d
  if sqCompress d then
    sqEncode d (s.sqLevel j.fn d) (s.sqWindow j.fn d) (s.sqExpert j.fn d 4) area src r
  else some (sqDecode d (s.sqWindow j.fn d) (if d.dict = 0 then [] else s.modRead j.fn j.from_ d.dict d.dictLen) area src)

/-- What a job writes: its output, and into its state area, which goes with a stream that cannot be continued. -/
def State.sqWrite (s : State) (j : SqJob) (r : SqDone) : State :=
  let d := j.desc
  let s1 := s.modWrite j.fn j.from_ d.dst r.data
  if d.state = 0 then s1
  else
    let rest := s1.sq.states.filter fun x =>
      !(x.fn == j.fn && x.spot == spotOf j.from_ d.state && x.addr == d.state)
    let s2 := s1.modWrite j.fn j.from_ d.state [BitVec.ofNat 8 d.op, BitVec.ofNat 8 d.format]
    s2.modSq fun q => { q with
      states := if r.out.stateOk then rest ++ [⟨j.fn, spotOf j.from_ d.state, d.state, d.op, d.format, r.src, r.dst⟩]
        else rest }

/-- The job of a pipe ends: its time is charged; one that was stopped leaves no output. -/
def State.sqEnd (s : State) (j : SqJob) (pipe usedTime : Nat) : State :=
  s.modSq fun q => { q with
    jobs := q.jobs.erase j
    time := q.time.map fun x => if x.1 = 2 * j.fn + pipe then (x.1, x.2 - usedTime) else x }

/-- SQ_JOB_COMPLETE (R228, R232 to R237, R286): output, state area, completion record and token; the record carries
what the job came to (R237). A report that no pipe makes of the job changes nothing. [log 2, 16, 125: DESIGN CHOICE]
-/
def execSqJobComplete (engine pipe : Nat) (out : SqReport) (s : State) : Res :=
  match s.sq.jobs.find? (fun j => j.engine == some engine && sqPipe j.desc == pipe) with
  | none => .next s
  | some j =>
    let s1 := s.sqEnd j pipe out.usedTime
    if j.stopping then .next s1
    else match s.sqRun j out with
    | none => .next s
    | some r =>
      .next (((s1.sqWrite j r).sqRecord j.fn j.from_ j.record j.tid j.slot j.desc.tag
        { r.out with status := sqFinal j.desc r.out }).idleCheck j.inst)

/-! ### Mailbox commands (R247) -/

/-- An open value that a reply reports beside those that the model holds. [log 4: DESIGN CHOICE] -/
def State.openVal (s : State) : Nat × State := (s.free.1.toNat, s.free.2)

/-- A volatile setting that takes effect at the next tick (R27). -/
def State.setLater (s : State) (id target value : Nat) : State :=
  s.modRecs fun r => { r with pendParams := r.pendParams ++ [(s.hz.epoch + 1, ⟨id, target, value⟩)] }

/-- SQ_PROFILE (R26, R27, R245, R247). -/
def execSqProfile (fn : Nat) (req : MbReq) (s : State) : Res :=
  .next (s.mbRun Mb.sqProfile fn req fun s =>
    let t := if fld req 8 8 = 0 then fn else fld req 8 8
    if ¬ s.fnExists t then .refuse St.fnNoFunction []
    else .basic [] (s.setLater 0x0801 t (fld req 0 4)))

/-- SQ_STATUS (R247): the spills of each engine, the ingest counts, and per function its grant, time left and jobs by
status; the busy shares of the engines are open. [log 53: DESIGN CHOICE] -/
def execSqStatus (fn : Nat) (req : MbReq) (s : State) : Res :=
  .next (s.mbRun Mb.sqStatus fn req fun s =>
    let (v, s1) := s.openVal
    .basic (v :: (List.range 8).map (assoc s.sq.spills) ++ [s.sq.compressed, s.sq.asAdmitted, s.sq.atBoundary, s.sq.verifyFails] ++
      s.fns.flatMap (fun f => [f.num, f.grant.squall, (s.sqLeft f.num 0).toNat, (s.sqLeft f.num 1).toNat,
        (s.sq.jobs.filter fun j => j.fn == f.num).length]) ++
      s.sq.jobsDone.flatMap fun x => [x.1, x.2]) s1)

end Sys2Proof.Machine
end

