-- ==== Sys2Proof/Machine/Halo.lean ====
section
/-!
DEFINITION. Halo (chapter 7): class words (R205, R211), tables and their update steps (R214 to R219),
compaction, the classification search (R203 to R207), and the Halo mailbox commands (R224).
-/

namespace Sys2Proof.Machine

open Sys2Proof

/-! ### Class words (R205, R207, R211) -/

/-- A class word keeps the layout of R205. -/
def wordOk (w : BitVec 32) : Bool :=
  bitsAt w.toNat 9 3 == 0 && bitsAt w.toNat 5 3 == 0 && decide (wordLevel w ≤ 12) &&
    (wordIdx w || wordStream w == 0)

/-- The classification table, where PF0 has created one. -/
def State.classTable (s : State) : Option HaloTable := s.halo.tables.find? (·.classify)

/-- A stream that a valid classification entry names as its index stream (R207). -/
def State.indexBound (s : State) (num : Nat) : Bool :=
  s.classTable.elim false fun t => t.entries.any fun e => e.valid && wordIdx e.word && wordStream e.word == num

/-- A classification entry with IDX 1 breaks R211. -/
def State.breaksIndex (s : State) (value mask : BitVec 128) (w : BitVec 32) : Bool :=
  let nsid := bitsAt value.toNat 72 16
  let istr := wordStream w
  let ins := s.store.ns? (s.streamNs istr)
  wordIdx w &&
    (bitsAt mask.toNat 72 16 != 65535 || !(s.store.ns? nsid).elim false Ns.isStream ||
      !(s.streamOpen (s.streamNs istr) istr) || !ins.elim false Ns.isSns ||
      (ins.elim false Ns.ring != (s.store.ns? nsid).elim false Ns.ring) ||
      (bitsAt mask.toNat 0 12 == 4095 && bitsAt value.toNat 0 12 == istr))

/-! ### Slots and steps (R214, R218) -/

/-- Slots of a table of n banks. [log 75: DEDUCED] -/
def HaloTable.size (t : HaloTable) : Nat := 8192 * t.banks

/-- An entry put in its slot; what stood there goes. -/
def HaloTable.put (t : HaloTable) (e : HaloEntry) : HaloTable :=
  { t with entries := insertOn (·.slot) e (t.entries.filter fun x => x.slot != e.slot) }

/-- One update step. -/
def HaloTable.apply (t : HaloTable) : HaloStep → HaloTable
  | .write e => t.put { e with valid := false }
  | .copy a b =>
    match t.entries.find? (fun x => x.slot == a) with
    | some e => t.put { e with slot := b, valid := false }
    | none => t
  | .validate a => { t with entries := updIf (fun x => x.slot == a) (fun x => { x with valid := true }) t.entries }
  | .invalidate a => { t with entries := t.entries.filter fun x => x.slot != a }

/-- The steps of a move from slot a to hole b. -/
def moveSteps (ab : Nat × Nat) : List HaloStep := [.copy ab.1 ab.2, .validate ab.2, .invalidate ab.1]

/-- The reply that follows a table's last step, where its request still waits for it. -/
def State.tableReply (s : State) (t : HaloTable) : State :=
  match t.reply with
  | none => s
  | some (n, op, tag, vals) =>
    (s.modTable t.id fun x => { x with reply := none }).laterReply n op tag vals

/-- The first waiting step of a table takes effect. -/
def State.stepTable (s : State) (t : HaloTable) : State :=
  match t.steps with
  | [] => s
  | x :: xs =>
    let t1 := { t.apply x with steps := xs }
    let s1 := s.modTable t.id fun _ => t1
    if xs = [] then s1.tableReply t1 else s1

/-- Every waiting step of a table takes effect: Sutas firmware performs the steps of one table one after
another before it begins the next change. -/
def State.settleTable (s : State) (id : Nat) : State :=
  match s.table? id with
  | some t =>
    if t.compacting then s
    else
      let t1 := { t.steps.foldl HaloTable.apply t with steps := [] }
      (s.modTable id fun _ => t1).tableReply t1
  | none => s

/-- HALO_UPDATE_STEP (R218). -/
def execHaloUpdateStep (table : Nat) (s : State) : Res :=
  match s.table? table with
  | some t => .next (s.stepTable t)
  | none => .next s

/-- HALO_COMPACT_DONE (R221, R224): the last move is done: the completion event with the entries moved. -/
def execHaloCompactDone (table : Nat) (s : State) : Res :=
  match s.table? table with
  | some t =>
    if t.compacting ∧ t.steps = [] then
      .next ((s.modTable table fun t => { t with compacting := false }).endLong t.longId St.ok [t.moved])
    else .next s
  | none => .next s

/-! ### Placement (R217, R219) -/

/-- The index in slot order at which an entry of priority `prio` goes; none where BEFORE names no entry. -/
def HaloTable.place (t : HaloTable) (prio code before : Nat) : Option Nat :=
  if code = 0 then some (t.entries.countP fun e => decide (prio ≤ e.prio))
  else if code = 1 then some (t.entries.countP fun e => decide (prio < e.prio))
  else
    let i := t.entries.findIdx fun e => e.id == before
    if i < t.entries.length then some i else none

/-- The slots of the table's entries. -/
def HaloTable.taken (t : HaloTable) : List Nat := t.entries.map (·.slot)

/-- The nearest hole at or above slot `a`, within `k` slots. -/
def HaloTable.holeUp (t : HaloTable) : Nat → Nat → Option Nat
  | 0, _ => none
  | k + 1, a => if t.size ≤ a then none else if t.taken.contains a then t.holeUp k (a + 1) else some a

/-- The nearest hole below slot `a`. -/
def HaloTable.holeDown (t : HaloTable) : Nat → Option Nat
  | 0 => none
  | a + 1 => if t.taken.contains a then t.holeDown a else some a

/-- How an insertion goes: the slot it takes and the moves that free it. -/
inductive Room where
  | free (lo hi : Nat)
  | moves (slot : Nat) (ms : List (Nat × Nat))
  | full
  deriving DecidableEq, Repr

/-- The room for an entry at index `i`: the holes between its neighbours, else the moves toward the nearest hole, on
the higher side where both are equally near (R219). [log 76: DEDUCED] -/
def HaloTable.room (t : HaloTable) (i : Nat) : Room :=
  let lo := if i = 0 then 0 else (t.entries[i - 1]?).elim 0 (·.slot) + 1
  let hi := (t.entries[i]?).elim t.size (·.slot)
  if lo < hi then .free (if (t.entries[i]?).isSome then hi - 1 else lo) hi
  else
    let up := t.holeUp (t.entries.length + 1) hi
    let down := t.holeDown lo
    let goUp := fun u => Room.moves hi (((List.range (u - hi)).reverse).map fun k => (hi + k, hi + k + 1))
    let goDown := fun d => Room.moves (lo - 1) ((List.range (lo - 1 - d)).map fun k => (d + 1 + k, d + k))
    match up, down with
    | some u, some d => if lo - 1 - d < u - hi then goDown d else goUp u
    | some u, none => goUp u
    | none, some d => goDown d
    | none, none => .full

/-! ### Compaction (R219) -/

/-- The slot of the k-th of `count` entries after compaction at spacing h: the last slot of each window is a hole, but
for the first windows where the entries are too many. [log 77: DEDUCED] -/
def compactSlot (size h count k : Nat) : Nat :=
  let windows := size / h
  let extra := count - windows * (h - 1)
  if k < extra * h then k else extra * h + (k - extra * h) + (k - extra * h) / (h - 1)

/-- The moves of a compaction: entries that go up from the highest, then entries that go down from the lowest. [log
77: DEDUCED] -/
def HaloTable.compactMoves (t : HaloTable) (h : Nat) : List (Nat × Nat) :=
  let ab := t.entries.zipIdx.map fun e => (e.1.slot, compactSlot t.size h t.entries.length e.2)
  (ab.filter fun x => decide (x.1 < x.2)).reverse ++ ab.filter fun x => decide (x.2 < x.1)

/-! ### Mailbox commands (R224) -/

/-- Banks of a function that no table takes (R221). -/
def State.banksFree (s : State) (n : Nat) : Nat :=
  (s.grantOf n).banks -
    sumBy (fun t => if t.owner = n then t.banks * t.replicas else 0) s.halo.tables

/-- Hole spacing of an update class (R222). -/
def holeSpacing (cls : Nat) : Nat := [256, 64, 16].getD cls 64

/-- HALO_TABLE_CREATE (R205, R221, R222, R224); where several refusals hold, the table limit comes first, then the
banks, then the word. [log 5, 167: DESIGN CHOICE] -/
def execHaloTableCreate (fn : Nat) (req : MbReq) (s : State) : Res :=
  .next (s.mbRun Mb.haloTableCreate fn req fun s =>
    let n := fld req 0 8
    let r := fld req 8 3
    let cls := bitAt req.payload 11
    let w := BitVec.ofNat 32 (fld req 32 32)
    if 256 ≤ s.halo.tables.length ∨ (cls ∧ (s.classTable.isSome ∨ fn ≠ 0)) then .refuse St.haloTableLimit []
    else if s.banksFree fn < n * r then .refuse St.haloNoBanks []
    else if cls ∧ ¬ wordOk w then .refuse St.haloWord []
    else
      let free := fun v => decide (v < 256) && (s.table? v).isNone
      let (id, s1) := s.choose free (((List.range 256).find? free).getD 0)
      .basic [id] (s1.modHalo fun h => { h with
        tables := h.tables ++ [⟨id, fn, cls, n, r, holeSpacing (fld req 12 2), w, [], 1, false, [], 0, 0, 0,
          0, none⟩] }))

/-- A table that function `n` may name: its own, or, with `any`, every table for PF0 (R221). -/
def State.tableFor (s : State) (n id : Nat) (any : Bool) : Option HaloTable :=
  (s.table? id).bind fun t => if t.owner = n ∨ (any ∧ n = 0) then some t else none

/-- HALO_TABLE_DESTROY (R221): a compaction under way stops; its long command ends with an open status. [log 78:
DESIGN CHOICE] -/
def execHaloTableDestroy (fn : Nat) (req : MbReq) (s : State) : Res :=
  .next (s.mbRun Mb.haloTableDestroy fn req fun s =>
    match s.tableFor fn (fld req 0 8) true with
    | none => .refuse St.haloNoTable []
    | some t =>
      let s1 := s.settleTable t.id
      let s2 := if t.compacting then (s1.freeStatus 5).2.endLong t.longId (s1.freeStatus 5).1 [] else s1
      .basic [] ((s2.modHalo fun h => { h with tables := h.tables.filter fun x => x.id != t.id }).modRecs
        fun r => { r with vparams := r.vparams.filter fun p => !(p.id == 0x0710 && p.target == t.id) }))

/-- The checks of an entry's content: key form, class word, index stream. -/
def State.entryCheck (s : State) (t : HaloTable) (v m : BitVec 128) (w : BitVec 32) : Option Status :=
  if v &&& ~~~m ≠ 0 then some St.haloKeyForm
  else if t.classify ∧ ¬ wordOk w then some St.haloWord
  else if t.classify ∧ s.breaksIndex v m w then some St.haloIndexStream
  else none

/-- The steps of a change begin; its reply follows the last of them. -/
def State.beginSteps (s : State) (id : Nat) (steps : List HaloStep)
    (reply : Nat × Nat × Nat × List Nat) (g : HaloTable → HaloTable) : State :=
  s.modTable id fun t => { g t with steps := steps, reply := some reply }

/-- VALUE, MASK and WORD of an insert or modify. -/
def reqValue (r : MbReq) : BitVec 128 := BitVec.ofNat 128 (fldB r 0 16)
def reqMask (r : MbReq) : BitVec 128 := BitVec.ofNat 128 (fldB r 16 16)
def reqWord (r : MbReq) : BitVec 32 := BitVec.ofNat 32 (fldB r 40 4)

/-- An insertion at index `i` of a table (R219). [log 5: DESIGN CHOICE; 75, 76: DEDUCED] -/
def State.insertEntry (s : State) (fn : Nat) (req : MbReq) (t : HaloTable) (i : Nat) : MbResult :=
  let e := fun slot : Nat => (⟨t.nextId, slot, reqValue req, reqMask req, fldB req 33 1, false, reqWord req, List.replicate t.replicas 0⟩ : HaloEntry)
  let go := fun (s : State) (slot : Nat) (ms : List (Nat × Nat)) =>
    MbResult.later (s.beginSteps t.id (ms.flatMap moveSteps ++ [.write (e slot), .validate slot])
      (fn, 0x0703, req.tag, [t.nextId, slot, ms.length]) fun t => { t with nextId := t.nextId + 1 })
  match t.room i with
  | .full => .refuse St.haloTableFull []
  | .moves slot ms =>
    if s.param 0x0711 0 < ms.length then .refuse St.haloNoHole [] else go s slot ms
  | .free lo hi =>
    let r := s.choose (fun v => decide (lo ≤ v) && decide (v < hi)) lo
    go r.2 r.1 []

/-- HALO_TABLE_INSERT (R217 to R219, R224); where several refusals hold: table, compaction, key form, class word,
index stream, entry, placement, and then the room. [log 166: DESIGN CHOICE] -/
def execHaloTableInsert (fn : Nat) (req : MbReq) (s : State) : Res :=
  .next (s.mbRun Mb.haloTableInsert fn req fun s0 =>
    let s := s0.settleTable (fldB req 32 1)
    let code := fld req 272 2
    let prio := fldB req 33 1
    match s.tableFor fn (fldB req 32 1) false with
    | none => .refuse St.haloNoTable []
    | some t =>
      if t.compacting then .refuse St.haloCompacting []
      else match s.entryCheck t (reqValue req) (reqMask req) (reqWord req) with
      | some st => .refuse st []
      | none =>
        match t.place prio code (fldB req 36 4) with
        | none => .refuse St.haloNoEntry []
        | some i =>
          if code = 2 ∧ (t.entries[i]?).elim false (fun e => e.prio != prio) then
            .refuse St.haloPlacement []
          else s.insertEntry fn req t i)

/-- HALO_TABLE_DELETE (R218, R224). -/
def execHaloTableDelete (fn : Nat) (req : MbReq) (s : State) : Res :=
  .next (s.mbRun Mb.haloTableDelete fn req fun s0 =>
    let s := s0.settleTable (fld req 0 8)
    match s.tableFor fn (fld req 0 8) false with
    | none => .refuse St.haloNoTable []
    | some t =>
      if t.compacting then .refuse St.haloCompacting []
      else match t.entries.find? (fun e => e.id == fld req 32 32) with
      | none => .refuse St.haloNoEntry []
      | some e => .later (s.beginSteps t.id [.invalidate e.slot] (fn, 0x0704, req.tag, []) id))

/-- HALO_TABLE_MODIFY (R218, R224): ID, slot and priority stay, HITS is cleared; refusals in the order of an insert.
[log 166: DESIGN CHOICE] -/
def execHaloTableModify (fn : Nat) (req : MbReq) (s : State) : Res :=
  .next (s.mbRun Mb.haloTableModify fn req fun s0 =>
    let s := s0.settleTable (fldB req 32 1)
    match s.tableFor fn (fldB req 32 1) false with
    | none => .refuse St.haloNoTable []
    | some t =>
      if t.compacting then .refuse St.haloCompacting []
      else match s.entryCheck t (reqValue req) (reqMask req) (reqWord req) with
      | some st => .refuse st []
      | none =>
        match t.entries.find? (fun e => e.id == fldB req 36 4) with
        | none => .refuse St.haloNoEntry []
        | some e =>
          if e.prio ≠ fldB req 33 1 then .refuse St.haloPlacement []
          else .later (s.beginSteps t.id
            [.invalidate e.slot, .write ⟨e.id, e.slot, reqValue req, reqMask req, e.prio, false, reqWord req, List.replicate t.replicas 0⟩,
              .validate e.slot] (fn, 0x0705, req.tag, []) id))

/-- HALO_TABLE_READ (R224): PF0 may read any table (R221). -/
def execHaloTableRead (fn : Nat) (req : MbReq) (s : State) : Res :=
  .next (s.mbRun Mb.haloTableRead fn req fun s =>
    match s.tableFor fn (fld req 0 8) true with
    | none => .refuse St.haloNoTable []
    | some t =>
      let k := fld req 32 32
      match t.entries.find? (fun e => e.valid && (if bitAt req.payload 8 then e.slot else e.id) == k) with
      | none => .refuse St.haloNoEntry []
      | some e => .basic [e.value.toNat, e.mask.toNat, e.prio, e.word.toNat, sumBy id e.hits, e.id, e.slot] s)

/-- HALO_TABLE_COMPACT (R219, R221, R224): the moves begin; h is the spacing in force (R223). -/
def execHaloTableCompact (fn : Nat) (req : MbReq) (s : State) : Res :=
  .next (s.mbRun Mb.haloTableCompact fn req fun s0 =>
    let s := s0.settleTable (fld req 0 8)
    match s.tableFor fn (fld req 0 8) true with
    | none => .refuse St.haloNoTable []
    | some t =>
      if t.compacting then .refuse St.haloCompacting []
      else
        let ms := t.compactMoves (s.param 0x0710 t.id)
        s.long Mb.haloTableCompact fn fun s' => s'.modTable t.id fun t => { t with
          compacting := true, steps := ms.flatMap moveSteps, moved := ms.length,
          longId := s.recs.nextLong })

/-- The result of a search (R216). -/
def searchResult (t : HaloTable) (e : Option HaloEntry) : Nat :=
  match e with
  | some e => e.word.toNat + 4294967296 * (e.slot % 1048576) + 2 ^ 52
  | none => t.default_.toNat

/-- HALO_TABLE_SEARCH (R216, R224). -/
def execHaloTableSearch (fn : Nat) (req : MbReq) (s : State) : Res :=
  .next (s.mbRun Mb.haloTableSearch fn req fun s =>
    match s.tableFor fn (fld req 0 8) false with
    | none => .refuse St.haloNoTable []
    | some t =>
      let r := s.search t (BitVec.ofNat 128 (fldB req 16 16))
      .basic [searchResult t r.1] r.2)

/-- HALO_STATUS (R224). -/
def execHaloStatus (fn : Nat) (req : MbReq) (s : State) : Res :=
  .next (s.mbRun Mb.haloStatus fn req fun s =>
    .basic (s.fns.flatMap (fun f => [f.num, f.grant.banks, f.grant.banks - s.banksFree f.num]) ++
      s.halo.tables.flatMap (fun t => [t.id, t.owner, b2n t.classify, t.banks, t.replicas,
        s.param 0x0710 t.id, t.entries.length, t.size - t.entries.length, b2n t.compacting, t.searches, t.hits]) ++
      [s.halo.classified, s.halo.defaulted, s.halo.indexed, s.halo.uncompressed, s.halo.hashWaits]) s)

/-! ### Classification (R203 to R207) -/

/-- LEN_CLASS of R204. -/
def lenClass (len : Nat) : Nat := if len = 0 then 0 else Nat.log2 len + 1

/-- The classification key (R204): `origin` 0 for the host, 1 to 3 for Z0 to Z2. -/
def classKey (fn origin nsid src : Nat) (h : RecHeader) : BitVec 128 :=
  BitVec.ofNat 128 (h.stream % 4096 + 2 ^ 16 * src + 2 ^ 32 * h.rtype + 2 ^ 40 * h.tag + 2 ^ 72 * nsid +
    2 ^ 88 * origin + 2 ^ 91 * lenClass h.declLen + 2 ^ 96 * fn)

/-- The class word that a record takes, whether an entry matched, and the state after the search (R206); a record
without a table counts among the default-word records. [log 168: DESIGN CHOICE] -/
def State.classify (s : State) (key : BitVec 128) : BitVec 32 × Bool × State :=
  let s1 := s.modHalo fun h => { h with classified := h.classified + 1 }
  let dflt := fun s : State => s.modHalo fun h => { h with defaulted := h.defaulted + 1 }
  match s.classTable with
  | none => (0, false, dflt s1)
  | some t =>
    let r := s1.search t key
    match r.1 with
    | some e => (e.word, true, r.2)
    | none => (t.default_, false, dflt r.2)

/-- The checks of R207. -/
def State.ingestCheck (s : State) (n : Ns) (h : RecHeader) (w : BitVec 32) : Option Status :=
  let i := wordStream w
  if s.indexBound h.stream then some St.ingestIndexBound
  else if wordIdx w ∧ ¬ (s.streamNow i).elim false (·.isOpen) then some St.ingestIndexClosed
  else if wordIdx w ∧ ¬ (s.store.ns? (s.streamNs i)).elim false (fun m => s.hasRoom m (s.indexNeed i)) then
    some St.ingestIndexFull
  else if n.isRns ∧ s.hashBudget < 32 + h.declLen then some St.ingestHashBudget
  else none

end Sys2Proof.Machine
end

