-- ==== Sys2Proof/Machine/Anvil.lean ====
section
/-!
DEFINITION. Anvil (chapter 10): the exec command and its checks (R285), the life of an instance (R286),
activations (R269 to R273), tokens and delays (R274 to R277), near-data scan (R287, R288), the services of
R278, Lirok modules (R280 to R283), and the Anvil mailbox commands (R295).
-/

namespace Sys2Proof.Machine

open Sys2Proof

/-! ### Modules -/

/-- The image of a module as its function's grant holds it: rounded up to 64 KiB (R267). -/
def Module.room (m : Module) : Nat := (m.file.imageBytes + 65535) / 65536 * 65536

/-- Bytes of a function's grant that images and allocations take. -/
def State.dataUsed (s : State) (n : Nat) : Nat :=
  sumBy (fun m => if m.fn = n then m.room else 0) s.anv.modules +
    sumBy (fun x => if x.1 = n then x.2.2.2 else 0) s.anv.mem

/-- Bytes [addr, addr + len) lie in the function's data window and meet no allocation of it. -/
def State.dataFree (s : State) (n addr len : Nat) : Bool :=
  decide (dataBase ≤ addr) && decide (addr + len ≤ dataBase + s.dataBytes n) &&
    !s.anv.mem.any fun x => x.1 == n && decide (0 < overlap x.2.2.1 x.2.2.2 addr len)

/-- Where an allocation could start: the base of the window and the end of every allocation, aligned. -/
def State.dataStarts (s : State) (n align : Nat) : List Nat :=
  (dataBase :: (s.anv.mem.filter fun x => x.1 == n).map fun x => x.2.2.1 + x.2.2.2).map fun a =>
    (a + align - 1) / align * align

/-- An allocation for an instance: its address, which the device chooses, and the state after it. [log 5: DESIGN
CHOICE; 88: DEDUCED] -/
def State.dataAlloc (s : State) (n inst len align : Nat) : Option (Nat × State) :=
  let ok := fun a => a % align == 0 && s.dataFree n a len
  if s.dataBytes n < s.dataUsed n + len then none
  else match (s.dataStarts n align).find? ok with
  | none => none
  | some least =>
    let r := s.choose ok least
    some (r.1, r.2.modAnv fun a => { a with mem := a.mem ++ [(n, inst, r.1, len)] })

/-! ### The exec command (R285) -/

/-- The exec block with the function's chunk size and buffers in place of 0 (R284). -/
def State.execBlock (s : State) (n : Nat) (b : ExecBlock) : ExecBlock :=
  { b with
    chunk := if b.chunk = 0 then s.param 0x0A12 n / 16 else b.chunk
    chunkBufs := if b.chunkBufs = 0 then s.param 0x0A13 n else b.chunkBufs }

/-- Bytes of a chunk and of its overlap. -/
def chunkBytes (b : ExecBlock) : Nat := b.chunk * 16384
def overlapBytes (b : ExecBlock) : Nat := b.overlap * 4096

/-- Order 4 of R285: fields in range. -/
def execFieldsOk (b : ExecBlock) (m : ModuleFile) : Bool :=
  b.rsv == 0 && decide (b.engines ≤ 64) && decide (b.priority ≤ m.maxPrio) && decide (b.chunk ≤ 16) &&
    decide (2 ≤ b.chunkBufs) && decide (b.chunkBufs ≤ 8) && decide (b.overlap ≤ 8) &&
    decide (chunkBytes b + overlapBytes b ≤ 262144) && b.rangeStart % 4096 == 0 &&
    (b.rangeLen == 0 || m.chunkEntry != 0) && decide (b.argLen ≤ 4096) &&
    decide (b.resultLen ≤ 1073741824) && decide (b.stream < 4096)

/-- The end that a range may reach, in bytes: for a stream its stored end, for an INS its five regions. [log 79:
DEDUCED] -/
def State.rangeEnd (s : State) (n : Ns) (stream : Nat) : Nat :=
  if n.isStream then s.streamEnd stream
  else if n.isIns then 5 * n.f.capacity * 4096
  else n.f.capacity * 4096

/-- The checks of R285 in their order. -/
def State.execCheck (s : State) (fn : Nat) (n : Ns) (b : ExecBlock) : Option Status :=
  let g := s.grantOf fn
  if s.pw.st = .p2 ∨ s.pw.st = .p3 ∨ s.pw.st = .p4 then some St.anvPoweredOff
  else match s.module? fn b.module with
  | none => some St.anvNoModule
  | some m =>
    if m.revoked then some St.anvNoModule
    else if g.engineList = [] ∨ g.engineList.length < b.engines then some St.anvEngines
    else if ¬ execFieldsOk b m.file ∨ (¬ n.isStream ∧ b.stream ≠ 0) then some St.anvExecField
    else if 524288 < b.chunkBufs * (chunkBytes b + overlapBytes b) + m.file.scratchBytes + m.file.stackBytes
    then some St.anvScratch
    else if n.isStream ∧ ¬ s.streamBound n.f.nsid b.stream then some St.recStream
    else if s.rangeEnd n b.stream < b.rangeStart + b.rangeLen then some St.anvRange
    else if 4096 * g.scan < chunkBytes b + overlapBytes b then some St.anvScanCredit
    else none

/-- The window check of an exec's argument and result buffers (R352, R376 check 15). -/
def State.execWindow (s : State) (fn : Nat) (b : ExecBlock) : Bool :=
  s.dmaOk fn b.argAddr b.argLen && s.dmaOk fn b.resultAddr b.resultLen

/-- An instance as its exec makes it. -/
def Inst.fresh (id fn qid cid nsid : Nat) (b : ExecBlock) : Inst :=
  { id := id, fn := fn, qid := qid, cid := cid, nsid := nsid, handle := b.module, blk := b,
    st := .waitEngines, engines := [], delivered := 0, nextEng := 0, chunks := [], puts := [], argAddr := 0,
    stackAt := 0, code := 0, resultLen := 0, status := St.ok, abortBy := none }

/-- EXEC (R15, R285, R376): its checks; then it waits for admission with an instance of its own. -/
def execExec (fn qid cid : Nat) (blk : ExecBlock) (s : State) : Res :=
  .next (s.checked fn qid cid opExec [] fun c n =>
    let b := s.execBlock fn blk
    if ¬ s.execWindow fn b then s.failCmd c St.fnDmaWindow
    else match s.execCheck fn n b with
    | some st => s.failCmd c st
    | none =>
      (s.modAnv fun a => { a with
        insts := a.insts ++ [Inst.fresh a.nextInst fn qid cid c.e.nsid b], nextInst := a.nextInst + 1 }).modCmd
        c.seq fun c => { c with stage := .waiting, left := 1, inst := s.anv.nextInst })

/-! ### Instances (R286) -/

/-- The instance that engine `e` belongs to. -/
def State.instOn (s : State) (e : Nat) : Option Inst := s.anv.insts.find? (fun i => i.engines.contains e)

/-- The engines of a function that no instance holds. -/
def State.freeEngines (s : State) (n : Nat) : List Nat :=
  (s.grantOf n).engineList.filter fun e => (s.instOn e).isNone

/-- The oldest admitted exec of a function whose instance waits for engines. -/
def State.waitingInst (s : State) (n : Nat) : Option Inst :=
  s.anv.insts.find? fun i => i.fn == n && i.st == .waitEngines &&
    s.q.cmds.any fun c => c.inst == i.id && c.e.opc == opExec && c.stage == .execing

/-- A new thread of an instance. -/
def Thread.fresh (i : Inst) (entry arg prio nslots : Nat) (pin : Option Nat) (part : Nat) : Thread :=
  { tid := 0, inst := i.id, fn := i.fn, entry := entry, arg := arg, prio := prio, nslots := nslots,
    pin := pin, cluster := clusterOf part, part := part, ops := [none, none, none, none], st := .waiting,
    order := 0, cancelled := false, chunk := none, first := false }

/-- The initial thread of an instance, pinned to its engine 0. -/
def Thread.initial (i : Inst) (m : Module) (arg e : Nat) : Thread :=
  { Thread.fresh i m.file.entry arg i.blk.priority 0 (some e) e with first := true }

/-- The thread of a chunk, pinned to the engine that holds its buffer (R288). -/
def Thread.ofChunk (i : Inst) (m : Module) (c : Chunk) : Thread :=
  { Thread.fresh i m.file.chunkEntry i.argAddr i.blk.priority 0 (some c.engine) c.engine with chunk := some c }

/-- The instance once its initial thread is spawned: STARTING with its engines and its argument block. -/
def State.started (s : State) (i : Inst) (es : List Nat) (arg : Nat) : Option (Nat × State) → State
  | none => s
  | some x => x.2.modInst i.id fun y => { y with st := .starting, engines := es, argAddr := arg }

/-- Where an engine's stack may lie: in the scratchpad, clear of the static scratch. -/
def stackOk (m : Module) (a : Nat) : Bool :=
  inScratch a m.file.stackBytes && overlap m.file.scratchAt m.file.scratchBytes a m.file.stackBytes == 0

/-- The stack of the instance's engines, at the top of the scratchpad where it can be. [log 5: DESIGN CHOICE] -/
def State.placeStack (s : State) (m : Module) : Nat × State :=
  let least := ([scratchEnd - m.file.stackBytes, scratchBase].find? (stackOk m)).getD
    (m.file.scratchAt + m.file.scratchBytes)
  s.choose (stackOk m) least

/-- The static scratch of an engine zeroed (R286). -/
def State.zeroStatic (s : State) (m : Module) (es : List Nat) : State :=
  es.foldl (fun a e => a.modEngine e fun c => { c with
    scratch := memZero c.scratch m.file.scratchAt m.file.scratchBytes }) s

/-- Room for the argument block of an instance in its memory, at a free place where there is none. [log 88: DEDUCED]
-/
def State.placeArg (s : State) (i : Inst) : Nat × State :=
  (s.dataAlloc i.fn i.id i.blk.argLen 1).getD (s.free.1.toNat, s.free.2)

/-- An instance given its engines: the argument block is copied to instance memory at `a`, the stack has its place, and the
static scratch is zeroed on each engine. -/
def State.readied (s : State) (i : Inst) (m : Module) (es : List Nat) (a : Nat) (arg : Data) : State :=
  let k := s.placeStack m
  ((k.2.zeroStatic m es).modWrite i.fn 0 a (arg.take i.blk.argLen)).modInst i.id fun x => { x with stackAt := k.1 }

/-- The initial thread and the argument block of an instance given its engines. -/
def State.startInst (s : State) (i : Inst) (m : Module) (es : List Nat) (arg : Data) : State :=
  match es with
  | [] => s
  | e :: _ =>
    let a := s.placeArg i
    s.started i es a.1 ((a.2.readied i m es a.1 arg).spawn (Thread.initial i m a.1 e))

/-- INSTANCE_START (R286, R291): the oldest waiting exec of the function gets its engines, lowest numbers
first, once enough are free and no zeroing of its memory runs. -/
def execInstanceStart (a : ArgFetch) (s : State) : Res :=
  match s.waitingInst a.fn with
  | none => .next s
  | some i =>
    let need := if i.blk.engines = 0 then (s.grantOf a.fn).engineList.length else i.blk.engines
    let free := s.freeEngines a.fn
    if s.anv.zeroing.contains a.fn ∨ free.length < need ∨ s.fnState a.fn ≠ .active then .next s
    else match s.module? a.fn i.handle with
    | some m => .next (s.startInst i m (free.take need) a.bytes)
    | none => .next s

/-- Modules whose key is revoked go with their last instance (R282). -/
def State.dropRevoked (s : State) : State :=
  s.modAnv fun a => { a with
    modules := a.modules.filter fun m =>
      !m.revoked || a.insts.any fun i => i.fn == m.fn && i.handle == m.handle }

/-- INSTANCE_END (R286): every put written, no Squall job left, no activation running: memory and engines are freed
and the completion carries status, module code and result length. [log 2: DESIGN CHOICE] -/
def execInstanceEnd (inst : Nat) (s : State) : Res :=
  match s.inst? inst with
  | none => .next s
  | some i =>
    if i.st = .ending ∧ i.puts = [] ∧ ¬ s.sq.jobs.any (fun j => j.inst == inst) ∧
        ¬ s.anv.threads.any (fun t => t.inst == inst) then
      let s1 := (s.modAnv fun a => { a with
        insts := a.insts.filter fun x => x.id != inst
        mem := a.mem.filter fun x => !(x.1 == i.fn && x.2.1 == inst) }).dropRevoked
      match s1.q.cmds.find? (fun c => c.inst == inst && c.e.opc == opExec) with
      | some c => .next ((s1.endCmd c i.status (i.code % 4294967296 + 4294967296 * i.resultLen)).abortReply i)
      | none => .next s1
    else .next s

/-! ### Activations (R270 to R273) -/

/-- An engine of which nothing is counted yet in a tick. -/
def EngCount.fresh (e : Nat) : EngCount :=
  { engine := e, activations := 0, chunks := 0, readyMax := 0, ran := false, waits := List.replicate 12 0 }

/-- The record of R292. -/
def EngRec.bytes (r : EngRec) : Data :=
  bytesLE 8 r.tick ++ bytesLE 4 r.busy ++ bytesLE 4 r.activations ++ bytesLE 4 r.stall ++ bytesLE 2 r.readyMax ++
    bytesLE 2 r.readyEnd ++ bytesLE 2 r.waitingEnd ++ bytesLE 2 r.chunks ++ bytesLE 4 0 ++
    r.waits.flatMap (bytesLE 4) ++ List.replicate 16 0

/-- The count of an engine in the running tick changed (R292). -/
def State.countEngine (s : State) (e : Nat) (g : EngCount → EngCount) : State :=
  s.modAnv fun a => { a with
    counts := if a.counts.any (fun x => x.engine == e) then updIf (fun x => x.engine == e) g a.counts
      else a.counts ++ [g (EngCount.fresh e)] }

/-- READY threads that engine `e` may run. -/
def State.eligible (s : State) (e : Nat) : List Thread :=
  match s.instOn e with
  | none => []
  | some i => s.anv.threads.filter fun t => t.inst == i.id && t.st == .ready &&
      (match t.pin with | some p => p == e | none => t.cluster == clusterOf e)

/-- select of R270: the highest priority, and of it the oldest. -/
def pickThread : List Thread → Option Thread
  | [] => none
  | t :: ts =>
    match pickThread ts with
    | none => some t
    | some u => if u.prio < t.prio ∨ (u.prio = t.prio ∧ t.order ≤ u.order) then some t else some u

/-- The argument registers a0 to a7 of a dispatch (R271). -/
def dispatchRegs (t : Thread) : List Nat :=
  match t.chunk with
  | some c =>
    [t.tid, t.arg, c.addr, c.offset, c.len + 4294967296 * c.overlap, c.lostMask,
      if c.lostMask = 0 then 0 else St.ftUnitLost.toNat, 0]
  | none =>
    let v := fun j => ((t.ops[j]?).join).elim 0 (·.value)
    let pack := fun (f : Token → Nat) => (List.range 4).foldl (fun a j =>
      a + 65536 ^ j * ((t.ops[j]?).join).elim 0 f) 0
    [t.tid, t.arg, v 0, v 1, v 2, v 3, pack (fun k => k.status.toNat), pack (·.source)]

/-- The L1 D of engine `e` is invalidated before this dispatch: an operand is a token of another engine's thread, or
tells of data that a device unit wrote (R265). [log 171: DEDUCED] -/
def Thread.invalidates (t : Thread) (e : Nat) : Bool :=
  t.ops.any fun o => match o with
    | some k => (k.source == srcSend && k.engine != some e) || k.source == srcHalo || k.source == srcSquall
    | none => false

/-- The engine at a dispatch (R263, R265, R266, R271): U-mode at the entry, a0 to a7, sp at the top of its stack, ra
Sutas kernel's, the windows of the thread's function and module. [log 90: DESIGN CHOICE] -/
def State.enterThread (s : State) (e : Nat) (t : Thread) : State :=
  let i := s.inst? t.inst
  let m := i.bind fun i => s.module? t.fn i.handle
  let sp := i.elim 0 (·.stackAt) + m.elim 0 (·.file.stackBytes)
  let ra := s.free.1.toNat
  s.free.2.modEngine e fun c =>
    { c.setRegs ([(1, ra), (2, sp)] ++ (dispatchRegs t).zipIdx.map fun r => (10 + r.2, r.1)) with
      user := true, pc := t.entry, resv := none, cached := c.cached && !t.invalidates e
      winFn := t.fn, winMod := i.elim 0 (·.handle) }

/-- THREAD_DISPATCH (R270, R271): a free engine takes the oldest eligible READY thread of the highest priority; its
operands go to registers and their credits return. How long it waited is open. [log 92: DESIGN CHOICE] -/
def execThreadDispatch (engine : Nat) (s : State) : Res :=
  if (s.anv.running.any fun r => r.1 == engine) ∨ s.hz.st = .halted then .next s
  else match pickThread (s.eligible engine) with
  | none => .next s
  | some t =>
    let n := (s.eligible engine).length
    let w := s.free.1.toNat % 12
    .next (((((s.free.2.enterThread engine t).modThread t.tid fun t => { t with
        st := .running, ops := [none, none, none, none] })).modAnv fun a => { a with
          running := a.running ++ [(engine, t.tid)] }).countEngine engine fun c => { c with
            activations := c.activations + 1, readyMax := max c.readyMax n, ran := true
            waits := c.waits.modify w (· + 1) })

/-- The engine's thread waits in a service call that stalls (R275). -/
def State.callStalled (s : State) (e : Nat) : Bool := s.anv.stalled.any fun x => x.caller == some e

/-- The activation on an engine is over: calls that stalled go with it, and what the end of the last
activation of a fenced function starts follows (R291). -/
def State.leaveEngine (s : State) (e n : Nat) : State :=
  ((s.modEngine e Engine.leave).modAnv fun a => { a with
    running := a.running.filter fun r => r.1 != e
    stalled := a.stalled.filter fun x => x.caller != some e }).enginesEnded n

/-- A thread ends its activation and is gone. -/
def State.exitThread (s : State) (e : Nat) (t : Thread) : State :=
  let s1 := if t.first then s.modInst t.inst fun i =>
      if i.st = .starting then { i with st := .running } else i else s
  ((s1.freeThread t.tid).leaveEngine e t.fn).idleCheck t.inst

/-- A fault record kept: the last 16 of each function (R295). -/
def State.keepFault (s : State) (r : FaultRec) : State :=
  s.modAnv fun a =>
    let mine := (a.faults ++ [r]).filter fun x => x.fn == r.fn
    { a with faults := (a.faults.filter fun x => x.fn != r.fn) ++ mine.drop (mine.length - 16) }

/-- An activation ends its instance (R273, R286): the record is kept, unless the instance already ends. -/
def State.faultThread (s : State) (e : Nat) (t : Thread) (st : Status) (mcause mepc mtval : Nat) : State :=
  let s1 := if (s.inst? t.inst).elim false fun i => i.st == .starting || i.st == .running then
      s.keepFault ⟨t.fn, t.inst, t.tid, e, mcause, mepc, mtval, st⟩ else s
  (((s1.endInst t.inst st 0 0).freeThread t.tid).leaveEngine e t.fn)

/-- The same where the spec gives no mcause, mepc and mtval: they are open. [log 89: DESIGN CHOICE] -/
def State.openFault (s : State) (e : Nat) (t : Thread) (st : Status) : State :=
  let v := s.free.1.toNat
  s.free.2.faultThread e t st (v % 2 ^ 64) (v / 2 ^ 64 % 2 ^ 64) (v / 2 ^ 128 % 2 ^ 64)

/-- The highest priority of a thread's module. -/
def State.maxPrio (s : State) (t : Thread) : Nat :=
  ((s.inst? t.inst).bind fun i => s.module? t.fn i.handle).elim 0 (·.file.maxPrio)

/-- A return value that R272 allows. -/
def returnOk (a0 maxPrio : Nat) : Bool :=
  decide (bitsAt a0 0 2 ≤ 1) && decide (bitsAt a0 2 3 ≤ 4) && (bitsAt a0 0 2 == 1 || bitsAt a0 2 3 == 0) &&
    decide (a0 < 2048) && (!bitAt a0 10 || decide (bitsAt a0 5 5 ≤ maxPrio))

/-- REARM (R269, R272): tokens in undeclared slots are discarded; the thread is READY at the tail of its
list, or WAITING. -/
def State.rearm (s : State) (e : Nat) (t : Thread) (a0 : Nat) : State :=
  let k := bitsAt a0 2 3
  let ops := (t.ops.take k) ++ List.replicate (4 - k) none
  let full := (ops.take k).all Option.isSome
  let s1 := s.modAnv fun a => { a with
    discards := countDiscards a.discards (t.ops.drop k), order := a.order + 1 }
  let s2 := s1.modThread t.tid fun t => { t with
    nslots := k, ops := ops, st := if full then .ready else .waiting, order := s.anv.order, first := false,
    prio := if bitAt a0 10 then bitsAt a0 5 5 else t.prio }
  let s3 := if t.first then s2.modInst t.inst fun i =>
      if i.st = .starting then { i with st := .running } else i else s2
  s3.leaveEngine e t.fn

/-- THREAD_RETURN (R269, R272): what the thread ran, then its return value in a0. [log 89, 90: DESIGN CHOICE] -/
def execThreadReturn (c : Caller) (a0 : Nat) (s : State) : Res :=
  match s.runningOn c.engine with
  | none => .next s
  | some t =>
    if s.callStalled c.engine then .next s
    else
      let s1 := (s.ran t.fn c.engine c.run).modEngine c.engine fun c => c.setRegs [(10, a0)]
      if t.cancelled ∨ s.fnState t.fn ≠ .active then .next (s1.exitThread c.engine t)
      else if ¬ returnOk a0 (s.maxPrio t) then .next (s1.openFault c.engine t St.anvFault)
      else if bitsAt a0 0 2 = 0 then .next (s1.exitThread c.engine t)
      else .next (s1.rearm c.engine t a0)

/-- The exceptions that are module faults (R264): misaligned, access and illegal-instruction exceptions and EBREAK, by
mcause; ECALL from U-mode, 8, is a service call. [log 171: DEDUCED] -/
def faultCauses : List Nat := [0, 1, 2, 3, 4, 5, 6, 7]

/-- MODULE_FAULT (R264, R286). -/
def execModuleFault (c : Caller) (mcause mepc mtval : Nat) (s : State) : Res :=
  match s.runningOn c.engine with
  | none => .next s
  | some t =>
    if s.callStalled c.engine ∨ ¬ faultCauses.contains mcause then .next s
    else .next ((s.ran t.fn c.engine c.run).faultThread c.engine t St.anvFault mcause mepc mtval)

/-- ACTIVATION_LIMIT (R273). [log 89: DESIGN CHOICE] -/
def execActivationLimit (c : Caller) (s : State) : Res :=
  match s.runningOn c.engine with
  | none => .next s
  | some t =>
    let s1 := if s.callStalled c.engine then s else s.ran t.fn c.engine c.run
    .next (s1.openFault c.engine t St.anvActivationLimit)

/-! ### Tokens and delays (R274 to R277) -/

/-- The result of a service call on an engine: the status in a0 and the value in a1 (R278). -/
def State.setResult (s : State) (e : Nat) (st : Status) (v : Nat) : State :=
  s.modEngine e fun c => c.setRegs [(10, st.toNat), (11, v)]

/-- The held tokens of a producer tried in order; one that still stalls holds those of its function behind
it. -/
def State.retryTokens (s : State) (src : Nat) : List Stalled → List Nat → State
  | [], _ => s
  | x :: xs, blk =>
    let n := (s.thread? x.tid).map (·.fn)
    if x.tok.source ≠ src ∨ n.elim false blk.contains then s.retryTokens src xs blk
    else match s.deliver x.tid x.slot x.tok with
    | none => s.retryTokens src xs (n.elim blk (· :: blk))
    | some s' =>
      let s1 := s'.modAnv fun a => { a with stalled := a.stalled.erase x }
      let s2 := match x.caller with | some e => s1.setResult e St.ok 0 | none => s1
      State.retryTokens s2 src xs blk

/-- TOKEN_DELIVER (R274, R275): a producer that stalls retries its tokens. -/
def execTokenDeliver (producer : Nat) (s : State) : Res :=
  .next (s.retryTokens producer s.anv.stalled [])

/-- The comparator that `anv.configure` assigned, in force (R277, R408). -/
def State.delayTimer (s : State) : Bool := s.inForce.claims.any fun c => c.opcode == 0x0A06

/-- Delays taken from the lists deliver their tokens with a status. -/
def State.fireDelays (s : State) (p : Delay → Bool) (time : Nat) (st : Status) : State :=
  (s.anv.delays.filter p).foldl (fun a d => a.produce d.tid d.slot ⟨time, st, srcDelay, none⟩)
    (s.modAnv fun a => { a with delays := a.delays.filter fun d => !p d })

/-- DELAY_LIST_FIRE (R277): every delay whose wake time has come delivers its token. -/
def execDelayListFire (time : Nat) (s : State) : Res :=
  if s.delayTimer ∧ s.hz.ticking = true then .next (s.fireDelays (fun d => decide (d.wake ≤ time)) time St.ok)
  else .next s

/-! ### Near-data scan (R287, R288) -/

/-- Chunk buffers of an engine that the module holds. -/
def Inst.held (i : Inst) (e : Nat) : List Chunk := i.chunks.filter fun c => c.engine == e

/-- The next engine in round-robin order that has a free buffer: its index among the instance's engines. -/
def Inst.nextChunkEngine (i : Inst) : Option Nat :=
  let k := i.engines.length
  ((List.range k).map fun j => (i.nextEng + j) % max 1 k).find? fun j =>
    (i.engines[j]?).elim false fun e => decide ((i.held e).length < i.blk.chunkBufs)

/-- The key of the unit at byte `b` of an exec's range. -/
def scanKey (n : Ns) (stream b : Nat) : Nat :=
  if n.isBlock then n.aliasBase (b / 4096) else streamKey stream b

/-- The LOST mask of `k` units from byte `b` on (R288). -/
def State.lostMask (s : State) (n : Ns) (stream b k : Nat) : Nat :=
  (List.range k).foldl (fun m u =>
    if s.resolve n.f.nsid (scanKey n stream (b + 4096 * u)) = .lost then m + 2 ^ u else m) 0

/-- A chunk buffer's address on an engine: in the scratchpad, clear of the static scratch, the stack and the other buffers
held there. -/
def Inst.bufferOk (i : Inst) (m : Module) (e size a : Nat) : Bool :=
  inScratch a size && overlap m.file.scratchAt m.file.scratchBytes a size == 0 &&
    overlap i.stackAt m.file.stackBytes a size == 0 && (i.held e).all fun c => overlap c.addr size a size == 0

/-- The bytes of a chunk with its overlap, as they stand at its admission: zeros for LOST and released units (R288). -/
def State.chunkData (s : State) (n : Ns) (stream b len : Nat) : Data :=
  ((List.range ((len + 4095) / 4096)).flatMap fun u =>
    padUnit (s.unitData n.f.nsid (scanKey n stream (b + 4096 * u)))).take len

/-- A chunk of `len` bytes and `ov` overlap bytes given to the engine of index `j`, and its thread. [log 5: DESIGN
CHOICE; 87: DEDUCED] -/
def State.chunkTo (s : State) (i : Inst) (n : Ns) (m : Module) (j len ov : Nat) : State :=
  let e := i.engines.getD j 0
  let size := chunkBytes i.blk + overlapBytes i.blk
  let starts := scratchBase :: (m.file.scratchAt + m.file.scratchBytes) :: (i.stackAt + m.file.stackBytes) ::
    (i.held e).map fun c => c.addr + size
  let least := (starts.find? (i.bufferOk m e size)).getD scratchBase
  let a := s.choose (i.bufferOk m e size) least
  let bytes := s.chunkData n i.blk.stream (i.blk.rangeStart + i.delivered) (len + ov)
  let mask := s.lostMask n i.blk.stream (i.blk.rangeStart + i.delivered) ((len + ov + 4095) / 4096)
  let c : Chunk := ⟨e, a.1, i.delivered, len, ov, mask⟩
  match (a.2.modWrite i.fn e a.1 bytes).spawn (Thread.ofChunk i m c) with
  | none => s
  | some (_, s1) =>
    (((s1.charge i.fn 0 0 (len + ov)).modHz fun h => { h with
      tick := { h.tick with scan := h.tick.scan + len + ov } }).countEngine e fun x => { x with
        chunks := x.chunks + 1 }).modInst i.id fun x => { x with
          delivered := x.delivered + len, nextEng := j + 1, chunks := x.chunks ++ [c] }

/-- CHUNK_DELIVER (R275, R287, R288): the next chunk of an instance, where the tick holds scan credit for all of it,
an engine has a free buffer, and a thread slot is free. [log 87: DEDUCED] -/
def execChunkDeliver (inst : Nat) (s : State) : Res :=
  match s.inst? inst with
  | none => .next s
  | some i =>
    match i.nextChunkEngine, s.store.ns? i.nsid, s.module? i.fn i.handle with
    | some j, some n, some m =>
      let len := min (chunkBytes i.blk) (i.blk.rangeLen - i.delivered)
      let ov := min (overlapBytes i.blk) (i.blk.rangeLen - i.delivered - len)
      if i.st ≠ .running ∨ len = 0 ∨ s.fnState i.fn ≠ .active ∨ (s.credit i.fn).scan < len + ov ∨
          m.file.maxThreads ≤ (s.anv.threads.filter fun t => t.inst == inst).length ∨
          s.readyFull i.fn (clusterOf (i.engines.getD j 0)) = true then .next s
      else .next (s.chunkTo i n m j len ov)
    | _, _, _ => .next s

/-! ### Services (R278, R279) -/

/-- A call of service `k` by the thread that runs on an engine, once what it has run is known: the arguments stand in
a0 on and the number in a7. In a fenced function it returns ST_OK and does nothing (R291); in an instance that already
ends, its result is open and it does nothing. [log 84: DEDUCED] -/
def State.service (s : State) (e k : Nat) (args : List Nat) (run : ThreadRun)
    (go : State → Thread → Inst → Module → State) : State :=
  match s.runningOn e with
  | none => s
  | some t =>
    if s.callStalled e then s
    else
      let s1 := (s.ran t.fn e run).modEngine e fun c =>
        c.setRegs ((args.zipIdx.map fun r => (10 + r.2, r.1)) ++ [(17, k)])
      if s.fnState t.fn ≠ .active then s1.setResult e St.ok 0
      else match s.inst? t.inst with
      | none => s1
      | some i =>
        if i.st = .ending then
          (s1.freeStatus 8).2.setResult e (s1.freeStatus 8).1 (s1.free.1.toNat / 65536 % 2 ^ 64)
        else match s.module? t.fn i.handle with
        | some m => go s1 t i m
        | none => s1

/-- A thread of the instance. [log 85: DEDUCED] -/
def State.threadOf (s : State) (inst tid : Nat) : Option Thread :=
  (s.thread? tid).bind fun t => if t.inst = inst then some t else none

/-- TH_SPAWN (R278): the entry lies in the module image; the placement names an instance engine or 0xFF. -/
def execThSpawn (c : Caller) (entry arg prio nslots placement : Nat) (s : State) : Res :=
  .next (s.service c.engine 1 [entry, arg, prio, nslots, placement] c.run fun s _ i m =>
    if ¬ m.holds entry 1 ∨ 4 < nslots ∨ (placement ≠ 255 ∧ i.engines.length ≤ placement) then
      s.setResult c.engine St.anvService 0
    else if m.file.maxPrio < prio then s.setResult c.engine St.anvPriority 0
    else if m.file.maxThreads ≤ (s.anv.threads.filter fun t => t.inst == i.id).length then
      s.setResult c.engine St.anvNoSlot 0
    else
      let pin := if placement = 255 then none else i.engines[placement]?
      let part := pin.getD c.engine
      match s.spawn (Thread.fresh i entry arg prio nslots pin part) with
      | none => s.setResult c.engine St.anvNoSlot 0
      | some (tid, s1) => s1.setResult c.engine St.ok tid)

/-- TH_SEND (R275, R276, R278): a call that cannot deliver stays in the call. [log 85: DEDUCED] -/
def execThSend (c : Caller) (tid slot value : Nat) (s : State) : Res :=
  .next (s.service c.engine 2 [tid, slot, value] c.run fun s _ i _ =>
    match s.threadOf i.id tid with
    | none => s.setResult c.engine St.anvNoThread 0
    | some t =>
      let k : Token := ⟨value, St.ok, srcSend, some c.engine⟩
      if 4 ≤ slot ∨ (t.st ≠ .running ∧ t.nslots ≤ slot) then
        (s.discard srcSend).setResult c.engine St.anvBadSlot 0
      else match s.deliver tid slot k with
      | some s1 => s1.setResult c.engine St.ok 0
      | none => s.modAnv fun a => { a with stalled := a.stalled ++ [⟨some c.engine, tid, slot, k⟩] })

/-- TH_DELAY (R277, R278): each (thread, slot) holds one delay, the newest. [log 85, 86: DEDUCED] -/
def execThDelay (c : Caller) (tid slot wake : Nat) (s : State) : Res :=
  .next (s.service c.engine 3 [tid, slot, wake] c.run fun s _ i _ =>
    if ¬ s.delayTimer then s.setResult c.engine St.anvNoTimer 0
    else match s.threadOf i.id tid with
    | none => s.setResult c.engine St.anvNoThread 0
    | some _ =>
      if 4 ≤ slot then s.setResult c.engine St.anvService 0
      else (s.modAnv fun a => { a with
        delays := (a.delays.filter fun d => !(d.tid == tid && d.slot == slot)) ++ [⟨tid, slot, wake⟩] }).setResult
          c.engine St.ok 0)

/-- TH_CANCEL (R269, R278). [log 85: DEDUCED] -/
def execThCancel (c : Caller) (tid : Nat) (s : State) : Res :=
  .next (s.service c.engine 4 [tid] c.run fun s _ i _ =>
    match s.threadOf i.id tid with
    | none => s.setResult c.engine St.anvNoThread 0
    | some _ => (s.cancel tid).setResult c.engine St.ok 0)

/-- Keys searched in order: how many hit, and the state with every result in the result array (R216, R278). -/
def State.searchKeys (s : State) (n e table results : Nat) (keys : List (BitVec 128)) : Nat × State :=
  keys.zipIdx.foldl (fun acc k =>
    match acc.2.table? table with
    | some tab =>
      let x := acc.2.search tab k.1
      (acc.1 + b2n x.1.isSome, x.2.modWrite n e (results + 8 * k.2) (bytesLE 8 (searchResult tab x.1)))
    | none => acc) (0, s)

/-- HALO_SEARCH (R216, R221, R278, R279): the keys are searched in order, the results are written and the token
follows; its status says that the table is another function's or does not exist. [log 85: DEDUCED] -/
def execHaloSearch (c : Caller) (table : Nat) (keys : KeyList) (results tid slot : Nat) (s : State) : Res :=
  .next (s.service c.engine 5 [table, keys.addr, keys.count, results, tid, slot] c.run fun s t i m =>
    if ¬ bitAt m.file.flags 0 ∨ keys.count = 0 ∨ 256 < keys.count ∨ ¬ s.readable_ m keys.addr (16 * keys.count) ∨
        ¬ s.writable t.fn results (8 * keys.count) ∨ 4 ≤ slot then
      s.setResult c.engine St.anvService 0
    else if (s.threadOf i.id tid).isNone then s.setResult c.engine St.anvNoThread 0
    else
      let s1 := s.setResult c.engine St.ok 0
      match s.table? table with
      | none => s1.produce tid slot ⟨0, St.haloNoTable, srcHalo, none⟩
      | some tab =>
        if tab.owner ≠ t.fn then s1.produce tid slot ⟨0, St.haloTableAccess, srcHalo, none⟩
        else
          let ks := (List.range keys.count).map fun k => BitVec.ofNat 128 (natLE (s.userRead m c.engine (keys.addr + 16 * k) 16))
          let r := s1.searchKeys t.fn c.engine table results ks
          r.2.produce tid slot ⟨keys.count + 4294967296 * r.1, St.ok, srcHalo, none⟩)

/-- SQ_SUBMIT (R231, R278, R279): a job that fails a check completes at once. -/
def execSqSubmit (c : Caller) (desc record tid slot : Nat) (s : State) : Res :=
  .next (s.service c.engine 6 [desc, record, tid, slot] c.run fun s t i m =>
    if ¬ bitAt m.file.flags 1 ∨ ¬ s.readable_ m desc 64 ∨ ¬ s.writable t.fn record 32 ∨ 4 ≤ slot then
      s.setResult c.engine St.anvService 0
    else if (s.threadOf i.id tid).isNone then s.setResult c.engine St.anvNoThread 0
    else
      let s1 := s.setResult c.engine St.ok 0
      let d := sqDescOf (s.userRead m c.engine desc 64)
      match s.sqCheck t.fn c.engine d with
      | some st => s1.sqRecord t.fn c.engine record tid slot d.tag (sqRefused st)
      | none => s1.modSq fun q => { q with
          jobs := q.jobs ++ [⟨t.fn, i.id, c.engine, d, record, tid, slot, none, false⟩] })

/-- HOST_PUT (R278, R279): the put is queued and written as read credit allows. [log 85: DEDUCED] -/
def execHostPut (engine src offset len tid slot : Nat) (run : ThreadRun) (s : State) : Res :=
  .next (s.service engine 7 [src, offset, len, tid, slot] run fun s _ i m =>
    if ¬ bitAt m.file.flags 2 ∨ len = 0 ∨ 1048576 < len ∨ ¬ s.readable_ m src len ∨ 4 ≤ slot then
      s.setResult engine St.anvService 0
    else if (s.threadOf i.id tid).isNone then s.setResult engine St.anvNoThread 0
    else if i.blk.resultLen < offset + len then s.setResult engine St.anvResultRange 0
    else
      ((s.setResult engine St.ok 0).modInst i.id fun x => { x with
        puts := x.puts ++ [⟨engine, tid, slot, offset, s.userRead m engine src len⟩] }).runPuts)

/-- CHUNK_RELEASE (R278, R288): the buffer of this engine at that address returns to delivery. -/
def execChunkRelease (c : Caller) (addr : Nat) (s : State) : Res :=
  .next (s.service c.engine 8 [addr] c.run fun s _ i _ =>
    if (i.held c.engine).any fun k => k.addr == addr then
      (s.modInst i.id fun x => { x with
        chunks := x.chunks.filter fun k => !(k.engine == c.engine && k.addr == addr) }).setResult c.engine St.ok 0
    else s.setResult c.engine St.anvService 0)

/-- MEM_ALLOC (R278): an alignment that is no power of two up to 4 MiB is a bad argument. -/
def execMemAlloc (c : Caller) (bytes align : Nat) (s : State) : Res :=
  .next (s.service c.engine 9 [bytes, align] c.run fun s t i _ =>
    if ¬ (List.range 23).any (fun k => align == 2 ^ k) then s.setResult c.engine St.anvService 0
    else match s.dataAlloc t.fn i.id bytes align with
    | none => s.setResult c.engine St.anvNoMemory 0
    | some (a, s1) => s1.setResult c.engine St.ok a)

/-- MEM_FREE (R278): an address that is none of the instance's allocations is a bad argument. -/
def execMemFree (c : Caller) (addr : Nat) (s : State) : Res :=
  .next (s.service c.engine 10 [addr] c.run fun s t i _ =>
    if addr ≠ i.argAddr ∧ s.anv.mem.any (fun x => x.1 == t.fn && x.2.1 == i.id && x.2.2.1 == addr) then
      (s.modAnv fun a => { a with
        mem := a.mem.filter fun x => !(x.1 == t.fn && x.2.1 == i.id && x.2.2.1 == addr) }).setResult c.engine St.ok 0
    else s.setResult c.engine St.anvService 0)

/-- INST_DONE (R278, R286): the instance ends, and the activation ends as EXIT. -/
def execInstDone (c : Caller) (code resultLen : Nat) (s : State) : Res :=
  .next (s.service c.engine 11 [code, resultLen] c.run fun s t i _ =>
    ((s.endInst i.id St.ok code resultLen).freeThread t.tid).leaveEngine c.engine t.fn)

/-- MOD_LOG (R278, R420): up to 256 bytes in log entries of 16 detail bytes; their class and status are open. [log 91:
DESIGN CHOICE] -/
def execModLog (c : Caller) (addr len : Nat) (s : State) : Res :=
  .next (s.service c.engine 12 [addr, len] c.run fun s t _ m =>
    if 256 < len ∨ ¬ s.readable_ m addr len then s.setResult c.engine St.anvService 0
    else
      let bytes := s.userRead m c.engine addr len
      let st := (s.freeStatus 8).1
      ((List.range ((len + 15) / 16)).foldl (fun a k =>
        a.log (1 + s.free.1.toNat / 257 % 7) t.fn st (natLE ((bytes.drop (16 * k)).take 16)))
        s.free.2).setResult c.engine St.ok 0)

/-! ### Loading a module (R280 to R283) -/

/-- The checks of R283 in their order over a fetched file; `sigOk` is what ECDSA finds of the signature under the key
of KEY_SLOT, where that slot holds one. [log 55: DEDUCED] -/
def State.loadCheck (s : State) (n : Nat) (x : ModFile) : Option Status :=
  let f := moduleOf x.bytes
  let key := s.inForce.modKeys.find? fun k => k.1 == f.keySlot
  if ¬ x.fetchOk then some St.fnDmaError
  else if ¬ elfOk x.bytes then some St.anvElf
  else if ¬ manifestOk x.bytes then some St.anvManifest
  else if ¬ digestOk x.bytes ∨ (key.isSome ∧ ¬ x.sigOk) then some St.anvSignature
  else if key.elim true (fun k => !bitAt k.2.map n) then some St.anvKey
  else if 16 ≤ (s.anv.modules.filter fun m => m.fn == n).length then some St.anvModuleLimit
  else if s.dataBytes n < s.dataUsed n + (f.imageBytes + 65535) / 65536 * 65536 then some St.anvNoMemory
  else none

/-- MODULE_LOAD_DONE (R283): the file of a `mod.load` under way is checked; on success the module is kept under a
handle of the device's choice. [log 5, 16: DESIGN CHOICE; 55: DEDUCED] -/
def execModuleLoadDone (fn longId : Nat) (file : ModFile) (s : State) : Res :=
  if s.recs.longs.any fun l => l.id == longId && l.fn == fn && l.opcode == 0x0A03 && l.status == none then
    match s.loadCheck fn file with
    | some st => .next (s.endLong longId st [])
    | none =>
      if ¬ s.fnExists fn then .next (s.endLong longId St.anvNoMemory [])
      else
        let free := fun h => decide (1 ≤ h) && decide (h ≤ 16) && (s.module? fn h).isNone
        let (h, s1) := s.choose free (((List.range 17).find? free).getD 1)
        .next ((s1.modAnv fun a => { a with modules := a.modules ++ [⟨fn, h, moduleOf file.bytes, false⟩] }).endLong longId
          St.ok [h])
  else .next s

/-! ### Mailbox commands (R295) -/

/-- MOD_KEY_ENROLL (R282, R295). -/
def execModKeyEnroll (fn : Nat) (req : MbReq) (s : State) : Res :=
  .next (s.mbRun Mb.modKeyEnroll fn req fun s =>
    if s.accepted.modKeys.any fun k => k.1 == fld req 0 8 then .refuse St.anvKeySlot []
    else .persist [] (s.record [.keyEnroll (fld req 0 8) ⟨fldB req 36 64, fldB req 4 32⟩]))

/-- MOD_KEY_REVOKE (R282, R295): from now on an exec finds no module loaded under the key. -/
def execModKeyRevoke (fn : Nat) (req : MbReq) (s : State) : Res :=
  .next (s.mbRun Mb.modKeyRevoke fn req fun s =>
    let k := fld req 0 8
    if ¬ s.accepted.modKeys.any (fun x => x.1 == k) then .refuse St.anvKey []
    else .persist [] ((s.record [.keyRevoke k]).modAnv fun a => { a with
      modules := updIf (fun m => m.file.keySlot == k) (fun m => { m with revoked := true }) a.modules }).dropRevoked)

/-- MOD_LOAD (R280, R283, R295): the fetch begins. -/
def execModLoad (fn : Nat) (req : MbReq) (s : State) : Res :=
  .next (s.mbRun Mb.modLoad fn req fun s =>
    if ¬ s.dmaOk fn (fldB req 0 8) (fld req 64 32) then .refuse St.fnDmaWindow []
    else s.long Mb.modLoad fn fun s' => s')

/-- MOD_UNLOAD (R283, R295). -/
def execModUnload (fn : Nat) (req : MbReq) (s : State) : Res :=
  .next (s.mbRun Mb.modUnload fn req fun s =>
    let h := fld req 0 16
    if (s.module? fn h).isNone then .refuse St.anvNoModule []
    else if s.anv.insts.any fun i => i.fn == fn && i.handle == h then .refuse St.anvModuleBusy []
    else .basic [] (s.modAnv fun a => { a with
      modules := a.modules.filter fun m => !(m.fn == fn && m.handle == h) }))

/-- MOD_LIST (R295). -/
def execModList (fn : Nat) (req : MbReq) (s : State) : Res :=
  .next (s.mbRun Mb.modList fn req fun s =>
    .basic ((s.anv.modules.filter fun m => m.fn == fn).flatMap fun m =>
      [m.handle, m.file.moduleId, m.file.moduleVer, m.file.name, m.file.keySlot, m.file.imageBytes,
        (s.anv.insts.filter fun i => i.fn == fn && i.handle == m.handle).length]) s)

/-- ANV_CONFIGURE (R277, R295, R408). -/
def execAnvConfigure (fn : Nat) (req : MbReq) (s : State) : Res :=
  .next (s.mbRun Mb.anvConfigure fn req fun s =>
    let k := fld req 0 2
    match (if k = 0 then none else s.conflict k 0x0A06) with
    | some vals => .refuse St.resourceConflict vals
    | none => .persist [] (s.moveClaim k 0x0A06 fn))

/-- ANV_PROFILE (R26, R27, R293, R295). -/
def execAnvProfile (fn : Nat) (req : MbReq) (s : State) : Res :=
  .next (s.mbRun Mb.anvProfile fn req fun s =>
    let t := if fld req 8 8 = 0 then fn else fld req 8 8
    if ¬ s.fnExists t then .refuse St.fnNoFunction []
    else .basic [] (s.setLater 0x0A07 t (fld req 0 2)))

/-- Threads of a function in a state. -/
def State.threadsIn (s : State) (n : Nat) (st : ThState) : Nat :=
  (s.anv.threads.filter fun t => t.fn == n && t.st == st).length

/-- ANV_STATUS (R295): engines held with their instance, 0 for idle; threads per state; free credits per
pool; ready share used; tokens discarded per hardware producer. -/
def execAnvStatus (fn : Nat) (req : MbReq) (s : State) : Res :=
  .next (s.mbRun Mb.anvStatus fn req fun s =>
    let es := (s.grantOf fn).engineList
    .basic (es.flatMap (fun e => [e, (s.instOn e).elim 0 (·.id)]) ++
      [s.threadsIn fn .waiting, s.threadsIn fn .ready, s.threadsIn fn .running] ++
      ([1, 2, 3, 4, 5].map fun src => poolPerEngine src * es.length - s.tokensOut fn src) ++
      [s.threadsIn fn .ready] ++ ([1, 2, 3, 5].map fun src => assoc s.anv.discards src)) s)

/-- ANV_STATS (R292, R295): the newest records of an engine held; PF0 reads every engine. -/
def execAnvStats (fn : Nat) (req : MbReq) (s : State) : Res :=
  .next (s.mbRun Mb.anvStats fn req fun s =>
    let e := fld req 0 6
    if fn ≠ 0 ∧ ¬ (s.grantOf fn).engineList.contains e then .refuse St.anvEngines []
    else
      let rs := ((s.anv.recs.filter fun r => r.engine == e).reverse).take (fld req 6 7)
      .basic ((rs.flatMap EngRec.bytes).map (·.toNat)) s)

/-- ANV_FAULT_READ (R295): the record of an index, 0 the newest; no values where there is none. -/
def execAnvFaultRead (fn : Nat) (req : MbReq) (s : State) : Res :=
  .next (s.mbRun Mb.anvFaultRead fn req fun s =>
    match ((s.anv.faults.filter fun r => r.fn == fn).reverse)[fld req 0 4]? with
    | some r => .basic [r.inst, r.tid, r.engine, r.mcause, r.mepc, r.mtval, r.status.toNat] s
    | none => .basic [] s)

end Sys2Proof.Machine
end

