-- ==== Sys2Proof/Machine/Ingest.lean ====
section
/-!
DEFINITION. The ingest pipeline and admission (chapters 2, 7, 8): the class of a record, records that
arrive on a port, ingest segments, and the turns of the credit holders.
-/

namespace Sys2Proof.Machine

open Sys2Proof

/-! ### Records of a port (R81, R207, R308) -/

/-- Record `rid` of port `p` that has arrived whole. -/
def State.linkRec? (s : State) (p rid : Nat) : Option LinkRec :=
  (s.port p).recs.find? fun r => r.rid == rid && r.complete

/-- A record of port `p` changed. -/
def State.modRec (s : State) (p rid : Nat) (g : LinkRec → LinkRec) : State :=
  s.modPort p fun x => { x with recs := updIf (fun r => r.rid == rid && r.complete) g x.recs }

/-- A record dropped whole: its peer gets a NAK with the status, and the violation counts (R330). -/
def State.rejectRec (s : State) (p : Nat) (r : LinkRec) (st : Status) : State :=
  ((s.modPort p fun x => { x with recs := x.recs.filter fun y => !(y.rid == r.rid && y.complete) }).sendNak
    p r.src r.rid (s.port p).rxSeq st).violation p st

/-- A link record as it is stored: at the end of the stream that its frames named, SRC_NODE kept (R80,
R304). -/
def State.linkRecord (s : State) (n : Ns) (r : LinkRec) (h : RecHeader) (w : BitVec 32) : Rec :=
  { s.recordOf n { h with stream := r.stream } (r.bytes.drop 32) w true with
    hdr := recStored h true 0 s.hz.epoch }

/-- A record of port `p` admitted, and gone from the ingress buffer. -/
def State.linkGo (s : State) (p : Nat) (n : Ns) (r : LinkRec) (h : RecHeader) (w : BitVec 32)
    (plan : List (Nat × Nat)) : State :=
  let x := s.linkRecord n r h w
  ((s.modPort p fun y => { y with recs := y.recs.filter fun z => !(z.rid == r.rid && z.complete) }).admitRecord
    (portHolder p) n x w r.matched plan).routeRecord n.f.nsid r.stream r.bytes.length

/-- The turn of port `p`: its oldest record that is checked and waits. A record of a mirrored namespace waits
for ADMIT instead (R332). -/
def State.turnPort (s : State) (p : Nat) : Try :=
  match (s.port p).recs.find? (fun r => r.complete && r.word.isSome && !r.mirror) with
  | none => .pass
  | some r =>
    match r.hdr, r.word, s.store.ns? r.nsid with
    | some h, some w, some n =>
      if ¬ s.streamOpen r.nsid r.stream then .done (s.rejectRec p r St.recStream)
      else if s.routeFull r.nsid r.stream r.bytes.length then .pass
      else
        let s0 := s.modRec p r.rid fun x => { x with word := none }
        match s0.recGate (portHolder p) n r.stream h.declLen w with
        | .noCredit => .pass
        | .noHash => .hold
        | .noMeta => .full
        | .noSlot => .pass
        | .noSpace => .done (s.rejectRec p r St.nsFull)
        | .go plan => .done (s.linkGo p n r h w plan)
    | _, _, _ => .done (s.rejectRec p r St.recStream)

/-- A record of a replica admitted on ADMIT, against the mirror credit (R332 step 4); in a tick that admits nothing it
is late (R62, R67). [log 104: DEDUCED] -/
def State.mirrorGo (s : State) (p : Nat) (r : LinkRec) : State :=
  if s.admits = false then s.rejectRec p r St.zlMirrorLate
  else match r.hdr, r.word, s.store.ns? r.nsid with
  | some h, some w, some n =>
    (match (s.modRec p r.rid fun x => { x with word := none }).recGate (portHolder p) n r.stream h.declLen w with
     | .go plan => s.linkGo p n r h w plan
     | .noSpace => s.rejectRec p r St.nsFull
     | _ => s.rejectRec p r St.zlMirrorLate)
  | _, _, _ => s

/-- The records whose ADMIT named the tick that begins, in the order of the ADMIT frames. [log 104: DEDUCED] -/
def State.admitTickets (s : State) : State :=
  (List.range 3).foldl (fun a p =>
    ((a.port p).recs.filter fun r => r.mirror && r.ticket == some a.gtickNow).foldl (fun b r => b.mirrorGo p r) a) s

/-! ### Classification (R202 to R207) -/

/-- PAY_CRC of a record's bytes (R81 check 8). -/
def payCrcOk (h : RecHeader) (bytes : Data) : Bool :=
  !bitAt h.rflags 0 || h.payCrc == (crc32c (bytes.drop 32)).toNat

/-- The class of a host append is found and the checks of R207 pass; then its data is fetched. -/
def State.classHost (s : State) (c : Cmd) (n : Ns) (h : RecHeader) : State :=
  let r := s.classify (classKey c.fn 0 n.f.nsid s.srcNode h)
  match r.2.2.ingestCheck n h r.1 with
  | some st => r.2.2.endCmd c st 0
  | none => r.2.2.modCmd c.seq fun c => { c with
      stage := .needData, word := some r.1, matched := r.2.1, room := wordIdx r.1 }

/-- The class of a link record is found; R207 and PAY_CRC decide, and a record of a replica is answered
HELD (R332). -/
def State.classLink (s : State) (p : Nat) (x : LinkRec) (n : Ns) (h : RecHeader) : State :=
  let r := s.classify (classKey 0 (p + 1) n.f.nsid h.srcNode { h with stream := x.stream })
  match r.2.2.ingestCheck n { h with stream := x.stream } r.1 with
  | some st => r.2.2.rejectRec p x st
  | none =>
    if ¬ payCrcOk h x.bytes then r.2.2.rejectRec p x St.recPayCrc
    else
      let s1 := r.2.2.modRec p x.rid fun x => { x with word := some r.1, matched := r.2.1 }
      if x.mirror then s1.sendTo fMirror x.src x.rid 0 else s1

/-- CLASSIFICATION_RESULT. [log 66: DEDUCED] -/
def execClassificationResult (r : CmdRef) (s : State) : Res :=
  match r with
  | .host fn qid cid =>
    (match s.q.cmds.find? (fun c => c.fn == fn && c.qid == qid && c.e.cid == cid && c.stage == .needClass) with
     | some c =>
       (match s.store.ns? c.e.nsid, c.hdr with
        | some n, some h => .next (s.classHost c n h)
        | _, _ => .next s)
     | none => .next s)
  | .link p rid =>
    match s.linkRec? p rid with
    | some x =>
      (match s.store.ns? x.nsid, x.hdr, x.word with
       | some n, some h, none => .next (s.classLink p x n h)
       | _, _, _ => .next s)
    | none => .next s

/-! ### Ingest segments (R208, R238 to R240) -/

/-- Records that the accepting epoch holds in a stream. -/
def State.epochRecords (s : State) (nsid stream : Nat) : List Rec :=
  (fxRecords nsid (s.epoch?.elim [] (·.fx))).filter fun r => r.stream == stream

/-- The units of a 64 KiB window that the accepting epoch fills, as byte offsets in units of 4 KiB (R238). -/
def State.segUnits (s : State) (nsid stream window : Nat) : List Nat :=
  let rs := s.epochRecords nsid stream
  let first := rs.foldl (fun a r => min a r.offset) (s.streamEnd stream) / 4096
  ((List.range 16).map (16 * window + ·)).filter fun u => decide (first ≤ u) && decide (u < s.streamEnd stream / 4096)

/-- The level of a segment: the lowest CLEVEL among the records with a byte in it. -/
def State.segLevel (s : State) (nsid stream : Nat) (us : List Nat) : Nat :=
  ((s.epochRecords nsid stream).filter fun r =>
    us.any fun u => decide (0 < overlap r.offset (32 + r.payload.length) (4096 * u) 4096)).foldl
      (fun a r => min a r.level) 12

/-- The single units of a segment give way to one item of `c` codewords, with the level and length of its frame (R239,
R240). [log 125: DESIGN CHOICE] -/
def packSegment (nsid : Nat) (keys : List Nat) (c : Nat) (frame : Nat × Nat) (fx : List Fx) : List Fx :=
  let mine := fun (x : Fx) => match x with
    | .item it => it.nsid == nsid && it.units.length == 1 && it.units.all fun u => keys.contains u.1
    | _ => false
  let us := fx.flatMap fun x => match x with | .item it => if mine x then it.units else [] | _ => []
  (fx.filter fun x => !mine x) ++ [.item ⟨nsid, sortOn (·.1) us, none, c, none, false, some frame⟩]

/-- An entry of the log whose class and DETAIL the spec does not state: free values. [log 19: DESIGN CHOICE] -/
def State.openLog (s : State) (fn : Nat) (st : Status) : State :=
  s.free.2.log (1 + s.free.1.toNat % 7) fn st (s.free.1.toNat / 256 % 2 ^ 128)

/-- SEGMENT_COMPRESS_DONE (R208, R238, R239): the segment is stored compressed where that saves a codeword and its
check passes, else as admitted, as where its records would pass the limit of the epoch (R119). Before the cut point
only a full window is compressed. [log 16, 125, 153: DESIGN CHOICE] -/
def execSegmentCompressDone (nsid stream window frameLen : Nat) (checkOk : Bool) (s : State) : Res :=
  let us := s.segUnits nsid stream window
  if ¬ s.halo.segs.any (fun g => g.nsid == nsid && g.stream == stream && g.window == window) ∨
      (s.hz.phase = .accept ∧ s.streamEnd stream < (window + 1) * 65536) then .next s
  else
    let s1 := s.modHalo fun h => { h with
      segs := h.segs.filter fun g => !(g.nsid == nsid && g.stream == stream && g.window == window) }
    let c := (96 + frameLen + 4095) / 4096
    let lvl := s.segLevel nsid stream us
    if lvl = 0 ∨ us.length ≤ c ∨ s.metaFits 0 us.length = false then
      .next (s1.modSq fun q => { q with asAdmitted := q.asAdmitted + 1 })
    else if ¬ checkOk then
      .next ((s1.modSq fun q => { q with verifyFails := q.verifyFails + 1 }).openLog deviceFn St.sqVerify)
    else
      .next ((s1.modSq fun q => { q with compressed := q.compressed + 1 }).modEpoch fun e => { e with
        fx := packSegment nsid (us.map fun u => streamKey stream (4096 * u)) c (lvl, frameLen) e.fx
        hostRecs := e.hostRecs + us.length })

/-! ### Admission (R483) -/

/-- The turn of a credit holder: a function, or port p as 256 + p. [log 59: DEDUCED] -/
def State.turnOf (s : State) (h : Nat) : Try := if h < 256 then s.turnFn h else s.turnPort (h - 256)

/-- The holders in the order of their turns, from `h` on. [log 61: DEDUCED] -/
def turnOrder (hs : List Nat) (h : Nat) : List Nat :=
  let up := sortOn id hs
  (up.filter fun x => decide (h ≤ x)) ++ up.filter fun x => decide (x < h)

/-- The holder waits for the next tick for a hash unit or its budget (R212, R483). [log 59: DEDUCED] -/
def State.holdHolder (s : State) (h : Nat) : State :=
  (s.modHalo fun x => { x with hashWaits := x.hashWaits + 1 }).modHz fun z => { z with credits := updIf (fun c => c.holder == h) (fun c => { c with hold := true }) z.credits }

/-- One turn: that of the first holder in order that has something to take in. [log 59: DEDUCED] -/
def State.admitTurn : List Nat → State → State
  | [], s => s
  | h :: hs, s =>
    if (s.credit h).hold then State.admitTurn hs s
    else match s.turnOf h with
    | .pass => State.admitTurn hs s
    | .block => State.admitTurn hs s
    | .hold => State.admitTurn hs (s.holdHolder h)
    | .full => s.modHz fun z => { z with blocked := true }
    | .done s' => s'.modHz fun z => { z with turn := nextHolder (z.credits.map (·.holder)) h }

/-- ADMISSION (R55, R483). [log 59, 61: DEDUCED] -/
def execAdmission (s : State) : Res :=
  if s.admits then .next (State.admitTurn (turnOrder (s.hz.credits.map (·.holder)) s.hz.turn) s) else .next s

end Sys2Proof.Machine
end

