-- ==== Sys2Proof/Machine/FlashOps.lean ====
section
/-!
DEFINITION. Operations of flash translation and media (chapters 4 to 6): items landed (R139, R140, R239, R240), units and whole
extents moved (R108, R112, R113, R122, R124, R241), losses (R125, R147, R391, R392), reads that are counted, suspend an
operation or end (R146, R148, R160).
-/

namespace Sys2Proof.Machine

open Sys2Proof

/-- Internal media operations start (R50, R161): a tick runs and no monitor inhibits programs. -/
def State.reserveRuns (s : State) : Bool := s.hz.ticking && !s.flash.inhibited

/-! ### Codewords of units (R140, R240) -/

/-- UTYPE of a namespace's units. -/
def State.unitType (s : State) (nsid : Nat) : Nat :=
  if (s.store.ns? (nsid % 0x8000)).elim true Ns.isBlock then 1 else 2

/-- FLAGS of an item's codewords: compressed, PI8 or PI16 present. -/
def State.itemFlags (s : State) (it : Item) : Nat :=
  (if it.frame.isSome then 1 else 0) +
    (match it.pi with
     | none => 0
     | some _ => if (s.store.ns? (it.nsid % 0x8000)).elim 0 (·.f.pi) = 2 then 4 else 2)

/-- Codeword `j` of an item of epoch `n` that lands from `a` on, at `x`: codeword j of a compressed segment has the key of its
first unit plus j, and the first one holds the units. -/
def State.itemCell (s : State) (it : Item) (a n j x : Nat) : Codeword :=
  { addr := x, nsid := it.nsid % 0x8000, utype := s.unitType it.nsid, flags := s.itemFlags it,
    key := (it.units.head?).elim 0 (·.1) + j, epoch := n, data := it.part j, units := if j = 0 then it.units else [],
    pi := it.pi, item := a }

/-- The codewords of an item at `xs`, its first at `a`, every program confirmed. A codeword that spans two pages counts as
confirmed with the page of its last byte, which is the status that the command reports (R139). -/
def State.landItem (s : State) (it : Item) (a n : Nat) (xs : List Nat) : State :=
  xs.zipIdx.foldl (fun st x => st.confirmCell (s.itemCell it a n x.2 x.1)) s

/-- The codewords of the item that `c` belongs to, in order: itself, and those that a compressed segment goes on in. -/
def State.itemCells (s : State) (c : Codeword) : List Codeword :=
  sortOn (·.key) (s.flash.cells.filter fun x => x.item == c.item && (x.utype == 1 || x.utype == 2))

/-- The codeword that holds the units of the item that `c` belongs to. -/
def State.headOf (s : State) (c : Codeword) : Codeword := (s.cell? c.item).getD c

/-! ### Live units (R113) -/

/-- A unit of a codeword is live: the map names the codeword. -/
def State.liveUnit (s : State) (nsid key a : Nat) : Bool := s.store.mapHit nsid key == .flash a

/-- A move of this unit from this codeword is under way. -/
def State.moving (s : State) (nsid key a : Nat) : Bool :=
  s.flash.moves.any fun m => m.src == a && m.nsid == nsid && m.key == key && !m.zero

/-- The live units of a codeword, in either layout of its namespace. -/
def State.liveAll (s : State) (c : Codeword) : List (Nat × Nat) :=
  ([c.nsid, newLayout c.nsid].flatMap fun i => (c.units.map fun u => (i, u.1))).filter fun x => s.liveUnit x.1 x.2 c.addr

/-- Those of them that no move takes yet. -/
def State.liveOf (s : State) (c : Codeword) : List (Nat × Nat) :=
  (s.liveAll c).filter fun x => !s.moving x.1 x.2 c.addr

/-- The live codewords that `p` picks, in order of namespace and key. -/
def State.liveCells (s : State) (p : Nat → Bool) : List Codeword :=
  sortOn (fun c => c.nsid * 2 ^ 48 + c.key) (s.flash.cells.filter fun c =>
    (c.utype == 1 || c.utype == 2) && p c.addr && s.liveOf c != [])

/-! ### Moves (R108, R112, R113, R122, R241) -/

/-- Units of an extent up to the stored end of its stream. -/
def State.extentLen (s : State) (ek : Nat) : Nat :=
  let units := ((s.store.stream? (ek / 2 ^ 24)).elim 0 fun x => (x.stored + 4095) / 4096)
  min 256 (units - ek % 2 ^ 24 * 256)

/-- The extent is not the tail of an open stream (R107). -/
def State.closedExtent (s : State) (ek : Nat) : Bool :=
  match s.store.stream? (ek / 2 ^ 24) with
  | none => false
  | some x => !(x.isOpen && streamKey x.num x.stored / 256 == ek) && decide (0 < s.extentLen ek)

/-- The units of an extent in order, each with the codeword that the map names for it; none reads as zeros or is LOST. `nsid`
may be that of a new layout, which is filled from the old one. -/
def State.extentPlan (s : State) (nsid ek : Nat) : List (Nat × Option Nat) :=
  (List.range (s.extentLen ek)).map fun i =>
    (ek * 256 + i, match s.store.mapHit (nsid % 0x8000) (ek * 256 + i) with | .flash a => some a | _ => none)

/-- Codewords that the copy of the item at `a` takes: a compressed segment is kept whole (R240). -/
def State.copyLen (s : State) (a : Nat) : Nat := (s.cell? a).elim 1 fun c => max 1 (s.itemCells c).length

/-- The extent holds a compressed segment, so that its run begins with an extent head (R241). -/
def State.headed (s : State) (plan : List (Nat × Option Nat)) : Bool :=
  plan.any fun x => (x.2.bind s.cell?).elim false fun c => bitAt c.flags 0

/-- Codewords that the run of an extent takes: its head, one for each unit stored as admitted, those of each compressed segment
once. -/
def State.planLen (s : State) (plan : List (Nat × Option Nat)) : Nat :=
  b2n (s.headed plan) + (plan.filter (·.2.isNone)).length + sumBy s.copyLen ((plan.filterMap (·.2)).eraseDups)

/-- The moves of an EXTENT_SET over the data positions `xs`: `done` lists the sources that have a copy already, `head` the place
of an extent head. -/
def State.planMoves (s : State) (nsid : Nat) : List (Nat × Option Nat) → List (Nat × Nat) → List Nat → List Nat → List Move
  | [], _, _, _ => []
  | (k, none) :: r, done, head, xs =>
    ⟨nsid, k, 0, xs.headD 0, false, none, head ++ xs.take 1, s.hz.epoch, true, true, 0⟩ :: s.planMoves nsid r done [] (xs.drop 1)
  | (k, some a) :: r, done, head, xs =>
    match done.find? fun x => x.1 == a with
    | some x => ⟨nsid, k, a, x.2, false, none, head, s.hz.epoch, true, false, 0⟩ :: s.planMoves nsid r done [] xs
    | none =>
      ⟨nsid, k, a, xs.headD 0, false, none, head ++ xs.take (s.copyLen a), s.hz.epoch, true, false, 0⟩ ::
        s.planMoves nsid r ((a, xs.headD 0) :: done) [] (xs.drop (s.copyLen a))

/-- What moves as one: a codeword with its units, or a closed extent whole. -/
inductive MoveItem where
  | one (c : Codeword)
  | extent (nsid ek : Nat)
  deriving DecidableEq, Repr

/-- What the live codewords that `p` picks move as: units of a closed stream extent in their extent, written as a COARSE run;
units of a tail extent and of block namespaces for themselves (R108, R112). -/
def State.moveItems (s : State) (p : Nat → Bool) : List MoveItem :=
  ((s.liveCells p).map fun c =>
    match (s.liveOf c).head? with
    | some u => if s.store.inExtents u.1 && s.closedExtent (extentKey u.2) then .extent u.1 (extentKey u.2) else .one c
    | none => .one c).eraseDups

/-- No move of a unit of the extent is under way. -/
def State.extentRests (s : State) (nsid ek : Nat) : Bool :=
  !s.flash.moves.any fun m => m.nsid == nsid && extentKey m.key == ek

/-- Moves added, at most 65,536 in flight (R12). -/
def State.addMoves (s : State) (ms : List Move) : Option State :=
  if s.flash.moves.length + ms.length ≤ 65536 then some (s.modFlash fun f => { f with moves := f.moves ++ ms }) else none

/-- An extent moved whole into a run from `a` on, with the data position that follows the run; none where it does not fit
there (R112, R175, R241). -/
def State.moveExtent (s : State) (a nsid ek : Nat) : Option (Nat × State) :=
  let plan := s.extentPlan nsid ek
  let redun := s.store.redunOf nsid
  if s.extentRests nsid ek = false ∨ plan = [] then none
  else
    (State.takeRun redun s.hz.epoch 1 true (s.planLen plan) a s).bind fun r =>
      let h := b2n (s.headed plan)
      (r.2.addMoves (s.planMoves nsid plan [] (r.1.take h) (r.1.drop h))).map fun st =>
        ((st.nextData redun s.hz.epoch 1 true (r.1.getLastD a)).getD 0, st)

/-- A codeword moved to `a` with those of its live units that have one code (R112, R113). -/
def State.moveOne (s : State) (a : Nat) (c : Codeword) : Option (Nat × State) :=
  match (s.liveOf c).head? with
  | none => none
  | some u =>
    let redun := s.store.redunOf u.1
    (State.takeRun redun s.hz.epoch 1 true (max 1 (s.itemCells c).length) a s).bind fun r =>
      (r.2.addMoves (((s.liveOf c).filter fun x => s.store.redunOf x.1 == redun).map fun x =>
        ⟨x.1, x.2, c.addr, r.1.headD 0, false, none, r.1, s.hz.epoch, false, false, 0⟩)).map fun st =>
        ((st.nextData redun s.hz.epoch 1 true (r.1.getLastD a)).getD 0, st)

/-- Items moved one after the other from `a` on; one that does not fit there is left for later. -/
def State.moveAll (s : State) (a : Nat) : List MoveItem → State
  | [] => s
  | i :: is =>
    match (match i with | .one c => s.moveOne a c | .extent n ek => s.moveExtent a n ek) with
    | some r => r.2.moveAll r.1 is
    | none => s.moveAll a is

/-- The live codewords that `p` picks moved to `target` on, in a QLC super-block; `must`: for folding or collection (R112, R113,
R116, R182). -/
def State.moveLive (s : State) (must : Bool) (p : Nat → Bool) (target : Nat) : State :=
  match s.withSuper must (superOf target) 1 with
  | some s1 => s1.moveAll target (s.moveItems p)
  | none => s

/-- A super-block for moves that the device chooses itself: an open QLC one of which no block has failed, or a new
one. [log 5: DESIGN CHOICE; 71: DEDUCED] -/
def State.ownTarget (s : State) : Nat × State :=
  let whole := fun sb => (s.flash.blocks.filter fun b => superOf b.blk == sb).all fun b => b.st == .openQlc
  match s.flash.parity.find? (fun p => p.mode == 1 && !p.pending && whole p.sb) with
  | some p => (p.sb, s)
  | none => s.choose (fun sb => s.mayOpen true sb 1) 0

/-- The live codewords that `p` picks moved into a super-block and die group of the device's choice (R124, R147,
R159, R189). -/
def State.rewrite (s : State) (p : Nat → Bool) : State :=
  let is := s.moveItems p
  if is = [] then s
  else
    let r := s.ownTarget
    match r.2.withSuper true r.1 1 with
    | some s1 =>
      let c := match is with
        | .one c :: _ => ((s.liveOf c).head?).elim 0 fun u => s.store.redunOf u.1
        | .extent n _ :: _ => s.store.redunOf n
        | [] => 0
      let at_ := (List.range s1.dieSlots).filterMap fun t => s1.freshData c r.1 t 1 true
      s1.moveAll (at_.getD (s1.free.1.toNat % max 1 at_.length) 0) is
    | none => s

/-- A block marked for refresh (R147, R160). -/
def State.markRefresh (s : State) (blk : Nat) : State :=
  if s.flash.blocks.any fun b => b.blk == blk && !b.refresh then
    (s.modBlock blk fun b => { b with refresh := true }).modDie (globalDie blk)
      fun d => { d with refreshMarks := d.refreshMarks + 1 }
  else s

/-! ### Losses (R125, R391, R392) -/

/-- A loss that an internal operation finds, reported by the mode in force: `n` units of a namespace, the first
of them `key`. -/
def State.reportLoss (s : State) (st : Status) (nsid key n : Nat) : State :=
  if s.q.perCommand then s.nsEvent st nsid n
  else (s.log 2 deviceFn st (nsid + 4294967296 * n + 18446744073709551616 * key)).record [.deferred nsid true]

/-- The live units of an item that no confirmed copy holds. -/
def State.lostUnits (s : State) (c : Codeword) : List (Nat × Nat) :=
  (s.liveAll c).filter fun u => !s.flash.moves.any fun m =>
    m.src == c.addr && m.nsid == u.1 && m.key == u.2 && m.confirmed && !m.zero

/-- The live units of the item of codeword `c` recorded LOST; the moves that were to copy them are dropped, an EXTENT_SET as a
whole. -/
def State.loseCell (s : State) (c : Codeword) : State :=
  let h := s.headOf c
  let gone := s.flash.moves.filter fun m => m.src == h.addr && !m.confirmed && !m.zero
  let s1 := s.modFlash fun f => { f with
    moves := f.moves.filter fun m => !gone.any fun g => g == m || (g.coarse && (s.moveGroup g).contains m) }
  (s.lostUnits h).foldl (fun a u => a.addFx (.lost u.1 u.2)) s1

/-- The units lost, found by an internal operation, with the status of its report. -/
def State.loseInternal (s : State) (st : Status) (c : Codeword) : State :=
  let us := (s.lostUnits (s.headOf c)).filter fun u => decide (u.1 < 0x8000)
  match us with
  | [] => s.loseCell c
  | u :: _ => (s.loseCell c).reportLoss st u.1 u.2 us.length

/-! ### Reads (R125, R146, R148, R160) -/

/-- A command reads the codeword at `a`, or a segment whose units it needs. -/
def State.readingOf (s : State) (a : Nat) : List Cmd :=
  s.q.cmds.filter fun c => c.toRead.any fun x => x.1 == a

/-- The codeword at `a` has been recovered: every command that waits for it goes on. -/
def State.readDone (s : State) (a : Nat) : State :=
  (s.readingOf a).foldl (fun st c =>
    let c1 := { c with toRead := c.toRead.filter fun x => x.1 != a }
    (st.modCmd c.seq fun _ => c1).finishRead c1) s

/-- The codeword at `a` is lost: each command that waits for it ends before the first unit that it lost (R125,
R379). -/
def State.readLost (s : State) (a : Nat) : State :=
  (s.readingOf a).foldl (fun st c =>
    match s.store.ns? c.e.nsid with
    | none => st
    | some n =>
      let x := ((c.toRead.filter fun y => y.1 == a).map fun y => lostAt n c y.2).foldl min c.done
      let c1 := { c with
        done := x, left := 0, status := St.ftUnitLost, stage := .reading
        toRead := c.toRead.filter fun y => y.1 != a && decide (lostAt n c y.2 < x) }
      (st.modCmd c.seq fun _ => c1).finishRead c1) s

/-- `n` reads of a block counted; at the read-disturb share of its limit it is marked for refresh (R160). -/
def State.countReads (s : State) (blk n : Nat) : State :=
  let k := s.flash.readSeq + 1
  let s1 := (s.modFlash fun f => { f with readSeq := k }).modBlock blk fun b => { b with reads := b.reads + n, seen := k }
  if s1.flash.blocks.any fun b => b.blk == blk &&
      decide (s.param 0x0524 0 * s.profile.readDisturb ≤ 100 * b.reads) then s1.markRefresh blk else s1

/-- A read of a block counted. -/
def State.countRead (s : State) (blk : Nat) : State := s.countReads blk 1

/-- A read of a die that is erasing: one for a command suspends the erase as often as the profile permits, any other read waits
for its end, and so does a command's once the erase has been suspended that often (R148). None: the read waits. -/
def State.suspendErase (s : State) (a : Nat) : Option State :=
  match s.flash.blocks.find? fun b => b.erasing && globalDie b.blk == globalDie a with
  | none => some s
  | some b =>
    if s.readingOf a ≠ [] ∧ b.suspends < s.profile.suspErase then
      some (s.modBlock b.blk fun b => { b with suspends := b.suspends + 1 })
    else none

/-- The program under way on the die of `a`: the oldest copy bound for it whose intent entry is confirmed. -/
def State.programOn (s : State) (a : Nat) : Option Move :=
  s.flash.moves.find? fun m => !m.confirmed && globalDie m.dst == globalDie a && s.intentKept m.epoch

/-- A read for a command suspends the program of a copy on its die as often as the profile permits, but none during a
drain; it waits for one that has been suspended that often, which is time and not state (R148). [log 158: DEDUCED] -/
def State.suspendProgram (s : State) (a : Nat) : State :=
  match s.programOn a with
  | none => s
  | some m =>
    if s.readingOf a ≠ [] ∧ s.pw.st ≠ .draining ∧ m.suspends < s.profile.suspProg then
      s.modFlash fun f => { f with
        moves := updIf (fun x => x.dst == m.dst) (fun x => { x with suspends := x.suspends + 1 }) f.moves }
    else s

end Sys2Proof.Machine
end

