-- ==== Sys2Proof/Machine/Media.lean ====
section
/-!
DEFINITION. Flash translation and media: landing programs (R43), map segments (R103, R105, R121), folding,
collection and consolidation (R108, R112, R113, R122, R124), decode and retry ladder (R142 to R147), read offsets
and training (R149 to R152), verify scans and patrol (R154, R159, R160), and their mailbox commands (R131, R167).
-/

namespace Sys2Proof.Machine

open Sys2Proof

/-! ### Landing programs (R43 rows 2 and 3) -/

/-- Item `i` of an epoch's effects. -/
def itemAt (fx : List Fx) (i : Nat) : Option Item :=
  (fx.filterMap fun x => match x with | .item it => some it | _ => none)[i]?

/-- Item `i` of an epoch's effects changed. -/
def setItem (g : Item → Item) : List Fx → Nat → List Fx
  | [], _ => []
  | .item it :: xs, 0 => .item (g it) :: xs
  | .item it :: xs, i + 1 => .item it :: setItem g xs i
  | x :: xs, i => x :: setItem g xs i

/-- Landing programs of epoch `n` run: closed, its intent entry confirmed, in a later tick or a drain, while no supply
monitor inhibits programs (R36, R43, R161, R162, R188). [log 159: DEDUCED] -/
def State.landing? (s : State) (n : Nat) : Option Epoch :=
  s.hz.epochs.find? fun e => e.n == n && e.closed && !e.isSealed && e.intentOk && s.programsRun && !s.flash.inhibited &&
    (decide (e.n < s.hz.epoch) || s.pw.st == .draining)

/-- Item `i` of epoch `n` is not yet confirmed and has its codewords from `a` on, in a landing super-block that is open or is
opened for it: the item, its data positions, the state in which they are taken. -/
def State.landingFits (s : State) (n i a : Nat) : Option (Item × List Nat × State) :=
  match s.landing? n with
  | none => none
  | some e =>
    match itemAt e.fx i, s.withSuper true (superOf a) 0 with
    | some it, some s1 =>
      if it.confirmed then none
      else (State.takeRun (s1.store.redunOf it.nsid) n 0 false (max 1 it.codewords) a s1).map fun r => (it, r)
    | _, _ => none

/-- LANDING_PROGRAM_DONE (R43 row 3, R153): the item has landed at `addr`. What was bound for a member that has failed stands
there as an erasure that P and Q cover (R179). -/
def execLandingProgramDone (epoch item addr : Nat) (s : State) : Res :=
  match s.landingFits epoch item addr with
  | some (it, xs, s1) =>
    .next ((s1.landItem it addr epoch xs).modHz fun h => { h with
      epochs := updIf (fun e => e.n == epoch)
        (fun e => { e with fx := setItem (fun x => { x with addr := some addr, confirmed := true }) e.fx item }) h.epochs })
  | none => .next s

/-- The data positions `as` are given back: nothing has been stored there. -/
def State.untake (s : State) (as : List Nat) : State :=
  s.modFlash fun f => { f with
    stripes := f.stripes.map fun p => { p with taken := p.taken.filter fun a => !as.contains a } }

/-- A program into the block of `a` has failed: the block is condemned, the failure counted and reported (R124, R163). -/
def State.programFailed (s : State) (a : Nat) : State :=
  ((s.condemn (blockOf a)).modDie (globalDie a) fun d => { d with progFails := d.progFails + 1 }).mediaEvent
    St.mediaProgramFail (globalDie a)

/-- LANDING_PROGRAM_FAIL (R43 row 3, R124, R163): the block takes no more programs; the item is to be programmed
again elsewhere. -/
def execLandingProgramFail (epoch item addr : Nat) (s : State) : Res :=
  match s.landingFits epoch item addr with
  | some (_, xs, s1) => .next ((s1.untake xs).programFailed addr)
  | none => .next s

/-! ### The map cache (R102 to R105, R121) -/

/-- A segment has been loaded: every command that waits for it goes on (R103). -/
def State.loadDone (s : State) (k : Nat × Nat × Nat) : State :=
  (s.q.cmds.filter fun c => c.loads.contains k).foldl (fun st c =>
    let c1 := { c with loads := c.loads.filter fun x => x != k }
    (st.modCmd c.seq fun _ => c1).finishRead c1) s

/-- SEGMENT_LOAD_DONE (R102, R103): the entries loaded stand under those held, and the segment is whole. -/
def execSegmentLoadDone (nsid typ idx : Nat) (s : State) : Res :=
  if s.flash.dirEnts.any fun x => x.1 == nsid && x.2.1 == typ && x.2.2.1 == idx then
    let old := (s.flash.segs.find? fun g => g.is nsid typ idx).getD ⟨nsid, typ, idx, true, none, [], none⟩
    .next ((s.modFlash fun f => ({ f with
      segs := evictSegs ((f.segs.filter fun (g : Segment) => !g.is nsid typ idx) ++ [{ old with whole := true, held := [] }]) }).access
        (nsid, typ, idx)).loadDone (nsid, typ, idx))
  else .next s

/-- The dirty segment with the oldest first change, not yet written back. -/
def State.oldestDirty (s : State) : Option Segment :=
  let ds := s.flash.segs.filter fun g => g.dirtyAt.isSome &&
    !s.flash.writeback.any fun w => g.is w.1 w.2.1 w.2.2.1
  let low := ds.foldl (fun a g => min a (g.dirtyAt.getD 0)) s.hz.epoch
  ds.find? fun g => g.dirtyAt == some low

/-- A structure of the map area programmed from `a` on: the data positions taken, and the state with it. -/
def State.programMap (s : State) (a : Nat) (d : Data) : Option (List Nat × State) :=
  match s.withSuper true (superOf a) 2 with
  | none => none
  | some s1 => (State.takeRun 0 s.hz.epoch 2 false (codewordsOf d).length a s1).map fun r => (r.1, r.2.putSys r.1 0 (codewordsOf d))

/-- SEGMENT_WRITEBACK (R100, R101, R105): the oldest dirty segment programmed to four codewords of the map area; one that
is partial over a copy on flash is loaded first. -/
def execSegmentWriteback (addr : Nat) (s : State) : Res :=
  match s.oldestDirty with
  | none => .next s
  | some g =>
    let onFlash := s.flash.dirEnts.any fun x => x.1 == g.nsid && x.2.1 == g.typ && x.2.2.1 == g.idx
    if s.reserveRuns = true ∧ (g.whole = true ∨ onFlash = false) then
      match s.programMap addr (s.store.segBytes g.nsid g.typ g.idx s.store.sealed) with
      | some r => .next (r.2.modFlash fun f => { f with writeback := f.writeback ++ [(g.nsid, g.typ, g.idx, addr)] })
      | none => .next s
    else .next s

/-- DIRECTORY_CHECKPOINT (R107, R121): the directory and the overlays programmed from `addr` on; complete when a CKPT
record that names it is sealed. [log 147: DESIGN CHOICE] -/
def execDirectoryCheckpoint (addr : Nat) (s : State) : Res :=
  if s.reserveRuns = true ∧ s.flash.ckpt = none then
    match s.programMap addr (s.store.checkpointBytes s.flash.dirEnts) with
    | some r => .next (r.2.modFlash fun f => { f with ckpt := some addr, ckptCws := r.1 })
    | none => .next s
  else .next s

/-! ### Folding, collection, consolidation -/

/-- The write-back floor is reached: write-back goes before every move (R121). -/
def State.writebackDue (s : State) : Bool :=
  decide (s.param 0x0514 0 ≤ s.store.sealed - s.flash.replayFrom s.store.sealed)

/-- Moves start. -/
def State.movesRun (s : State) : Bool := s.reserveRuns && !s.writebackDue

/-- The landing blocks of a super-block. -/
def State.landingOf (s : State) (sb : Nat) : List Block :=
  s.flash.blocks.filter fun b => superOf b.blk == sb && !b.qlc && b.st != .map

/-- A landing super-block that can be folded: full, or folded in part (R112, R126). -/
def State.foldable (s : State) (sb : Nat) : Bool :=
  !(s.landingOf sb).isEmpty &&
    (s.landingOf sb).all fun b => b.st == .fullLanding || b.st == .victim || b.st == .eraseWait || b.st == .retired

/-- The oldest landing super-block with something to fold: by the epoch of its last program. -/
def State.oldestLanding (s : State) : Option Nat :=
  let todo := fun sb => s.foldable sb && ((s.landingOf sb).any (fun b => b.st == .fullLanding) ||
    !(s.liveCells fun a => superOf a == sb).isEmpty)
  (sortOn (fun sb => (s.landingOf sb).foldl (fun a b => max a b.stamp) 0) (s.landingSupers.filter todo)).head?

/-- FOLD (R108, R112, R122 steps 1 to 3): the blocks of the oldest full landing super-block become victims and its live
units are copied from `target` on, each closed stream extent whole. -/
def execFold (target : Nat) (s : State) : Res :=
  match s.oldestLanding with
  | some sb =>
    if s.movesRun then
      .next ((s.modFlash fun f => { f with
        blocks := updIf (fun b => superOf b.blk == sb && b.st == .fullLanding)
          (fun b => { b with st := .victim }) f.blocks }).moveLive true (fun a => superOf a == sb) target)
    else .next s
  | none => .next s

/-- A full block of QLC or map-area blocks that is marked for refresh. -/
def Block.refreshDue (b : Block) : Bool := b.refresh && (b.st == .fullQlc || b.st == .map)

/-- The victim policy ranks `a` no lower than `b`: fewer live units, or a benefit (1 - u) x age / (1 + u) no less, where a block
holds `cap` units (R113). -/
def policyPrefers (costBenefit : Bool) (cap now : Nat) (a b : Block) : Bool :=
  if costBenefit then
    decide ((cap - b.live) * (now - b.stamp) * (cap + a.live) ≤ (cap - a.live) * (now - a.stamp) * (cap + b.live))
  else decide (a.live ≤ b.live)

/-- A block may be collected now: a victim goes on; a block marked for refresh is its die's next victim; background collection,
while it runs, takes the full QLC block that the policy ranks highest on dies without such a mark (R113, R114, R147,
R160). -/
def State.collectable (s : State) (b : Block) : Bool :=
  let marked := fun die => s.flash.blocks.any fun x => globalDie x.blk == die && x.refreshDue
  let full := s.flash.blocks.filter fun x => x.st == .fullQlc && !marked (globalDie x.blk)
  b.st == .victim || b.refreshDue ||
    (s.flash.collecting && full.contains b &&
      full.all fun x => policyPrefers (s.param 0x0512 0 == 1) s.profile.cwPerBlock s.hz.epoch b x)

/-- GC_COLLECT (R108, R113, R122 steps 1 to 3): the victim's live units are copied from `target` on; structures of the map
area in it are to be rewritten. -/
def execGcCollect (victim target : Nat) (s : State) : Res :=
  match s.flash.blocks.find? (fun b => b.blk == victim) with
  | some b =>
    if s.movesRun = true ∧ s.collectable b = true then
      .next (((s.modBlock victim fun b => { b with st := .victim }).renewSys fun a => blockOf a == victim).moveLive true
        (fun a => blockOf a == victim) target)
    else .next s
  | none => .next s

/-- CONSOLIDATION (R108): an extent with enough hot units, or, while fewer than 1,024 overlay slots are free, the one whose
overlay is least recently changed, is copied whole from `target` on. -/
def execConsolidation (nsid extent target : Nat) (s : State) : Res :=
  let ovls := s.store.extents.filter fun x => x.run != [] && x.ovl.isSome
  match ovls.find? (fun x => x.nsid == nsid && x.key == extent) with
  | some x =>
    if s.movesRun = true ∧ (s.param 0x0513 0 ≤ x.hot.length ∨
        (15360 < s.overlaysUsed ∧ ovls.all (fun y => decide (x.changed ≤ y.changed)) = true)) then
      .next (((s.withSuper false (superOf target) 1).bind fun s1 => s1.moveExtent target nsid extent).elim s (·.2))
    else .next s
  | none => .next s

/-- The extent head of a run programmed at its place (R241). -/
def State.programHead (s : State) (m : Move) (a : Nat) : State :=
  if (s.cell? a).isSome then s
  else s.confirmCell { sysCell a (extentKey m.key) m.epoch a (headBytes (m.nsid % 0x8000) (extentKey m.key) (offsOf (s.moveGroup m)))
    with nsid := m.nsid % 0x8000 }

/-- The codewords of a copy at the positions `xs`: those of its source, or a codeword of zeros (R106, R240). -/
def State.programCopy (s : State) (m : Move) (xs : List Nat) : State :=
  if m.zero then
    s.confirmCell ⟨m.dst, m.nsid % 0x8000, s.unitType m.nsid, 0, m.key, m.epoch, [], [(m.key, [])], none, m.dst⟩
  else
    (xs.zip ((s.cell? m.src).elim [] s.itemCells)).foldl (fun st x =>
      st.confirmCell { x.2 with addr := x.1, epoch := m.epoch, item := m.dst }) s

/-- MOVE_PROGRAM_DONE (R122 step 4, R153, R161, R188): the copy at `dst` is confirmed, the head of its run with it.
[log 2: DESIGN CHOICE; 159: DEDUCED] -/
def execMoveProgramDone (dst : Nat) (s : State) : Res :=
  match s.flash.moves.find? fun m => m.dst == dst && !m.confirmed with
  | none => .next s
  | some m =>
    if s.programsRun = true ∧ s.flash.inhibited = false ∧ s.intentKept m.epoch = true then
      let s1 := if m.cws.headD dst = dst then s else s.programHead m (m.cws.headD dst)
      let s2 := s1.programCopy m (m.cws.dropWhile fun a => a != dst)
      .next (s2.modFlash fun f => { f with
        moves := updIf (fun x => x.dst == dst) (fun x => { x with confirmed := true }) f.moves })
    else .next s

/-- MOVE_PROGRAM_FAIL (R124): every copy to the block whose move is not sealed is redone elsewhere from its source, an
EXTENT_SET as a whole; the block becomes a victim, and what it holds is moved. -/
def execMoveProgramFail (dst : Nat) (s : State) : Res :=
  let blk := blockOf dst
  let in_ := fun m : Move => (m.dst :: m.cws).any fun a => blockOf a == blk
  if s.programsRun = true ∧ s.flash.moves.any (fun m => m.dst == dst && !m.confirmed && s.intentKept m.epoch) = true then
    let bad := fun m : Move => (s.moveGroup m).any in_
    let redo := (s.flash.moves.filter fun m => bad m && !m.zero).map (·.src)
    let s1 := (s.modFlash fun f => { f with moves := f.moves.filter fun m => !bad m }).programFailed dst
    .next (s1.rewrite fun a => redo.contains a || blockOf a == blk)
  else .next s

/-! ### Erases (R122 steps 7 and 8, R163) -/

/-- BLOCK_ERASE (R43 row 10, R122, R161): the erase of a block awaiting it starts once no read that resolved to it is
pending. -/
def execBlockErase (blk : Nat) (s : State) : Res :=
  let ok := s.flash.blocks.any fun b => b.blk == blk && b.st == .eraseWait && !b.erasing && decide (b.eraseFrom ≤ s.hz.epoch)
  let reads := s.q.cmds.any fun c => c.toRead.any fun x => blockOf x.1 == blk
  if s.reserveRuns = true ∧ s.hz.phase = .accept ∧ ok = true ∧ reads = false then
    .next (s.modBlock blk fun b => { b with erasing := true, suspends := 0 })
  else .next s

/-- A super-block of which every block has been erased holds no parity, log or stripe (R154). -/
def State.freeParity (s : State) (sb : Nat) : State :=
  if s.flash.blocks.any fun b => superOf b.blk == sb && b.st != .retired then s
  else s.modFlash fun f => { f with
    parity := f.parity.filter fun p => p.sb != sb, logs := f.logs.filter fun l => l.sb != sb
    stripes := f.stripes.filter fun p => p.sb != sb, logSupers := f.logSupers.filter fun x => x != sb }

/-- ERASE_DONE (R122 step 8, R163): the block is FREE, with BLOCK_STATE 0 in the next entry, or retired at the P/E limit of its
mode. -/
def execEraseDone (blk : Nat) (s : State) : Res :=
  match s.flash.blocks.find? (fun b => b.blk == blk && b.erasing) with
  | none => .next s
  | some b =>
    let mode := b2n b.qlc
    let s1 := s.modFlash fun f => { f with
      cells := f.cells.filter fun c => blockOf c.addr != blk
      wear := bump f.wear (2 * blk + mode) 1 }
    if FlashProfile.peLimit s.profile mode ≤ s1.wearCount blk mode then .next ((s1.retireBlock blk).freeParity (superOf blk))
    else .next ((s1.modFlash fun f => { f with
      blocks := f.blocks.filter fun x => x.blk != blk, erased := f.erased ++ [blk] }).freeParity (superOf blk))

/-- ERASE_FAIL (R124, R163): the block is retired. -/
def execEraseFail (blk : Nat) (s : State) : Res :=
  if s.flash.blocks.any fun b => b.blk == blk && b.erasing then
    let s1 := (s.modDie (globalDie blk) fun d => { d with eraseFails := d.eraseFails + 1 }).mediaEvent
      St.mediaEraseFail (globalDie blk)
    .next ((s1.retireBlock blk).freeParity (superOf blk))
  else .next s

/-! ### Decode and the retry ladder (R141 to R147) -/

/-- The bin of the block that holds `a`. -/
def State.binAt (s : State) (a : Nat) : Nat × Nat × Nat :=
  (s.flash.blocks.find? fun b => b.blk == blockOf a).elim (globalDie a, 0, 0) s.binOf

/-- A codeword that only a reconstruction could read is written anew at once: its item's units move, a structure of the map
area is rewritten (R147, R159). -/
def State.renewCell (s : State) (c : Codeword) : State :=
  if c.utype = 3 then s.renewSys fun a => a == c.addr else s.rewrite fun a => a == (s.headOf c).addr

/-- A codeword counts toward its block's verify tolerance (R147, R159). -/
def State.countFailing (s : State) (a : Nat) : State :=
  s.modFlash fun f => { f with
    parity := updIf (fun p => p.sb == superOf a && !p.failing.contains a) (fun p => { p with failing := p.failing ++ [a] }) f.parity }

/-- A decode at level `l` succeeded: counted, and what R147 asks of that level. -/
def State.decoded (s : State) (c : Codeword) (l corrected : Nat) : State :=
  let k := s.binAt c.addr
  let s1 := s.modDie (globalDie c.addr) fun d => { d with levels := updAt d.levels l (· + 1), noReady := 0 }
  let s2 := if l ≤ 2 then s1.track k corrected else s1
  let s3 := if l = 2 then s2.wantBin k else s2
  let s4 := if 5 ≤ l ∨ s.param 0x0520 0 ≤ l then s3.markRefresh (blockOf c.addr) else s3
  let s5 := if 5 ≤ l then (s4.countFailing c.addr).renewCell c else s4
  s5.readDone c.addr

/-- The most iterations of the decoder's mode at a level (R141, R166). -/
def State.iterLimit (s : State) (l : Nat) : Nat := if l ≤ 2 then 20 else if l = 3 then 30 else s.param 0x0525 0

/-- DECODE_RESULT (R141, R142, R144, R148, R149, R160): the decode at the starting level; one that fails puts the
codeword on the ladder. [log 16: DESIGN CHOICE] -/
def execDecodeResult (addr : Nat) (converged : Bool) (nsid utype key : Nat) (checkOk : Bool) (found : DecodeFigures)
    (s : State) : Res :=
  match s.cell? addr, s.suspendErase addr with
  | some c, some s0 =>
    if s.flash.ladders.any fun l => l.addr == addr then .next s
    else
      let l := (s.flash.blocks.find? fun b => b.blk == blockOf addr).elim 0 s.startLevel
      let s1 := (((s0.suspendProgram addr).countRead (blockOf addr)).modFlash fun f => { f with
        decode := some ⟨addr, converged, found.corrected, found.iters, found.weight⟩ }).modDie (globalDie addr) fun d => { d with
          offsets := if l = 1 then s.levelOffsets (s.binAt addr) else [] }
      if converged = true ∧ s.unreadable addr = false ∧ found.iters ≤ s.iterLimit l ∧ nsid = c.nsid ∧ utype = c.utype ∧ key = c.key ∧
          checkOk = true then .next (s1.decoded c l found.corrected)
      else .next (s1.modFlash fun f => { f with
        ladders := f.ladders ++ [⟨addr, if l = 0 then 1 else 2, !(s.readingOf addr).isEmpty⟩] })
  | _, _ => .next s

/-- Whether a level can succeed: L1 to L4 read the codeword within the iterations of their mode (R141); L5 needs the codeword from
its parity row (R145), L6 from its stripe (R177), each agreeing with R142. -/
def State.levelOpen (s : State) (c : Codeword) (l iters : Nat) : Bool :=
  if l = 5 then (s.fromRow c.addr).elim false c.agrees
  else if l = 6 then (s.fromStripe c.addr).elim false c.agrees
  else !s.unreadable c.addr && decide (iters ≤ s.iterLimit l)

/-- L7 (R125, R147): the live units are LOST, a structure of the map area is rewritten, the loss is logged, the block is retired
once the rest of it has moved, and the reads that wait end. -/
def State.uncorrectable (s : State) (c : Codeword) : State :=
  let s1 := (s.modDie (globalDie c.addr) fun d => { d with l7 := d.l7 + 1 }).log 4 deviceFn St.mediaUncorrectable
    (globalDie c.addr)
  let s2 := if c.utype = 3 then s1.renewSys fun a => a == c.addr
    else if s.readingOf (s.headOf c).addr = [] then s1.loseInternal St.ftUnitLost c else s1.loseCell c
  (s2.condemn (blockOf c.addr)).readLost (s.headOf c).addr

/-- LADDER_STEP (R141, R143, R145, R147): one level of the ladder ends. -/
def execLadderStep (addr : Nat) (r : LadderReport) (s : State) : Res :=
  match s.flash.ladders.find? (fun l => l.addr == addr) with
  | none => .next s
  | some l =>
    let off := (s.countRead (blockOf addr)).modFlash fun f => { f with ladders := f.ladders.filter fun x => x.addr != addr }
    match s.cell? addr with
    | none => .next (off.readDone addr)
    | some c =>
      if r.success = true ∧ s.levelOpen c l.level r.iters = true then .next (off.decoded c l.level r.corrected)
      else if l.level < 6 then
        .next ((s.countRead (blockOf addr)).modFlash fun f => { f with
          ladders := updIf (fun x => x.addr == addr) (fun x => { x with level := x.level + 1 }) f.ladders })
      else .next (off.uncorrectable c)

/-! ### Temperatures, read offsets, training (R149 to R152) -/

/-- Absolute difference of two temperatures. -/
def tempDiff (a b : Int) : Nat := (a - b).natAbs

/-- The bins of a die that are in use: those calibrated or tracked, and those of its full blocks. -/
def State.binsOf (s : State) (die : Nat) : List (Nat × Nat × Nat) :=
  (((s.flash.bins.filter fun b => b.die == die).map fun b => (b.die, b.mode, b.bin)) ++
    ((s.flash.blocks.filter fun b => globalDie b.blk == die &&
      (b.st == .fullQlc || b.st == .fullLanding || b.st == .map)).map s.binOf)).eraseDups

/-- A die's temperature read: its bins that have drifted are to be calibrated again, a sweep under way that has
drifted starts again, and a channel 10 °C from its training is to be retrained. -/
def State.readTemp (s : State) (x : Nat × Int) : State :=
  let d := s.param 0x0521 0
  let far := fun t => decide (d ≤ tempDiff x.2 t)
  let s1 := (s.modDie x.1 fun y => { y with temp := x.2 }).modFlash fun f => { f with
    bins := updIf (fun b => b.die == x.1 && b.wanted && far b.sweepT) (fun b => { b with sweep := [], sweepT := x.2 }) f.bins
    channels := updIf (fun c => c.ch == x.1 / 16 && decide (10 ≤ tempDiff x.2 c.trainTemp))
      (fun c => { c with training := max 1 c.training }) f.channels }
  ((s1.binsOf x.1).filter fun k => far (s1.bin k).tCal).foldl State.wantBin s1

/-- DIE_TEMP_READ (R149, R150, R152). -/
def execDieTempRead (temps : List (Nat × Int)) (s : State) : Res := .next (temps.foldl State.readTemp s)

/-- Length of the retrain slot in µs (R51, R69): the share of 0x0410 in thousandths of a per cent, at least 25. -/
def State.slotUs (s : State) : Nat := max 25 (s.param 0x0410 0 * s.periodUs / 100000)

/-- A sweep whose every threshold is measured waits for the boundary. -/
def Bin.swept (b : Bin) : Bool := b.wanted && b.sweep.length == b.offsets.length

/-- What a channel's slot serves next: the training of its interface, or the first sweep that is due and has a sample block
(R51, R151, R152). -/
def State.nextAction (s : State) (c : Channel) : FlashAction :=
  if 0 < c.training then .interface
  else match s.flash.bins.find? fun b => b.die / 16 == c.ch && b.wanted && b.sample.isSome with
    | some b => .sweep b.die b.mode b.bin
    | none => .none

/-- The retrain slot of a channel opens: an action under way goes on, else the next one begins; a sweep gains the senses of the
slot (R51, R151, R152). -/
def State.openSlot (s : State) (c : Channel) : Channel :=
  let goes := match c.action with
    | .none => false
    | .interface => decide (0 < c.training)
    | .sweep d m b => (s.bin (d, m, b)).wanted
  let act := if goes then c.action else s.nextAction c
  { c with
    action := act
    senses := match act with
      | .sweep .. => (if goes then c.senses else 0) + s.slotUs / max 1 c.profile.trSingle
      | _ => 0 }

/-- Full sweeps take effect with the temperature of their start as T_cal, and the retrain slots open (R51, R151). [log
157: DESIGN CHOICE] -/
def State.flashSlots (s : State) : State :=
  let s1 := s.modFlash fun f => { f with
    bins := f.bins.map fun b =>
      if b.swept then { b with
        offsets := b.sweep, tCal := b.sweepT, epoch := s.hz.epoch, wanted := false, sweep := [] }
      else b }
  s1.modFlash fun f => { f with channels := f.channels.map s1.openSlot }

/-- RECALIBRATION (R151): one more threshold of the sweep that has its channel's slot is measured with five senses of the sample
block; its offset is at most two steps from the one in force, within 8 bits (R149). A full sweep waits for the tick
boundary. -/
def execRecalibration (die mode bin : Nat) (best : Int) (s : State) : Res :=
  let k := (die, mode, bin)
  let x := s.bin k
  let cur := x.offsets.getD x.sweep.length 0
  let mine := fun c : Channel => c.ch == die / 16 && c.action == .sweep die mode bin && decide (5 ≤ c.senses)
  if s.hz.ticking = true ∧ s.flash.channels.any mine = true ∧ x.wanted = true ∧ x.sweep.length < x.offsets.length ∧
      (best - cur).natAbs ≤ 2 ∧ -128 ≤ best ∧ best ≤ 127 then
    .next (((s.modBin k fun b => { b with sweep := b.sweep ++ [best] }).modFlash fun f => { f with
      channels := updIf mine (fun c => { c with senses := c.senses - 5 }) f.channels }).countRead (x.sample.getD 0))
  else .next s

/-- INTERFACE_RETRAIN (R51, R152, R178): the training that has the channel's slot ends; three consecutive failures fail the
member. -/
def execInterfaceRetrain (ch : Nat) (ok : Bool) (temp : Int) (s : State) : Res :=
  match s.flash.channels.find? (fun c => c.ch == ch && c.action == .interface) with
  | none => .next s
  | some c =>
    let set := fun g : Channel → Channel => s.modFlash fun f => { f with
      channels := updIf (fun c => c.ch == ch) g f.channels }
    if ok then .next (set fun c => { c with trainTemp := temp, trainFails := 0, training := 0, action := .none })
    else
      let s1 := set fun c => { c with trainFails := c.trainFails + 1, action := .none }
      .next (if 3 ≤ c.trainFails + 1 then s1.failMember ch else s1)

/-- DIE_READY_TIMEOUT (R164): the third consecutive operation without a ready status. -/
def execDieReadyTimeout (die : Nat) (s : State) : Res :=
  .next ((s.modDie die fun d => { d with noReady := 3 }).failDie die)

/-! ### Verify scans, patrol, parity rows (R154, R158 to R160) -/

/-- VERIFY_SCAN (R148, R159, R160): one codeword of a pending super-block read; what it holds is written anew where it fails, and a
block with more failures than the profile tolerates is moved whole and retired. -/
def execVerifyScan (sb addr corrected : Nat) (decoded : Bool) (s : State) : Res :=
  match s.flash.parity.find? (fun p => p.sb == sb && p.pending), s.cell? addr, s.suspendErase addr with
  | some p, some c, some s0 =>
    if superOf addr ≠ sb ∨ p.scanned.contains addr then .next s
    else
      let fail := !(decoded && !s.unreadable addr && decide (corrected ≤ s.profile.verifyLimit))
      let s1 := (s0.countRead (blockOf addr)).modFlash fun f => { f with
        parity := updIf (fun q => q.sb == sb) (fun q => { q with scanned := q.scanned ++ [addr] }) f.parity }
      if fail = false then .next s1
      else
        let s2 := s1.countFailing addr
        let bad := (p.failing.filter fun a => blockOf a == blockOf addr && a != addr).length + 1
        if s.profile.verifyTolerance < bad then
          .next (((s2.condemn (blockOf addr)).renewSys fun a => blockOf a == blockOf addr).rewrite fun a => blockOf a == blockOf addr)
        else .next (s2.renewCell c)
  | _, _, _ => .next s

/-- VERIFY_SCAN_END (R154): every codeword of a block that stays has been read, every other block is retired, and no
move of the scan is open: the parity and its log are dropped. -/
def execVerifyScanEnd (sb : Nat) (s : State) : Res :=
  match s.flash.parity.find? (fun p => p.sb == sb && p.pending) with
  | none => .next s
  | some p =>
    let blocks := s.flash.blocks.filter fun b => superOf b.blk == sb && b.st != .retired
    let ok := blocks.all (fun b => !b.failed && (s.flash.cells.filter fun c => blockOf c.addr == b.blk).all
        fun c => p.scanned.contains c.addr) &&
      !s.flash.moves.any (fun m => superOf m.src == sb && p.failing.contains m.src) && !s.flash.resyncLeft.contains sb
    if ok then .next (s.modFlash fun f => { f with
      parity := f.parity.filter fun q => q.sb != sb, logs := f.logs.filter fun l => l.sb != sb })
    else .next s

/-- The blocks that patrol reads (R160). -/
def State.patrolled (s : State) : List Block := s.flash.blocks.filter fun b => b.st == .fullQlc || b.st == .map

/-- PATROL_INTERVAL (R160, R167): a pass that is due or asked for ends: every codeword of every FULL_QLC and MAP block
has been read; blocks with a failing codeword are marked for refresh, and the `media.patrol` commands that wait end
with codewords read and blocks marked. The next pass is due after one interval of powered time. [log 160: DESIGN
CHOICE] -/
def execPatrolInterval (reads : Nat) (failing : List Nat) (s : State) : Res :=
  if s.flash.patrol = [] ∧ s.hz.uptimeUs < s.flash.patrolNext then .next s
  else
    let marks := (failing.filter fun a => s.patrolled.any fun b => b.blk == a && !b.refresh).eraseDups
    let s1 := marks.foldl State.markRefresh (s.patrolled.foldl (fun st b => st.countReads b.blk b.used) s)
    let s2 := s1.flash.patrol.foldl (fun a id => a.endLong id St.ok [reads, marks.length]) s1
    .next (s2.modFlash fun f => { f with
      patrol := [], patrolRead := reads, patrolMarked := marks.length
      patrolNext := s.hz.uptimeUs + 3600000000 * s.param 0x0523 0 })

/-- A parity row computed again from the codewords of its mask; none where one of them cannot be read through L0 to L4
(R158). -/
def State.rowAgain (s : State) (sb : Nat) (r : ParityRow) : Option ParityRow :=
  let at_ := r.dies.map fun g => mkAddr (g / 16) (g % 16) sb r.row
  if at_.all fun a => !s.erasure 4 a then
    some { r with parity := at_.foldl (fun d a => xorData d ((s.cell? a).elim [] Codeword.bytes)) [] }
  else none

/-- PARITY_ROW_ECC_ERROR (R158): the row is lost and computed again in one step, so no L5 step finds it missing. [log
161: DESIGN CHOICE] -/
def execParityRowEccError (sb row : Nat) (s : State) : Res :=
  .next (s.modFlash fun f => { f with
    parity := updIf (fun p => p.sb == sb) (fun p => { p with
      rows := p.rows.filterMap fun r => if r.row = row then s.rowAgain sb r else some r }) f.parity })

/-! ### Mailbox commands of flash translation (R131) -/

/-- Blocks in a state. -/
def State.blocksIn (s : State) (b : BlockState) : Nat := (s.flash.blocks.filter fun x => x.st == b).length

/-- FT_STATUS (R131): H as a fraction in ticks, its erased codewords and 2 x C_w (R111); block counts in the order of R126, FREE
first. -/
def execFtStatus (fn : Nat) (req : MbReq) (s : State) : Res :=
  .next (s.mbRun Mb.ftStatus fn req fun s =>
    .basic ([s.blocksF, s.blocksB, s.flash.f, s.flash.fFree, s.flash.fLand, s.flash.fMap, s.flash.allow,
      s.flash.lMin, s.landingSupers.length, s.flash.headroom, s.flash.headDen, s.dirty, 16384 - s.overlaysUsed, s.blocksF] ++
      [BlockState.openLanding, .openQlc, .fullLanding, .fullQlc, .map, .victim, .eraseWait, .retired].map s.blocksIn ++
      [s.store.lost.length, s.store.ckptEpoch, s.store.replayFrom]) s)

/-- FT_PROFILE (R26, R128, R131). -/
def execFtProfile (fn : Nat) (req : MbReq) (s : State) : Res :=
  .next (s.mbRun Mb.ftProfile fn req fun s =>
    let op := fld req 0 8
    if s.accepted.op < op ∧ s.userSpace op < sumBy s.store.pool.consumes s.nsFieldsAccepted then
      .refuse St.ftOpInUse []
    else .persist [] (s.record [.ftProfile op (fld req 8 2)]))

/-- FT_LOST_LIST (R125, R131): up to 128 entries from an index on, and the total. -/
def execFtLostList (fn : Nat) (req : MbReq) (s : State) : Res :=
  .next (s.mbRun Mb.ftLostList fn req fun s =>
    .basic (((s.store.lost.drop (fld req 0 32)).take 128).flatMap (fun x => [x.1, x.2]) ++ [s.store.lost.length]) s)

/-! ### Mailbox commands of the media (R167) -/

/-- Training state of a channel: 0 trained, 1 to be trained again, 2 stopped in bring-up. [log 162: DESIGN CHOICE] -/
def Channel.trainingCode (c : Channel) : Nat := if c.failed ≠ 0 then 2 else b2n (decide (0 < c.training))

/-- MEDIA_STATUS (R167): of a channel that is not populated the flag alone. [log 162: DESIGN CHOICE] -/
def execMediaStatus (fn : Nat) (req : MbReq) (s : State) : Res :=
  .next (s.mbRun Mb.mediaStatus fn req fun s =>
    match s.flash.channels.find? (fun c => c.ch == fld req 0 4 && c.populated) with
    | none => .basic [0] s
    | some c =>
      .basic ([1, c.trainingCode, c.profile.id, c.profile.revision, c.rate] ++
        (List.range c.dies).flatMap fun t =>
          let d := s.die (16 * c.ch + t)
          [d.die, b2n d.failed, tempVal d.temp]) s)

/-- Mean, rounded down, and maximum of the P/E counts of a die's blocks in a mode; every formation of a pool counts for each block
(R137, R169). -/
def State.peOf (s : State) (die mode : Nat) : List Nat :=
  let w := (s.flash.wear.filter fun x => x.1 % 2 == mode && globalDie (x.1 / 2) == die).map (·.2)
  let f := assoc s.flash.formed (die / 16)
  [f + sumBy id w / max 1 s.profile.blocksPerDie, f + maxOf w]

/-- MEDIA_HEALTH (R167). -/
def execMediaHealth (fn : Nat) (req : MbReq) (s : State) : Res :=
  .next (s.mbRun Mb.mediaHealth fn req fun s =>
    let d := s.die (fld req 0 8)
    .basic (s.peOf d.die 0 ++ s.peOf d.die 1 ++ [d.retired, d.progFails, d.eraseFails] ++ d.levels ++
      [d.l7, d.refreshMarks, d.inhibits]) s)

/-- MEDIA_OFFSETS_READ (R149, R167): the thresholds that a mode lacks read 0. -/
def execMediaOffsetsRead (fn : Nat) (req : MbReq) (s : State) : Res :=
  .next (s.mbRun Mb.mediaOffsetsRead fn req fun s =>
    let b := s.bin (fld req 0 8, fld req 8 1, fld req 9 4)
    .basic (((List.range 15).map fun i => tempVal (b.offsets.getD i 0)) ++ [tempVal b.tCal, b.epoch]) s)

/-- MEDIA_PROFILE_LIST (R137, R167). -/
def execMediaProfileList (fn : Nat) (req : MbReq) (s : State) : Res :=
  .next (s.mbRun Mb.mediaProfileList fn req fun s =>
    .basic (s.fw.runImg.profiles.flatMap (fun p => [p.id, p.revision]) ++ s.flash.channels.flatMap fun c => [c.ch, c.profile.id]) s)

/-- MEDIA_PATROL (R160, R167): a pass begins; it ends with PATROL_INTERVAL. -/
def execMediaPatrol (fn : Nat) (req : MbReq) (s : State) : Res :=
  .next (s.mbRun Mb.mediaPatrol fn req fun s =>
    s.long Mb.mediaPatrol fn fun x => x.modFlash fun f => { f with patrol := f.patrol ++ [s.recs.nextLong] })

/-- MEDIA_CARE (R26, R165, R167). -/
def execMediaCare (fn : Nat) (req : MbReq) (s : State) : Res :=
  .next (s.mbRun Mb.mediaCare fn req fun s => .persist [] (s.record [.mediaCare (fld req 0 2)]))

end Sys2Proof.Machine
end

