-- ==== Sys2Proof/Machine/Horizon.lean ====
section
/-!
DEFINITION. Horizon: the cut point, seals and their deadlines (R36 to R43, R60 to R63), the tick boundary and all that
takes effect there (R27, R30 to R37, R57, R62, R292, R342, R426), the TICK_IN source (R30, R31, R34), SHOCK and TICK_OUT
edges, and the mailbox commands of R70.
-/

namespace Sys2Proof.Machine

open Sys2Proof

/-! ### Late epochs (R60, R63, R65) -/

/-- One more late epoch in the late count of R65. [log 57: DEDUCED] -/
def State.lateFault (s : State) : State :=
  match s.hz.st with
  | .running => s.modHz fun h => { h with st := .late, lateCount := 1 }
  | .late =>
    if s.hz.lateCount < 2 then s.modHz fun h => { h with lateCount := h.lateCount + 1 } else s.enterHalted
  | _ => s

/-- HZ_FAULT_LAST set (R60, R453). -/
def Horizon.fault (h : Horizon) (code epoch : Nat) : Horizon := { h with faultCode := code, faultEpoch := epoch }

/-- HZ_SEAL_LATE of an epoch (R60, R61); the late count takes each epoch once (R63). [log 57: DEDUCED] -/
def State.sealLateAt (s : State) (e : Epoch) : State :=
  let s1 := s.modHz fun h => { h.fault 1 e.n with
    sealLate := sat32 (h.sealLate + 1)
    epochs := updIf (fun x => x.n == e.n) (fun x => { x with isLate := true }) h.epochs }
  if e.ringLate then s1.hzEvent St.hzSealLate e.n else (s1.hzEvent St.hzSealLate e.n).lateFault

/-- The epoch whose seal deadline has passed without its seal: 5 µs before the end of tick N + 2 (R39). -/
def State.lateDue (s : State) : Option Epoch :=
  s.hz.epochs.find? fun e => !e.isSealed && !e.isLate &&
    (decide (2 < s.ageOf e) || (s.ageOf e == 2 && s.hz.phase != .accept))

/-- An epoch, or the ring mark of a ring-synchronous one, is not sealed by the end of tick N + 6 (R63). -/
def State.unsealedDue (s : State) : Bool :=
  s.hz.epochs.any fun e => (!e.isSealed || s.ringDeferred e.n) &&
    (decide (6 < s.ageOf e) || (s.ageOf e == 6 && s.hz.phase != .accept))

/-- HZ_SEAL_LATE (R39, R60, R65). [log 56: DEDUCED] -/
def execHzSealLate (s : State) : Res :=
  match s.lateDue with
  | some e => if s.hz.ticking then .next (s.sealLateAt e) else .next s
  | none => .next s

/-- EPOCH_UNSEALED_N6 (R63, R65). [log 56: DEDUCED] -/
def execEpochUnsealedN6 (s : State) : Res :=
  if s.hz.ticking = true ∧ s.unsealedDue = true then .next s.enterHalted else .next s

/-! ### Late ring seals (R46, R60, R322) -/

/-- HZ_RING_SEAL_LATE of an epoch, once; an epoch that is late already is not counted again among the late ones (R63).
[log 57: DEDUCED] -/
def State.ringLateAt (s : State) (n : Nat) : State :=
  let s1 := s.modHz fun h => { h.fault 3 n with
    ringLate := sat32 (h.ringLate + 1)
    epochs := updIf (fun x => x.n == n) (fun x => { x with ringLate := true }) h.epochs }
  if s.hz.epochs.any fun x => x.n == n && x.isLate then s1.hzEvent St.hzRingSealLate n
  else (s1.hzEvent St.hzRingSealLate n).lateFault

/-- The epoch whose vote and ring seal fall in this tick: that of three ticks before, where it is a group epoch and
not late yet. -/
def State.ringDue (s : State) : Option Epoch :=
  s.hz.epochs.find? fun e => s.ageOf e == 3 && s.ringDeferred e.n && !e.ringLate

/-- The members of the membership in force for `g` whose vote is missing. -/
def State.missing (s : State) (g : Nat) : List Nat :=
  (s.votersOf g).filter fun n => n != s.node && !s.zl.votes.any fun v => v.gtick == g && v.node == n

/-- At the end of the vote window of `g` the master counts the members that have missed it; one that has missed the
slow limit of consecutive windows is removed (R322). -/
def State.countSlow (s : State) (g : Nat) : State :=
  let out := s.missing g
  let s1 := s.modZl fun z => { z with
    slow := (out.map fun n => (n, assoc z.slow n + 1)) }
  s1.removeMembers ((s1.zl.slow.filter fun x => decide (s.param 0x0B12 0 ≤ x.2)).map (·.1))

/-- VOTE_WINDOW_END (R46, R60, R321, R322): W after the start of tick N + 3. -/
def execVoteWindowEnd (s : State) : Res :=
  match s.ringDue with
  | none => .next s
  | some e =>
    if s.hz.ticking = false ∨ e.n ≤ s.hz.commitHeld then .next s
    else
      let s1 := s.ringLateAt e.n
      .next (if s1.zl.group = .master then (s1.countSlow (e.n - s1.zl.offset)).takeCommit else s1)

/-- RING_SEAL_DEADLINE (R39, R60): 5 µs before the end of tick N + 3 the ring mark of N is not sealed. -/
def execRingSealDeadline (s : State) : Res :=
  match s.ringDue with
  | none => .next s
  | some e =>
    if s.hz.ticking = false ∨ e.n ≤ s.hz.ringMark ∨ s.hz.phase = .accept then .next s
    else .next (s.ringLateAt e.n)

/-! ### Seals (R39 to R43, R61) -/

/-- The seal of epoch A of a HOT activation begins the handover (R414). -/
def State.fwSealed (s : State) (n : Nat) : State :=
  match s.fw.phase with
  | .holding a => if a ≤ n then s.modFw fun f => { f with phase := .handover a } else s
  | _ => s

/-- Epoch `e` is sealed: what the seal does, the vote for it, the late count after a seal in time. -/
def State.sealNow (s : State) (e : Epoch) : State :=
  let mark := s.hz.pendingSealMark
  let due := s.hz.epochs.filter fun x => x.isSealed && decide (x.n ≤ mark)
  let clean := !e.isLate && (!s.ringDeferred e.n || mark != 0) && due.all fun x => !x.isLate && !x.ringLate
  let s1 := s.sealEpoch e s.joinMark
  let s2 := if s.hz.st = .late ∧ clean = true then s1.modHz fun h => { h with st := .running, lateCount := 0 } else s1
  ((s2.voteFor e.n).fwSealed e.n).tryHeld

/-- SEAL_INSTANT (R36, R39, R43 row 7): the oldest epoch is sealed in its own seal window, by its deadline. [log 2, 3:
DESIGN CHOICE] -/
def execSealInstant (atNs : Nat) (s : State) : Res :=
  match s.oldest with
  | none => .next s
  | some e =>
    if s.hz.ticking = true ∧ s.hz.phase = .sealWindow ∧ s.ready e = true ∧ s.ageOf e = 2 ∧ e.isLate = false ∧
        s.flash.inhibited = false ∧ atNs + 5000 ≤ s.periodNs then
      .next ((s.sealNow e).modHz fun h => { h with
        phase := .slack, elapsedNs := max h.elapsedNs atNs, tick := { h.tick with sealAt := atNs } })
    else .next s

/-- LATE_EPOCH_SEAL (R61, R66, R440, R441): a late epoch is sealed as soon as it is ready and Sutas firmware runs; in a
drain or before a reset so is every epoch past its cut point, with the moves that are confirmed by then (R120, R123). -/
def execLateEpochSeal (atNs : Nat) (s : State) : Res :=
  match s.oldest with
  | none => .next s
  | some e =>
    let hurry := s.pw.st == .draining || s.pw.st == .resetting
    if (s.hz.ticking || hurry) = true ∧ s.pw.restarting = false ∧ s.ready e = true ∧ (e.isLate || hurry) = true ∧
        s.flash.inhibited = false then
      let s1 := if hurry then s.recordMoves e.n else s
      .next ((s1.sealNow e).modHz fun h => { h with tick := { h.tick with sealAt := atNs } })
    else .next s

/-- INTENT_ENTRY_CONFIRMED (R43 row 1, R161, R187, R188): three copies of the entry are confirmed for the oldest closed epoch
that has none. -/
def execIntentEntryConfirmed (seq : Nat) (s : State) : Res :=
  match s.hz.epochs.find? fun e => e.closed && !e.intentOk && !e.isSealed &&
      (decide (e.n < s.hz.epoch) || s.pw.st == .draining) with
  | none => .next s
  | some e =>
    if s.programsRun = true ∧ s.flash.inhibited = false ∧ seq = s.hz.intentSeq + 1 then
      .next ((s.programIntent seq e.n).modHz fun h => { h with
        intentSeq := seq
        epochs := updIf (fun x => x.n == e.n) (fun x => { x with intentSeq := some seq, intentOk := true }) h.epochs })
    else .next s

/-! ### The cut point (R36, R37) -/

/-- The epoch whose seal window this tick holds: that of two ticks before. -/
def State.sealing (s : State) : Option Epoch := s.hz.epochs.find? fun e => s.ageOf e == 2 && !e.isSealed

/-- The program phase ends: the map delta entry of the epoch of two ticks before is built, and an epoch whose seal
programs nothing is sealed: that is its seal instant, and slack begins, as where there is no such epoch (R36, R42,
R120). [log 131: DEDUCED] -/
def State.openWindow (s : State) : State :=
  match s.sealing with
  | none => s.modHz fun h => { h with phase := .slack }
  | some e =>
    let s1 := s.recordMoves e.n
    if (s1.oldest).elim false (fun o => o.n == e.n) ∧ e.isLate = false ∧ s1.programsNothing e s1.joinMark = true then
      (s1.sealNow e).modHz fun h => { h with phase := .slack, tick := { h.tick with sealAt := h.elapsedNs } }
    else s1

/-- The hold of a HOT activation begins at the cut point of tick A (R389, R414). -/
def State.beginHold (s : State) : State :=
  match s.fw.phase with
  | .chosen a =>
    if a = s.hz.epoch then
      (s.modFw fun f => { f with phase := .holding a, holding := true, holdTicks := 0 }).pauseAll
    else s
  | _ => s

/-- CUT_POINT (R36, R37, R389). [log 3: DESIGN CHOICE; 131: DEDUCED] -/
def execCutPoint (s : State) : Res :=
  if s.hz.ticking = true ∧ s.hz.phase = .accept then
    let cut := s.periodNs - windowNs s.hz.period s.hz.window
    let s1 := s.modEpoch fun e => { e with closed := true, rclkCut := s.hz.rclkUs + cut / 1000 }
    let s2 := s1.modHz fun h => { h with phase := .sealWindow, elapsedNs := cut }
    .next ((s2.modFlash fun f => { f with windowFails := [] }).openWindow).beginHold
  else .next s

/-! ### The TICK_IN source (R30, R31, R34) -/

/-- TICK_IN changed. -/
def State.modTickIn (s : State) (g : TickIn → TickIn) : State := s.modHz fun h => { h with tickIn := g h.tickIn }

/-- An edge is accepted: while in lock or on the fallback, inside the window around the prediction; before the switch,
one nominal period after the edge before. -/
def State.edgeOk (s : State) (errNs : Int) (intervalNs : Nat) : Bool :=
  let w := s.param 0x0412 0
  if s.hz.source = 1 then decide (errNs.natAbs ≤ w)
  else decide (s.hz.tickIn.watchFrom ≤ s.hz.epoch) && decide (((intervalNs : Int) - s.periodNs).natAbs ≤ w)

/-- TICK_IN_EDGE (R30, R31, R34). Before the switch an edge is accepted by its interval to the edge before, so each
accepted one has measured one; on the fallback the first edge of a row measures none. The edge that completes the
relock count sets the estimate. [log 114: DEDUCED] -/
def execTickInEdge (errNs : Int) (intervalNs : Nat) (s : State) : Res :=
  let t := s.hz.tickIn
  if t.watching = false ∨ s.hz.ticking = false then .next s
  else if s.edgeOk errNs intervalNs = false then
    .next (s.modTickIn fun t => { t with discarded := t.discarded + 1, hits := if t.locked then t.hits else 0 })
  else if t.locked then
    .next (s.modTickIn fun t => { t with
      misses := 0, lastHit := true, nudgeNs := nudge (s.param 0x0414 0) errNs
      estNs := if t.lastHit then rateStep s.periodNs t.estNs intervalNs else t.estNs })
  else
    let n := t.hits + 1
    let gained := decide (s.param 0x0413 0 ≤ n) && !t.switchDue
    let acc := addInterval s.periodNs (s.hz.source != 1 || t.hits != 0) intervalNs
      (if t.hits = 0 then (0, 0) else (t.sumNs, t.ivals))
    .next (s.modTickIn fun t => { t with
      hits := n, lastHit := true, misses := 0, sumNs := acc.1, ivals := acc.2
      estNs := if gained then meanInterval s.periodNs acc
        else if t.switchDue && t.hits != 0 then rateStep s.periodNs t.estNs intervalNs else t.estNs
      switchDue := t.switchDue || gained })

/-- TICK_IN_WINDOW_END (R30): no edge in the window: a miss; the third in a row drops the lock. -/
def execTickInWindowEnd (s : State) : Res :=
  let t := s.hz.tickIn
  if s.hz.ticking = false ∨ s.hz.source ≠ 1 then .next s
  else if t.locked = false then .next (s.modTickIn fun t => { t with hits := 0, lastHit := false })
  else if t.misses < 2 then .next (s.modTickIn fun t => { t with misses := t.misses + 1, lastHit := false, nudgeNs := 0 })
  else
    .next ((s.modTickIn fun t => { t with
      misses := 0, hits := 0, sumNs := 0, ivals := 0, lastHit := false, locked := false, nudgeNs := 0 }).hzEvent
        St.hzLockLost s.hz.epoch)

/-- TICK_IN_RELOCK_TIMEOUT (R34): 1,024 ticks after the start of A + 3; the device keeps watching. -/
def execTickInRelockTimeout (s : State) : Res :=
  let t := s.hz.tickIn
  if s.hz.ticking = true ∧ t.watching = true ∧ s.hz.source ≠ 1 ∧ t.watchFrom + 1024 ≤ s.hz.epoch then
    .next (s.hzEvent St.hzSource s.hz.epoch)
  else .next s

/-- At a boundary a lock that the edges have gained takes effect: the switch to TICK_IN, or the return to lock (R30,
R31, R34). [log 114: DEDUCED] -/
def State.lockTickIn (s : State) : State :=
  let t := s.hz.tickIn
  if t.watching = true ∧ t.switchDue = true then
    let s1 := (s.modTickIn fun t => { t with
      locked := true, switchDue := false, hits := 0, sumNs := 0, ivals := 0, misses := 0 }).modHz
        fun h => { h with source := 1 }
    if s.hz.source = 1 then s1.hzEvent St.hzLockRegained s1.hz.epoch else s1
  else s

/-! ### What the end of a tick does -/

/-- The record of R292 of an engine for the tick that ends; the cycles of an engine on which a thread ran are open.
[log 92: DESIGN CHOICE] -/
def State.engRec (s : State) (e : Nat) : EngRec :=
  let c := (s.anv.counts.find? fun x => x.engine == e).getD (EngCount.fresh e)
  let v := s.free.1.toNat
  let busy := if c.ran then v % 2 ^ 32 else 0
  { engine := e, tick := s.hz.epoch, activations := c.activations, chunks := c.chunks, readyMax := c.readyMax
    readyEnd := (s.eligible e).length
    waitingEnd := (s.anv.threads.filter fun t => t.st == .waiting && t.pin == some e).length
    busy := busy, stall := v / 2 ^ 32 % (busy + 1), waits := c.waits }

/-- Of each engine the last 64 records. -/
def keepRecs (e : Nat) (l : List EngRec) : List EngRec :=
  let mine := l.filter fun r => r.engine == e
  (l.filter fun r => r.engine != e) ++ mine.drop (mine.length - 64)

/-- The records of the tick that ends for every engine that a function holds (R292). -/
def State.recordEngines (s : State) : State :=
  let es := (s.fns.flatMap fun f => f.grant.engineList).eraseDups
  let s1 := es.foldl (fun a e => a.free.2.modAnv fun v => { v with recs := keepRecs e (v.recs ++ [a.engRec e]) }) s
  s1.modAnv fun a => { a with counts := a.running.map fun r => { EngCount.fresh r.1 with ran := true } }

/-- The clocks advance by the length of the tick: one period, and at the switch to TICK_IN up to one more (R34, R86).
[log 3: DESIGN CHOICE] -/
def State.passTime (s : State) (stretchNs : Nat) : State :=
  let t := s.hz.tickIn
  let more := if t.watching = true ∧ t.switchDue = true ∧ s.hz.source ≠ 1 then min stretchNs s.periodNs else 0
  let dt := s.periodUs + more / 1000
  s.modHz fun h => { h with
    rclkUs := h.rclkUs + dt, uptimeUs := h.uptimeUs + dt, lastTick := h.tick, elapsedNs := 0 }

/-- A change of period, source or window takes effect; a joiner that waited for it acquires lock (R32, R33, R318). -/
def State.applyOne (s : State) (c : Nat × Nat × Nat × Nat) : State :=
  let p := c.2.1
  let src := c.2.2.1
  let s1 := s.modHz fun h => { h with
    period := p, window := c.2.2.2, source := if src = 1 then h.source else src
    tickIn := if src ≠ 1 then TickIn.reset
      else if h.tickIn.watching = false then .watch p c.1
      else if h.period = p then h.tickIn else { h.tickIn with estNs := 250000 * p } }
  if s1.inRing = false ∧ s1.zl.lock = .none ∧ s1.zl.joinAt ≠ 0 ∧ s1.zl.joinEpoch = 0 then
    s1.modZl fun z => { z with lock := .acquiring, tickPort := z.joinPort }
  else s1

/-- The changes that are due at tick `n` take effect in the order in which they were accepted (R32, R33). -/
def State.applyChange (s : State) (n : Nat) : State :=
  ((s.hz.changes.filter fun c => decide (c.1 ≤ n)).foldl State.applyOne s).modHz fun h => { h with
    changes := h.changes.filter fun c => !decide (c.1 ≤ n) }

/-- Volatile settings accepted in earlier ticks take effect (R27). [log 60: DEDUCED] -/
def State.applyParams (s : State) (n : Nat) : State :=
  let due := s.recs.pendParams.filter fun x => decide (x.1 ≤ n)
  let put := fun (s : State) (p : Param) =>
    if p.id = 0x0801 then
      (s.modFn p.target fun f => { f with sqLevel := p.value }).modRecs fun r => { r with
        vparams := derive (fun i => decide (0x0810 ≤ i) && decide (i < 0x0815)) p.target r.vparams }
    else if p.id = 0x0A07 then
      (s.modFn p.target fun f => { f with anvClass := p.value }).modRecs fun r => { r with
        vparams := derive (fun i => decide (0x0A11 ≤ i) && decide (i < 0x0A14)) p.target r.vparams }
    else s.modRecs fun r => { r with vparams := derive (fun i => i == p.id) p.target r.vparams ++ [p] }
  (due.foldl (fun a x => put a x.2) s).modRecs fun r => { r with
    pendParams := r.pendParams.filter fun x => !decide (x.1 ≤ n) }

/-- Delays with no comparator left end with ST_ANV_NO_TIMER (R277). -/
def State.dropTimers (s : State) : State :=
  if s.delayTimer then s else s.fireDelays (fun _ => true) 0 St.anvNoTimer

/-! ### What the start of a tick does -/

/-- The hold of R342 lifts. -/
def State.liftHold (s : State) : State :=
  if s.link.below = true ∧ s.inForce.linkFloor ≤ s.link.gen ∧ s.link.gen ≠ 0 then
    (s.modLink fun l => { l with below := false }).devEvent St.fnLinkResume s.link.gen
  else s

/-- The reporting mode evaluated (R390); a flag that is still set when the mode becomes PER_COMMAND is cleared with an
event (R391). [log 135: DEDUCED] -/
def State.reportMode (s : State) : State :=
  let per := !(s.zl.group == .solo && decide (s.created.length ≤ 4))
  let flagged := (s.store.nss.filter (·.deferred)).map (·.f.nsid)
  let s1 := s.modQ fun q => { q with perCommand := per }
  if per = true ∧ s.q.perCommand = false then
    flagged.foldl (fun a i => (a.recordNext [.deferred i false]).nsEvent St.cmdDeferredError i 0) s1
  else s1

/-- A power state whose boundary has come: P3 at the end of its quiesce, a change among P0 to P2 and out of P3 at the
instant of R426 (R424, R425, R428). [log 121, 170: DEDUCED] -/
def State.powerBoundary (s : State) : State :=
  if s.pw.entry = .toP3 ∧ s.pw.quiesced = true then
    let s1 := ((s.modPw fun p => { p with st := .p3, entry := .none, entryLong := none, quiesced := false }).freeDg
      fun _ => true).gateEngines
    let s2 := ((List.range 3).filter fun p => (s1.port p).st != .off).foldl State.portDown s1
    s.pw.entryLong.elim s2 fun x => s2.endLong x.2 St.ok []
  else match s.pw.request with
  | some (target, due) =>
    if due ≤ s.hz.uptimeUs then
      let s0 := s.modPw fun p => { p with st := target, request := none, replyTo := none }
      let s1 := if target = .p2 then s0.gateEngines else s0
      s.pw.replyTo.elim s1 fun x => s1.stage x.1 0x0C01 x.2 St.ok [] none
    else s
  | none => s

/-- Intent entries of epochs sealed three ticks ago and more are retired (R43 row 10); that of the last sealed epoch stays, since
recovery looks for it (R188). -/
def State.retireIntents (s : State) : State :=
  s.modFlash fun f => { f with
    intents := f.intents.filter fun i => !(decide (i.epoch + 3 ≤ s.hz.epoch) && decide (i.epoch < s.hz.sealed)) }

/-- What the media cores program in the program phase of the new tick for the epochs before it: the ends of their stripes, the
copies of intent entries, the open-block parity of an epoch whose landing programs are all confirmed, and replacement copies of
seal entries (R43 rows 2 to 4, R155, R174, R179, R187). -/
def State.mediaTick (s : State) : State :=
  if s.flash.inhibited then s
  else
    let s1 := s.fillIntents.closeTick
    let ready := s1.hz.epochs.filter fun e => e.confirmed && !e.isSealed && !e.empty && s1.ageOf e == 2
    (ready.foldl (fun st e => st.parityKept e.n) s1).replaceCopies.retireIntents

/-- What the media cores keep by the tick: live counts, the start and stop of background collection, age classes and the retrain
slots (R51, R114, R127, R150). -/
def State.mediaCounts (s : State) : State := (((s.countLive true).noteF).ageBlocks false).flashSlots

/-- One step of the retrain action that a port runs, the oldest first, and whether it ends with it; the others wait
(R51, R302). FULL follows an ADAPT that did not restore the margin, where the port keeps another lane in service or
carries no group traffic, and its lane is out of service from its first step to its last. [log 163: DESIGN CHOICE] -/
def Port.retrainStep (grouped : Bool) (fullSteps : Nat) (p : Port) : Port × Bool :=
  match p.retrain with
  | [] => (p, false)
  | x :: xs =>
    let full := if x.left = 0 then p.adapted.contains x.lane && (decide (2 ≤ p.lanesUp) || !grouped) else x.full
    let left := if x.left = 0 then (if full then fullSteps else 4) else x.left
    let out := if full && x.left == 0 then p.lanesUp - 1 else p.lanesUp
    if left ≤ 1 then
      ({ p with
        retrain := xs, lanesUp := if full then out + 1 else out
        adapted := if full then p.adapted.filter (· != x.lane) else (p.adapted ++ [x.lane]).eraseDups }, true)
    else ({ p with retrain := ⟨x.lane, full, left - 1⟩ :: xs, lanesUp := out }, false)

/-- The retrain slot: each port is one resource and runs one retrain action in it; FULL takes 100 µs in steps of one slot, and
the delay is measured again after a retrain (R51, R299, R302). -/
def State.retrainStep (s : State) : State :=
  (List.range 3).foldl (fun a p =>
    let r := (a.port p).retrainStep (a.groupPort p) ((100 + a.slotUs - 1) / a.slotUs)
    let b := a.modPort p fun _ => r.1
    if r.2 then b.sendDelay p else b) s

/-- Ports enabled or disabled by a setting in force (R334). -/
def State.enablePorts (s : State) : State :=
  (List.range 3).foldl (fun a p =>
    if s.pw.st = .p4 then a
    else if (s.portCfg p).enable then
      (if (s.port p).st = .off then a.modPort p fun x => { x with st := .down } else a)
    else if (s.port p).st = .off then a
    else (a.portDown p).modPort p fun x => { x with st := .off }) s

/-- The child ports of a member: the nearest to a peer whose path in the tick tree, or whose second path, leads here
(R310, R313, R315). [log 127: DEDUCED] -/
def State.childPorts (s : State) : List Nat :=
  let cs := s.cablesNow
  s.groupPorts.filter fun p =>
    let n := (s.port p).peer
    let here := fun (h : Option Hop) => h.elim false fun h => h.via == s.node
    n != s.zl.master && (here (hopOf s.zl.master cs n) || here (secondHop s.zl.master cs n)) &&
      !s.groupPorts.any fun q => (s.port q).peer == n &&
        (decide ((s.port q).dPort < (s.port p).dPort) || ((s.port q).dPort == (s.port p).dPort && decide (q < p)))

/-- A tick mark sent at the boundary: by the master on every group port, before the join tick too while it re-forms
its group, by a member in lock on its child ports (R310, R312, R317, R325). -/
def State.sendMarks (s : State) : State :=
  let forming := s.zl.group == .reforming && s.zl.master == s.node && s.zl.joinAt != 0
  let on := if s.zl.group = .master ∨ forming = true then s.groupPorts
    else if s.zl.group = .member ∧ (s.zl.lock = .locked ∨ s.zl.lock = .flywheel) then
      s.childPorts
    else []
  s.modZl fun z => { z with sent := z.sent ++ on.map fun p => ⟨p, fMark, 0, 0,
    if forming then s.zl.joinAt + s.hz.epoch - s.zl.joinEpoch else s.gtickNow⟩ }

/-- A replica grants the write credit of the primary's port as mirror credit for the new tick (R332). -/
def State.grantMirror (s : State) : State :=
  ((s.store.nss.filter fun n => n.mirror && n.replica).map (·.f.mirrorNode)).eraseDups.foldl (fun a n =>
    match (List.range 3).find? fun p => a.portUp p && (a.port p).peer == n with
    | some p => a.sendFrame p fCredit n 0 (a.gtickNow + 281474976710656 * (a.portCfg p).credit)
    | none => a) s

/-- What a member's membership and lock do at the boundary (R312, R318): an RCLK of the group that is due, the return
to lock, the commit whose vote window opens. -/
def State.groupBoundary (s : State) : State :=
  let s1 := match s.zl.rclkAt with
    | some (g, us) =>
      if g ≤ s.gtickNow then (s.modHz fun h => { h with rclkUs := max h.rclkUs us }).modZl fun z => { z with rclkAt := none }
      else s
    | none => s
  let s2 := if s1.zl.group = .member ∧ s1.zl.lock = .unlocked ∧ s1.param 0x0B17 0 ≤ s1.zl.hits then
      s1.gainLock.hzEvent St.hzLockRegained s1.hz.epoch
    else s1
  ((s2.modZl fun z => { z with
    marked := false, ports := z.ports.map fun p => { p with sentPause := false } }).takeCommit).tryReform

/-- A master that has left as the sole member is SOLO once the ring marks of the epochs admitted before are sealed
(R319): what was sealed since is durable, its completions follow. [log 115: DEDUCED] -/
def State.dissolve (s : State) : State :=
  let open_ := s.hz.epochs.any fun e => decide (e.n ≤ s.zl.leaving) && s.ringDeferred e.n
  if s.zl.leaving = 0 ∨ open_ = true then s
  else
    let s1 := (s.applyRing s.hz.sealed).modZl fun z => { z with
      group := .solo, master := 0, members := [], base := 0, offset := 0, leaving := 0, votes := [], joinAt := 0 }
    let s2 := if s.accepted.grouped then s1.record [s1.membershipCtrl false] else s1
    (s2.zlOpenEvent 0 s.node).endDue

/-- The hold of an activation counts a boundary: deadlines move by one tick (R386, R389, R415). -/
def State.holdTick (s : State) : State :=
  if s.fw.holding then
    ((s.modFw fun f => { f with holdTicks := f.holdTicks + 1 }).modQ fun q => { q with
      cmds := q.cmds.map fun c => { c with late := c.late + 1 } }).pauseAll
  else if s.pw.entry ≠ .none then s.pauseAll
  else s

/-- TICK_OUT rises on the tick master while a comparator is assigned (R470). [log 123: DESIGN CHOICE] -/
def State.tickOut (s : State) : State :=
  let on := s.zl.group == .master && s.inForce.claims.any fun c => c.opcode == 0x0107
  s.modHz fun h => { h with tickOutHigh := on }

/-- Landing programs of an epoch still run two ticks after it: nothing is admitted, HZ_PLAN_OVERRUN (R62). [log 56:
DEDUCED] -/
def State.overrun (s : State) : State :=
  let slow := s.hz.epochs.filter fun e => !e.confirmed && decide (2 ≤ s.ageOf e)
  if slow.isEmpty then s
  else
    let s1 := s.modHz fun h => { h with blocked := true }
    (slow.filter fun e => s.ageOf e == 2).foldl (fun a e =>
      (a.modHz fun h => { h.fault 2 e.n with overruns := sat32 (h.overruns + 1) }).hzEvent St.hzPlanOverrun e.n) s1

/-- Epoch number of the next tick: one more, or the jump of a join (R67, R317). -/
def State.nextEpoch (s : State) : Nat := s.hz.epoch + 1

/-- Everything that happens between one tick and the next, from the tick that ends. [log 56: DEDUCED] -/
def State.turnTick (s : State) (stretchNs : Nat) : State :=
  let n := s.nextEpoch
  let s1 := ((s.ingestDrain.recordEngines).passTime stretchNs).dropTimers
  let s2 := (s1.applyChange n).applyParams n
  let s3 := (s2.modHz fun h => { h with epochs := updIf (fun e => e.n == s.hz.epoch) (fun e => { e with closed := true }) h.epochs }).sqRefill
  let s4 := (s3.openTick n).mediaTick.mediaCounts
  let s5 := (((s4.lockTickIn.groupBoundary).dissolve).liftHold).reportMode
  let s6 := ((s5.powerBoundary.retrainStep).enablePorts).holdTick
  let s7 := ((s6.sendMarks.grantMirror).tickOut).overrun
  ((s7.admitTickets.runPuts).pumpRoutes).tryHeld

/-- TICK_BOUNDARY (R36 and the rules above): deadlines that the tick's end passes come first; an epoch not sealed by
the end of N + 6 halts the device. [log 2, 3: DESIGN CHOICE; 56: DEDUCED] -/
def execTickBoundary (stretchNs : Nat) (s : State) : Res :=
  if s.hz.ticking = true ∧ s.hz.phase ≠ .accept then
    let s1 := match s.lateDue with | some e => s.sealLateAt e | none => s
    if s1.hz.ticking = false then .next s1
    else
      let s2 := match s1.ringDue with
        | some e => if s1.hz.ringMark < e.n then s1.ringLateAt e.n else s1
        | none => s1
      if s2.hz.ticking = false then .next s2
      else if s2.unsealedDue then .next s2.enterHalted
      else .next (s2.turnTick stretchNs)
  else .next s

/-- TICK_OUT_PULSE_END (R470). -/
def execTickOutPulseEnd (s : State) : Res := .next (s.modHz fun h => { h with tickOutHigh := false })

/-! ### Mailbox commands (R70) -/

/-- The refusals of R32 in the order of its table. -/
def State.hzRefusal (s : State) (p src w : Nat) : Option (Status × List Nat) :=
  let d := s.accepted
  if d.writeCap p < sumBy (·.write) s.grants + d.portCredit then some (St.hzCreditPool, [])
  else if windowNs p w < 50000 ∨ (s.inRing = true ∧ windowNs p w < 2 * s.zl.latency) then some (St.hzSealWindow, [])
  else if src = 2 ∧ s.inRing = false then some (St.hzSource, [])
  else if s.zl.group = .member ∧ (p ≠ d.period ∨ w ≠ d.window) then some (St.hzRingMember, [])
  else if src = 1 then (s.conflict 0x10 0x0401).map fun v => (St.resourceConflict, v)
  else none

/-- HZ_CONFIGURE (R32 to R34, R70): in effect from tick A + 3; source 1 claims the ball at once. -/
def execHzConfigure (fn : Nat) (req : MbReq) (s : State) : Res :=
  .next (s.mbRun Mb.hzConfigure fn req fun s =>
    let p := fld req 0 8
    let src := fld req 8 8
    let w := fld req 16 8
    match s.hzRefusal p src w with
    | some r => .refuse r.1 r.2
    | none =>
      let s1 := (s.record [.hzConfig p src w]).moveClaim (if src = 1 then 0x10 else 0) 0x0401 fn
      .persist [] (s1.modHz fun h => { h with
        changes := h.changes ++ [(h.epoch + 3, p, src, w)]
        tickIn := if src = 1 ∧ h.tickIn.watching = false then .watch p (h.epoch + 3) else h.tickIn }))

/-- Codes of HZ_STATUS.STATE (R453). -/
def HzState.code : HzState → Nat
  | .stopped => 0
  | .running => 1
  | .late => 2
  | .halted => 3
  | .draining => 4

/-- HZ_STATUS.SOURCE: 1 from the acceptance of source 1 on (R34). -/
def State.sourceNow (s : State) : Nat := if s.hz.tickIn.watching then 1 else s.hz.source

/-- HZ_STATUS.LOCK: boundaries come from SOURCE (R34, R453). -/
def State.lockNow (s : State) : Bool :=
  s.hz.ticking &&
    (if s.sourceNow = 1 then s.hz.source == 1 && s.hz.tickIn.locked
     else if s.sourceNow = 2 then s.zl.lock == .locked || s.zl.lock == .flywheel
     else true)

/-- HZ_STATUS (R70). -/
def execHzStatus (fn : Nat) (req : MbReq) (s : State) : Res :=
  .next (s.mbRun Mb.hzStatus fn req fun s =>
    .basic [s.hz.st.code, s.sourceNow, b2n s.lockNow, s.hz.epoch, s.hz.sealed, s.hz.ringMark, s.hz.sealLate,
      s.hz.overruns, s.hz.ringLate] s)

/-- The budgets of the tick plan, one pair (granules, µs) for each row of R49 in its order; 0 stands for a resource
that the row does not count in that unit. The seal entries are two descriptors and two map delta entries of 256 KiB at
most (R44, R117), the reserve is that of R50 for one member. [log 140: DESIGN CHOICE] -/
def State.planBudgets (s : State) : List (Nat × Nat) :=
  let d := s.inForce
  let w := windowNs s.hz.period s.hz.window / 1000
  let program := s.periodUs - w
  let read := readCapacity s.hz.period d.linkFloor
  [(d.writeCap s.hz.period, program), (2 * 1 + 2 * 64, w), (s.flash.parity.length, program), (read, s.periodUs),
    (read + scanCapacity s.hz.period, s.periodUs), (0, s.param 0x0411 0 * s.periodUs / 100), (0, s.slotUs),
    (0, s.param 0x0415 0 * w / 100), (0, 2 * s.zl.latency / 1000)]

/-- HZ_PLAN_READ (R49, R52, R57, R70): the budget of each activity, the capacities and f. [log 140: DESIGN CHOICE] -/
def execHzPlanRead (fn : Nat) (req : MbReq) (s : State) : Res :=
  .next (s.mbRun Mb.hzPlanRead fn req fun s =>
    let d := s.inForce
    .basic (s.planBudgets.flatMap (fun b => [b.1, b.2]) ++
      [d.writeCap s.hz.period, readCapacity s.hz.period d.linkFloor, scanCapacity s.hz.period, s.flash.f]) s)

/-- HZ_RING_RELEASE (R48, R70, R319). -/
def execHzRingRelease (fn : Nat) (req : MbReq) (s : State) : Res :=
  .next (s.mbRun Mb.hzRingRelease fn req fun s =>
    match s.zl.group with
    | .reforming | .isolated =>
      let s1 := s.releaseRing
      .persist [] (s1.record [s1.membershipCtrl false])
    | .master | .member | .joining => .refuse St.hzNotReleasable []
    | .solo => .refuse St.zlNotInGroup [])

end Sys2Proof.Machine
end

