-- ==== Sys2Proof/Machine/Zelim.lean ====
section
/-!
DEFINITION. Zelim ports, frames and records (chapter 11): bring-up, authentication, lane margins, the acceptance of
frames, DATA, relay, acknowledgement, PAUSE and CREDIT, mirror control, fences, and the mailbox commands of R337 on
ports, trust and routes.
-/

namespace Sys2Proof.Machine

open Sys2Proof

/-! ### Bring-up (R298, R299, R329) -/

/-- First 16 bytes of SHA-256 of this device's certificate, byte 0 least significant (R329). [log 94: DEDUCED] -/
def ownDigest : Nat := natLE ((sha256 (Config.certBytes 0)).take 16)

/-- A digest prefix compared as R327 says: byte 0 most significant. [log 94: DEDUCED] -/
def digestOrder (d : Nat) : Nat := natBE (bytesLE 16 d)

/-- This end is the initiator on port `p` (R327). [log 94: DEDUCED] -/
def State.initiates (s : State) (p : Nat) : Bool :=
  decide (s.node < (s.port p).peer) ||
    (s.node == (s.port p).peer && decide (digestOrder ownDigest < digestOrder (s.port p).peerCert))

/-- AUTH messages of R327 as the argument of an AUTH frame. -/
def msgHello : Nat := 1
def msgReply : Nat := 2
def msgFinish : Nat := 3
def msgDone : Nat := 4

/-- A frame without a header of its own among the operands was received in order on port `p` (R305). -/
def State.received (s : State) (p : Nat) : State :=
  s.modPort p fun x => { x with rxSeq := x.rxSeq + 1, ackDue := true }

/-- What a port sends as it enters a step of R298: DELAY frames at step 5, its DISCOVER at step 6. -/
def State.enterStep (s : State) (p n : Nat) : State :=
  let s1 := s.modPort p fun x => { x with st := .step n }
  if n = 5 then s1.sendDelay p else if n = 6 then s1.sendFrame p fDiscover adjacent 0 s.node else s1

/-- Step 7 begins: the initiator sends HELLO (R298, R327). -/
def State.beginAuth (s : State) (p : Nat) : State :=
  let first := s.initiates p
  let s1 := s.modPort p fun x => { x with st := .step 7, auth := .none, initiator := first, nonces := [] }
  if first then
    (s1.free.2.modPort p fun x => { x with auth := .helloSeen, nonces := [s1.free.1.toNat] }).sendFrame p fAuth
      adjacent 0 msgHello
  else s1

/-- ZL_SIGNAL_DETECT (R298 step 1): in P3 the links idle (R334). [log 170: DEDUCED] -/
def execZlSignalDetect (port : Nat) (s : State) : Res :=
  if (s.portCfg port).enable = true ∧ (s.port port).st = .down ∧ s.pw.st ≠ .p3 then
    .next (s.modPort port fun x => { x with st := .step 2 })
  else .next s

/-- ZL_PORT_BRINGUP_STEP (R298): step 7 ends by authentication, so only its failure comes this way. [log 93: DEDUCED]
-/
def execZlPortBringupStep (port : Nat) (ok : Bool) (s : State) : Res :=
  match (s.port port).st with
  | .step n =>
    if n = 7 then (if ok then .next s else .next (s.authFail port))
    else if ok then
      .next (if n = 6 then s.beginAuth port else s.enterStep port (n + 1))
    else .next (s.modPort port fun x => { x.drop .restartWait with fails := x.fails + 1 })
  | _ => .next s

/-- ZL_PORT_RESTART_TIMER (R298): 10 ms after a failed step. -/
def execZlPortRestartTimer (port : Nat) (s : State) : Res :=
  if (s.port port).st = .restartWait then .next (s.modPort port fun x => { x with st := .down }) else .next s

/-- ZL_BLOCK_LOCK_LOSS (R298, R313). -/
def execZlBlockLockLoss (port : Nat) (s : State) : Res :=
  match (s.port port).st with
  | .up => .next (s.portDown port)
  | .step _ => .next (s.portDown port)
  | _ => .next s

/-- DISCOVER (R298 step 6, R329): the peer is known, and the quarantine event carries its digest. The event table
gives port and node; the digest stands above them in the log. -/
def execDiscover (port node certDigest caps : Nat) (s : State) : Res :=
  if (s.port port).st = .step 6 then
    let s1 := (s.received port).modPort port fun x => { x with peer := node, peerCert := certDigest, peerCaps := caps }
    .next (s1.free.2.event 5 deviceFn [0] (s1.freeStatus 9).1
      (port % 4 + 65536 * (node % 65536) + 4294967296 * (certDigest % 2 ^ 128)))
  else if s.portUp port then
    .next ((s.received port).modPort port fun x => { x with peerCaps := caps })
  else .next s

/-- DELAY (R299): at step 5, and again after a retrain. -/
def execDelay (port dPortNs : Nat) (s : State) : Res :=
  if (s.port port).st = .step 5 ∨ s.portUp port = true then
    .next ((s.received port).modPort port fun x => { x with dPort := dPortNs })
  else .next s

/-! ### Authentication (R326 to R328) -/

/-- The scope under which a certificate that chains to `anchor` is accepted on port `p`, with the trust slot: a slot
that holds the anchor, else an admission by the host with PEER scope. -/
def State.trusts (s : State) (p anchor : Nat) : Option (Nat × Option Nat) :=
  match s.inForce.trust.find? (fun t => t.2.key == anchor) with
  | some t => some (t.2.scope, some t.1)
  | none => if (s.port p).admitted.contains (s.port p).peerCert then some (1, none) else none

/-- JOIN request to the master of a neighbour's group, or to the master of the last membership (R317, R325). -/
def State.askJoin (s : State) (p : Nat) : State :=
  if s.zl.group = .reforming ∧ s.zl.master ≠ s.node then s.sendJoin s.zl.master 0 0
  else if (s.zl.group = .joining ∨ (s.zl.group = .isolated ∧ s.zl.joinLong ≠ 0)) ∧ s.zl.joinAt = 0 ∧
      (s.port p).scope = some 0 then (s.modZl fun z => { z with joinPort := p }).sendFrame p fJoin adjacent 0 0
  else s

/-- A port whose peer is authenticated is up (R298, R327): a pending join asks again. With join mode auto a device
outside a group begins a join anew. [log 95, 115: DEDUCED] -/
def State.portReady (s : State) (p : Nat) : State :=
  let s1 := (s.modPort p fun x => { x with
    st := .up, auth := .authed, lanesUp := (s.portCfg p).lanes, margins := [], retrain := [] }).zlOpenEvent p (s.port p).peer
  let s2 := if s1.zl.joinAuto = true ∧ s1.zl.group = .solo ∧ (s1.port p).scope = some 0 then
      s1.modZl fun z => { z with group := .joining } else s1
  s2.askJoin p

/-- The certificate and signature of a peer's message decide: accepted with a scope, or authentication fails. -/
def State.authStep (s : State) (p : Nat) (sigOk : Bool) (anchor : Nat) (go : State → State) : State :=
  match s.trusts p anchor with
  | some t => if sigOk then go (s.modPort p fun x => { x with scope := some t.1, trustSlot := t.2 }) else s.authFail p
  | none => s.authFail p

/-- HELLO at the responder: it answers REPLY, which the device key signs; while debug is UNLOCKED that is refused and
the port stays in quarantine (R418). -/
def execHello (port nonce eph : Nat) (s : State) : Res :=
  let x := s.port port
  if x.st = .step 7 ∧ x.initiator = false ∧ x.auth = .none ∧ s.keyUsable = true then
    let s1 := s.received port
    .next ((s1.free.2.modPort port fun x => { x with
      auth := .replied, nonces := [s1.free.1.toNat, nonce, eph] }).sendFrame port fAuth adjacent 0 msgReply)
  else .next s

/-- REPLY at the initiator: it answers FINISH, signed by the device key. -/
def execReply (port nonce eph : Nat) (sigOk : Bool) (anchorKey : Nat) (s : State) : Res :=
  let x := s.port port
  if x.st = .step 7 ∧ x.initiator = true ∧ x.auth = .helloSeen ∧ s.keyUsable = true then
    .next ((s.received port).authStep port sigOk anchorKey fun s =>
      (s.modPort port fun x => { x with auth := .finished, nonces := x.nonces ++ [nonce, eph] }).sendFrame port fAuth
        adjacent 0 msgFinish)
  else .next s

/-- FINISH at the responder: it answers DONE, and the port leaves quarantine. [log 16: DESIGN CHOICE; 93: DEDUCED] -/
def execFinish (port : Nat) (sigOk : Bool) (anchorKey : Nat) (s : State) : Res :=
  let x := s.port port
  if x.st = .step 7 ∧ x.initiator = false ∧ x.auth = .replied then
    .next ((s.received port).authStep port sigOk anchorKey fun s => (s.sendFrame port fAuth adjacent 0 msgDone).portReady port)
  else .next s

/-- DONE at the initiator: the port leaves quarantine. [log 93: DEDUCED] -/
def execDone (port : Nat) (s : State) : Res :=
  let x := s.port port
  if x.st = .step 7 ∧ x.initiator = true ∧ x.auth = .finished then .next ((s.received port).portReady port)
  else .next s

/-- AUTH_TIMEOUT (R327): 50 ms after HELLO. -/
def execAuthTimeout (port : Nat) (s : State) : Res :=
  if (s.port port).st = .step 7 ∧ (s.port port).auth ≠ .none then .next (s.authFail port) else .next s

/-! ### Lane margins (R301, R302) -/

/-- Consecutive reports of a lane below its fail threshold, the one at hand included. [log 97: DEDUCED] -/
def Port.failRun (x : Port) (lane : Nat) (bad : Bool) : Nat :=
  if bad then (match x.margins.find? (fun m => m.1 == lane) with | some m => m.2.2.2 | none => 0) + 1 else 0

/-- LANE_MARGIN_REPORT (R301): below a retrain threshold the lane is due for a retrain; the third report in a row
below half of it takes the lane out of service, the last lane the port with it. A lane that a FULL retrain holds
carries no load, and what it reports is not acted on. [log 97: DEDUCED] -/
def execLaneMarginReport (port lane vertical horizontal : Nat) (s : State) : Res :=
  let x := s.port port
  let tv := s.param 0x0B10 port
  let th := s.param 0x0B11 port
  let k := x.failRun lane (decide (2 * vertical < tv) || decide (2 * horizontal < th))
  let gone := (x.margins.any fun m => m.1 == lane && decide (3 ≤ m.2.2.2)) ||
    x.retrain.any fun r => r.lane == lane && r.full
  if s.portUp port = false ∨ (s.portCfg port).lanes ≤ lane ∨ gone = true then .next s
  else
    let low := decide (vertical < tv) || decide (horizontal < th)
    let s1 := s.modPort port fun x => { x with
      margins := (x.margins.filter fun m => m.1 != lane) ++ [(lane, vertical, horizontal, k)]
      retrain := if low && !x.retrain.any (fun r => r.lane == lane) then x.retrain ++ [⟨lane, false, 0⟩] else x.retrain
      adapted := if low then x.adapted else x.adapted.filter (· != lane) }
    if k < 3 then .next s1
    else if x.lanesUp ≤ 1 then .next (s1.portDown port)
    else .next (s1.modPort port fun x => { x with
      lanesUp := x.lanesUp - 1, retrain := x.retrain.filter fun r => r.lane != lane })

/-! ### Acceptance of frames (R303 to R305, R330) -/

/-- A violation for which the spec names no status to log: a free value. [log 19, 96: DESIGN CHOICE] -/
def State.openViolation (s : State) (p : Nat) : State := (s.freeStatus 9).2.violation p (s.freeStatus 9).1

/-- ACK: SEQ[31:0] of the last frame that the peer received in order frees the frames up to it. [log 98: DEDUCED] -/
def Port.ack (x : Port) (ack : Nat) : Port :=
  let back := (x.txSeq % 4294967296 + 4294967296 - ack % 4294967296) % 4294967296
  if back ≤ x.txSeq then { x with
    acked := max x.acked (x.txSeq - back), unacked := x.unacked.filter fun u => decide (x.txSeq - back < u.1) }
  else x

/-- A frame decodes under R303: no RSV bit, LEN at most 8,192 and equal to the payload that came. -/
def frameOk (f : Frame) (bytes : Nat) : Bool := decide (f.flags < 4) && decide (f.len ≤ 8192) && f.len == bytes

/-- A frame with its header on port `p`: dropped without NAK in quarantine, NAKed where it does not decode, answered
RETRANS after a tag failure or a SEQ gap, dropped where its SEQ came before; otherwise accepted and acted on. [log 98:
DEDUCED] -/
def State.onFrame (s : State) (p : Nat) (f : Frame) (bytes : Nat) (go : State → State) : State :=
  let x := s.port p
  match x.st with
  | .step _ => s.openViolation p
  | .up =>
    if frameOk f bytes = false then (s.sendNak p f.src f.rid f.seq St.zlFrame).violation p St.zlFrame
    else if f.tagOk = false ∨ x.rxSeq + 1 < f.seq then
      (s.sendFrame p fRetrans adjacent 0 (x.rxSeq + 1)).openViolation p
    else if f.seq ≤ x.rxSeq then s.modPort p fun x => { x with ackDue := true }
    else go (s.modPort p fun x => { x.ack f.ack with rxSeq := f.seq, ackDue := true })
  | _ => s

/-- A received frame of no operands acted on where the port is up; in quarantine it is a violation without NAK. -/
def State.onPort (s : State) (p : Nat) (go : State → State) : State :=
  match (s.port p).st with
  | .up => go (s.received p)
  | .step _ => s.openViolation p
  | _ => s

/-- RETRANS (R305): the frames from the named SEQ on go again. [log 99: DESIGN CHOICE; 100: DEDUCED] -/
def State.resend (s : State) (p seq : Nat) : State :=
  s.modZl fun z => { z with
    sent := z.sent ++ (((s.port p).unacked.filter fun u => decide (seq ≤ u.1)).map (·.2)) }

/-- RETRANS. [log 100: DEDUCED] -/
def execRetrans (port seq : Nat) (s : State) : Res := .next (s.onPort port fun s => s.resend port seq)

/-- ZL_RETRANSMIT_TIMEOUT (R305): 20 µs without acknowledgement. -/
def execZlRetransmitTimeout (port : Nat) (s : State) : Res :=
  if s.portUp port then .next (s.resend port 0) else .next s

/-- EMPTY_ACK_FRAME_TIMER (R305): a frame without payload carries the ACK. [log 98: DEDUCED] -/
def execEmptyAckFrameTimer (port : Nat) (s : State) : Res :=
  if s.portUp port = true ∧ (s.port port).ackDue = true then .next (s.sendFrame port fData adjacent 0 0) else .next s

/-- UNKNOWN_FRAME_TYPE (R330). -/
def execUnknownFrameType (port : Nat) (f : Frame) (s : State) : Res :=
  match (s.port port).st with
  | .up => .next ((s.sendNak port f.src f.rid f.seq St.zlFrame).violation port St.zlFrame)
  | .step _ => .next (s.openViolation port)
  | _ => .next s

/-- A frame for another node goes out on the port of its route, in every state of the device (R306). -/
def State.relay (s : State) (p : Nat) (f : Frame) : State :=
  let r := s.routePort f.dst
  if r = 3 then (s.sendNak p f.src f.rid f.seq St.zlNoRoute).violation p St.zlNoRoute
  else s.sendFrame r f.typ f.dst f.rid f.arg

/-- FRAME_RELAY (R306, R330). -/
def execFrameRelay (port : Nat) (f : Frame) (s : State) : Res :=
  if f.dst = s.node ∨ f.dst = adjacent then .next s
  else .next (s.onFrame port f f.len fun s => s.relay port f)

/-- PAUSE (R308). -/
def execPause (port gtick : Nat) (s : State) : Res :=
  .next (s.onPort port fun s => s.modPort port fun x => { x with pausedTo := max x.pausedTo gtick })

/-- CREDIT (R332). -/
def execCredit (port gtick granules : Nat) (s : State) : Res :=
  .next (s.onPort port fun s => s.modPort port fun x => { x with mirrorTick := gtick, mirrorCredit := granules })

/-! ### DATA (R308, R81) -/

/-- Space that a record holds in the ingress share: the whole record from its first frame on. -/
def LinkRec.space (r : LinkRec) : Nat :=
  match r.hdr with
  | some h => 32 + h.declLen
  | none => 0

/-- The ingress share of port `p`: 4 x its write credit (R308). -/
def State.portShare (s : State) (p : Nat) : Nat := 4 * (4096 * (s.portCfg p).credit)

/-- What the records of port `p` hold of its share. -/
def State.portHeld (s : State) (p : Nat) : Nat := sumBy LinkRec.space (s.port p).recs

/-- PAUSE to the peer on port `p`, once a tick, naming the next group tick (R308). -/
def State.pausePeer (s : State) (p : Nat) : State :=
  if (s.port p).sentPause then s
  else (s.modPort p fun x => { x with sentPause := true }).sendFrame p fPause adjacent 0 (s.gtickNow + 1)

/-- The record of a flow that is being received. -/
def Port.partial? (x : Port) (src rid : Nat) : Option LinkRec :=
  x.recs.find? fun r => r.rid == rid && r.src == src && !r.complete

/-- The record being received replaced, or dropped. -/
def State.setPartial (s : State) (p src rid : Nat) (r : Option LinkRec) : State :=
  s.modPort p fun x => { x with
    recs := (x.recs.filter fun y => !(y.rid == rid && y.src == src && !y.complete)) ++ r.toList }

/-- What remains of a record that was refused: frames up to END are dropped. -/
def LinkRec.refused (r : LinkRec) : LinkRec := { r with hdr := none, bytes := [] }

/-- A record refused while it arrives: NAK with the status, a violation; its later frames are dropped. -/
def State.refuseRec (s : State) (p : Nat) (r : LinkRec) (fin : Bool) (st : Status) : State :=
  ((s.setPartial p r.src r.rid (if fin then none else some r.refused)).sendNak p r.src r.rid (s.port p).rxSeq st).violation
    p st

/-- The checks of R81 that the first frame allows: 1 to 4. A record for a replica comes from its primary only. [log
102: DEDUCED] -/
def State.firstCheck (s : State) (r : LinkRec) (h : RecHeader) : Option Status :=
  match headerCheck h false with
  | some st => some st
  | none =>
    match s.store.ns? r.nsid with
    | none => some St.recStream
    | some n =>
      if ¬ n.isStream ∨ ¬ s.streamOpen r.nsid r.stream then some St.recStream
      else if n.mirror ∧ n.replica ∧ ¬ r.mirror then some St.zlMirrorReplica
      else none

/-- The checks of R81 that END allows: 5 to 7. -/
def State.lastCheck (s : State) (p : Nat) (r : LinkRec) (h : RecHeader) : Option Status :=
  if r.bytes.length < 32 + h.declLen then some St.lengthShort
  else if 4096 * (s.portCfg p).credit < h.declLen then some St.hzOverCredit
  else match s.store.ns? r.nsid with
  | some n => if s.hasRoom n h.declLen then none else some St.nsFull
  | none => some St.recStream

/-- Bytes of a record that is being received: past its length it is refused, at END it is checked and waits for its
class. -/
def State.moreData (s : State) (p : Nat) (r : LinkRec) (fin : Bool) : State :=
  match r.hdr with
  | none => s.setPartial p r.src r.rid (if fin then none else some r)
  | some h =>
    if 32 + h.declLen < r.bytes.length then s.refuseRec p r fin St.lengthLong
    else if fin = false then s.setPartial p r.src r.rid (some r)
    else match s.lastCheck p r h with
    | some st => s.refuseRec p r true st
    | none => s.setPartial p r.src r.rid (some { r with complete := true })

/-- The first frame of a record: its header is checked and its space reserved (R308). -/
def State.firstData (s : State) (p : Nat) (r : LinkRec) (fin : Bool) : State :=
  let h := headerOf r.bytes
  if r.bytes.length < 32 then s.refuseRec p r fin St.lengthShort
  else match s.firstCheck r h with
  | some st => s.refuseRec p r fin st
  | none =>
    let need := 32 + h.declLen
    if s.portShare p < s.portHeld p + need ∨ Config.ingressBytes < s.ingressAll + need then
      (s.pausePeer p).refuseRec p r fin St.zlOverCredit
    else
      let s1 := s.moreData p { r with hdr := some h } fin
      if s1.portShare p < s1.portHeld p + 1024 * s.param 0x0B15 p then s1.pausePeer p else s1

/-- A record's bytes for this device; an empty frame without a RID only acknowledges. -/
def State.takeData (s : State) (p : Nat) (f : Frame) (bytes : Data) : State :=
  if f.rid = 0 then s
  else match (s.port p).partial? f.src f.rid with
  | some r => s.moreData p (if r.hdr.isSome then { r with bytes := r.bytes ++ bytes } else r) (bitAt f.flags 0)
  | none =>
    let nsid := bitsAt f.arg 0 32
    let mir := (s.store.ns? nsid).elim false fun n => n.mirror && n.replica && n.f.mirrorNode == f.src
    s.firstData p ⟨f.rid, f.src, nsid, bitsAt f.arg 32 12, bytes, none, none, false, false, mir, none⟩ (bitAt f.flags 0)

/-- DATA (R304, R308). [log 16: DESIGN CHOICE] -/
def execData (port : Nat) (f : Frame) (bytes : Data) (s : State) : Res :=
  .next (s.onFrame port f bytes.length fun s =>
    if f.dst = s.node ∨ f.dst = adjacent then s.takeData port f bytes else s.relay port f)

/-! ### NAK (R304, R307, R331, R332) -/

/-- The append whose mirror record a NAK refuses completes with its status (R332). -/
def State.nakMirror (s : State) (m : MirrorRec) (st : Status) : State :=
  let s1 := s.modZl fun z => { z with mirror := z.mirror.filter fun x => x.rid != m.rid }
  match s1.cmd? m.fn m.qid m.cid with
  | some c => s1.failCmd c st
  | none => s1

/-- The replica refuses a mirrored creation: the primary refuses `ns.create` (R331). -/
def State.nakCreate (s : State) : State :=
  match s.zl.creating with
  | some (fn, tag, _) =>
    (s.modZl fun z => { z with creating := none }).stage fn 0x0301 tag St.nsMirrorPeer [] none
  | none => s

/-- A replica that admits too late leaves the membership: the master removes it, a member reports it (R322, R330). -/
def State.lateReplica (s : State) (node : Nat) : State :=
  if s.zl.group = .master then s.removeMembers [node] else s.sendTo fLost s.zl.master 0 node

/-- A NAK counted on the first route toward the node, and logged (R307). [log 101: DEDUCED] -/
def State.nakRoute (s : State) (node : Nat) (st : Status) : State :=
  match s.zl.routes.find? (fun r => r.node == node) with
  | some r =>
    (s.modZl fun z => { z with
      routes := updIf (fun x => x.nsid == r.nsid && x.stream == r.stream) (fun x => { x with naks := sat32 (x.naks + 1) })
        z.routes }).openLog deviceFn st
  | none => s

/-- NAK. -/
def execNak (port : Nat) (f : Frame) (s : State) : Res :=
  .next (s.onFrame port f f.len fun s =>
    let st : Status := BitVec.ofNat 16 (bitsAt f.arg 0 16)
    if f.dst ≠ s.node ∧ f.dst ≠ adjacent then s.relay port f
    else if st = St.zlMirrorLate then s.lateReplica f.src
    else if f.rid = 0 then (if st = St.nsMirrorPeer then s.nakCreate else s)
    else match s.zl.mirror.find? (fun m => m.rid == f.rid) with
    | some m => s.nakMirror m st
    | none => s.nakRoute f.src st)

/-! ### Mirror control (R331 to R333) -/

/-- The replica refuses a mirrored creation (R331): NSID in use, no space, another offset, 8 replicated RNS. -/
def State.refusesMirror (s : State) (f : NsFields) (offset : Nat) : Bool :=
  s.nsFieldsAccepted.any (fun g => g.nsid == f.nsid) ||
    decide (s.freeSpace s.accepted.op < s.accepted.pool.consumes f) || offset != s.zl.offset ||
    decide (8 ≤ (s.store.nss.filter fun n => n.mirror && n.replica).length +
      (s.hz.epochs.flatMap (·.ctrl)).countP fun c => match c with | .nsCreate _ _ r => r | _ => false)

/-- MIRROR_CREATE (R331). HELD with RID 0 tells the primary that the replica creates. [log 103: DEDUCED] -/
def execMirrorCreate (port node : Nat) (ns : NsFields) (offset : Nat) (s : State) : Res :=
  .next (s.onPort port fun s =>
    if s.inRing = false ∨ s.hz.ticking = false ∨ s.refusesMirror ns offset = true then
      s.sendNak port node 0 (s.port port).rxSeq St.nsMirrorPeer
    else (s.record [.nsCreate { ns with mirrorNode := node } s.hz.epoch true]).sendTo fMirror node 0 0)

/-- The replica creates: the primary records the creation, and its reply follows the seal (R331). [log 103: DEDUCED]
-/
def State.createHeld (s : State) : State :=
  match s.zl.creating with
  | some (fn, tag, f) =>
    ((s.modZl fun z => { z with creating := none }).record [.nsCreate f s.hz.epoch false]).stage fn 0x0301 tag St.ok
      [f.nsid] (some s.hz.epoch)
  | none => s

/-- MIRROR_HELD (R331, R332 step 2). [log 103: DEDUCED] -/
def execMirrorHeld (port rid : Nat) (s : State) : Res :=
  .next (s.onPort port fun s =>
    if rid = 0 then s.createHeld
    else s.modZl fun z => { z with mirror := updIf (fun m => m.rid == rid) (fun m => { m with held := true }) z.mirror })

/-- MIRROR_ADMIT (R332 step 4): late after the cut point of its tick; one for the next tick is admitted when that
begins. [log 104: DEDUCED] -/
def execMirrorAdmit (port rid gtick : Nat) (s : State) : Res :=
  .next (s.onPort port fun s =>
    match (s.port port).recs.find? (fun r => r.rid == rid && r.complete && r.mirror) with
    | none => s
    | some r =>
      if gtick < s.gtickNow ∨ (gtick = s.gtickNow ∧ s.admits = false) then s.rejectRec port r St.zlMirrorLate
      else if gtick = s.gtickNow then s.mirrorGo port r
      else s.modRec port rid fun x => { x with ticket := some gtick })

/-- MIRROR_COPY_DONE (R333): appends resume at the seal that ends the copy. -/
def execMirrorCopyDone (nsid : Nat) (s : State) : Res :=
  if s.zl.copying.contains nsid = true ∧ s.hz.ticking = true then .next (s.record [.mirrorCopied nsid]) else .next s

/-! ### Fences (R330) -/

/-- FENCE_BACKOFF_END. -/
def execFenceBackoffEnd (port : Nat) (s : State) : Res :=
  if (s.port port).st = .fenced then .next (s.modPort port fun x => { x with st := .down }) else .next s

/-- VIOLATION_QUIET_TIMER: 10 minutes without a violation. -/
def execViolationQuietTimer (port : Nat) (s : State) : Res :=
  .next (s.modPort port fun x => { x with backoff := 1 })

/-! ### Mailbox commands on ports, trust and routes (R337) -/

/-- Payload of a port that the tick plan budgets, in granules of a period: n - 1 lanes of n (R297, R300).
[log 106: DEDUCED] -/
def portBudget (c : PortCfg) (period : Nat) : Nat :=
  (if c.lanes = 1 then 1 else c.lanes - 1) * (if c.lr then 1250 else 3125) * (250 * period) / 4096

/-- ZL_PORT_CONFIGURE (R52, R297, R300). [log 106: DEDUCED] -/
def execZlPortConfigure (fn : Nat) (req : MbReq) (s : State) : Res :=
  .next (s.mbRun Mb.zlPortConfigure fn req fun s =>
    let p := fld req 0 2
    let c : PortCfg := ⟨fld req 2 3, fld req 5 1 == 1, fld req 6 1 == 1, fld req 7 1 == 1, fld req 32 32⟩
    let d := s.accepted
    let others := d.portCredit - (d.ports.getD p .default).credit
    if portBudget c d.period < c.credit ∨
        d.writeCap d.period < sumBy (·.write) s.grants + others + c.credit then .refuse St.hzCreditPool []
    else .persist [] (s.record [.portCfg p c]))

/-- States of a port as `zl.port.status` lists them. -/
def PortState.code : PortState → Nat
  | .down => 0
  | .step n => n
  | .up => 8
  | .restartWait => 9
  | .fenced => 10
  | .off => 11

/-- ZL_PORT_STATUS (R337). -/
def execZlPortStatus (fn : Nat) (req : MbReq) (s : State) : Res :=
  .next (s.mbRun Mb.zlPortStatus fn req fun s =>
    let x := s.port (fld req 0 2)
    .basic ([x.st.code, x.lanesUp, x.dPort, x.peer, b2n (x.auth == .authed), x.scope.getD 2, x.backoff, x.fails,
      x.violations] ++ x.margins.flatMap fun m => [m.1, m.2.1, m.2.2.1]) s)

/-- In a group: a node ID may not change (R314, R319). [log 116: DEDUCED] -/
def State.grouped (s : State) : Bool := s.inRing || s.zl.group == .reforming

/-- ZL_NODE_SET (R314). [log 116: DEDUCED] -/
def execZlNodeSet (fn : Nat) (req : MbReq) (s : State) : Res :=
  .next (s.mbRun Mb.zlNodeSet fn req fun s =>
    if s.grouped then .refuse St.zlInGroup [] else .persist [] (s.record [.nodeSet (fld req 0 16)]))

/-- ZL_TRUST_ENROLL (R326). -/
def execZlTrustEnroll (fn : Nat) (req : MbReq) (s : State) : Res :=
  .next (s.mbRun Mb.zlTrustEnroll fn req fun s =>
    let slot := fldB req 0 1
    if s.accepted.trust.any fun t => t.1 == slot then .refuse St.zlTrustSlot []
    else .persist [] (s.record [.trustEnroll slot ⟨fldB req 4 64, fldB req 1 1⟩]))

/-- ZL_TRUST_REVOKE (R326): every port authenticated under the slot is fenced at once. -/
def execZlTrustRevoke (fn : Nat) (req : MbReq) (s : State) : Res :=
  .next (s.mbRun Mb.zlTrustRevoke fn req fun s =>
    let slot := fldB req 0 1
    if ¬ s.accepted.trust.any fun t => t.1 == slot then .refuse St.zlTrustSlot []
    else
      let ps := (List.range 3).filter fun p => s.portUp p && (s.port p).trustSlot == some slot
      .persist [] (ps.foldl (fun a p => a.fencePort p) (s.record [.trustRevoke slot])))

/-- ZL_PEER_ADMIT (R329): until power-off. -/
def execZlPeerAdmit (fn : Nat) (req : MbReq) (s : State) : Res :=
  .next (s.mbRun Mb.zlPeerAdmit fn req fun s =>
    let p := fld req 0 2
    let dig := fldB req 4 16
    let x := s.port p
    if x.peerCert ≠ dig ∨ dig = 0 ∨ s.portUp p = true then .refuse St.zlQuarantine []
    else .basic [] (s.modPort p fun x => { x with admitted := (x.admitted ++ [dig]).eraseDups }))

/-- ZL_ROUTE_SET (R307): a route of a stream that has one is replaced. -/
def execZlRouteSet (fn : Nat) (req : MbReq) (s : State) : Res :=
  .next (s.mbRun Mb.zlRouteSet fn req fun s =>
    let nsid := fldB req 0 4
    let num := fldB req 4 2
    let rest := s.zl.routes.filter fun r => !(r.nsid == nsid && r.stream == num)
    if ¬ ((s.store.ns? nsid).elim false Ns.isStream) ∨ ¬ s.streamBound nsid num then .refuse St.recStream []
    else if 64 ≤ rest.length then .refuse St.zlRouteLimit []
    else .basic [] (s.modZl fun z => { z with
      routes := rest ++ [⟨nsid, num, fldB req 6 2, fldB req 8 4, fldB req 12 2, [], 0, 0⟩] }))

/-- ZL_ROUTE_CLEAR (R337). -/
def execZlRouteClear (fn : Nat) (req : MbReq) (s : State) : Res :=
  .next (s.mbRun Mb.zlRouteClear fn req fun s =>
    let here := fun (r : Route) => r.nsid == fldB req 0 4 && r.stream == fldB req 4 2
    if s.zl.routes.any here then
      .basic [] (s.modZl fun z => { z with routes := z.routes.filter fun r => !here r })
    else .refuse St.zlNoRoute [])

/-- ZL_MIRROR_BREAK (R333): on the primary; the replica clears its own flag at the same seal where it is a member.
[log 124: DESIGN CHOICE] -/
def execZlMirrorBreak (fn : Nat) (req : MbReq) (s : State) : Res :=
  .next (s.mbRun Mb.zlMirrorBreak fn req fun s =>
    let nsid := fld req 0 32
    match s.store.ns? nsid with
    | none => .refuse St.nsNotAttached []
    | some n =>
      if n.mirror ∧ n.replica then .refuse St.zlMirrorReplica []
      else
        let s1 := s.record [.mirrorBreak nsid]
        .persist [] (if n.mirror ∧ s.isMember n.f.mirrorNode then s1.sendTo fMirror n.f.mirrorNode 0 nsid else s1))

/-- ZL_FENCE_CLEAR (R330). -/
def execZlFenceClear (fn : Nat) (req : MbReq) (s : State) : Res :=
  .next (s.mbRun Mb.zlFenceClear fn req fun s =>
    .basic [] (s.modPort (fld req 0 2) fun x => { x with backoff := 1 }))

end Sys2Proof.Machine
end

