-- ==== Sys2Proof/Machine/Group.lean ====
section
/-!
DEFINITION. The device group (chapter 11): joins and their end, the seal vote, membership, loss of members, tick lock,
and the mailbox commands of R337 on the group.
-/

namespace Sys2Proof.Machine

open Sys2Proof

/-- A group frame from the wrong sender or with a wrong GEN: dropped, NAK ST_ZL_FRAME, a violation (R330). -/
def State.groupViolation (s : State) (p : Nat) : State :=
  (s.sendNak p (s.port p).peer 0 (s.port p).rxSeq St.zlFrame).violation p St.zlFrame

/-- GEN is that of the membership in force for group tick `g` (R321, R322). -/
def State.genOk (s : State) (g gen : Nat) : Bool :=
  if s.zl.effective ≤ g then gen == s.zl.gen else decide (gen < s.zl.gen)

/-! ### The seal vote (R320 to R322) -/

/-- What a SEAL_READY says of its sender: not slow, and whether in lock; at the unlock limit the member is removed. -/
def State.countVoter (s : State) (node lock : Nat) : State :=
  let s1 := s.modZl fun z => { z with
    slow := z.slow.filter fun x => x.1 != node
    unlocked := if lock = 2 then bump z.unlocked node 1 else z.unlocked.filter fun x => x.1 != node }
  if s1.param 0x0B13 0 ≤ assoc s1.zl.unlocked node then s1.removeMembers [node] else s1

/-- SEAL_READY at the master (R321). -/
def execSealReady (port node gtick gen lock : Nat) (s : State) : Res :=
  .next (s.onPort port fun s =>
    if s.zl.group ≠ .master then s
    else if s.isMember node = false ∨ s.genOk gtick gen = false then s.groupViolation port
    else
      let s1 := if gtick ≤ s.zl.committed then s else s.addVote gtick node
      ((s1.countVoter node lock).tryCommit).takeCommit)

/-- SEAL_COMMIT (R46, R321): held until the vote window of its tick. While the group re-forms it carries E_ring
(R325). [log 107: DEDUCED] -/
def execSealCommit (port gtick gen : Nat) (s : State) : Res :=
  .next (s.onPort port fun s =>
    match s.zl.group with
    | .member =>
      if s.genOk gtick gen then
        (s.modHz fun h => { h with commitHeld := max h.commitHeld (gtick + s.zl.offset) }).takeCommit
      else s.groupViolation port
    | .reforming => s.modHz fun h => { h with commitHeld := max h.commitHeld (gtick + s.zl.offset) }
    | .master => s.groupViolation port
    | _ => s)

/-! ### Membership (R318, R322, R323) -/

/-- The tick port of a member in the tick tree that a new membership brings (R315). -/
def State.retree (s : State) : State :=
  if s.zl.group = .member then
    (hopOf s.zl.master s.cablesNow s.node).elim s fun h => s.modZl fun z => { z with tickPort := h.port }
  else s

/-- A membership that names this device is adopted, with the cables over which the master built its tick tree and
routes, and the group's RCLK from its effective tick on. [log 28: DEDUCED; 105: DESIGN CHOICE] -/
def State.adopt (s : State) (gen effective master : Nat) (ring : Ring) (rclk : Nat) : State :=
  let s1 := s.modZl fun z => { z with
    cables := ring.cables
    master := master, base := match ring.members.find? (fun m => m.node == master) with | some m => m.offset | none => z.base
    rclkAt := if rclk = 0 then z.rclkAt else some (effective, rclk) }
  (s1.setMembers gen effective ring.members).retree

/-- MEMBERSHIP (R322): one without this device isolates a member (R323). -/
def execMembership (port gen effective master : Nat) (ring : Ring) (rclk : Nat) (s : State) :
    Res :=
  .next (s.onPort port fun s =>
    let me := ring.members.any fun m => m.node == s.node
    match s.zl.group with
    | .solo => s
    | .master => s.groupViolation port
    | .member =>
      if gen ≤ s.zl.gen then s.groupViolation port
      else if me then s.adopt gen effective master ring rclk else s.isolate
    | .joining => if me then s.adopt gen effective master ring rclk else s
    | .isolated => if me && s.zl.joinAt != 0 then s.adopt gen effective master ring rclk else s
    | .reforming => if me then s.adopt gen effective master ring rclk else s)

/-- The cables between a node and others are gone. -/
def State.dropCables (s : State) (src : Nat) (nodes : List Nat) : State :=
  s.modZl fun z => { z with cables := z.cables.filter fun c =>
    !((c.node == src && nodes.contains c.peer) || (c.peer == src && nodes.contains c.node)) }

/-- MEMBER_LOST (R322, R324): the port of `src` behind which the nodes lie went down. The master removes those that no
path reaches; a member that is left without a path to the master isolates, any other passes the frame on. [log 127:
DEDUCED] -/
def execMemberLost (port : Nat) (lost : LostNodes) (s : State) : Res :=
  .next (s.onPort port fun s =>
    let s1 := s.dropCables lost.src lost.nodes
    if s.zl.group = .master then s1.removeMembers (s1.cutOff lost.nodes)
    else if s.zl.group = .member then
      (if hopOf s.zl.master s1.cablesNow s.node = none then s1.loseMaster
       else s1.sendTo fLost s.zl.master 0 (lost.nodes.headD 0))
    else s)

/-! ### Joins at the master (R314, R316 to R318, R325) -/

/-- A JOIN request refused. [log 109: DEDUCED; 110: DESIGN CHOICE] -/
def State.refuseJoin (s : State) (node : Nat) (st : Status) : State :=
  (s.modZl fun z => { z with joins := z.joins.filter fun j => !(j.node == node && !j.accepted) }).sendJoin node 3 st.toNat

/-- The group stays within its seal window with another node (R316). -/
def State.latencyFits (s : State) (node : Nat) : Bool :=
  decide (2 * worstLatency s.node s.cablesNow (node :: s.zl.members.map (·.node)) ≤ windowNs s.hz.period s.hz.window)

/-- The offset of a joiner: GROUP_BASE where its first group epoch then lies above its last epoch, else the least that puts it
there (R68, R317). -/
def joinerOffset (base last g : Nat) : Nat := if last < g + base then base else last + 1 - g

/-- Step 3 of R317: the offer names the join tick at the least lead, and the joiner's offset. [log 108: DEDUCED] -/
def State.offerJoin (s : State) (j : Join) : State :=
  if s.latencyFits j.node = false then s.refuseJoin j.node St.zlGroupSize
  else
    let g := s.gtickNow + s.joinLead
    let k : Join := { j with offset := joinerOffset s.zl.base j.last g, gJ := g, waitingHost := false }
    let s1 := s.modZl fun z => { z with joins := (z.joins.filter fun x => x.node != j.node) ++ [k] }
    (s1.modHz fun h => { h with rclkUs := max h.rclkUs j.rclk }).sendJoin j.node 1 g

/-- A request of a member of the last membership, at the master that re-forms its group. -/
def State.reformRequest (s : State) (j : Join) : State :=
  if s.isMember j.node ∧ s.zl.joinAt = 0 then
    s.modZl fun z => { z with
      joins := (z.joins.filter fun x => x.node != j.node) ++ [{ j with offset := s.offsetOf j.node }] }
  else s.refuseJoin j.node St.zlJoinRefused

/-- The cables of a node that asks to join are known from now on (R315). -/
def State.learnCables (s : State) (node : Nat) (cables : List Cable) : State :=
  s.modZl fun z => { z with
    cables := (z.cables.filter fun c => c.node != node && c.peer != node) ++
      cables.filter fun c => c.node == node || c.peer == node }

/-- JOIN_REQUEST (R314, R317 steps 1 to 3, R325). A peer of PEER scope may not join. [log 109: DEDUCED] -/
def execJoinRequest (port node ringMark : Nat) (marks : JoinMarks) (cables : List Cable) (rclk : Nat) (s : State) : Res :=
  .next (s.onPort port fun s0 =>
    let j : Join := ⟨node, port, marks.last, 0, 0, rclk, false, false, ringMark, marks.highWater⟩
    let s := s0.learnCables node cables
    if (s0.port port).scope ≠ some 0 then s0.groupViolation port
    else if s0.zl.group = .reforming ∧ s.zl.master = s.node then s.reformRequest j
    else if s.zl.group ≠ .master then s0
    else if node = 0 ∨ node = adjacent ∨ s.isMember node = true ∨ (s.zl.joins.any fun x => x.node == node) = true then
      s.refuseJoin node St.zlNodeId
    else if s.zl.hostAdmit then
      (s.modZl fun z => { z with joins := z.joins ++ [{ j with waitingHost := true }] }).zlOpenEvent port node
    else s.offerJoin j)

/-- Step 6 of R317: MEMBERSHIP with the joiner from its join tick on, and the group's RCLK at that tick. -/
def State.acceptJoin (s : State) (j : Join) : State :=
  let ms := if s.isMember j.node then s.zl.members else s.zl.members ++ [⟨j.node, j.offset⟩]
  let s1 := s.modZl fun z => { z with
    joins := updIf (fun x => x.node == j.node) (fun x => { x with accepted := true }) z.joins
    rclkAt := some (j.gJ, s.hz.rclkUs + (j.gJ - s.gtickNow) * s.periodUs) }
  ((s1.setMembers (s.zl.gen + 1) j.gJ ms).zlOpenEvent 0 j.node).sendMembers fMembership (s.zl.gen + 1)

/-- JOIN_ACCEPT (R317 steps 5 and 6). -/
def execJoinAccept (port node : Nat) (s : State) : Res :=
  .next (s.onPort port fun s =>
    match s.zl.joins.find? (fun j => j.node == node && !j.waitingHost && !j.accepted && j.gJ != 0) with
    | some j => if s.zl.group = .master ∨ s.zl.group = .reforming then s.acceptJoin j else s
    | none => s.groupViolation port)

/-! ### Joins at the joiner (R317, R318) -/

/-- A device that waits for a group: joining, isolated and joining again, or re-forming. -/
def State.joiner (s : State) : Bool :=
  s.zl.group == .joining || (s.zl.group == .isolated && s.zl.joinLong != 0) ||
    (s.zl.group == .reforming && s.zl.master != s.node)

/-- A join ends without success (R317, R319). [log 117: DEDUCED] -/
def State.endJoin (s : State) (st : Status) : State :=
  (s.endLong s.zl.joinLong st []).modZl fun z => { z with
    group := if z.group = .joining then .solo else z.group
    joinAt := 0, joinLong := 0, lock := .none, tickPort := 3, hits := 0 }

/-- JOIN_OFFER (R317 steps 3 and 4, R318): a period or window that changes takes effect under R32, then the joiner
acquires lock; otherwise at once. [log 28: DEDUCED] -/
def execJoinOffer (port gJ period window offset rclk : Nat) (s : State) : Res :=
  .next (s.onPort port fun s =>
    if s.joiner = false ∨ s.zl.joinAt ≠ 0 then s
    else
      let s1 := (s.modZl fun z => { z with
        joinAt := gJ, joinOffset := offset, joinPort := port, hits := 0, sumNs := 0, misses := 0 }).modHz fun h => { h with
          rclkUs := max h.rclkUs rclk }
      if s.hz.period = period ∧ s.hz.window = window ∧ s.hz.changes = [] then
        s1.modZl fun z => { z with lock := .acquiring, tickPort := port }
      else
        (s1.record [.hzConfig period s.hz.source window]).modHz fun h => { h with
          changes := h.changes ++ [(h.epoch + 3, period, h.source, window)] })

/-- JOIN_REFUSE: the end of a join at the joiner; at the master the joiner of that port has not reached lock. -/
def execJoinRefuse (port : Nat) (status : Status) (s : State) : Res :=
  .next (s.onPort port fun s =>
    if s.joiner then s.endJoin status
    else s.modZl fun z => { z with joins := z.joins.filter fun j => !(j.port == port && !j.accepted) })

/-- JOIN_LOCK_DEADLINE (R317 step 5): the boundary of G_J - 2.
[log 110: DESIGN CHOICE] -/
def execJoinLockDeadline (s : State) : Res :=
  if s.joiner = false ∨ s.zl.joinAt = 0 then .next s
  else if s.zl.lock = .locked then .next (s.sendFrame s.zl.joinPort fJoin adjacent 0 2)
  else .next ((s.sendFrame s.zl.joinPort fJoin adjacent 0 (3 + 16 * St.zlJoinLock.toNat)).endJoin St.zlJoinLock)

/-- The accepting epoch, still empty at its boundary, takes the number `n` (R67, R317 step 7). [log 112: DEDUCED] -/
def State.renumber (s : State) (n : Nat) : State :=
  s.modHz fun h => { h with
    epoch := n, tick := { h.tick with tick := n }
    epochs := updIf (fun e => e.n == h.epoch) (fun e => { e with n := n }) h.epochs }

/-- At the boundary of G_J the device becomes a member, or the master of the group that it has re-formed: its epoch
number jumps forward, and its ring-synchronous namespaces are ONLINE with their content at E_ring (R317, R319, R325).
[log 111: DEDUCED] The completion of `zl.group.join` follows the seal of the membership (R22). [log 111: DEDUCED] -/
def State.joinNow (s : State) : State :=
  let z := s.zl
  let mark := if z.group = .reforming then max s.hz.ringMark s.hz.commitHeld else s.hz.ringMark
  let s1 := (s.renumber (z.joinAt + z.joinOffset)).settleRing mark
  let s2 := (s1.modStore fun d => d.moveRing .offlineRing .online).modZl fun y => { y with
    group := if z.group = .reforming ∧ z.master = s.node then .master else .member
    offset := z.joinOffset, joinEpoch := 0, joinLong := 0, committed := z.joinAt - 1, votes := []
    effective := max y.effective z.joinAt }
  ((s2.ringNsEvents St.ok).zlOpenEvent 0 s.node).record [s2.membershipCtrl true z.joinLong]

/-- The accepting epoch holds nothing yet. [log 112: DEDUCED] -/
def State.freshEpoch (s : State) : Bool := s.hz.phase == .accept && (s.epoch?.elim false fun e => e.fx.isEmpty)

/-- JOIN_TICK_REACHED (R317 step 7): the joiner is in lock and in the membership; a master that re-forms its group has
had the accept of every member. [log 112: DEDUCED] -/
def execJoinTickReached (s : State) : Res :=
  let leads := s.zl.group == .reforming && s.zl.master == s.node && (s.zl.joins.all fun j => j.accepted) &&
    s.hz.epoch == s.zl.joinEpoch
  let follows := s.joiner && s.zl.lock == .locked && s.isMember s.node
  if s.hz.ticking = true ∧ s.zl.joinAt ≠ 0 ∧ s.freshEpoch = true ∧ s.hz.epoch ≤ s.zl.joinAt + s.zl.joinOffset ∧
      (leads || follows) = true then .next s.joinNow
  else .next s

/-! ### Tick lock (R311, R312) -/

/-- One miss: the flywheel places the boundary; the third in a row drops the lock. [log 113: DEDUCED] -/
def State.missMark (s : State) : State :=
  let s1 := s.modZl fun z => { z with marked := true, marksMiss := sat32 (z.marksMiss + 1), nudgeNs := 0 }
  match s.zl.lock with
  | .locked => s1.modZl fun z => { z with lock := .flywheel, misses := 1 }
  | .flywheel =>
    if s.zl.misses < 2 then s1.modZl fun z => { z with misses := z.misses + 1 }
    else (s1.modZl fun z => { z with lock := .unlocked, misses := 0, hits := 0, sumNs := 0 }).hzEvent
      St.hzLockLost s.hz.epoch
  | _ => s1.modZl fun z => { z with hits := 0 }

/-- A mark counted toward lock while it is sought; at the relock count of consecutive ones an acquiring device is in
lock and takes its ticks from the marks (R31, R312). [log 114: DEDUCED] -/
def State.hitMark (s : State) (intervalNs : Nat) : State :=
  let acc := addInterval s.periodNs (s.zl.hits != 0) intervalNs (if s.zl.hits = 0 then (0, 0) else (s.zl.sumNs, s.zl.ivals))
  let s1 := s.modZl fun z => { z with hits := z.hits + 1, sumNs := acc.1, ivals := acc.2 }
  if s.zl.lock = .acquiring ∧ s1.param 0x0B17 0 ≤ s1.zl.hits then
    s1.gainLock.modHz fun h => { h with source := 2 }
  else s1

/-- A mark accepted: the boundary moves toward it by at most the limit of 0x0414; one that follows a miss measures no
interval (R31, R69, R311). [log 113: DEDUCED] -/
def State.acceptMark (s : State) (errNs : Int) (intervalNs : Nat) : State :=
  let s1 := s.modZl fun z => { z with
    marked := true, marksOk := sat32 (z.marksOk + 1), phaseErr := errNs, nudgeNs := nudge (s.param 0x0414 0) errNs }
  match s.zl.lock with
  | .locked => s1.modZl fun z => { z with estNs := rateStep s.periodNs z.estNs intervalNs, misses := 0 }
  | .flywheel => s1.modZl fun z => { z with misses := 0, lock := .locked }
  | _ => s1.hitMark intervalNs

/-- TICK_MARK (R311, R312) on the tick port: the mark of the tick that has begun. Before the join the ticks of the
group have no local number, so any TICK is expected; an acquiring device sets its boundary from any valid mark. [log
113: DEDUCED] -/
def execTickMark (port tick : Nat) (errNs : Int) (intervalNs : Nat) (valid : Bool) (s : State) : Res :=
  let out := s.modZl fun z => { z with
    marksBad := sat32 (z.marksBad + 1), hits := if z.lock = .acquiring ∨ z.lock = .unlocked then 0 else z.hits }
  if s.portUp port = false ∨ s.zl.tickPort ≠ port ∨ s.zl.lock = .none ∨ s.hz.ticking = false ∨ s.zl.marked = true then .next s
  else if valid = false then .next out
  else if errNs.natAbs ≤ s.param 0x0B16 0 then
    (if s.inRing = true ∧ tick ≠ s.gtickNow then .next s.missMark else .next (s.acceptMark errNs intervalNs))
  else if s.zl.lock = .acquiring then .next (s.modZl fun z => { z with hits := 0, phaseErr := errNs })
  else .next out

/-- MARK_WINDOW_END (R311, R312). -/
def execMarkWindowEnd (s : State) : Res :=
  if s.zl.lock = .none ∨ s.zl.marked = true ∨ s.hz.ticking = false then .next s else .next s.missMark

/-! ### Mailbox commands on the group (R337) -/

/-- ZL_GROUP_FORM (R314, R317): group tick 1 is the next epoch; its completion follows the seal of the membership
(R22). [log 19: DESIGN CHOICE; 117: DEDUCED] -/
def execZlGroupForm (fn : Nat) (req : MbReq) (s : State) : Res :=
  .next (s.mbRun Mb.zlGroupForm fn req fun s =>
    if s.node = 0 then .refuse St.zlNodeId []
    else if s.zl.group ≠ .solo then .refuse St.zlInGroup []
    else s.long Mb.zlGroupForm fn fun s1 =>
      let base := s.hz.epoch
      let s2 := s1.modZl fun z => { z with
        group := .master, gen := z.gen + 1, effective := 1, master := s.node, members := [⟨s.node, base⟩], base := base
        offset := base, latency := 0, cables := [], hostAdmit := fld req 0 1 == 1, joinAt := 1, joinOffset := base, joins := []
        committed := 0, votes := [], slow := [], unlocked := [] }
      (s2.record [s2.membershipCtrl true s.recs.nextLong]).zlOpenEvent 0 s.node)

/-- The ports whose peer may be asked for a join: authenticated with MEMBER scope. -/
def State.joinPorts (s : State) : List Nat :=
  (List.range 3).filter fun p => s.portUp p && (s.port p).scope == some 0

/-- ZL_GROUP_JOIN (R314, R317): the request goes to the first neighbour, or to the next one that is authenticated.
[log 115, 117: DEDUCED] -/
def execZlGroupJoin (fn : Nat) (req : MbReq) (s : State) : Res :=
  .next (s.mbRun Mb.zlGroupJoin fn req fun s =>
    if s.node = 0 then .refuse St.zlNodeId []
    else if s.grouped = true ∨ s.joiner = true then .refuse St.zlInGroup []
    else s.long Mb.zlGroupJoin fn fun s1 =>
      let s2 := s1.modZl fun z => { z with
        group := if z.group = .solo then .joining else z.group
        joinAuto := fld req 0 1 == 1, joinLong := s.recs.nextLong, joinAt := 0, lock := .none }
      match s2.joinPorts with
      | p :: _ => s2.askJoin p
      | [] => s2)

/-- A member that leaves: it isolates, and the last membership goes on without it (R319, R323, R337). [log 115:
DEDUCED] -/
def State.leaveGroup (s : State) : State :=
  let s1 := s.isolate.modZl fun z => { z with members := z.members.filter fun m => m.node != s.node }
  s1.record [s1.membershipCtrl true]

/-- ZL_GROUP_LEAVE (R319). [log 115: DEDUCED] -/
def execZlGroupLeave (fn : Nat) (req : MbReq) (s : State) : Res :=
  .next (s.mbRun Mb.zlGroupLeave fn req fun s =>
    let others := s.zl.members.any fun m => m.node != s.node
    match s.zl.group with
    | .solo => .refuse St.zlNotInGroup []
    | .joining => .refuse St.zlNotInGroup []
    | .isolated => .refuse St.zlNotInGroup []
    | .member => .persist [] s.leaveGroup
    | .master =>
      if others then .refuse St.zlInGroup []
      else .persist [] ((s.modZl fun z => { z with leaving := s.hz.epoch }).record
        [.membership false ⟨s.zl.gen, s.zl.master, s.zl.members⟩ 0 0 0])
    | .reforming =>
      if s.zl.master ≠ s.node then .persist [] s.leaveGroup
      else if others then .refuse St.zlInGroup []
      else .persist [] (let s1 := s.releaseRing; s1.record [s1.membershipCtrl false]))

/-- States of R319 in the code order of ZL_GROUP_STATUS.STATE. -/
def GroupState.code : GroupState → Nat
  | .solo => 0
  | .master => 1
  | .joining => 2
  | .member => 3
  | .isolated => 4
  | .reforming => 5

/-- ZL_GROUP_STATUS (R325, R337): while the group re-forms, the members that have not asked are missing. -/
def execZlGroupStatus (fn : Nat) (req : MbReq) (s : State) : Res :=
  .next (s.mbRun Mb.zlGroupStatus fn req fun s =>
    let missing := if s.zl.group = .reforming then
        (s.zl.members.filter fun m => m.node != s.node && !s.zl.joins.any fun j => j.node == m.node).map (·.node)
      else []
    .basic ([s.zl.group.code, s.zl.master, s.zl.gen, s.zl.members.length] ++
      (s.zl.members.flatMap fun m => [m.node, b2n (s.zl.unlocked.any fun x => x.1 == m.node)]) ++
      [missing.length] ++ missing ++
      [s.zl.base, s.zl.offset, s.zl.latency, windowNs s.hz.period s.hz.window]) s)

/-- ZL_MEMBER_ADMIT (R317 step 2). -/
def execZlMemberAdmit (fn : Nat) (req : MbReq) (s : State) : Res :=
  .next (s.mbRun Mb.zlMemberAdmit fn req fun s =>
    if s.zl.group ≠ .master then .refuse St.zlNotMaster []
    else match s.zl.joins.find? (fun j => j.node == fld req 0 16 && j.waitingHost) with
    | none => .basic [] s
    | some j => .basic [] (if fld req 16 1 = 1 then s.offerJoin j else s.refuseJoin j.node St.zlJoinRefused))

end Sys2Proof.Machine
end

