-- ==== Sys2Proof/Machine/Registers.lean ====
section
/-!
DEFINITION. What the host does in the BARs (chapters 9, 12, 14, 16): the values of the registers and their latches,
register writes, the MSI-X table, GO and replies, event ring heads, digest contexts, and the device commands of R405.
-/

namespace Sys2Proof.Machine

open Sys2Proof

/-! ### The BAR0 map (R448) -/

/-- Offsets of the 8-byte registers of every function. -/
def regsAll : List Nat :=
  [0x0000, 0x0008, 0x0010, 0x0018, 0x0020, 0x0028, 0x0100, 0x0110, 0x0118, 0x0120, 0x0200, 0x0208, 0x0210, 0x0218,
    0x0300, 0x0308, 0x0400, 0x0408, 0x0410, 0x0418, 0x0420, 0x0428, 0x0430, 0x0438, 0x0440, 0x2000, 0x2008]

/-- Offsets of the registers that PF0 alone has. [log 46: DEDUCED] -/
def regsPf0 : List Nat := [0x0108, 0x0480, 0x0488, 0x0490, 0x0498, 0x04A0, 0x04A8, 0x04B0]

/-- An offset of a digest context window, and the context. -/
def dgWindow (o : Nat) : Bool := decide (0x0800 ≤ o) && decide (o < 0x1000)

def dgIndex (o : Nat) : Nat := (o - 0x0800) / 0x80

/-- Function `n`'s BAR0 has something at offset `o`. [log 46: DEDUCED] -/
def bar0Has (n o : Nat) : Bool :=
  let b := o / 8 * 8
  regsAll.contains b || (n == 0 && regsPf0.contains b) ||
    (dgWindow o && (decide (o % 0x80 < 0x28) || decide (0x40 ≤ o % 0x80))) ||
    (decide (0x1000 ≤ o) && decide (o < 0x1000 + areaSize n)) ||
    (decide (0x2100 ≤ o) && decide (o < 0x2160)) || (n == 0 && decide (0x2200 ≤ o) && decide (o < 0x2260))

/-- The identification and device-state registers: they answer in every state of the function (R347). -/
def alwaysReads (o : Nat) : Bool := decide (o < 0x0200)

/-- An access of `width` bytes is an aligned 32-bit or 64-bit access (R347). -/
def alignedAccess (o width : Nat) : Bool := (width == 4 || width == 8) && o % width == 0

/-- Digest context `i` belongs to another function (R251). -/
def State.foreignDg (s : State) (n i : Nat) : Bool :=
  match s.dg[i]? with
  | some c => c.st != .free && c.owner != n
  | none => true

/-! ### Register values (R449 to R457) -/

/-- Fields laid side by side: (first bit, width, value). -/
def packFields (fs : List (Nat × Nat × Nat)) : Nat := fs.foldl (fun a f => a + f.2.2 % 2 ^ f.2.1 * 2 ^ f.1) 0

/-- Codes of ID_FW.DEBUG. -/
def DebugState.code : DebugState → Nat
  | .locked => 0
  | .unlocked => 1
  | .disabled => 2

/-- Identification registers (R449). [log 11: DESIGN CHOICE] -/
def State.idReg (s : State) (n o : Nat) : Nat :=
  if o = 0x0000 then packFields [(0, 16, 0x1FC3), (16, 16, if n = 0 then 0x4880 else 0x4881), (32, 8, 1), (40, 24, 0x018000)]
  else if o = 0x0008 then packFields [(0, 16, 0x3A71), (16, 16, 0x4880)]
  else if o = 0x0010 then packFields [(0, 8, s.part), (8, 8, 1), (16, 1, s.link.mode), (24, 8, n)]
  else if o = 0x0018 then s.fw.serial
  else if o = 0x0020 then
    packFields [(0, 32, s.fw.runImg.fwVersion), (32, 1, s.fw.running), (33, 1, b2n s.fw.isCommitted),
      (34, 1, b2n s.fw.recovery), (35, 2, DebugState.code s.fw.debug)]
  else packFields [(0, 8, 64), (8, 8, 128), (16, 8, 8), (24, 8, 16), (32, 8, 3), (40, 8, 16)]

/-- Codes of DEV_FN_STATE.STATE. -/
def FnState.code : FnState → Nat
  | .uncreated => 0
  | .active => 1
  | .resetting => 2
  | .removing => 3

/-- Device-state registers (R450). LINK_STATE is a free value: no command carries it. [log 53: DESIGN CHOICE] -/
def State.devReg (s : State) (n o : Nat) : Nat :=
  if o = 0x0100 then
    packFields [(0, 4, s.pw.st.code), (4, 1, b2n s.q.perCommand), (5, 3, s.pw.lastReset), (8, 1, b2n s.pw.holdup.ok),
      (12, 4, s.recentRestarts.length)]
  else if o = 0x0110 then
    packFields [(0, 3, s.link.gen), (3, 2, s.free.1.toNat), (5, 1, b2n s.link.below), (6, 2, s.link.retimers),
      (32, 32, s.link.retrains)]
  else if o = 0x0118 then
    packFields [(0, 2, (s.fnState n).code),
      (2, 1, match s.fn? n with | some f => b2n (!f.bme || f.d3) | none => 0), (3, 1, b2n s.link.below)]
  else if o = 0x0120 then packFields [(0, 8, (s.pw.tjMax % 256).toNat), (8, 1, b2n s.pw.warn)]
  else 0

/-- Interrupt, event and mailbox registers (R451). -/
def State.mbReg (s : State) (f : Fn) (o : Nat) : Nat :=
  if o = 0x0200 then f.intStatus.toNat
  else if o = 0x0208 then f.evq.head
  else if o = 0x0210 then packFields [(0, 16, f.evq.tail), (16, 1, b2n f.evq.phase)]
  else if o = 0x0218 then f.evq.entries
  else if o = 0x0308 then packFields [(0, 2, f.mb.state), (16, 16, f.mb.status.toNat), (32, 4, s.longsOpen f.num)]
  else 0

/-- Codes of HZ_STATUS.PHASE. -/
def Phase.code : Phase → Nat
  | .accept => 0
  | .sealWindow => 1
  | .slack => 2

/-- Horizon registers (R453). -/
def State.hzReg (s : State) (o : Nat) : Nat :=
  let h := s.hz
  if o = 0x0400 then
    packFields [(0, 3, h.st.code), (3, 2, s.sourceNow), (5, 1, b2n s.lockNow), (6, 2, h.phase.code), (8, 6, h.period),
      (16, 3, h.window), (19, 2, h.lateCount), (32, 32, h.elapsedNs)]
  else if o = 0x0408 then h.epoch
  else if o = 0x0410 then h.sealed
  else if o = 0x0418 then h.ringMark
  else if o = 0x0420 then packFields [(0, 8, h.faultCode), (8, 56, h.faultEpoch)]
  else if o = 0x0428 then h.sealLate
  else if o = 0x0430 then h.overruns
  else if o = 0x0438 then h.ringLate
  else if s.inRing then s.gtickNow % 281474976710656 else 0

/-- Codes of ZL_TICK_STATUS.LOCK. -/
def LockState.reg : LockState → Nat
  | .acquiring => 0
  | .locked => 1
  | .flywheel => 2
  | .unlocked => 3
  | .none => 7

/-- Zelim registers (R454). The violation counters are 20 bits wide and saturate. -/
def State.zlReg (s : State) (o : Nat) : Nat :=
  let z := s.zl
  let viol := fun p => min 1048575 (s.port p).violations
  if o = 0x0480 then
    packFields [(0, 3, z.lock.reg), (4, 2, z.tickPort), (8, 2, z.misses), (16, 16, (z.phaseErr % 65536).toNat)]
  else if o = 0x0488 then packFields [(0, 3, z.group.code), (16, 16, s.node), (32, 16, z.master)]
  else if o = 0x0490 then z.gen % 4294967296
  else if o = 0x0498 then z.marksOk
  else if o = 0x04A0 then z.marksBad
  else if o = 0x04A8 then z.marksMiss
  else packFields [(0, 20, viol 0), (20, 20, viol 1), (40, 20, viol 2)]

/-- Block bytes of an algorithm (R250). -/
def dgBlockBytes (alg : Nat) : Nat :=
  if alg = 1 then 64 else if alg = 2 ∨ alg = 3 then 128 else if alg = 4 then 136 else 72

/-- DG_STATUS.BUSY (R255): one block compresses and the other buffer is full. -/
def DgCtx.busy (c : DgCtx) : Bool := c.st == .active && decide (2 ≤ c.full)

/-- Codes of DG_STATUS.STATE. -/
def DgState.code : DgState → Nat
  | .free => 0
  | .idle => 1
  | .active => 2
  | .finalising => 3
  | .done => 4
  | .error => 5

/-- A digest context as its owner reads it (R455); a FREE one reads zeros (R456). -/
def State.dgReg (s : State) (n o : Nat) : Nat :=
  match s.dg[dgIndex o]? with
  | none => 0
  | some c =>
    let w := o % 0x80
    if c.st = .free ∨ c.owner ≠ n then 0
    else if w = 0x08 then
      packFields [(0, 1, 1), (1, 3, c.st.code), (4, 1, b2n c.busy), (5, 1, b2n c.done), (8, 4, c.alg), (16, 16, c.err.toNat)]
    else if w = 0x18 then c.tail
    else if w = 0x20 then c.msgLen % 2 ^ 61
    else if 0x40 ≤ w ∧ c.st = .done then natLE ((c.result.drop (w - 0x40)).take 8)
    else 0

/-- Eight bytes of the latched copy of the telemetry record at `base`: zeros before its first latch (R460). -/
def Fn.latched (f : Fn) (base o : Nat) : Nat :=
  natLE ((((f.recLatches.find? fun x => x.1 == base).elim [] (·.2)).drop (o - base)).take 8)

/-- The value of the 8-byte register at offset `o` of function `n`'s BAR0. [log 46: DEDUCED] -/
def State.regVal (s : State) (n o : Nat) : Nat :=
  if o < 0x0100 then s.idReg n o
  else if o < 0x0200 then s.devReg n o
  else match s.fn? n with
  | none => 0
  | some f =>
    if o < 0x0400 then s.mbReg f o
    else if o < 0x0480 then s.hzReg o
    else if o < 0x0800 then s.zlReg o
    else if dgWindow o then s.dgReg n o
    else if o = 0x2000 then f.viol
    else if o = 0x2008 then f.anvSel
    else if 0x2240 ≤ o then f.latched 0x2240 o
    else if 0x2200 ≤ o then f.latched 0x2200 o
    else f.latched 0x2100 o

/-! ### Reads that leave something behind (R446, R460) -/

/-- Access to BAR0 offset `o` of function `n` that R347 counts: reserved, foreign, or of a function that is not
ACTIVE. [log 45: DEDUCED] -/
def State.badAccess (s : State) (n o : Nat) : Bool :=
  bar0Has n o == false || (!alwaysReads o && !s.fnLive n) || (dgWindow o && s.foreignDg n (dgIndex o))

/-- SPLIT_READ_LATCH (R446): a 32-bit read of a low half latches the high half for the function; a read of the high
half uses the latch up. Offsets from 2^32 on are those of another BAR: a doorbell's high half reads 0. [log 45:
DEDUCED] -/
def execSplitReadLatch (fn offset : Nat) (s : State) : Res :=
  let low := offset / 8 * 8
  let latch := fun (v : Nat) => s.modFn fn fun f => { f with
    latches := if offset = low then setAssoc f.latches low v else f.latches.filter fun x => x.1 != low }
  if offset % 4 ≠ 0 then .next (s.violate fn)
  else if 2 ^ 32 ≤ offset then .next (latch 0)
  else if s.badAccess fn offset then .next (s.violate fn)
  else if regsAll.contains low ∨ regsPf0.contains low ∨ dgWindow low = true ∨ 0x2100 ≤ low then
    .next (latch (s.regVal fn low / 2 ^ 32))
  else .next s

/-- TEL_ANV_REC of function `n` (R457): the last complete record of the selected engine, where the function holds it
or is PF0; zeros otherwise. -/
def State.anvRec (s : State) (n : Nat) : Data :=
  match s.fn? n with
  | none => []
  | some f =>
    if n ≠ 0 ∧ ¬ f.grant.engineList.contains f.anvSel then []
    else ((s.anv.recs.filter fun r => r.engine == f.anvSel).getLast?).elim [] EngRec.bytes

/-- TEL_TICK_REC (R458). -/
def TickRec.bytes (t : TickRec) : Data :=
  fillTo 64 (bytesLE 8 t.tick ++ bytesLE 8 t.admitted ++ bytesLE 8 t.read ++ bytesLE 8 t.scan ++ bytesLE 4 t.records ++
    bytesLE 1 t.f ++ bytesLE 3 0 ++ bytesLE 4 t.sealAt ++ bytesLE 4 t.peak)

/-- TEL_SAMPLE_REC (R459): 0 while no comparator is assigned. [log 42: DEDUCED] -/
def State.sampleRec (s : State) : Data :=
  if s.inForce.claims.any fun c => c.opcode == 0x0E03 then
    s.recs.sample.elim [] fun x => bytesLE 4 x.1 ++ bytesLE 4 0 ++ bytesLE 8 x.2.1 ++ bytesLE 8 x.2.2.1 ++ bytesLE 8 x.2.2.2
  else []

/-- RECORD_LATCH_READ (R460): a read of offset 0x00 of a telemetry record latches it whole. -/
def execRecordLatchRead (fn offset : Nat) (s : State) : Res :=
  let put := fun (v : Data) => s.modFn fn fun f => { f with
    recLatches := (f.recLatches.filter fun x => x.1 != offset) ++ [(offset, v)] }
  if s.badAccess fn offset then .next (s.violate fn)
  else if offset = 0x2100 then .next (put (s.anvRec fn))
  else if offset = 0x2200 then .next (put s.hz.lastTick.bytes)
  else if offset = 0x2240 then .next (put s.sampleRec)
  else .next s

/-- TEL_SAMPLE (R459): the comparator fires. [log 42: DEDUCED] -/
def execTelSample (time : Nat) (s : State) : Res :=
  if s.inForce.claims.any fun c => c.opcode == 0x0E03 then
    .next (s.modRecs fun r => { r with
      sampleSeq := (r.sampleSeq + 1) % 4294967296
      sample := some ((r.sampleSeq + 1) % 4294967296, time, s.hz.tick.admitted, s.hz.tick.read) })
  else .next s

/-! ### The MSI-X table (R345, R346, R352) -/

/-- Offset of function `n`'s MSI-X table in its BAR2; a share has none of its own. -/
def State.msixBase (s : State) (n : Nat) : Option Nat :=
  if s.link.mode = 0 then some (if n = 0 then 0x100000 else 0x40000) else if n = 0 then some 0x400000 else none

/-- Entry `v` of function `n`'s table has a vector behind it. -/
def State.vecBacked (s : State) (n v : Nat) : Bool :=
  if s.link.mode = 0 ∨ n ≠ 0 then decide (v < (s.grantOf n).vectors)
  else s.fns.any fun f =>
    decide ((if f.num = 0 then 0 else f.firstVector) ≤ v) &&
      decide (v < (if f.num = 0 then 0 else f.firstVector) + f.grant.vectors)

/-- A 32-bit field of an entry set: address low and high, data, control with the mask bit. -/
def Vec.setField (x : Vec) (f value : Nat) : Vec :=
  if f = 0 then { x with addr := x.addr / 2 ^ 32 * 2 ^ 32 + value }
  else if f = 1 then { x with addr := x.addr % 2 ^ 32 + value * 2 ^ 32 }
  else if f = 2 then { x with data := value }
  else { x with masked := bitAt value 0 }

/-- A vector that is unmasked while its pending bit is set sends its message, as PCI Express defines. [log 10:
PRESUMED] -/
def State.unmask (s : State) (n v : Nat) : State :=
  match (s.fn? n).bind fun f => f.vecs.find? fun x => x.num == v with
  | some x =>
    if x.pend ∧ ¬ x.masked then
      (s.modFn n fun f => { f with
        vecs := updIf (fun y => y.num == v) (fun y => { y with pend := false }) f.vecs }).hostWrite n (.msix n v)
    else s
  | none => s

/-- A write of the table: the fields that it covers. [log 10: PRESUMED] -/
def State.writeVec (s : State) (n v field width value : Nat) : State :=
  let put := fun (x : Vec) =>
    let y := x.setField field (value % 2 ^ 32)
    if width = 8 then y.setField (field + 1) (value / 2 ^ 32) else y
  let s1 := s.modFn n fun f => { f with
    vecs := if f.vecs.any fun x => x.num == v then updIf (fun x => x.num == v) put f.vecs
      else f.vecs ++ [put ⟨v, 0, 0, true, false⟩] }
  s1.unmask n v

/-- A write in BAR2 beside the doorbells. The pending bits are read-only; the rest is reserved. -/
def State.writeMsix (s : State) (n o width value : Nat) : State :=
  match s.msixBase n with
  | none => s.violate n
  | some b =>
    let pba := if s.link.mode = 0 ∧ n ≠ 0 then 0x41000 else b + 0x8000
    if b ≤ o ∧ s.vecBacked n ((o - b) / 16) = true then s.writeVec n ((o - b) / 16) ((o - b) % 16 / 4) width value
    else if pba ≤ o ∧ s.vecBacked n (8 * (o - pba)) = true then s
    else s.violate n

/-! ### Register writes (R4, R446, R447) -/

/-- DG_TAIL set: the half or halves that the write covers (R446). -/
def State.writeTail (s : State) (i o width value : Nat) : State :=
  { s with dg := updAt s.dg i fun c => { c with
      tail := if width = 8 then value
        else if o % 8 = 0 then c.tail / 2 ^ 32 * 2 ^ 32 + value % 2 ^ 32
        else c.tail % 2 ^ 32 + value % 2 ^ 32 * 2 ^ 32 } }

/-- More than one of CLAIM, RELEASE, START and FINAL is set (R456). [log 47: DEDUCED] -/
def dgMany (value : Nat) : Bool :=
  decide (1 < value % 2 + value / 2 % 2 + value / 4 % 2 + value / 8 % 2)

/-- A write to a register of BAR0 without an action. -/
def State.writeBar0 (s : State) (n o width value : Nat) : State :=
  if s.badAccess n o then s.violate n
  else match s.fn? n with
  | none => s
  | some f =>
    if dgWindow o ∧ o % 0x80 / 8 = 3 then
      (if s.dg[dgIndex o]?.elim true (fun c => c.st == .free) then s else s.writeTail (dgIndex o) o width value)
    else if 0x1000 ≤ o ∧ o < 0x2000 then
      (if f.mb.state = 1 then s.violate n
       else s.modFn n fun f => { f with mb := { f.mb with area := Mem.putBytes f.mb.area (o - 0x1000) (bytesLE width value) } })
    else if o = 0x2008 then s.modFn n fun f => { f with anvSel := value % 64 }
    else s

/-! ### GO, replies and events (R394, R400, R451, R452) -/

/-- What Sutas firmware answers to an opcode that R404 does not list: rows 1 to 3 of R401. [log 43: DEDUCED] -/
def State.unknownReply (s : State) (r : MbReq) : Status :=
  if s.pw.st = .halted then St.halted else if r.hdrRsv ≠ 0 then St.mbFormat else St.mbOpcode

/-- GO (R400): the message that stands in the area. A request of R404 runs by its own command, in the order of the GO
writes; one of an unknown opcode is answered here. [log 43: DEDUCED] -/
def execGo (fn : Nat) (s : State) : Res :=
  match s.fn? fn with
  | none => .next s
  | some f =>
    if s.fnLive fn = false ∨ f.mb.state = 1 then .next (s.violate fn)
    else
      let q := requestOf f.mb.area (areaSize fn)
      let s1 := s.accept fn q.1 q.2 f.mb.area
      if catalogue.any fun m => m.opcode == q.1 then .next s1
      else .next ((s1.taken fn).stage fn q.1 q.2.tag (s.unknownReply q.2) [] none)

/-- The reply stands in the area, STATE is DONE, vector 0 follows (R400 steps 5 and 6). [log 14: DESIGN CHOICE] -/
def State.deliverReply (s : State) (n : Nat) (r : Reply) : State :=
  (s.modFn n fun f => { f with
    intStatus := f.intStatus ||| 1
    mb := { f.mb with
      area := Mem.putBytes f.mb.area 0 ((replyArea r).take (areaSize n)), state := 2, status := r.status
      request := none, reply := none } }).msix n 0

/-- MAILBOX_REPLY (R400, R402): once the seal that the reply awaits has come; a reply of a function that is not ACTIVE is
discarded (R359). -/
def execMailboxReply (fn : Nat) (s : State) : Res :=
  match s.fn? fn with
  | none => .next s
  | some f =>
    match f.mb.reply with
    | none => .next s
    | some r =>
      if f.st ≠ .active then .next (s.modFn fn fun f => { f with mb := { f.mb with reply := none } })
      else if s.fwRuns = true ∧ r.due s.hz.sealed = true then .next (s.deliverReply fn r)
      else .next s

/-- INT_STATUS_W1C (R451). -/
def execIntStatusW1c (fn bits : Nat) (s : State) : Res :=
  if s.fnLive fn then .next (s.modFn fn fun f => { f with intStatus := f.intStatus &&& ~~~ (BitVec.ofNat 3 bits) })
  else .next (s.violate fn)

/-- The OVERFLOW entry with the count, once the host has released an entry (R394). -/
def State.writeOverflow (s : State) (n : Nat) : State :=
  match s.fn? n with
  | none => s
  | some f =>
    if f.evq.overflow = 0 ∨ f.evq.entries ≤ f.evq.used + 1 then s
    else
      ((s.modFn n fun f => { f with evq := { f.evq.push with overflow := 0 }, intStatus := f.intStatus ||| 2 }).hostWrite n
        (.overflow n f.evq.overflow f.evq.seq f.evq.phase)).msix n 0

/-- INT_EVQ_HEAD_WRITE (R452). -/
def execIntEvqHeadWrite (fn value : Nat) (s : State) : Res :=
  match s.fn? fn with
  | none => .next s
  | some f =>
    let e := f.evq
    if s.fnLive fn = false ∨ e.entries ≤ value ∨ e.used < (value + e.entries - e.head) % e.entries then .next (s.violate fn)
    else .next ((s.modFn fn fun f => { f with evq := { f.evq with head := value } }).writeOverflow fn)

/-! ### Digest contexts (R249 to R259) -/

/-- A digest context changed. -/
def State.modDg (s : State) (i : Nat) (g : DgCtx → DgCtx) : State := { s with dg := updAt s.dg i g }

/-- A write to a context's window by function `n`: a violation where the function is not live or the context belongs
to another; without effect in a FREE context. [log 48: DEDUCED] -/
def State.onDg (s : State) (n i : Nat) (go : DgCtx → State) : State :=
  if s.fnLive n = false ∨ s.foreignDg n i = true then s.violate n
  else match s.dg[i]? with
  | some c => if c.st = .free then s else go c
  | none => s

/-- CLAIM (R251). -/
def execClaim (fn ctx : Nat) (s : State) : Res :=
  if s.fnLive fn = false ∨ s.foreignDg fn ctx = true then .next (s.violate fn)
  else .next (s.modDg ctx fun c => if c.st = .free then { DgCtx.free with owner := fn, st := .idle } else c)

/-- RELEASE (R253). -/
def execRelease (fn ctx : Nat) (s : State) : Res := .next (s.onDg fn ctx fun _ => s.modDg ctx fun _ => .free)

/-- START (R250, R258, R259). -/
def execStart (fn ctx alg : Nat) (s : State) : Res :=
  .next (s.onDg fn ctx fun _ => s.modDg ctx fun c =>
    let c1 : DgCtx := { c with msg := [], full := 0, msgLen := 0, result := [], done := false, alg := alg }
    if 1 ≤ alg ∧ alg ≤ 5 then { c1 with st := .active, err := St.ok }
    else { c1 with st := .idle, err := St.dgAlg, alg := 0 })

/-- FINAL (R256, R259): the tail joins the message. [log 48: DEDUCED] -/
def execFinal (fn ctx tailBytes : Nat) (s : State) : Res :=
  .next (s.onDg fn ctx fun _ => s.modDg ctx fun c =>
    match c.st with
    | .active => { c with
        st := .finalising, msg := c.msg ++ bytesLE (tailBytes % 8) c.tail, msgLen := c.msgLen + tailBytes % 8 }
    | .error => c
    | _ => { c with err := St.dgSequence })

/-- Words appended: each block that they complete fills a buffer (R254, R255). [log 48: DEDUCED] -/
def DgCtx.take (c : DgCtx) (width value : Nat) : DgCtx :=
  let b := dgBlockBytes c.alg
  { c with
    msg := c.msg ++ bytesLE width value, msgLen := c.msgLen + width
    full := c.full + ((c.msgLen + width) / b - c.msgLen / b) }

/-- DG_DATA_WRITE (R254, R255, R259). -/
def execDgDataWrite (fn ctx width value : Nat) (s : State) : Res :=
  if ¬ (width = 4 ∨ width = 8) then .next (s.violate fn)
  else .next (s.onDg fn ctx fun _ => s.modDg ctx fun c =>
    match c.st with
    | .active =>
      if c.busy then { c with st := .error, err := St.dgOverrun }
      else if 2 ^ 61 - 1 < c.msgLen + width then { c with st := .error, err := St.dgLength }
      else c.take width value
    | .error => c
    | _ => { c with err := St.dgSequence })

/-- DG_BLOCK_DONE (R255). -/
def execDgBlockDone (ctx : Nat) (s : State) : Res := .next (s.modDg ctx fun c => { c with full := c.full - 1 })

/-- The digest of a message under R250. -/
def dgDigest (alg : Nat) (m : Data) : Data :=
  if alg = 1 then sha256 m else if alg = 2 then sha384 m else if alg = 3 then sha512 m
  else if alg = 4 then sha3 32 m else sha3 64 m

/-- DG_DIGEST_DONE (R256). -/
def execDgDigestDone (ctx : Nat) (s : State) : Res :=
  .next (s.modDg ctx fun c =>
    if c.st = .finalising then { c with st := .done, done := true, full := 0, result := dgDigest c.alg c.msg } else c)

/-- DG_RESULT_READ (R257). -/
def execDgResultRead (fn ctx : Nat) (s : State) : Res :=
  .next (s.onDg fn ctx fun _ => s.modDg ctx fun c => if c.st = .done then c else { c with err := St.dgNotFinal })

/-! ### Any register write (R4, R446) -/

/-- A write of DG_CTL: at most one of its actions (R455, R456). [log 47: DEDUCED] -/
def State.writeDgCtl (s : State) (n i value : Nat) : Res :=
  if dgMany value then .next (s.violate n)
  else if bitAt value 0 then execClaim n i s
  else if bitAt value 1 then execRelease n i s
  else if bitAt value 2 then execStart n i (bitsAt value 4 4) s
  else if bitAt value 3 then execFinal n i (bitsAt value 8 3) s
  else .next s

/-- What a write to offset `o` of function `n`'s BAR0 does: the action of its register where it has one (the low half
carries it), otherwise its RW fields are set. -/
def State.writeReg (s : State) (n o width value : Nat) : Res :=
  if s.badAccess n o then .next (s.violate n)
  else if o = 0x0108 then (if bitAt value 0 then execCtrlReset (bitsAt value 16 16) s else .next s)
  else if o = 0x0200 then execIntStatusW1c n (value % 8) s
  else if o = 0x0208 then execIntEvqHeadWrite n (value % 65536) s
  else if o = 0x0300 then (if bitAt value 0 then execGo n s else .next s)
  else if dgWindow o ∧ o % 0x80 = 0 then s.writeDgCtl n (dgIndex o) value
  else if dgWindow o ∧ o % 0x80 / 8 = 2 then execDgDataWrite n (dgIndex o) width value s
  else .next (s.writeBar0 n o width value)

/-- The function and local number of the pair whose doorbell page is page `k` of function `n`'s BAR2 (R346): pages go by
local number in SRIOV mode and by global number in MEDIATED mode. -/
def State.pageOf (s : State) (n k : Nat) : Option (Nat × Nat) :=
  if s.link.mode = 0 then some (n, k)
  else (s.q.pairs.find? fun p => p.global == k).map fun p => (p.fn, p.qid)

/-- A write to BAR2: a doorbell of R461, the MSI-X table, or a reserved offset. [log 45: DEDUCED] -/
def State.writeBar2 (s : State) (n o width value : Nat) : Res :=
  if s.fnLive n = false then .next (s.violate n)
  else if o % 4096 < 16 ∧ (s.msixBase n).elim false (fun b => decide (o < b)) then
    match s.pageOf n (o / 4096) with
    | none => .next (s.violate n)
    | some x =>
      if o % 4096 = 0 then execSqTailDoorbellWrite x.1 x.2 (value % 65536) s
      else if o % 4096 = 8 then execCqHeadDoorbellWrite x.1 x.2 (value % 65536) s
      else .next s
  else .next (s.writeMsix n o width value)

/-- REGISTER_WRITE (R4, R347, R446): actions act, RW fields are set, RO and RSV fields are ignored. BAR b's offsets
stand from b x 2^32 on; window k of PF0's BAR4 is share k's BAR0 (R346). [log 45: DEDUCED] -/
def execRegisterWrite (fn offset width value : Nat) (s : State) : Res :=
  let o := offset % 2 ^ 32
  let b := offset / 2 ^ 32
  if alignedAccess o width = false then .next (s.violate fn)
  else if b = 0 then s.writeReg fn o width value
  else if b = 2 then s.writeBar2 fn o width value
  else if b = 4 ∧ s.link.mode = 1 ∧ fn = 0 then
    (if o / 0x4000 ≠ 0 ∧ s.fnExists (o / 0x4000) then s.writeReg (o / 0x4000) (o % 0x4000) width value
     else .next (s.violate fn))
  else .next s

/-! ### Device commands (R405) -/

/-- DEV_IDENTIFY. -/
def execDevIdentify (fn : Nat) (req : MbReq) (s : State) : Res :=
  .next (s.mbRun Mb.devIdentify fn req fun s =>
    .basic [s.part, 1, s.fw.serial, s.fw.runImg.fwVersion, s.fw.running, b2n s.fw.recovery, DebugState.code s.fw.debug, s.link.mode,
      s.node, s.hz.st.code] s)

/-- DEV_CERT_READ: up to area - 24 bytes from the offset.
[log 15: DESIGN CHOICE] -/
def execDevCertRead (fn : Nat) (req : MbReq) (s : State) : Res :=
  .next (s.mbRun Mb.devCertRead fn req fun s =>
    let der := Config.certBytes (fld req 0 8)
    .basic (der.length :: ((der.drop (fld req 32 32)).take (areaSize fn - 24)).map (·.toNat)) s)

/-- TARGET of a parameter message (R406). -/
def paramTarget (req : MbReq) : Nat := fldB req 4 4

/-- TARGET names an existing object of the scope (R407 check 2). -/
def State.targetOk (s : State) (p : ParamDef) (t : Nat) : Bool :=
  match p.scope with
  | .device => t == 0
  | .function => s.fnExists t
  | .table => s.halo.tables.any fun x => x.id == t
  | .port => decide (t < 3)

/-- The issuer may set the target (R407 check 3). -/
def State.maySet (s : State) (p : ParamDef) (t n : Nat) : Bool :=
  n == 0 || match p.scope with
  | .device => false
  | .port => false
  | .function => t == n
  | .table => s.halo.tables.any fun x => x.id == t && x.owner == n

/-- Checks 1 to 3 of R407. -/
def State.paramCheck (s : State) (n : Nat) (req : MbReq) : Except Status ParamDef :=
  match paramDef (fld req 0 16) with
  | none => .error St.paramId
  | some p =>
    if ¬ s.targetOk p (paramTarget req) then .error St.paramTarget
    else if ¬ s.maySet p (paramTarget req) n then .error St.mbNotPermitted
    else .ok p

/-- The refusals that a parameter's own rule adds (R69, R362). -/
def State.paramRefusal (s : State) (id v : Nat) : Option Status :=
  if id = 0x0415 ∧ 128 * (100 - v) / 100 < sumBy (·.squall) s.grants then some St.fnPool
  else if id = 0x0210 ∧ v < s.accepted.linkFloor then some St.fnField
  else none

/-- PARAM_SET (R26, R27, R406, R407): persistent ones are recorded; volatile ones take effect at the next tick. [log
60: DEDUCED] -/
def execParamSet (fn : Nat) (req : MbReq) (s : State) : Res :=
  .next (s.mbRun Mb.paramSet fn req fun s =>
    let t := paramTarget req
    let v := fldB req 8 8
    match s.paramCheck fn req with
    | .error st => .refuse st []
    | .ok p =>
      if ¬ p.ok v then .refuse St.mbRange []
      else match s.paramRefusal p.id v with
      | some st => .refuse st []
      | none =>
        if p.persist then .persist [] (s.record [.param p.id t v])
        else .basic [] (s.modRecs fun r => { r with pendParams := r.pendParams ++ [(s.hz.epoch + 1, ⟨p.id, t, v⟩)] }))

/-- Codes of a scope in the reply of `param.get`, in the order of R25. -/
def Scope.code : Scope → Nat
  | .device => 0
  | .function => 1
  | .table => 3
  | .port => 4

/-- PARAM_GET (R26, R405). -/
def execParamGet (fn : Nat) (req : MbReq) (s : State) : Res :=
  .next (s.mbRun Mb.paramGet fn req fun s =>
    let t := paramTarget req
    match s.paramCheck fn req with
    | .error st => .refuse st []
    | .ok p =>
      .basic [s.param p.id t, s.paramDefault s.inForce p.id t, p.min, p.max, p.step, p.scope.code, b2n p.persist,
        b2n (s.modified p t)] s)

/-- DEV_RESOURCES (R405, R408): holder opcode and function of each resource, 0xFFFF where it is free. -/
def execDevResources (fn : Nat) (req : MbReq) (s : State) : Res :=
  .next (s.mbRun Mb.devResources fn req fun s =>
    .basic ([0x0002, 0x0003, 0x0010].flatMap fun res =>
      match s.accepted.claims.find? (fun c => c.res == res) with
      | some c => [res, c.opcode, c.fn]
      | none => [res, 0xFFFF, 0xFFFF]) s)

/-- DEV_SHOCK_CONFIGURE (R405, R408). -/
def execDevShockConfigure (fn : Nat) (req : MbReq) (s : State) : Res :=
  .next (s.mbRun Mb.devShockConfigure fn req fun s =>
    if fld req 0 1 = 0 then .persist [] (s.moveClaim 0 0x0106 fn)
    else match s.conflict 0x0010 0x0106 with
    | some v => .refuse St.resourceConflict v
    | none => .persist [] (s.moveClaim 0x0010 0x0106 fn))

/-- DEV_TICKOUT_CONFIGURE (R405, R408). -/
def execDevTickoutConfigure (fn : Nat) (req : MbReq) (s : State) : Res :=
  .next (s.mbRun Mb.devTickoutConfigure fn req fun s =>
    let k := fld req 0 2
    let w := fld req 16 8
    match (if k = 0 then none else s.conflict k 0x0107) with
    | some v => .refuse St.resourceConflict v
    | none => .persist [] ((s.moveClaim k 0x0107 fn).record [.tickOut w]))

/-- DEV_LONG_RESULT (R403, R405). -/
def execDevLongResult (fn : Nat) (req : MbReq) (s : State) : Res :=
  .next (s.mbRun Mb.devLongResult fn req fun s =>
    match s.recs.longs.find? (fun l => l.fn == fn && l.id == fld req 0 32) with
    | none => .refuse St.mbNoResult []
    | some l =>
      match l.status with
      | none => .refuse St.mbAccepted [l.opcode]
      | some st => .basic ([l.opcode, st.toNat] ++ l.result) s)

end Sys2Proof.Machine
end

