-- ==== Sys2Proof/Machine/Functions.lean ====
section
/-!
DEFINITION. Host attachment (chapter 12): the USB4 link, VF Enable, Bus Master Enable and D3hot, resets and removals of
functions, and the mailbox commands of R363.
-/

namespace Sys2Proof.Machine

open Sys2Proof

/-! ### Configuration space and BARs (R344 to R346) -/

/-- Entries of the MSI-X table of a function (R345). -/
def msixEntries (mode n : Nat) : Nat := if n ≠ 0 then 64 else if mode = 0 then 256 else 2048

/-- The configuration space of a function as R344 and R345 give it: subsystem IDs, no INTx, 512-byte payloads, FLR, 10-bit tags,
and the capabilities with the numbers that they hold. -/
structure PciSpace where
  vendor : Nat
  device : Nat
  classCode : Nat
  revision : Nat
  subVendor : Nat
  subsystem : Nat
  interruptPin : Nat
  maxPayload : Nat
  flr : Bool
  tenBitTags : Bool
  powerManagement : Bool
  noSoftReset : Bool
  msix : Nat
  ari : Bool
  sriov : Option (Nat × Nat × Nat × Nat)
  serial : Nat
  deriving DecidableEq, Repr

/-- The configuration space of PF0 (n = 0) or VF n: the SR-IOV capability gives TotalVFs, InitialVFs, First VF Offset and VF
Stride. -/
def State.pciSpace (s : State) (n : Nat) : PciSpace :=
  { vendor := if n = 0 then 0x1FC3 else 0xFFFF, device := if n = 0 then 0x4880 else 0x4881, classCode := 0x018000
    revision := 1, subVendor := 0x1FC3, subsystem := 0, interruptPin := 0, maxPayload := 512, flr := true
    tenBitTags := true, powerManagement := n == 0, noSoftReset := n == 0, msix := msixEntries s.link.mode n, ari := true
    sriov := if n = 0 ∧ s.link.mode = 0 then some (63, 63, 1, 1) else none, serial := s.fw.serial }

/-- Size in bytes of BAR `b` of a function, 0 where it has none (R346). -/
def barSize (mode n b : Nat) : Nat :=
  if b = 0 then (if n = 0 then 0x10000 else if mode = 0 then 0x4000 else 0)
  else if b = 2 then (if mode = 0 then (if n = 0 then 0x200000 else 0x80000) else if n = 0 then 0x800000 else 0)
  else if b = 4 then (if mode = 1 ∧ n = 0 then 0x400000 else 0)
  else 0

/-! ### The USB4 link (R339 to R343) -/

/-- USB4_LINK_TRAINED (R339, R342, R362): at most the generation cap; below LINK_FLOOR every function is held. The
hold lifts at a tick boundary. [log 54: DEDUCED] -/
def execUsb4LinkTrained (gen retimers : Nat) (s : State) : Res :=
  if gen < 2 ∨ s.param 0x0210 0 < gen then .next s
  else
    let low := decide (gen < s.inForce.linkFloor)
    let s1 := s.modLink fun l => { l with
      gen := gen, retimers := min 2 retimers, bonding := false, recovering := false, below := l.below || low
      trained := l.trained + 1, retrains := if l.trained = 0 then l.retrains else sat32 (l.retrains + 1) }
    let s2 := if low ∧ ¬ s.link.below then s1.devEvent St.fnLinkHold gen else s1
    .next s2.releaseHeld

/-- LANE_BOND_RETRY (R339): the link stays down until the lanes are bonded. -/
def execLaneBondRetry (bonded : Bool) (s : State) : Res :=
  .next (s.modLink fun l => if bonded then { l with bonding := false } else { l with bonding := true, gen := 0 })

/-- USB4_LINK_LOSS (R343): writes wait in link recovery. -/
def execUsb4LinkLoss (s : State) : Res :=
  if s.link.gen = 0 then .next s else .next (s.modLink fun l => { l with gen := 0, recovering := true })

/-- A tunnelled link reset (R360, R439): every VF or share is removed and PF0 reset; the hot reset clears the SR-IOV
capability. [log 49: DEDUCED] -/
def State.tunnelReset (s : State) : State :=
  (s.resetPf0 none).modLink fun l => { l with vfEnable := false, numVfs := 0 }

/-- USB4_LINK_DOWN_TIMEOUT (R439): 1 s. -/
def execUsb4LinkDownTimeout (s : State) : Res := if s.link.recovering then .next s.tunnelReset else .next s

/-- TUNNELLED_LINK_RESET (R439). [log 49: DEDUCED] -/
def execTunnelledLinkReset (s : State) : Res := .next s.tunnelReset

/-! ### VF Enable, Bus Master Enable, D3hot (R345, R351, R360) -/

/-- VF_ENABLE_SET (R345, R351): VFs 1 to NumVFs are on the bus, UNCREATED. -/
def execVfEnableSet (numVfs : Nat) (s : State) : Res :=
  if s.link.mode ≠ 0 ∨ s.link.vfEnable = true ∨ 63 < numVfs then .next s
  else
    let fresh := ((List.range numVfs).map (· + 1)).filter fun n => (s.fn? n).isNone
    .next { s.modLink fun l => { l with vfEnable := true, numVfs := numVfs } with
      fns := s.fns ++ fresh.map fun n => Fn.fresh n .uncreated .none }

/-- VF_ENABLE_CLEAR (R351): every VF is removed from that instant. -/
def execVfEnableClear (s : State) : Res :=
  if s.link.mode ≠ 0 then .next s
  else
    let s1 := (s.created.filter fun n => n != 0).foldl (fun a n => a.beginRemoval n none) s
    .next (s1.modLink fun l => { l with vfEnable := false })

/-- BUS_MASTER_ENABLE_CLEAR (R343, R360). -/
def execBusMasterEnableClear (fn : Nat) (s : State) : Res := .next (s.modFn fn fun f => { f with bme := false })

/-- BUS_MASTER_ENABLE_SET (R343, R360): held writes go out. -/
def execBusMasterEnableSet (fn : Nat) (s : State) : Res :=
  .next (s.modFn fn fun f => { f with bme := true }).releaseHeld

/-- D3HOT_ENTRY (R345): PF0 alone has the power management capability. [log 50: DEDUCED] -/
def execD3hotEntry (fn : Nat) (s : State) : Res :=
  if fn = 0 then .next (s.modFn fn fun f => { f with d3 := true }) else .next s

/-- D3HOT_EXIT (R345). [log 50: DEDUCED] -/
def execD3hotExit (fn : Nat) (s : State) : Res :=
  if fn = 0 then .next (s.modFn fn fun f => { f with d3 := false }).releaseHeld else .next s

/-! ### Resets (R357 to R359) -/

/-- A reset of function `n`, PF0 with every other function before it. -/
def State.resetFn (s : State) (n : Nat) (opcode : Option Nat) : State :=
  if n = 0 then s.resetPf0 opcode else s.beginReset n opcode

/-- FLR (R357, R358). -/
def execFlr (fn : Nat) (s : State) : Res := .next (s.resetFn fn none)

/-- The first seal window after the end of the function's engines has ended, or no tick runs (R358); PF0 comes last
(R357). [log 51: DEDUCED] -/
def State.resetDue (s : State) (f : Fn) : Bool :=
  f.reset.fenced &&
    (match f.reset.window with | some w => !s.hz.ticking || decide (w < s.hz.epoch) | none => false) &&
    (f.num != 0 || s.created.all fun n => n == 0)

/-- FN_RESET_COMPLETE (R358, R359). [log 51: DEDUCED] -/
def execFnResetComplete (fn : Nat) (s : State) : Res :=
  match s.fn? fn with
  | some f => if s.resetDue f then .next (s.completeFn fn) else .next s
  | none => .next s

/-- FN_MEMORY_ZEROING_DONE (R291, R357): the memory of a removed function returns to the pool. -/
def execFnMemoryZeroingDone (fn : Nat) (s : State) : Res :=
  if s.anv.zeroing.contains fn then
    let s1 := s.modAnv fun a => { a with
      zeroing := a.zeroing.filter fun n => n != fn, data := a.data.filter fun x => x.1 != fn }
    .next (s1.modFn fn fun f => if f.st = .uncreated then { f with grant := { f.grant with mem := 0 } } else f)
  else .next s

/-! ### Mailbox commands (R363) -/

/-- Two DMA windows share a byte. -/
def dmaOverlap (a b : Grant) : Bool := decide (a.dmaBase < b.dmaBase + b.dmaLen) && decide (b.dmaBase < a.dmaBase + a.dmaLen)

/-- The checks of R355 in their order. -/
def State.createRefusal (s : State) (r : MbReq) : Option Status :=
  let n := fldB r 0 2
  let g := grantOfReq r
  let share := s.link.mode != 0
  let d := s.accepted
  if fldB r 0x30 16 ≠ 0 then some St.fnField
  else if n = 0 ∨ s.maxFn < n then some St.fnNumber
  else if ¬ s.grantFieldsOk 64 64 share g then some St.fnField
  else if ¬ share ∧ (s.link.vfEnable = false ∨ s.link.numVfs < n) then some St.fnNotEnabled
  else if s.fnExists n then some St.fnExists
  else if ¬ s.poolFits s.grants g ∨ (share ∧ (s.vectorRun g.vectors).isNone) then some St.fnPool
  else if s.fns.any fun f => f.grant.engineList.any fun e => bitAt g.engines e then some St.fnEnginesHeld
  else if ¬ d.creditsFit d.period d.linkFloor (s.grants ++ [g]) d.portCredit then some St.hzCreditPool
  else if share ∧ (s.fns.any fun f => f.num != 0 && dmaOverlap f.grant g) then some St.fnDmaOverlap
  else none

/-- A function as its creation makes it: live from the next tick boundary, with the lowest free banks and the lowest run
of vectors (R352, R355, R357). What its configuration space holds stays. -/
def State.newFn (s : State) (n : Nat) (g : Grant) : Fn :=
  { Fn.fresh n .active g with
    liveFrom := s.hz.epoch + 1, firstVector := if s.link.mode = 0 then 0 else (s.vectorRun g.vectors).getD 0
    bankMask := s.freeBanks.take g.banks, bme := (s.fn? n).elim false (·.bme), d3 := (s.fn? n).elim false (·.d3) }

/-- FN_CREATE (R354, R355, R357). -/
def execFnCreate (fn : Nat) (req : MbReq) (s : State) : Res :=
  .next (s.mbRun Mb.fnCreate fn req fun s =>
    match s.createRefusal req with
    | some st => .refuse st []
    | none =>
      let n := fldB req 0 2
      let f := s.newFn n (grantOfReq req)
      .basic [] { s with fns := (s.fns.filter fun x => x.num != n) ++ [f] })

/-- FN_DESTROY (R357, R363): absorbed by a removal in progress. -/
def execFnDestroy (fn : Nat) (req : MbReq) (s : State) : Res :=
  .next (s.mbRun Mb.fnDestroy fn req fun s =>
    let n := fld req 0 16
    if ¬ s.fnExists n ∨ n = 0 then .refuse St.fnNoFunction []
    else .basic [] (s.beginRemoval n (some 0x0202)))

/-- FN_RESET (R357, R363). -/
def execFnReset (fn : Nat) (req : MbReq) (s : State) : Res :=
  .next (s.mbRun Mb.fnReset fn req fun s =>
    let n := fld req 0 16
    if ¬ s.fnExists n then .refuse St.fnNoFunction [] else .basic [] (s.resetFn n (some 0x0203)))

/-- The fields of a grant in the order of R354. -/
def Grant.vals (g : Grant) : List Nat :=
  [g.qpairs, g.vectors, g.tags, g.engines, g.banks, g.squall, g.mem, g.write, g.read, g.scan]

/-- FN_INFO (R357, R363): an UNCREATED function of the range of R350 answers with that state. [log 52: DEDUCED] -/
def execFnInfo (fn : Nat) (req : MbReq) (s : State) : Res :=
  .next (s.mbRun Mb.fnInfo fn req fun s =>
    let n := fld req 0 16
    let f := (s.fn? n).getD (Fn.fresh n .uncreated .none)
    if s.maxFn < n then .refuse St.fnNoFunction []
    else .basic ([f.st.code] ++ f.grant.vals ++ [(s.q.pairs.filter fun p => p.fn == n).length, s.tagsHeld n,
      f.grant.dmaBase, f.grant.dmaLen, f.firstVector, f.viol]) s)

/-- FN_POOL (R353, R363). -/
def execFnPool (fn : Nat) (req : MbReq) (s : State) : Res :=
  .next (s.mbRun Mb.fnPool fn req fun s =>
    let gs := s.grants
    let d := s.inForce
    .basic [1024 - sumBy (·.qpairs) gs, 2048 - sumBy (·.vectors) gs, 8192 - sumBy (·.tags) gs,
      sumBy (fun e => if gs.any fun g => bitAt g.engines e then 0 else 2 ^ e) (List.range 64), s.freeBanks.length,
      s.squallPool - sumBy (·.squall) gs, s.memPool - sumBy (·.mem) gs, d.writeCap s.hz.period,
      readCapacity s.hz.period d.linkFloor, scanCapacity s.hz.period] s)

/-- FN_HOST_CONFIGURE (R341, R349, R361): HOSTMODE from the next reset on, LINK_FLOOR from the next tick. -/
def execFnHostConfigure (fn : Nat) (req : MbReq) (s : State) : Res :=
  .next (s.mbRun Mb.fnHostConfigure fn req fun s =>
    let fl := fld req 3 3
    let d := s.accepted
    if readCapacity d.period fl < sumBy (·.read) s.grants then .refuse St.hzCreditPool []
    else .persist [] (s.record [.hostCfg (fld req 0 1) fl]))

/-- FN_PF0_GRANT (R356): from the next reset on; checks 1, 3 and 8 of R355 against the port credits alone. -/
def execFnPf0Grant (fn : Nat) (req : MbReq) (s : State) : Res :=
  .next (s.mbRun Mb.fnPf0Grant fn req fun s =>
    let g := grantOfReq req
    let d := s.accepted
    if ¬ d.creditsFit d.period d.linkFloor [g] d.portCredit then .refuse St.hzCreditPool []
    else .persist [] (s.record [.pf0Grant g]))

/-- FN_LINK_STATUS (R363): generation, lanes, link state (a free value), retimers, below-floor flag, retrains. [log
53: DESIGN CHOICE] -/
def execFnLinkStatus (fn : Nat) (req : MbReq) (s : State) : Res :=
  .next (s.mbRun Mb.fnLinkStatus fn req fun s =>
    .basic [s.link.gen, if s.link.gen = 0 then 0 else 2, s.free.1.toNat, s.link.retimers, b2n s.link.below, s.link.retrains]
      s.free.2)

end Sys2Proof.Machine
end

