-- ==== Sys2Proof/Machine/Namespaces.lean ====
section
/-!
DEFINITION. Namespaces (chapter 3): SHOCK_IN and freezes, image slots, the retention clock, chain anchors, and the
mailbox commands of R96.
-/

namespace Sys2Proof.Machine

open Sys2Proof

/-! ### The checks against the NSID (R484) -/

/-- The namespace of a mailbox command, after the checks of R484 that every one of them takes after the range of R401:
existence, the issuer's attachment and its admin right. A namespace exists until the seal that deletes it (R75). [log
141: DEDUCED] -/
def State.nsArg (s : State) (fn nsid : Nat) : Status ⊕ Ns :=
  match s.store.ns? nsid with
  | none => .inl St.nsNotAttached
  | some n =>
    if fn ≠ 0 ∧ s.attached nsid fn = false then .inl St.nsNotAttached
    else if fn ≠ 0 ∧ s.hasRight nsid fn 4 = false then .inl St.nsNoRight
    else .inr n

/-- A command on a namespace: refused by the checks of R484, or run on the namespace; a class that has no use for the
command answers ST_NS_CLASS_FIELD. -/
def State.onNs (s : State) (fn nsid : Nat) (serves : Ns → Bool) (go : Ns → MbResult) : MbResult :=
  match s.nsArg fn nsid with
  | .inl st => .refuse st []
  | .inr n => if serves n then go n else .refuse St.nsClassField []

/-! ### Creation and deletion (R73 to R77) -/

/-- Every field set is valid for the class (R73, R74). [log 22: DEDUCED] -/
def nsFitsClass (f : NsFields) : Bool :=
  (f.cls == 1 || (!bitAt f.flags 1 && f.freezeS == 0)) && (f.cls == 2 || (!bitAt f.flags 2 && f.retainDays == 0)) &&
    (f.cls != 2 || f.retainDays != 0) && (f.cls == 0 || f.pi == 0) && (bitAt f.flags 2 || f.mirrorNode == 0)

/-- NSIDs in use: of namespaces that exist or whose creation is accepted. -/
def State.nsidsUsed (s : State) : List Nat := s.store.nss.map (·.f.nsid) ++ s.nsFieldsAccepted.map (·.nsid)

/-- The lowest free NSID, 0 where 1,024 are in use. -/
def State.lowestNsid (s : State) : Nat :=
  (((List.range 1024).map (· + 1)).find? fun i => !s.nsidsUsed.contains i).getD 0

/-- The refusals of `ns.create` (R74, R331) after rows 7 and 8 of R401, in the order of R74's table. [log 22: DEDUCED]
-/
def State.nsCreateCheck (s : State) (f : NsFields) : Option Status :=
  let p := s.store.pool
  if f.nsid = 0 ∧ s.lowestNsid = 0 ∨ s.nsidsUsed.contains f.nsid then some St.nsLimit
  else if p.formed = false ∨ s.freeSpace s.accepted.op < p.consumes f then some St.nsNoSpace
  else if nsFitsClass f = false then some St.nsClassField
  else if f.cls = 2 ∧ f.redun ≠ 0 then some St.nsRedundancy
  else if bitAt f.flags 2 = true ∧
      (bitAt f.flags 0 = false ∨ s.isMember f.mirrorNode = false ∨ f.mirrorNode = s.node) then some St.nsMirrorPeer
  else if bitAt f.flags 0 = true ∧ s.inRing = false then some St.hzSource
  else none

/-- NS_CREATE (R73 to R75, R331). A mirrored RNS is first offered to its replica; the reply then follows MIRROR HELD or
the NAK. -/
def execNsCreate (fn : Nat) (req : MbReq) (s : State) : Res :=
  .next (s.mbRun Mb.nsCreate fn req fun s =>
    let f := nsFieldsOf req
    match s.nsCreateCheck f with
    | some st => .refuse st []
    | none =>
      let g := { f with nsid := if f.nsid = 0 then s.lowestNsid else f.nsid }
      if bitAt f.flags 2 then
        .later ((s.modZl fun z => { z with creating := some (fn, req.tag, g) }).sendTo fMirror g.mirrorNode 0 g.nsid)
      else .persist [g.nsid] (s.record [.nsCreate g s.hz.epoch false]))

/-- A function holds an attachment to the namespace, or one is accepted. -/
def State.anyAttached (s : State) (nsid : Nat) : Bool :=
  (s.ns.attachments.any fun a => a.nsid == nsid &&
    (match a.until_ with | some u => decide (s.hz.epoch < u) | none => true)) ||
  s.hz.epochs.any fun e => e.ctrl.any fun c => match c with
    | .attach i _ _ => i == nsid
    | _ => false

/-- The last attachment or detachment accepted leaves function `n` attached. -/
def State.attachAccepted (s : State) (nsid n : Nat) : Bool :=
  s.hz.epochs.foldl (fun b e => e.ctrl.foldl (fun b c => match c with
    | .attach i m _ => if i = nsid ∧ m = n then true else b
    | .detach i m => if i = nsid ∧ m = n then false else b
    | _ => b) b) (s.ns.attachments.any fun a => a.nsid == nsid && a.fn == n && a.until_ == none)

/-- RCLK in seconds (R86). -/
def State.rclkNow (s : State) : Nat := s.hz.rclkUs / 1000000

/-- RETAIN_DAYS as every accepted change leaves it. -/
def State.retainAccepted (s : State) (n : Ns) : Nat :=
  s.hz.epochs.foldl (fun d e => e.ctrl.foldl (fun d c => match c with
    | .retain i k => if i = n.f.nsid then k else d
    | _ => d) d) n.f.retainDays

/-- A record of an epoch up to `x`, or of any epoch, is inside its retention period (R87), a longer one that is
accepted and not yet sealed included. A record that is not sealed yet has the present RCLK. [log 24, 25: DEDUCED] -/
def State.retained (s : State) (n : Ns) (x : Option Nat) : Bool :=
  let upTo := fun e : Nat => match x with | some k => decide (e ≤ k) | none => true
  (n.links.any fun l => decide (n.trimEpoch < l.epoch) && upTo l.epoch &&
    decide (s.rclkNow < l.rclk + s.retainAccepted n * 86400)) ||
  s.hz.epochs.any fun e => upTo e.n && !(fxRecords n.f.nsid e.fx).isEmpty

/-- The replica of a mirrored RNS (R331). [log 24: DEDUCED] -/
def Ns.isReplica (n : Ns) : Bool := n.mirror && n.replica

/-- NS_DELETE (R75 to R77, R331). [log 24: DEDUCED] -/
def execNsDelete (fn : Nat) (req : MbReq) (s : State) : Res :=
  .next (s.mbRun Mb.nsDelete fn req fun s =>
    s.onNs fn (fld req 0 32) (fun _ => true) fun n =>
      if s.anyAttached n.f.nsid then .refuse St.nsAttached []
      else if n.isRns ∧ s.retained n none = true then .refuse St.nsRetained []
      else if n.st = .offlineRing then .refuse St.nsOffline []
      else if n.isReplica then .refuse St.zlMirrorReplica []
      else .persist [] (s.record [.nsDelete n.f.nsid]))

/-! ### Attachments (R14, R16) -/

/-- The rights that a class allows, as a mask (R14). -/
def rightsOf (cls : Nat) : Nat := if cls = 1 then 31 else if cls = 2 then 29 else 27

/-- NS_ATTACH (R14, R16, R484). -/
def execNsAttach (fn : Nat) (req : MbReq) (s : State) : Res :=
  .next (s.mbRun Mb.nsAttach fn req fun s =>
    let n := fld req 32 16
    let rights := fld req 48 5
    s.onNs fn (fld req 0 32) (fun _ => true) fun x =>
      if s.maxFn < n ∨ s.fnExists n = false then .refuse St.fnNoFunction []
      else if rights &&& rightsOf x.f.cls ≠ rights then .refuse St.nsNoRight []
      else .persist [] (s.record [.attach x.f.nsid n rights]))

/-- NS_DETACH (R16, R484). -/
def execNsDetach (fn : Nat) (req : MbReq) (s : State) : Res :=
  .next (s.mbRun Mb.nsDetach fn req fun s =>
    let n := fld req 32 16
    s.onNs fn (fld req 0 32) (fun _ => true) fun x =>
      if s.maxFn < n ∨ s.fnExists n = false then .refuse St.fnNoFunction []
      else if s.attachAccepted x.f.nsid n = false then .refuse St.nsNotAttached []
      else .persist [] (s.record [.detach x.f.nsid n]))

/-! ### Status -/

/-- Codes of a namespace's state in `ns.info`. -/
def NsState.code : NsState → Nat
  | .online => 0
  | .offlineMedia => 1
  | .offlineRing => 2
  | .halted => 3

/-- Codes of a slot's state in `ns.info`. -/
def SlotState.code : SlotState → Nat
  | .empty => 0
  | .staging => 1
  | .verifyPending => 2
  | .verified => 3
  | .active => 4
  | .previous => 5

/-- Units of a namespace that hold data: of a stream namespace, those of its stored payload. -/
def State.usedUnits (s : State) (n : Ns) : Nat :=
  if n.isStream then (s.usedBytes n.f.nsid + 4095) / 4096
  else (s.store.map.filter fun u => u.nsid == n.f.nsid && u.entry != .zero).length

/-- NS_INFO (R96). -/
def execNsInfo (fn : Nat) (req : MbReq) (s : State) : Res :=
  .next (s.mbRun Mb.nsInfo fn req fun s =>
    s.onNs fn (fld req 0 32) (fun _ => true) fun n =>
      .basic ([n.f.nsid, n.f.cls, n.f.flags, n.f.pi, n.f.redun, n.f.capacity, n.f.retainDays, n.f.mirrorNode, n.f.freezeS,
        (s.nsStateOf n).code, s.usedUnits n] ++ (if n.isRns then n.chainHead.map (·.toNat) else []) ++ [s.rclkNow] ++
        (n.regions.flatMap fun g => [g.1, g.2]) ++ n.slots.map (·.st.code)) s)

/-! ### Streams (R78) -/

/-- A stream as every accepted change leaves it. -/
def State.streamAccepted (s : State) (num : Nat) : Option Stream :=
  s.hz.epochs.foldl (fun x e => e.ctrl.foldl (fun x c => match c with
    | .streamOpen i k des => if k = num then some ⟨k, i, true, des, (x.map (·.stored)).getD 0⟩ else x
    | .streamClose _ k => if k = num then x.map fun y => { y with isOpen := false } else x
    | _ => x) x) (s.store.stream? num)

/-- NS_STREAM_OPEN (R78). Stream numbers are 12 bits, so 4,096 are never exceeded. -/
def execNsStreamOpen (fn : Nat) (req : MbReq) (s : State) : Res :=
  .next (s.mbRun Mb.nsStreamOpen fn req fun s =>
    let k := fld req 32 12
    s.onNs fn (fld req 0 32) Ns.isStream fun n =>
      if (s.streamAccepted k).elim false fun x => x.nsid != n.f.nsid then .refuse St.nsStreamLimit []
      else .persist [] (s.record [.streamOpen n.f.nsid k (fld req 44 1 == 1)]))

/-- NS_STREAM_CLOSE (R78). -/
def execNsStreamClose (fn : Nat) (req : MbReq) (s : State) : Res :=
  .next (s.mbRun Mb.nsStreamClose fn req fun s =>
    let k := fld req 32 12
    s.onNs fn (fld req 0 32) Ns.isStream fun n =>
      if (s.streamAccepted k).elim false fun x => x.nsid == n.f.nsid && x.isOpen then
        .persist [] (s.record [.streamClose n.f.nsid k])
      else .refuse St.recStream [])

/-! ### Retention (R86 to R88) -/

/-- NS_RETENTION_LENGTHEN (R87, R331). [log 124: DESIGN CHOICE] -/
def execNsRetentionLengthen (fn : Nat) (req : MbReq) (s : State) : Res :=
  .next (s.mbRun Mb.nsRetentionLengthen fn req fun s =>
    let days := fld req 32 32
    s.onNs fn (fld req 0 32) Ns.isRns fun n =>
      if n.isReplica then .refuse St.zlMirrorReplica []
      else if days < s.retainAccepted n then .refuse St.nsRetentionShorten []
      else .persist [] (s.record [.retain n.f.nsid days]))

/-- NS_RCLOCK_SET (R86, R318): outside a ring group at the seal; the tick master sets the group's RCLK by a MEMBERSHIP
that takes effect 4 ticks later. [log 27: DEDUCED] -/
def execNsRclockSet (fn : Nat) (req : MbReq) (s : State) : Res :=
  .next (s.mbRun Mb.nsRclockSet fn req fun s =>
    let sec := fld req 0 64
    if s.zl.group = .member then .refuse St.zlNotMaster []
    else if sec < s.rclkNow then .refuse St.nsRclockBack []
    else if s.zl.group = .master then
      let s1 := s.modZl fun z => { z with rclkAt := some (s.gtickNow + 4, sec * 1000000) }
      .persist [] ((s1.setMembers (s.zl.gen + 1) (s.gtickNow + 4) s.zl.members).sendMembers fMembership (s.zl.gen + 1))
    else .persist [] (s.record [.rclkSet sec]))

/-- The epoch that an anchor describes: the last one sealed, or of a ring-synchronous RNS in a group the last one
ring-sealed (R85). [log 26: DEDUCED] -/
def State.anchorEpoch (s : State) (n : Ns) : Nat := s.sealedFor n.f.nsid

/-- RCLK at the cut point of that epoch, in seconds. [log 26: DEDUCED] -/
def State.anchorRclk (s : State) (n : Ns) : Nat :=
  (if s.anchorEpoch n = s.hz.sealed then s.store.sealRclk else s.store.markRclk) / 1000000

/-- Bytes 0x00 to 0x7F of an anchor (R85). -/
def State.anchorBody (s : State) (n : Ns) : Data :=
  bytesLE 4 0x414E4348 ++ bytesLE 2 1 ++ bytesLE 2 0 ++ bytesLE 4 n.f.nsid ++ bytesLE 4 0 ++
    bytesLE 8 (s.anchorEpoch n) ++ bytesLE 8 (s.anchorRclk n) ++ bytesLE 8 n.records ++ bytesLE 4 n.f.retainDays ++
    bytesLE 4 0 ++ n.chainHead ++ n.genesis ++ bytesLE 8 n.trimEpoch ++ bytesLE 8 0

/-- An anchor: its body and the signature r and s over SHA-256 of it (R85), each in the byte order of its standard,
most significant byte first (R3). [log 15: DESIGN CHOICE] -/
def State.anchor (s : State) (n : Ns) : Data :=
  let sig := (Config.deviceSign (sha256 (s.anchorBody n))).toNat
  s.anchorBody n ++ bytesBE 32 (sig / 2 ^ 256) ++ bytesBE 32 (sig % 2 ^ 256)

/-- NS_CHAIN_ANCHOR (R85, R418). -/
def execNsChainAnchor (fn : Nat) (req : MbReq) (s : State) : Res :=
  .next (s.mbRun Mb.nsChainAnchor fn req fun s =>
    s.onNs fn (fld req 0 32) Ns.isRns fun n =>
      if s.keyUsable then .basic ((s.anchor n).map (·.toNat)) s else .refuse St.fwDebugOpen [])

/-- NS_RNS_TRIM (R88, R331). The epoch being accepted may still take records, so a trim reaches at most the one before
it. [log 25: DEDUCED; 124: DESIGN CHOICE] -/
def execNsRnsTrim (fn : Nat) (req : MbReq) (s : State) : Res :=
  .next (s.mbRun Mb.nsRnsTrim fn req fun s =>
    let x := fld req 64 64
    s.onNs fn (fld req 0 32) Ns.isRns fun n =>
      if n.isReplica then .refuse St.zlMirrorReplica []
      else if s.retained n (some x) then .refuse St.nsRetained []
      else s.long Mb.nsRnsTrim fn fun a => a.record [.trim n.f.nsid (min x (s.hz.epoch - 1)) fn s.recs.nextLong])

/-! ### Freezes (R90 to R93) -/

/-- The regions of a namespace, triggered ones included, merged with `g`. -/
def State.regionsWith (s : State) (nsid : Nat) (g : Nat × Nat) : List (Nat × Nat) :=
  mergeRegion ((s.regionsNow nsid).foldl mergeRegion []) g

/-- A trigger for one SNS in this tick: none where it would make a 65th region; otherwise the region counts from now
on and is recorded by this epoch, and its event follows; a further trigger in the tick makes no second freeze (R90 to
R92, R393). [log 29: DEDUCED] -/
def State.freezeNs (s : State) (n : Ns) : Option State :=
  let g := freezeSpan n.f.freezeS s.periodUs s.hz.epoch
  if 64 < (s.regionsWith n.f.nsid g).length then none
  else if s.ns.triggered.contains (n.f.nsid, g.1, g.2) then some s
  else some (((s.record [.freeze n.f.nsid g.1 g.2]).modNs fun v => { v with
    triggered := v.triggered ++ [(n.f.nsid, g.1, g.2)] }).nsEvent St.ok n.f.nsid 0)

/-- The SNSs that SHOCK_IN freezes. -/
def State.shockTargets (s : State) : List Ns := s.store.nss.filter fun n => n.isSns && n.f.freezeS != 0

/-- SHOCK_IN freezes one SNS, or counts the refusal with its event (R91); the flag says whether any was frozen. [log
29: DEDUCED] -/
def State.shockOne (x : State × Bool) (n : Ns) : State × Bool :=
  match x.1.freezeNs n with
  | some s => (s, true)
  | none =>
    ((x.1.modNs fun v => { v with refused := sat32 (v.refused + 1) }).nsEvent St.nsFreezeLimit n.f.nsid 0, x.2)

/-- SHOCK_IN in the drain freezes one SNS with epoch `n`, under the same limit (R91, R93); the event of the trigger is
its refusal alone, no host being served. [log 30: DEDUCED] -/
def State.shockOneAt (n : Nat) (x : State × Bool) (v : Ns) : State × Bool :=
  let g := freezeSpan v.f.freezeS x.1.periodUs n
  if 64 < (x.1.regionsWith v.f.nsid g).length then
    ((x.1.modNs fun w => { w with refused := sat32 (w.refused + 1) }).nsEvent St.nsFreezeLimit v.f.nsid 0, x.2)
  else if x.1.ns.triggered.contains (v.f.nsid, g.1, g.2) then x
  else ((x.1.modHz fun h => { h with
    epochs := updIf (fun e => e.n == n) (fun e => { e with ctrl := e.ctrl ++ [.freeze v.f.nsid g.1 g.2] }) h.epochs }).modNs
      fun w => { w with triggered := w.triggered ++ [(v.f.nsid, g.1, g.2)] }, x.2)

/-- The hold-off that follows an accepted trigger (R92). -/
def State.startHoldoff (s : State) : State :=
  if s.param 0x0321 0 ≠ 0 then s.modNs fun v => { v with holdoff := true } else s

/-- A trigger during the drain: recorded by the last epoch that the drain still seals (R93). [log 30: DEDUCED] -/
def State.shockDrain (s : State) : State :=
  match (s.hz.epochs.filter fun e => !e.isSealed).getLast? with
  | none => s
  | some e => (s.shockTargets.foldl (State.shockOneAt e.n) (s, true)).1

/-- A trigger in a tick: every SNS with a freeze window, and the hold-off after an accepted one (R90 to R92). [log 30:
DEDUCED] -/
def State.shockTick (s : State) : State :=
  let r := s.shockTargets.foldl State.shockOne (s, s.shockTargets.isEmpty)
  if r.2 then r.1.startHoldoff else r.1

/-- SHOCK_IN_TRIGGER (R90 to R93), where SHOCK_IN holds the ball: within the hold-off it is counted and ignored. [log
30: DEDUCED] -/
def execShockInTrigger (s : State) : Res :=
  if (s.inForce.claims.any fun c => c.opcode == 0x0106) = false ∨ s.hz.st = .halted then .next s
  else if s.ns.holdoff then .next (s.modNs fun v => { v with ignored := sat32 (v.ignored + 1) })
  else if s.hz.ticking then .next s.shockTick
  else match s.pw.st with
  | .draining => .next s.shockDrain.startHoldoff
  | .boot | .held | .p4 | .stopped =>
    .next ((s.modNs fun v => { v with noTick := sat32 (v.noTick + 1) }).event 2 deviceFn [0] St.nsFreezeNoTick 0)
  | _ => .next s

/-- SHOCK_IN_HOLDOFF_END (R92). -/
def execShockInHoldoffEnd (s : State) : Res := .next (s.modNs fun v => { v with holdoff := false })

/-- NS_FREEZE (R90, R91). [log 29: DEDUCED] -/
def execNsFreeze (fn : Nat) (req : MbReq) (s : State) : Res :=
  .next (s.mbRun Mb.nsFreeze fn req fun s =>
    s.onNs fn (fld req 0 32) (fun n => n.isSns && n.f.freezeS != 0) fun n =>
      match s.freezeNs n with
      | some s1 => .persist [] s1
      | none => .refuse St.nsFreezeLimit [])

/-- NS_UNFREEZE (R90, R91): a region that a seal made. -/
def execNsUnfreeze (fn : Nat) (req : MbReq) (s : State) : Res :=
  .next (s.mbRun Mb.nsUnfreeze fn req fun s =>
    let first := fld req 64 64
    s.onNs fn (fld req 0 32) (fun _ => true) fun n =>
      if n.regions.any fun g => g.1 == first then .persist [] (s.record [.unfreeze n.f.nsid first])
      else .refuse St.nsNoRegion [])

/-! ### Images (R94, R95) -/

/-- What one change makes of the slots of an INS. -/
def Ctrl.onSlots (nsid : Nat) (sl : List Slot) : Ctrl → List Slot
  | .slot i k x => if i = nsid then updAt sl k fun _ => x else sl
  | .slotErase i k => if i = nsid then updAt sl k fun _ => .empty else sl
  | .slotFormer i a b =>
    if i = nsid then updIf (fun x => x.st == a) (fun x => if b = .empty then .empty else { x with st := b }) sl else sl
  | _ => sl

/-- The slots of an INS as every accepted change leaves them: what a command is checked against (R95). [log 143:
DEDUCED] -/
def State.slotsAccepted (s : State) (n : Ns) : List Slot :=
  s.hz.epochs.foldl (fun l e => e.ctrl.foldl (fun l c => c.onSlots n.f.nsid l) l) n.slots

/-- Slot `k` of the INS in one of the states that a command admits (R95). [log 143: DEDUCED] -/
def State.onSlot (s : State) (n : Ns) (k : Nat) (ok : SlotState → Bool) (go : Slot → MbResult) : MbResult :=
  match (s.slotsAccepted n)[k]? with
  | some x => if ok x.st then go x else .refuse St.imgSlotState []
  | none => .refuse St.imgSlotState []

/-- NS_IMAGE_OPEN (R95). -/
def execNsImageOpen (fn : Nat) (req : MbReq) (s : State) : Res :=
  .next (s.mbRun Mb.nsImageOpen fn req fun s =>
    let k := fld req 32 2
    s.onNs fn (fld req 0 32) Ns.isIns fun n => s.onSlot n k (· == .empty) fun _ =>
      .persist [] (s.record [.slotErase n.f.nsid k, .slot n.f.nsid k { Slot.empty with st := .staging }]))

/-- NS_IMAGE_VERIFY (R95, R96): accepted in tick A, the slot is verify pending from the seal of A on. -/
def execNsImageVerify (fn : Nat) (req : MbReq) (s : State) : Res :=
  .next (s.mbRun Mb.nsImageVerify fn req fun s =>
    let k := fld req 32 2
    let len := fld req 64 64
    s.onNs fn (fld req 0 32) Ns.isIns fun n =>
      if n.f.capacity * 4096 < len then .refuse St.nsClassField []
      else s.onSlot n k (· == .staging) fun _ => s.long Mb.nsImageVerify fn fun a =>
        a.record [.slot n.f.nsid k ⟨.verifyPending, len, fldB req 16 32, s.hz.epoch, s.recs.nextLong, fn⟩])

/-- The first `len` bytes of slot `k`, unit by unit. -/
def State.slotBytes (s : State) (n : Ns) (k len : Nat) : Data :=
  ((List.range ((len + 4095) / 4096)).flatMap fun u => padUnit (s.unitData n.f.nsid (n.regionLba k + u))).take len

/-- A unit within the first `len` bytes of slot `k` is LOST (R125). -/
def State.slotLost (s : State) (n : Ns) (k len : Nat) : Bool :=
  (List.range ((len + 4095) / 4096)).any fun u => s.resolve n.f.nsid (n.regionLba k + u) == .lost

/-- A verify ends without success: the slot is STAGING again and the completion event follows. [log 31: DEDUCED] -/
def State.verifyFails (s : State) (nsid k : Nat) (x : Slot) (st : Status) : State :=
  (s.modStore fun d => d.setSlot nsid k { x with st := .staging }).endLong x.longId st []

/-- IMAGE_VERIFY_DONE (R95): an equal digest is recorded at the next seal. [log 31, 135: DEDUCED] -/
def execImageVerifyDone (nsid slot : Nat) (s : State) : Res :=
  match s.store.ns? nsid with
  | none => .next s
  | some n =>
    match n.slots[slot]?, (s.slotsAccepted n)[slot]? with
    | some x, some y =>
      if x.st ≠ .verifyPending ∨ y.st ≠ .verifyPending ∨ s.hz.ticking = false then .next s
      else if s.slotLost n slot x.len then .next (s.verifyFails nsid slot x St.ftUnitLost)
      else if natLE (sha256 (s.slotBytes n slot x.len)) = x.expect then
        .next (s.recordNext [.slot nsid slot { x with st := .verified }])
      else .next (s.verifyFails nsid slot x St.imgVerifyFail)
    | _, _ => .next s

/-- NS_IMAGE_ACTIVATE (R95): the former PREVIOUS slot becomes EMPTY, the former ACTIVE slot PREVIOUS. -/
def execNsImageActivate (fn : Nat) (req : MbReq) (s : State) : Res :=
  .next (s.mbRun Mb.nsImageActivate fn req fun s =>
    let k := fld req 32 2
    s.onNs fn (fld req 0 32) Ns.isIns fun n => s.onSlot n k (· == .verified) fun x =>
      .persist [] (s.record [.slotFormer n.f.nsid .previous .empty, .slotFormer n.f.nsid .active .previous,
        .slot n.f.nsid k { x with st := .active }]))

/-- NS_IMAGE_ROLLBACK (R95): the PREVIOUS slot becomes ACTIVE, the former ACTIVE slot PREVIOUS. -/
def execNsImageRollback (fn : Nat) (req : MbReq) (s : State) : Res :=
  .next (s.mbRun Mb.nsImageRollback fn req fun s =>
    s.onNs fn (fld req 0 32) Ns.isIns fun n =>
      let k := (s.slotsAccepted n).findIdx fun x => x.st == .previous
      s.onSlot n k (· == .previous) fun x =>
        .persist [] (s.record [.slotFormer n.f.nsid .active .previous, .slot n.f.nsid k { x with st := .active }]))

/-- NS_IMAGE_ERASE (R95). -/
def execNsImageErase (fn : Nat) (req : MbReq) (s : State) : Res :=
  .next (s.mbRun Mb.nsImageErase fn req fun s =>
    let k := fld req 32 2
    s.onNs fn (fld req 0 32) Ns.isIns fun n =>
      s.onSlot n k (fun st => st == .empty || st == .staging || st == .verified || st == .previous) fun _ =>
        .persist [] (s.record [.slotErase n.f.nsid k]))

end Sys2Proof.Machine
end

