-- ==== Sys2Proof/Machine/FirmwareLog.lean ====
section
/-!
DEFINITION. Firmware and log (chapter 14): download, activation, commit, debug access, OTP keys, the log, and telemetry
sampling, with the mailbox commands of R421.
-/

namespace Sys2Proof.Machine

open Sys2Proof

/-! ### Download (R413) -/

/-- A download or an activation is in progress (R413 check 1). [log 33: DEDUCED] -/
def State.fwInProgress (s : State) : Bool := s.fw.download.isSome || s.fw.phase != .idle

/-- Slot `i` of the boot flash. -/
def Firmware.slot (f : Firmware) (i : Nat) : FwSlot := f.slots.getD i ⟨.empty, shippedImage⟩

/-- A slot is marked EMPTY in the selector before it is programmed; it is then no TRIAL slot. -/
def Firmware.markEmpty (f : Firmware) (i : Nat) : Firmware :=
  { f with
    slots := updAt f.slots i fun x => { x with st := .empty }
    trial := if f.trial = some i then none else f.trial }

/-- FW_DOWNLOAD (R413): into the slot that is not running. In recovery mode no slot runs, so the slot is the device's
choice and no firmware is uncommitted. [log 33, 35: DEDUCED] -/
def execFwDownload (fn : Nat) (req : MbReq) (s : State) : Res :=
  .next (s.mbRun Mb.fwDownload fn req fun s =>
    if s.fwInProgress = true ∨ (s.fw.recovery = false ∧ s.fw.isCommitted = false) then .refuse St.fwBusy []
    else
      let r := if s.fw.recovery then s.choose (fun i => decide (i < 2)) 1 else (1 - s.fw.running, s)
      s.long Mb.fwDownload fn fun a =>
        State.modFw { a with freeCtr := r.2.freeCtr } fun f =>
          { f.markEmpty r.1 with download := some (s.recs.nextLong, r.1) })

/-- A field of `n` bytes of an image. -/
def imgField (d : Data) (off n : Nat) : Nat := natLE ((d.drop off).take n)

/-- Component entries of an image: type, RSV fields, place, length and version (R412). -/
def imgParts (d : Data) : List (Nat × Nat × Nat × Nat × Nat) :=
  (List.range 8).map fun i =>
    let a := 0x20 + 32 * i
    (imgField d a 2, imgField d (a + 2) 2 + imgField d (a + 16) 16, imgField d (a + 4) 4, imgField d (a + 8) 4, imgField d (a + 12) 4)

/-- Types 1 to 5 each appear once, in the first five entries; the components lie in the image behind its header and apart; the
other entries are 0 (R412). -/
def imgPartsOk (d : Data) : Bool :=
  let ps := (imgParts d).take 5
  ([1, 2, 3, 4, 5].all fun t => (ps.filter fun p => p.1 == t).length == 1) &&
    (ps.all fun p => p.2.1 == 0 && decide (0x200 ≤ p.2.2.1) && decide (p.2.2.1 + p.2.2.2.1 ≤ d.length)) &&
    (decide (ps.Pairwise fun p q => p.2.2.1 + p.2.2.2.1 ≤ q.2.2.1 ∨ q.2.2.1 + q.2.2.2.1 ≤ p.2.2.1)) &&
    ((imgParts d).drop 5).all fun p => p == (0, 0, 0, 0, 0)

/-- The header of R411 over the bytes that were fetched. -/
def imgHeaderOk (d : Data) : Bool :=
  decide (4096 ≤ d.length) && decide (d.length ≤ 16777216) && imgField d 0 4 == 0x4D575346 && imgField d 4 2 == 1 &&
    imgField d 6 2 == 5 && imgField d 8 4 == d.length && decide (imgField d 0x10 1 ≤ 63) && decide (imgField d 0x11 1 ≤ 3) &&
    imgField d 0x12 14 == 0 && imgField d 0x160 64 == 0 && imgPartsOk d

/-- Version of the component of a type. -/
def imgVersion (d : Data) (t : Nat) : Nat := ((imgParts d).find? fun p => p.1 == t).elim 0 (·.2.2.2.2)

/-- PAYLOAD_DIGEST matches and the signature over SHA-256 of bytes 0x000 to 0x19F verifies under PUBKEY (R411). [log
15: DESIGN CHOICE] -/
def imgSigned (d : Data) : Bool :=
  sha256 (d.drop 0x200) == (d.drop 0x1A0).take 32 &&
    Config.ecdsaVerify ((d.drop 0x120).take 64) (sha256 (d.take 0x1A0)) ((d.drop 0x1C0).take 64)

/-- A file as an image (R411, R412). -/
def imageOf (x : FwFile) : FwImage :=
  { fetchOk := x.fetchOk, headerOk := imgHeaderOk x.bytes, keyHash := natLE (sha256 ((x.bytes.drop 0x120).take 64))
    keyIndex := imgField x.bytes 0x11 1, sigOk := imgSigned x.bytes, svn := imgField x.bytes 0x10 1
    fwVersion := imgField x.bytes 0x0C 4, kernelVer := imgVersion x.bytes 3, routerVer := imgVersion x.bytes 5
    programOk := x.programOk, profiles := x.profiles }

/-- The checks of R413 over a fetched image, in their order. -/
def Firmware.imageCheck (f : Firmware) (i : FwImage) : Status :=
  if i.fetchOk = false then St.fnDmaError
  else if i.headerOk = false then St.fwImage
  else if f.keyHashes[i.keyIndex]? ≠ some i.keyHash ∨ f.revoked[i.keyIndex]? ≠ some false then St.fwKeyRevoked
  else if i.sigOk = false then St.fwSignature
  else if i.svn < f.svn then St.fwRollback
  else if i.programOk = false then St.fwFlash
  else St.ok

/-- FW_DOWNLOAD_DONE (R413). -/
def execFwDownloadDone (file : FwFile) (s : State) : Res :=
  match s.fw.download with
  | none => .next s
  | some (id, k) =>
    let img := imageOf file
    let st := s.fw.imageCheck img
    let s1 := s.modFw fun f => { f with
      download := none
      slots := if st = St.ok then updAt f.slots k fun _ => ⟨.valid, img⟩ else f.slots }
    .next (s1.endLong id st [])

/-! ### Activation (R414 to R416) -/

/-- HOT would change the Sutas kernel or the USB4 router (R414). -/
def Firmware.needsReset (f : Firmware) (k : Nat) : Bool :=
  (f.slot k).img.kernelVer != f.runImg.kernelVer || (f.slot k).img.routerVer != f.runImg.routerVer

/-- FW_ACTIVATE (R414). The spec states no status for a slot that is not VALID, so that one is open. [log 34: DESIGN
CHOICE; 35: DEDUCED] -/
def execFwActivate (fn : Nat) (req : MbReq) (s : State) : Res :=
  .next (s.mbRun Mb.fwActivate fn req fun s =>
    let k := fld req 0 1
    let reset := fld req 1 1 == 1
    if s.fwInProgress then .refuse St.fwBusy []
    else if (s.fw.slot k).st ≠ .valid then
      .later ((s.freeStatus 0x0B).2.stage fn 0x0D03 req.tag (s.freeStatus 0x0B).1 [] none)
    else if reset then
      s.long Mb.fwActivate fn fun a => (a.modFw fun f => { f with trial := some k, selectorOk := true }).endLong s.recs.nextLong St.ok []
    else if s.fw.needsReset k then .refuse St.fwNeedsReset []
    else s.long Mb.fwActivate fn fun a => a.modFw fun f => { f with
      phase := .preparing, target := k, longId := s.recs.nextLong })

/-- FW_PREPARATION_DONE (R414): A is this tick while its cut point is ahead, otherwise the next one. -/
def execFwPreparationDone (s : State) : Res :=
  if s.fw.phase = .preparing ∧ s.hz.ticking = true then
    .next (s.modFw fun f => { f with
      phase := .chosen (if s.hz.phase = .accept then s.hz.epoch else s.hz.epoch + 1) })
  else .next s

/-- FW_PREPARATION_TIMEOUT (R414): nothing is held. -/
def execFwPreparationTimeout (s : State) : Res :=
  if s.fw.phase = .preparing then .next (s.abortActivation St.fwActivateTimeout) else .next s

/-- FW_READY (R414): the new firmware has taken over; fetch and admission resume. [log 37: DEDUCED] -/
def execFwReady (s : State) : Res :=
  match s.fw.phase with
  | .handover _ =>
    .next ((s.endLong s.fw.longId St.ok []).modFw fun f => { f with
      phase := .idle, holding := false, running := f.target, runImg := (f.slot f.target).img
      isCommitted := f.target == f.committed })
  | _ => .next s

/-- FW_READY_TIMEOUT (R415): the old firmware resumes. -/
def execFwReadyTimeout (s : State) : Res :=
  match s.fw.phase with
  | .handover _ => .next (s.abortActivation St.fwActivateTimeout)
  | _ => .next s

/-- FW_HOLD_TIMEOUT (R415): 50 ms after the cut point of A the hold ends. -/
def execFwHoldTimeout (s : State) : Res :=
  if s.fw.holding then .next (s.abortActivation St.fwActivateTimeout) else .next s

/-- FW_COMMIT (R416). Whether the boot flash takes the selector write is the device's finding: where it does not, the
answer is ST_FW_FLASH and nothing changes. [log 36: DESIGN CHOICE] -/
def execFwCommit (fn : Nat) (req : MbReq) (s : State) : Res :=
  .next (s.mbRun Mb.fwCommit fn req fun s =>
    if s.fw.isCommitted then .basic [] s
    else if bitAt s.free.1.toNat 0 then .later (s.free.2.stage fn 0x0D04 req.tag St.fwFlash [] none)
    else .basic [] (s.free.2.modFw fun f => { f with
      committed := f.running, selectorOk := true, isCommitted := true, svn := max f.svn f.runImg.svn }))

/-- Codes of a firmware slot in `fw.status`. -/
def Firmware.slotCode (f : Firmware) (i : Nat) : Nat :=
  if (f.slot i).st = .empty then 0 else if f.trial = some i then 3 else if f.committed = i then 2 else 1

/-- FW_STATUS (R421). -/
def execFwStatus (fn : Nat) (req : MbReq) (s : State) : Res :=
  .next (s.mbRun Mb.fwStatus fn req fun s =>
    let f := s.fw
    .basic (((List.range 2).flatMap fun i =>
        [f.slotCode i, (f.slot i).img.fwVersion, (f.slot i).img.svn, (f.slot i).img.keyIndex]) ++
      [f.running, b2n f.isCommitted, f.svn] ++ f.revoked.map b2n ++ [DebugState.code f.debug]) s)

/-! ### Debug access and OTP keys (R417 to R419) -/

/-- FW_DEBUG_CHALLENGE (R419): a nonce of 32 random bytes, in place of the former one. -/
def execFwDebugChallenge (fn : Nat) (req : MbReq) (s : State) : Res :=
  .next (s.mbRun Mb.fwDebugChallenge fn req fun s =>
    if s.fw.debug = .disabled then .refuse St.fwDebug []
    else
      let n := s.free.1.toNat
      .basic [n, s.fw.serial] (s.free.2.modFw fun f => { f with nonce := some n, nonceCtr := f.nonceCtr + 1 }))

/-- DEBUG_NONCE_EXPIRY (R419): 60 s after the challenge. -/
def execDebugNonceExpiry (s : State) : Res := .next (s.modFw fun f => { f with nonce := none })

/-- What a debug unlock signs: the nonce, the serial number and "CVX-DBG" (R419). [log 38: DEDUCED] -/
def debugMessage (nonce serial : Nat) : Data :=
  bytesLE 32 nonce ++ bytesLE 8 serial ++ [0x43, 0x56, 0x58, 0x2D, 0x44, 0x42, 0x47]

/-- The key and signature of a debug unlock are accepted (R419). -/
def State.unlockOk (s : State) (r : MbReq) : Bool :=
  match s.fw.nonce with
  | none => false
  | some n =>
    natLE (sha256 (bytesLE 64 (fldB r 0 64))) == s.fw.debugKeyHash &&
      Config.ecdsaVerify (bytesLE 64 (fldB r 0 64)) (sha256 (debugMessage n s.fw.serial)) (bytesLE 64 (fldB r 64 64))

/-- Every Zelim port in service is taken down (R418). [log 38: DEDUCED] -/
def State.portsDown (s : State) : State :=
  (List.range 3).foldl (fun a p =>
    if (a.port p).st = .off ∨ (a.port p).st = .fenced then a else a.portDown p) s

/-- FW_DEBUG_UNLOCK (R418, R419): a refused unlock ends the nonce. [log 15: DESIGN CHOICE; 38: DEDUCED] -/
def execFwDebugUnlock (fn : Nat) (req : MbReq) (s : State) : Res :=
  .next (s.mbRun Mb.fwDebugUnlock fn req fun s =>
    if s.fw.debug = .disabled then .refuse St.fwDebug []
    else if s.unlockOk req then
      .basic [] ((s.modFw fun f => { f with debug := .unlocked, nonce := none }).portsDown)
    else .later ((s.modFw fun f => { f with nonce := none }).stage fn 0x0D06 req.tag St.fwDebug [] none))

/-- FW_DEBUG_DISABLE (R418): the DISABLED fuse is burned. -/
def execFwDebugDisable (fn : Nat) (req : MbReq) (s : State) : Res :=
  .next (s.mbRun Mb.fwDebugDisable fn req fun s =>
    .basic [] (s.modFw fun f => { f with debug := .disabled, debugDisabled := true, nonce := none }))

/-- FW_KEY_REVOKE (R417). -/
def execFwKeyRevoke (fn : Nat) (req : MbReq) (s : State) : Res :=
  .next (s.mbRun Mb.fwKeyRevoke fn req fun s =>
    let k := fld req 0 2
    let left := (List.range 4).any fun i => i != k && s.fw.revoked[i]? == some false
    if (s.fw.slot s.fw.committed).img.keyIndex = k ∨ left = false then .refuse St.fwKeyRevoked []
    else .basic [] (s.modFw fun f => { f with revoked := updAt f.revoked k fun _ => true }))

/-! ### The log (R420, R421) -/

/-- The oldest index that the log holds. -/
def State.logOldest (s : State) : Nat :=
  match s.recs.log with
  | e :: _ => e.index
  | [] => s.recs.nextIdx

/-- The entries that a function sees: PF0 all of them, another function its own. -/
def State.logSeen (s : State) (fn : Nat) : List LogEntry := s.recs.log.filter fun e => fn == 0 || e.fn == fn

/-- LOG_READ (R421). -/
def execLogRead (fn : Nat) (req : MbReq) (s : State) : Res :=
  .next (s.mbRun Mb.logRead fn req fun s =>
    let es := ((s.logSeen fn).filter fun e => decide (fld req 0 32 ≤ e.index)).take (fld req 32 8)
    .basic ([s.logOldest, s.recs.nextIdx] ++
      es.flatMap fun e => [e.index, e.epoch, e.status.toNat, e.cls, e.fn, e.detail]) s)

/-- Entries of a class since power-on that a function sees. -/
def State.logCount (s : State) (fn cls : Nat) : Nat :=
  if fn = 0 then sumBy (fun x => if x.1 % 256 = cls then x.2 else 0) s.recs.perClass
  else assoc s.recs.perClass (256 * fn + cls)

/-- LOG_STATUS (R421). -/
def execLogStatus (fn : Nat) (req : MbReq) (s : State) : Res :=
  .next (s.mbRun Mb.logStatus fn req fun s =>
    .basic ([s.logOldest, s.recs.nextIdx] ++ (List.range 16).map fun c => s.logCount fn c) s)

/-! ### Telemetry sampling (R421, R459) -/

/-- TEL_SAMPLE_CONFIGURE (R408, R421). -/
def execTelSampleConfigure (fn : Nat) (req : MbReq) (s : State) : Res :=
  .next (s.mbRun Mb.telSampleConfigure fn req fun s =>
    let k := fld req 0 2
    let p := fld req 16 16
    match (if k = 0 then none else s.conflict k 0x0E03) with
    | some v => .refuse St.resourceConflict v
    | none => .persist [] ((s.moveClaim k 0x0E03 fn).record [.sampling p]))

end Sys2Proof.Machine
end

