-- ==== Sys2Proof/Machine/Redundancy.lean ====
section
/-!
DEFINITION. Member redundancy: rebuild (R180 to R184), resynchronisation and stripe checks (R189, R190, R199),
reshape (R191 to R194), and their mailbox commands (R169, R200).
-/

namespace Sys2Proof.Machine

open Sys2Proof

/-! ### Rebuild (R182 to R184) -/

/-- Super-blocks that hold a codeword. -/
def State.supers (s : State) : List Nat := (s.flash.cells.map fun c => superOf c.addr).eraseDups

/-- A member is REBUILDING, or a failed die has not been walked. -/
def State.rebuilding (s : State) : Bool :=
  s.store.pool.members.any (fun m => m.2 == .rebuilding) || !s.store.pool.failedDies.isEmpty

/-- A stripe has a slot on a lost member or die. -/
def State.hurt (s : State) (p : Stripe) : Bool := p.on.any fun x => s.store.pool.slotLost (addrCh x) (addrDie x)

/-- The stripe of a codeword has a slot on a lost member or die. [log 74: DEDUCED] -/
def State.stripeHurt (s : State) (a : Nat) : Bool :=
  (s.stripe? a).elim (s.store.pool.slotLost (addrCh a) (addrDie a)) s.hurt

/-- When a super-block closed: by the epoch of its last program, the open ones last (R183). -/
def State.closedKey (s : State) (sb : Nat) : Nat × Nat :=
  (b2n (s.flash.parity.any fun p => p.sb == sb && !p.pending),
    maxOf ((s.flash.blocks.filter fun b => superOf b.blk == sb).map (·.stamp)))

/-- The walk takes `sb` before or with `x`. -/
def State.walksBefore (s : State) (sb x : Nat) : Bool :=
  let a := s.closedKey sb
  let b := s.closedKey x
  decide (a.1 < b.1) || (a.1 == b.1 && decide (a.2 ≤ b.2))

/-- The hurt stripes of super-blocks that the walk has still to take (R200). -/
def State.walkLeft (s : State) : Nat := (s.flash.stripes.filter fun p => s.hurt p && !s.flash.walked.contains p.sb).length

/-- REBUILD_WALK (R116, R182 to R184): the next super-block `sb` walked. Structures of the map area with a codeword on a lost
member are to be rewritten. Units of `lost`, and those whose stripe cannot be solved, become LOST; every other live unit of a
hurt stripe is moved from `target` on. -/
def execRebuildWalk (sb : Nat) (lost : List Nat) (target : Nat) (s : State) : Res :=
  if s.rebuilding = true ∧ s.reserveRuns = true ∧ s.flash.walked.contains sb = false ∧ s.supers.contains sb = true ∧
      (s.supers.all fun x => s.flash.walked.contains x || s.walksBefore sb x) = true then
    let dead := fun c : Codeword => superOf c.addr == sb && s.store.pool.slotLost (addrCh c.addr) (addrDie c.addr) &&
      (c.utype == 1 || c.utype == 2) && (lost.contains c.addr || !(s.fromStripe c.addr).elim false c.agrees)
    let gone := s.flash.cells.filter dead
    let heads := gone.map fun c => (s.headOf c).addr
    let s1 := gone.foldl (fun a c => a.loseInternal St.rdStripeLost c)
      (s.renewSys fun a => superOf a == sb && s.store.pool.slotLost (addrCh a) (addrDie a))
    let s2 := s1.moveLive false (fun a => superOf a == sb && s.stripeHurt a && !heads.contains a) target
    let left := (s2.liveCells fun a => superOf a == sb && s.stripeHurt a && !heads.contains a).isEmpty
    .next (s2.modFlash fun f => { f with
      walking := true, walkTotal := if f.walking then max f.walkTotal s.walkLeft else s.walkLeft
      walked := if left then f.walked ++ [sb] else f.walked })
  else .next s

/-- REBUILD_WALK_END (R180): every super-block is walked and every move of the walk is sealed: the members become
CLEAR. [log 69: DEDUCED] -/
def execRebuildWalkEnd (s : State) : Res :=
  let open_ := s.flash.moves.any fun m => s.stripeHurt m.src
  if s.flash.walking = true ∧ s.supers.all (fun b => s.flash.walked.contains b) = true ∧ open_ = false then
    .next ((s.modStore fun d => { d with
      pool := { d.pool with
        members := updIf (fun m => m.2 == .rebuilding) (fun m => (m.1, .clear)) d.pool.members } }).modFlash
      fun f => { f with walking := false, walked := [] })
  else .next s

/-! ### Parity checks (R189, R190, R199) -/

/-- P or Q of a closed stripe disagrees with its codewords (R189). -/
def State.mismatched (s : State) (p : Stripe) : Bool :=
  let ds := p.dataAt.map fun a => (s.cell? a).elim [] Codeword.bytes
  (p.parityAt.zip [parityP ds, parityQ ds]).any fun x => (s.cell? x.1).elim false fun c => !sameData c.data x.2

/-- The stripes that `q` picks hold P or Q that disagrees: their live units are moved, structures of the map area rewritten, and
the mismatch is logged (R189). -/
def State.mendStripes (s : State) (q : Stripe → Bool) : State :=
  let on := (s.flash.stripes.filter q).flatMap (·.on)
  ((s.mediaEvent St.rdParityMismatch 0).renewSys fun a => on.contains a).rewrite fun a => on.contains a

/-- RESYNC_FULL (R190): P and Q of every stripe of a super-block of the snapshot computed again. The command does not
say which of them disagreed on the medium, so that is open beyond those that do in the model. [log 70: DESIGN CHOICE]
-/
def execResyncFull (sb : Nat) (mismatch : Bool) (s : State) : Res :=
  if s.reserveRuns = true ∧ s.flash.resyncLeft.contains sb = true then
    let s1 := s.modFlash fun f => { f with resyncLeft := f.resyncLeft.filter fun x => x != sb }
    .next (if mismatch then s1.free.2.mendStripes fun p => p.sb == sb && p.closed &&
        (s.mismatched p || s.free.1.getLsbD ((p.grp + 16 * p.n) % 256))
      else s1)
  else .next s

/-- STRIPE_CHECK (R199): a full stripe of a super-block read under the rule of R189; the command does not say which
stripe it was, so that is open. [log 70: DESIGN CHOICE] -/
def execStripeCheck (sb : Nat) (mismatch : Bool) (s : State) : Res :=
  if s.reserveRuns = true ∧ s.param 0x0611 0 ≠ 0 ∧ mismatch = true then
    match s.flash.stripes.filter fun p => p.sb == sb && p.closed with
    | [] => .next s
    | p :: ps =>
      let x := (p :: ps).getD (s.free.1.toNat % (ps.length + 1)) p
      .next (s.free.2.mendStripes fun y => y == x)
  else .next s

/-! ### Reshape (R191 to R194) -/

/-- A unit of the old layout that has data and that the new map does not hold. -/
def State.uncopied (s : State) (key : Nat) : Bool :=
  let r := s.store.reshape
  (match s.store.mapHit r.nsid key with | .flash _ => true | _ => false) && s.resolve (newLayout r.nsid) key == .zero none

/-- The units that are still to be copied. -/
def State.reshapeLeft (s : State) : List Nat :=
  let i := s.store.reshape.nsid
  (((s.store.map.filter fun (u : UnitMap) => u.nsid == i).map fun (u : UnitMap) => u.key) ++
    (s.store.extents.filter fun (x : Extent) => x.nsid == i).flatMap fun (x : Extent) =>
      (List.range 256).map fun j => x.key * 256 + j).filter s.uncopied

/-- The unit copied for itself to `target`, with the units of its codeword that are still to be copied; in a stream only where an
overlay slot is free (R107, R192). -/
def State.copyUnits (s : State) (key target : Nat) : Option State :=
  let r := s.store.reshape
  let i := newLayout r.nsid
  match s.store.mapHit r.nsid key with
  | .flash a =>
    (s.cell? a).bind fun c =>
      if s.store.inExtents i = true ∧ 16384 < s.overlaysUsed + s.slotsFor i [extentKey key] then none
      else (State.takeRun r.code s.hz.epoch 1 true (max 1 (s.itemCells c).length) target s).bind fun x =>
        x.2.addMoves (((c.units.map (·.1)).filter fun k => s.uncopied k && s.liveUnit r.nsid k a).map fun k =>
          ⟨i, k, a, x.1.headD 0, false, none, x.1, s.hz.epoch, false, false, 0⟩)
  | _ => none

/-- RESHAPE_COPY (R112, R116, R120, R192): a closed extent of which the new map holds nothing is copied whole to
`target`, any other live unit of the old layout with its codeword. [log 73: DESIGN CHOICE] -/
def execReshapeCopy (key target : Nat) (s : State) : Res :=
  let i := newLayout s.store.reshape.nsid
  let whole := s.store.inExtents i && s.closedExtent (extentKey key) &&
    (s.extentPlan i (extentKey key)).all fun x => s.resolve i x.1 == .zero none
  if s.store.reshape.st = .copying ∧ s.reserveRuns = true ∧ s.uncopied key = true ∧
      s.flash.moves.any (fun m => m.nsid == i && m.key == key) = false then
    .next (((s.withSuper false (superOf target) 1).bind fun s1 =>
      if whole then (s1.moveExtent target i (extentKey key)).map (·.2) else s1.copyUnits key target).getD s)
  else .next s

/-- RESHAPE_COPY_DONE (R193): every live unit is in the new map: the switch is requested. -/
def execReshapeCopyDone (s : State) : Res :=
  if s.store.reshape.st = .copying ∧ s.hz.ticking = true ∧ s.reshapeLeft = [] then
    .next ((s.modStore fun d => { d with reshape := { d.reshape with st := .switchPending } }).record [.reshapeSwitch])
  else .next s

/-! ### Mailbox commands (R200) -/

/-- Members that a mask names. -/
def maskMembers (mask : Nat) : List Nat := (List.range 16).filter (bitAt mask)

/-- The populated channels that `rd.pool.form` names, where each of them is brought up (R135). -/
def State.poolOf (s : State) (ms : List Nat) : List Channel :=
  s.flash.channels.filter fun c => ms.contains c.ch && c.failed == 0

/-- The population breaks R135. -/
def State.badPopulation (s : State) (ms : List Nat) : Bool :=
  let pop := s.flash.channels.filter fun c => c.populated
  let raw := sumBy (fun c => c.dies * (c.profile.blocksPerDie * c.profile.cwPerBlock) * 4096) (s.poolOf ms)
  decide (pop.length < 4) || decide ((s.poolOf ms).length ≠ ms.length) ||
    pop.any (fun c => c.mixed || pop.any fun x => x.profile != c.profile || x.dies != c.dies) ||
    decide (64000000000000 < raw) ||
    pop.any fun c => decide (32768 < c.profile.blocksPerDie) || decide (32768 < c.profile.cwPerBlock)

/-- The drain capacity C_d of a pool in granules (R436): `n` dies of a profile program landing codewords, two members
left out. -/
def drainCap (p : FlashProfile) (n : Nat) : Nat :=
  let tf := if p.tprogQlc < p.tbers ∧ p.suspErase = 0 then p.tbers else p.tprogQlc
  let ts := 7 * p.tprogSlc
  (6500 - tf - ts) * (n * p.planes * p.pageMain) / (max 1 p.tprogSlc * 16384)

/-- C_d of the pool that members `ms` would form. -/
def State.drainCapOf (s : State) (ms : List Nat) : Nat :=
  match s.poolOf ms with
  | c :: cs => drainCap c.profile ((cs.length - 1) * c.dies)
  | [] => 0

/-- RD_POOL_FORM (R169): every block of the named members is erased, their factory bad blocks are recorded and the
pool counts with the seal that records it, after which the completion event follows (R22). [log 68, 72: DEDUCED] -/
def execRdPoolForm (fn : Nat) (req : MbReq) (s : State) : Res :=
  .next (s.mbRun Mb.rdPoolForm fn req fun s =>
    let ms := maskMembers (fld req 0 16)
    let k0 := fld req 16 4
    if s.nsFieldsAccepted ≠ [] then .refuse St.rdPoolInUse []
    else if ¬ (2 ≤ k0 ∧ k0 + 2 ≤ ms.length) then .refuse St.rdShape []
    else if s.badPopulation ms then .refuse St.mediaPopulation []
    else if s.drainCapOf ms < sumBy (·.write) s.grants + s.accepted.portCredit then .refuse St.hzCreditPool []
    else s.long Mb.rdPoolForm fn fun x =>
      x.record [.poolForm ⟨true, ms.map fun m => (m, .online), k0, [], s.drainCapOf ms⟩ s.recs.nextLong])

/-- Codes of a member's state in `rd.status`. -/
def MemberState.code : MemberState → Nat
  | .online => 0
  | .rebuilding => 1
  | .clear => 2

/-- Codes of a reshape's state in `rd.status`. -/
def ReshapeState.code : ReshapeState → Nat
  | .none => 0
  | .copying => 1
  | .switchPending => 2

/-- Codes in use whose width the healthy members do not reach (R185). -/
def State.narrowed (s : State) : List Nat :=
  ((s.store.nss.map (·.f.redun)).eraseDups).filter fun r =>
    decide (s.store.pool.online.length < (s.store.pool.code r).2)

/-- Blocks of the distributed spare that are left (R181): the spare share of every die that serves, less what the
free blocks no longer cover. -/
def State.spareLeft (s : State) : Nat := min s.blocksF (s.param 0x0610 0 * s.blocksB / 100)

/-- RD_STATUS (R200). -/
def execRdStatus (fn : Nat) (req : MbReq) (s : State) : Res :=
  .next (s.mbRun Mb.rdStatus fn req fun s =>
    let p := s.store.pool
    .basic ([p.members.length, p.k0] ++ p.members.flatMap (fun m => [m.1, m.2.code]) ++
      [p.failedDies.length] ++ p.failedDies ++ [s.flash.walkTotal - s.walkLeft, s.flash.walkTotal, s.spareLeft] ++
      s.narrowed ++ [s.store.reshape.st.code, s.store.reshape.nsid, b2n s.flash.resyncFull]) s)

/-- A reshape is running or accepted. -/
def State.reshaping (s : State) : Bool :=
  s.store.reshape.st != .none || s.hz.epochs.any fun e => e.ctrl.any fun c => match c with
    | .reshapeStart .. => true
    | _ => false

/-- RD_RESHAPE (R191, R193): the new map is recorded at the next seal; the long command ends at the switch. -/
def execRdReshape (fn : Nat) (req : MbReq) (s : State) : Res :=
  .next (s.mbRun Mb.rdReshape fn req fun s =>
    let code := fld req 32 8
    match s.store.ns? (fld req 0 32) with
    | none => .refuse St.nsNotAttached []
    | some n =>
      if ¬ s.store.pool.codeOk code then .refuse St.rdShape []
      else if n.isRns then .refuse St.nsRedundancy []
      else if s.freeSpace s.accepted.op < s.store.pool.consumes { n.f with redun := code } then .refuse St.rdNoSpace []
      else if s.reshaping then .refuse St.rdReshapeActive []
      else s.long Mb.rdReshape fn fun x => x.record [.reshapeStart n.f.nsid code fn s.recs.nextLong])

/-- RD_RESHAPE_CANCEL (R192, R193): the new layout is released at the next seal. [log 72: DEDUCED] -/
def execRdReshapeCancel (fn : Nat) (req : MbReq) (s : State) : Res :=
  .next (s.mbRun Mb.rdReshapeCancel fn req fun s =>
    if s.store.reshape.st = .none ∨ s.store.reshape.nsid ≠ fld req 0 32 then .refuse St.rdNoReshape []
    else .basic [] (s.record [.reshapeCancel]))

/-- RD_PROFILE (R26, R198, R200). -/
def execRdProfile (fn : Nat) (req : MbReq) (s : State) : Res :=
  .next (s.mbRun Mb.rdProfile fn req fun s => .persist [] (s.record [.rdProfile (fld req 0 1)]))

/-- RD_MEMBER_FAIL (R178, R200). -/
def execRdMemberFail (fn : Nat) (req : MbReq) (s : State) : Res :=
  .next (s.mbRun Mb.rdMemberFail fn req fun s =>
    let m := fld req 0 4
    if s.store.pool.formed = true ∧ s.store.pool.members.any (fun x => x.1 == m) = true then
      .persist [] (s.failMember m)
    else .refuse St.rdNoPool [])

end Sys2Proof.Machine
end

