-- ==== Sys2Proof/Machine/Dispatch.lean ====
section
/-!
DEFINITION. One arm per command: its meaning, or rejected by name.
-/

namespace Sys2Proof.Machine

open Sys2Proof

def exec (i : Instr) (s : State) : Host.Outcome State Fault Refusal :=
  match i with
  | .resetNRelease testEn => Sys2Proof.Machine.execResetNRelease testEn s
  | .channelBringup reports => Sys2Proof.Machine.execChannelBringup reports s
  | .recovery intentHeld => Sys2Proof.Machine.execRecovery intentHeld s
  | .thermalSensorSample readings => Sys2Proof.Machine.execThermalSensorSample readings s
  | .supplyInhibit monitor => Sys2Proof.Machine.execSupplyInhibit monitor s
  | .tickInEdge errNs intervalNs => Sys2Proof.Machine.execTickInEdge errNs intervalNs s
  | .tickBoundary stretchNs => Sys2Proof.Machine.execTickBoundary stretchNs s
  | .sealInstant atNs => Sys2Proof.Machine.execSealInstant atNs s
  | .lateEpochSeal atNs => Sys2Proof.Machine.execLateEpochSeal atNs s
  | .landingProgramDone epoch item addr => Sys2Proof.Machine.execLandingProgramDone epoch item addr s
  | .landingProgramFail epoch item addr => Sys2Proof.Machine.execLandingProgramFail epoch item addr s
  | .classificationResult r => Sys2Proof.Machine.execClassificationResult r s
  | .segmentCompressDone nsid stream window frameLen checkOk => Sys2Proof.Machine.execSegmentCompressDone nsid stream window frameLen checkOk s
  | .sqSubmissionFetch fn entries => Sys2Proof.Machine.execSqSubmissionFetch fn entries s
  | .dataFetchDone fn qid cid bytes pi => Sys2Proof.Machine.execDataFetchDone fn qid cid bytes pi s
  | .dmaReadError t => Sys2Proof.Machine.execDmaReadError t s
  | .completionWriteRelease fn => Sys2Proof.Machine.execCompletionWriteRelease fn s
  | .msixCoalesceExpiry fn qid => Sys2Proof.Machine.execMsixCoalesceExpiry fn qid s
  | .queueDeleteDone fn qid => Sys2Proof.Machine.execQueueDeleteDone fn qid s
  | .read fn qid cid bufs => Sys2Proof.Machine.execRead fn qid cid bufs s
  | .write fn qid cid bufs => Sys2Proof.Machine.execWrite fn qid cid bufs s
  | .append fn qid cid hdr bufs => Sys2Proof.Machine.execAppend fn qid cid hdr bufs s
  | .discard fn qid cid => Sys2Proof.Machine.execDiscard fn qid cid s
  | .flush fn qid cid => Sys2Proof.Machine.execFlush fn qid cid s
  | .exec fn qid cid blk => Sys2Proof.Machine.execExec fn qid cid blk s
  | .sqTailDoorbellWrite fn qid value => Sys2Proof.Machine.execSqTailDoorbellWrite fn qid value s
  | .cqHeadDoorbellWrite fn qid value => Sys2Proof.Machine.execCqHeadDoorbellWrite fn qid value s
  | .go fn => Sys2Proof.Machine.execGo fn s
  | .mailboxReply fn => Sys2Proof.Machine.execMailboxReply fn s
  | .ctrlReset key => Sys2Proof.Machine.execCtrlReset key s
  | .intStatusW1c fn bits => Sys2Proof.Machine.execIntStatusW1c fn bits s
  | .intEvqHeadWrite fn value => Sys2Proof.Machine.execIntEvqHeadWrite fn value s
  | .claim fn ctx => Sys2Proof.Machine.execClaim fn ctx s
  | .release fn ctx => Sys2Proof.Machine.execRelease fn ctx s
  | .start fn ctx alg => Sys2Proof.Machine.execStart fn ctx alg s
  | .final fn ctx tailBytes => Sys2Proof.Machine.execFinal fn ctx tailBytes s
  | .dgDataWrite fn ctx width value => Sys2Proof.Machine.execDgDataWrite fn ctx width value s
  | .dgBlockDone ctx => Sys2Proof.Machine.execDgBlockDone ctx s
  | .dgDigestDone ctx => Sys2Proof.Machine.execDgDigestDone ctx s
  | .dgResultRead fn ctx => Sys2Proof.Machine.execDgResultRead fn ctx s
  | .splitReadLatch fn offset => Sys2Proof.Machine.execSplitReadLatch fn offset s
  | .recordLatchRead fn offset => Sys2Proof.Machine.execRecordLatchRead fn offset s
  | .registerWrite fn offset width value => Sys2Proof.Machine.execRegisterWrite fn offset width value s
  | .flr fn => Sys2Proof.Machine.execFlr fn s
  | .fnResetComplete fn => Sys2Proof.Machine.execFnResetComplete fn s
  | .fnMemoryZeroingDone fn => Sys2Proof.Machine.execFnMemoryZeroingDone fn s
  | .busMasterEnableClear fn => Sys2Proof.Machine.execBusMasterEnableClear fn s
  | .busMasterEnableSet fn => Sys2Proof.Machine.execBusMasterEnableSet fn s
  | .d3hotEntry fn => Sys2Proof.Machine.execD3hotEntry fn s
  | .d3hotExit fn => Sys2Proof.Machine.execD3hotExit fn s
  | .usb4LinkTrained gen retimers => Sys2Proof.Machine.execUsb4LinkTrained gen retimers s
  | .laneBondRetry bonded => Sys2Proof.Machine.execLaneBondRetry bonded s
  | .fwRestartDone imageOk => Sys2Proof.Machine.execFwRestartDone imageOk s
  | .segmentLoadDone nsid typ idx => Sys2Proof.Machine.execSegmentLoadDone nsid typ idx s
  | .segmentWriteback addr => Sys2Proof.Machine.execSegmentWriteback addr s
  | .fold target => Sys2Proof.Machine.execFold target s
  | .gcCollect victim target => Sys2Proof.Machine.execGcCollect victim target s
  | .consolidation nsid extent target => Sys2Proof.Machine.execConsolidation nsid extent target s
  | .directoryCheckpoint addr => Sys2Proof.Machine.execDirectoryCheckpoint addr s
  | .moveProgramDone dst => Sys2Proof.Machine.execMoveProgramDone dst s
  | .moveProgramFail dst => Sys2Proof.Machine.execMoveProgramFail dst s
  | .blockErase blk => Sys2Proof.Machine.execBlockErase blk s
  | .eraseDone blk => Sys2Proof.Machine.execEraseDone blk s
  | .eraseFail blk => Sys2Proof.Machine.execEraseFail blk s
  | .decodeResult addr converged nsid utype key checkOk found => Sys2Proof.Machine.execDecodeResult addr converged nsid utype key checkOk found s
  | .ladderStep addr r => Sys2Proof.Machine.execLadderStep addr r s
  | .dieTempRead temps => Sys2Proof.Machine.execDieTempRead temps s
  | .recalibration die mode bin best => Sys2Proof.Machine.execRecalibration die mode bin best s
  | .interfaceRetrain ch ok temp => Sys2Proof.Machine.execInterfaceRetrain ch ok temp s
  | .verifyScan sb addr corrected decoded => Sys2Proof.Machine.execVerifyScan sb addr corrected decoded s
  | .verifyScanEnd sb => Sys2Proof.Machine.execVerifyScanEnd sb s
  | .patrolInterval reads failing => Sys2Proof.Machine.execPatrolInterval reads failing s
  | .dieReadyTimeout die => Sys2Proof.Machine.execDieReadyTimeout die s
  | .parityRowEccError sb row => Sys2Proof.Machine.execParityRowEccError sb row s
  | .rebuildWalk sb lost target => Sys2Proof.Machine.execRebuildWalk sb lost target s
  | .resyncFull sb mismatch => Sys2Proof.Machine.execResyncFull sb mismatch s
  | .stripeCheck sb mismatch => Sys2Proof.Machine.execStripeCheck sb mismatch s
  | .reshapeCopy key target => Sys2Proof.Machine.execReshapeCopy key target s
  | .haloUpdateStep table => Sys2Proof.Machine.execHaloUpdateStep table s
  | .haloCompactDone table => Sys2Proof.Machine.execHaloCompactDone table s
  | .sqJobStart engine pipe => Sys2Proof.Machine.execSqJobStart engine pipe s
  | .sqJobComplete engine pipe out => Sys2Proof.Machine.execSqJobComplete engine pipe out s
  | .threadDispatch engine => Sys2Proof.Machine.execThreadDispatch engine s
  | .threadReturn c a0 => Sys2Proof.Machine.execThreadReturn c a0 s
  | .moduleFault c mcause mepc mtval => Sys2Proof.Machine.execModuleFault c mcause mepc mtval s
  | .activationLimit c => Sys2Proof.Machine.execActivationLimit c s
  | .tokenDeliver producer => Sys2Proof.Machine.execTokenDeliver producer s
  | .delayListFire time => Sys2Proof.Machine.execDelayListFire time s
  | .instanceStart a => Sys2Proof.Machine.execInstanceStart a s
  | .chunkDeliver inst => Sys2Proof.Machine.execChunkDeliver inst s
  | .instanceEnd inst => Sys2Proof.Machine.execInstanceEnd inst s
  | .thSpawn c entry arg prio nslots placement => Sys2Proof.Machine.execThSpawn c entry arg prio nslots placement s
  | .thSend c tid slot value => Sys2Proof.Machine.execThSend c tid slot value s
  | .thDelay c tid slot wake => Sys2Proof.Machine.execThDelay c tid slot wake s
  | .thCancel c tid => Sys2Proof.Machine.execThCancel c tid s
  | .haloSearch c table keys results tid slot => Sys2Proof.Machine.execHaloSearch c table keys results tid slot s
  | .sqSubmit c desc record tid slot => Sys2Proof.Machine.execSqSubmit c desc record tid slot s
  | .hostPut engine src offset len tid slot run => Sys2Proof.Machine.execHostPut engine src offset len tid slot run s
  | .chunkRelease c addr => Sys2Proof.Machine.execChunkRelease c addr s
  | .memAlloc c bytes align => Sys2Proof.Machine.execMemAlloc c bytes align s
  | .memFree c addr => Sys2Proof.Machine.execMemFree c addr s
  | .instDone c code resultLen => Sys2Proof.Machine.execInstDone c code resultLen s
  | .modLog c addr len => Sys2Proof.Machine.execModLog c addr len s
  | .holdupSample mv => Sys2Proof.Machine.execHoldupSample mv s
  | .holdupLoadSample mv us => Sys2Proof.Machine.execHoldupLoadSample mv us s
  | .fwDownloadDone img => Sys2Proof.Machine.execFwDownloadDone img s
  | .imageVerifyDone nsid slot => Sys2Proof.Machine.execImageVerifyDone nsid slot s
  | .devIdentify fn req => Sys2Proof.Machine.execDevIdentify fn req s
  | .devCertRead fn req => Sys2Proof.Machine.execDevCertRead fn req s
  | .paramSet fn req => Sys2Proof.Machine.execParamSet fn req s
  | .paramGet fn req => Sys2Proof.Machine.execParamGet fn req s
  | .devResources fn req => Sys2Proof.Machine.execDevResources fn req s
  | .devShockConfigure fn req => Sys2Proof.Machine.execDevShockConfigure fn req s
  | .devTickoutConfigure fn req => Sys2Proof.Machine.execDevTickoutConfigure fn req s
  | .devLongResult fn req => Sys2Proof.Machine.execDevLongResult fn req s
  | .fnCreate fn req => Sys2Proof.Machine.execFnCreate fn req s
  | .fnDestroy fn req => Sys2Proof.Machine.execFnDestroy fn req s
  | .fnReset fn req => Sys2Proof.Machine.execFnReset fn req s
  | .fnInfo fn req => Sys2Proof.Machine.execFnInfo fn req s
  | .fnPool fn req => Sys2Proof.Machine.execFnPool fn req s
  | .fnHostConfigure fn req => Sys2Proof.Machine.execFnHostConfigure fn req s
  | .fnPf0Grant fn req => Sys2Proof.Machine.execFnPf0Grant fn req s
  | .fnLinkStatus fn req => Sys2Proof.Machine.execFnLinkStatus fn req s
  | .fnQueueCreate fn req => Sys2Proof.Machine.execFnQueueCreate fn req s
  | .fnQueueDelete fn req => Sys2Proof.Machine.execFnQueueDelete fn req s
  | .fnQueueStatus fn req => Sys2Proof.Machine.execFnQueueStatus fn req s
  | .fnCmdAbort fn req => Sys2Proof.Machine.execFnCmdAbort fn req s
  | .fnQueueTimer fn req => Sys2Proof.Machine.execFnQueueTimer fn req s
  | .fnEventConfigure fn req => Sys2Proof.Machine.execFnEventConfigure fn req s
  | .nsCreate fn req => Sys2Proof.Machine.execNsCreate fn req s
  | .nsDelete fn req => Sys2Proof.Machine.execNsDelete fn req s
  | .nsAttach fn req => Sys2Proof.Machine.execNsAttach fn req s
  | .nsDetach fn req => Sys2Proof.Machine.execNsDetach fn req s
  | .nsInfo fn req => Sys2Proof.Machine.execNsInfo fn req s
  | .nsStreamOpen fn req => Sys2Proof.Machine.execNsStreamOpen fn req s
  | .nsStreamClose fn req => Sys2Proof.Machine.execNsStreamClose fn req s
  | .nsRetentionLengthen fn req => Sys2Proof.Machine.execNsRetentionLengthen fn req s
  | .nsRclockSet fn req => Sys2Proof.Machine.execNsRclockSet fn req s
  | .nsChainAnchor fn req => Sys2Proof.Machine.execNsChainAnchor fn req s
  | .nsRnsTrim fn req => Sys2Proof.Machine.execNsRnsTrim fn req s
  | .nsFreeze fn req => Sys2Proof.Machine.execNsFreeze fn req s
  | .nsUnfreeze fn req => Sys2Proof.Machine.execNsUnfreeze fn req s
  | .nsImageOpen fn req => Sys2Proof.Machine.execNsImageOpen fn req s
  | .nsImageVerify fn req => Sys2Proof.Machine.execNsImageVerify fn req s
  | .nsImageActivate fn req => Sys2Proof.Machine.execNsImageActivate fn req s
  | .nsImageRollback fn req => Sys2Proof.Machine.execNsImageRollback fn req s
  | .nsImageErase fn req => Sys2Proof.Machine.execNsImageErase fn req s
  | .hzConfigure fn req => Sys2Proof.Machine.execHzConfigure fn req s
  | .hzStatus fn req => Sys2Proof.Machine.execHzStatus fn req s
  | .hzPlanRead fn req => Sys2Proof.Machine.execHzPlanRead fn req s
  | .hzRingRelease fn req => Sys2Proof.Machine.execHzRingRelease fn req s
  | .ftStatus fn req => Sys2Proof.Machine.execFtStatus fn req s
  | .ftProfile fn req => Sys2Proof.Machine.execFtProfile fn req s
  | .ftLostList fn req => Sys2Proof.Machine.execFtLostList fn req s
  | .mediaStatus fn req => Sys2Proof.Machine.execMediaStatus fn req s
  | .mediaHealth fn req => Sys2Proof.Machine.execMediaHealth fn req s
  | .mediaOffsetsRead fn req => Sys2Proof.Machine.execMediaOffsetsRead fn req s
  | .mediaProfileList fn req => Sys2Proof.Machine.execMediaProfileList fn req s
  | .mediaPatrol fn req => Sys2Proof.Machine.execMediaPatrol fn req s
  | .mediaCare fn req => Sys2Proof.Machine.execMediaCare fn req s
  | .rdPoolForm fn req => Sys2Proof.Machine.execRdPoolForm fn req s
  | .rdStatus fn req => Sys2Proof.Machine.execRdStatus fn req s
  | .rdReshape fn req => Sys2Proof.Machine.execRdReshape fn req s
  | .rdReshapeCancel fn req => Sys2Proof.Machine.execRdReshapeCancel fn req s
  | .rdProfile fn req => Sys2Proof.Machine.execRdProfile fn req s
  | .rdMemberFail fn req => Sys2Proof.Machine.execRdMemberFail fn req s
  | .haloTableCreate fn req => Sys2Proof.Machine.execHaloTableCreate fn req s
  | .haloTableDestroy fn req => Sys2Proof.Machine.execHaloTableDestroy fn req s
  | .haloTableInsert fn req => Sys2Proof.Machine.execHaloTableInsert fn req s
  | .haloTableDelete fn req => Sys2Proof.Machine.execHaloTableDelete fn req s
  | .haloTableModify fn req => Sys2Proof.Machine.execHaloTableModify fn req s
  | .haloTableRead fn req => Sys2Proof.Machine.execHaloTableRead fn req s
  | .haloTableCompact fn req => Sys2Proof.Machine.execHaloTableCompact fn req s
  | .haloTableSearch fn req => Sys2Proof.Machine.execHaloTableSearch fn req s
  | .haloStatus fn req => Sys2Proof.Machine.execHaloStatus fn req s
  | .sqProfile fn req => Sys2Proof.Machine.execSqProfile fn req s
  | .sqStatus fn req => Sys2Proof.Machine.execSqStatus fn req s
  | .modKeyEnroll fn req => Sys2Proof.Machine.execModKeyEnroll fn req s
  | .modKeyRevoke fn req => Sys2Proof.Machine.execModKeyRevoke fn req s
  | .modLoad fn req => Sys2Proof.Machine.execModLoad fn req s
  | .modUnload fn req => Sys2Proof.Machine.execModUnload fn req s
  | .modList fn req => Sys2Proof.Machine.execModList fn req s
  | .anvConfigure fn req => Sys2Proof.Machine.execAnvConfigure fn req s
  | .anvProfile fn req => Sys2Proof.Machine.execAnvProfile fn req s
  | .anvStatus fn req => Sys2Proof.Machine.execAnvStatus fn req s
  | .anvStats fn req => Sys2Proof.Machine.execAnvStats fn req s
  | .anvFaultRead fn req => Sys2Proof.Machine.execAnvFaultRead fn req s
  | .zlPortConfigure fn req => Sys2Proof.Machine.execZlPortConfigure fn req s
  | .zlPortStatus fn req => Sys2Proof.Machine.execZlPortStatus fn req s
  | .zlNodeSet fn req => Sys2Proof.Machine.execZlNodeSet fn req s
  | .zlTrustEnroll fn req => Sys2Proof.Machine.execZlTrustEnroll fn req s
  | .zlTrustRevoke fn req => Sys2Proof.Machine.execZlTrustRevoke fn req s
  | .zlPeerAdmit fn req => Sys2Proof.Machine.execZlPeerAdmit fn req s
  | .zlGroupForm fn req => Sys2Proof.Machine.execZlGroupForm fn req s
  | .zlGroupJoin fn req => Sys2Proof.Machine.execZlGroupJoin fn req s
  | .zlGroupLeave fn req => Sys2Proof.Machine.execZlGroupLeave fn req s
  | .zlGroupStatus fn req => Sys2Proof.Machine.execZlGroupStatus fn req s
  | .zlMemberAdmit fn req => Sys2Proof.Machine.execZlMemberAdmit fn req s
  | .zlRouteSet fn req => Sys2Proof.Machine.execZlRouteSet fn req s
  | .zlRouteClear fn req => Sys2Proof.Machine.execZlRouteClear fn req s
  | .zlMirrorBreak fn req => Sys2Proof.Machine.execZlMirrorBreak fn req s
  | .zlFenceClear fn req => Sys2Proof.Machine.execZlFenceClear fn req s
  | .pwStateSet fn req => Sys2Proof.Machine.execPwStateSet fn req s
  | .pwStatus fn req => Sys2Proof.Machine.execPwStatus fn req s
  | .pwHoldupMeasure fn req => Sys2Proof.Machine.execPwHoldupMeasure fn req s
  | .fwStatus fn req => Sys2Proof.Machine.execFwStatus fn req s
  | .fwDownload fn req => Sys2Proof.Machine.execFwDownload fn req s
  | .fwActivate fn req => Sys2Proof.Machine.execFwActivate fn req s
  | .fwCommit fn req => Sys2Proof.Machine.execFwCommit fn req s
  | .fwDebugChallenge fn req => Sys2Proof.Machine.execFwDebugChallenge fn req s
  | .fwDebugUnlock fn req => Sys2Proof.Machine.execFwDebugUnlock fn req s
  | .fwDebugDisable fn req => Sys2Proof.Machine.execFwDebugDisable fn req s
  | .fwKeyRevoke fn req => Sys2Proof.Machine.execFwKeyRevoke fn req s
  | .logRead fn req => Sys2Proof.Machine.execLogRead fn req s
  | .logStatus fn req => Sys2Proof.Machine.execLogStatus fn req s
  | .telSampleConfigure fn req => Sys2Proof.Machine.execTelSampleConfigure fn req s
  | .vfEnableSet numVfs => Sys2Proof.Machine.execVfEnableSet numVfs s
  | .moduleLoadDone fn longId file => Sys2Proof.Machine.execModuleLoadDone fn longId file s
  | .intentEntryConfirmed seq => Sys2Proof.Machine.execIntentEntryConfirmed seq s
  | .telSample time => Sys2Proof.Machine.execTelSample time s
  | .zlSignalDetect port => Sys2Proof.Machine.execZlSignalDetect port s
  | .zlPortBringupStep port ok => Sys2Proof.Machine.execZlPortBringupStep port ok s
  | .zlPortRestartTimer port => Sys2Proof.Machine.execZlPortRestartTimer port s
  | .zlBlockLockLoss port => Sys2Proof.Machine.execZlBlockLockLoss port s
  | .laneMarginReport port lane vertical horizontal => Sys2Proof.Machine.execLaneMarginReport port lane vertical horizontal s
  | .discover port node certDigest caps => Sys2Proof.Machine.execDiscover port node certDigest caps s
  | .delay port dPortNs => Sys2Proof.Machine.execDelay port dPortNs s
  | .hello port nonce eph => Sys2Proof.Machine.execHello port nonce eph s
  | .reply port nonce eph sigOk anchorKey => Sys2Proof.Machine.execReply port nonce eph sigOk anchorKey s
  | .finish port sigOk anchorKey => Sys2Proof.Machine.execFinish port sigOk anchorKey s
  | .done port => Sys2Proof.Machine.execDone port s
  | .authTimeout port => Sys2Proof.Machine.execAuthTimeout port s
  | .data port f bytes => Sys2Proof.Machine.execData port f bytes s
  | .frameRelay port f => Sys2Proof.Machine.execFrameRelay port f s
  | .nak port f => Sys2Proof.Machine.execNak port f s
  | .retrans port seq => Sys2Proof.Machine.execRetrans port seq s
  | .zlRetransmitTimeout port => Sys2Proof.Machine.execZlRetransmitTimeout port s
  | .pause port gtick => Sys2Proof.Machine.execPause port gtick s
  | .credit port gtick granules => Sys2Proof.Machine.execCredit port gtick granules s
  | .sealReady port node gtick gen lock => Sys2Proof.Machine.execSealReady port node gtick gen lock s
  | .sealCommit port gtick gen => Sys2Proof.Machine.execSealCommit port gtick gen s
  | .membership port gen effective master ring rclk => Sys2Proof.Machine.execMembership port gen effective master ring rclk s
  | .joinRequest port node ringMark marks cables rclk => Sys2Proof.Machine.execJoinRequest port node ringMark marks cables rclk s
  | .joinOffer port gJ period window offset rclk => Sys2Proof.Machine.execJoinOffer port gJ period window offset rclk s
  | .joinAccept port node => Sys2Proof.Machine.execJoinAccept port node s
  | .joinRefuse port status => Sys2Proof.Machine.execJoinRefuse port status s
  | .memberLost port lost => Sys2Proof.Machine.execMemberLost port lost s
  | .tickMark port tick errNs intervalNs valid => Sys2Proof.Machine.execTickMark port tick errNs intervalNs valid s
  | .mirrorCreate port node ns offset => Sys2Proof.Machine.execMirrorCreate port node ns offset s
  | .mirrorHeld port rid => Sys2Proof.Machine.execMirrorHeld port rid s
  | .mirrorAdmit port rid gtick => Sys2Proof.Machine.execMirrorAdmit port rid gtick s
  | .mirrorCopyDone nsid => Sys2Proof.Machine.execMirrorCopyDone nsid s
  | .fenceBackoffEnd port => Sys2Proof.Machine.execFenceBackoffEnd port s
  | .violationQuietTimer port => Sys2Proof.Machine.execViolationQuietTimer port s
  | .emptyAckFrameTimer port => Sys2Proof.Machine.execEmptyAckFrameTimer port s
  | .unknownFrameType port f => Sys2Proof.Machine.execUnknownFrameType port f s
  | .powerOnReset => Sys2Proof.Machine.execPowerOnReset s
  | .sutasFirmwareRunning => Sys2Proof.Machine.execSutasFirmwareRunning s
  | .heldExit => Sys2Proof.Machine.execHeldExit s
  | .pwrfailAssert => Sys2Proof.Machine.execPwrfailAssert s
  | .drainEnd => Sys2Proof.Machine.execDrainEnd s
  | .pwrfailDeassert => Sys2Proof.Machine.execPwrfailDeassert s
  | .pwrfailHighTimerExpiry => Sys2Proof.Machine.execPwrfailHighTimerExpiry s
  | .thermalTrip => Sys2Proof.Machine.execThermalTrip s
  | .supplyInhibitRelease => Sys2Proof.Machine.execSupplyInhibitRelease s
  | .tickInWindowEnd => Sys2Proof.Machine.execTickInWindowEnd s
  | .tickInRelockTimeout => Sys2Proof.Machine.execTickInRelockTimeout s
  | .shockInTrigger => Sys2Proof.Machine.execShockInTrigger s
  | .shockInHoldoffEnd => Sys2Proof.Machine.execShockInHoldoffEnd s
  | .cutPoint => Sys2Proof.Machine.execCutPoint s
  | .hzSealLate => Sys2Proof.Machine.execHzSealLate s
  | .epochUnsealedN6 => Sys2Proof.Machine.execEpochUnsealedN6 s
  | .voteWindowEnd => Sys2Proof.Machine.execVoteWindowEnd s
  | .admission => Sys2Proof.Machine.execAdmission s
  | .commandTimeoutScan => Sys2Proof.Machine.execCommandTimeoutScan s
  | .ctrlResetSealsDone => Sys2Proof.Machine.execCtrlResetSealsDone s
  | .vfEnableClear => Sys2Proof.Machine.execVfEnableClear s
  | .usb4LinkDownTimeout => Sys2Proof.Machine.execUsb4LinkDownTimeout s
  | .tunnelledLinkReset => Sys2Proof.Machine.execTunnelledLinkReset s
  | .watchdogExpiry => Sys2Proof.Machine.execWatchdogExpiry s
  | .rebuildWalkEnd => Sys2Proof.Machine.execRebuildWalkEnd s
  | .reshapeCopyDone => Sys2Proof.Machine.execReshapeCopyDone s
  | .joinLockDeadline => Sys2Proof.Machine.execJoinLockDeadline s
  | .joinTickReached => Sys2Proof.Machine.execJoinTickReached s
  | .markWindowEnd => Sys2Proof.Machine.execMarkWindowEnd s
  | .holdupChargeTimeout => Sys2Proof.Machine.execHoldupChargeTimeout s
  | .p3Quiesced => Sys2Proof.Machine.execP3Quiesced s
  | .p4CheckpointSealed => Sys2Proof.Machine.execP4CheckpointSealed s
  | .fwPreparationDone => Sys2Proof.Machine.execFwPreparationDone s
  | .fwPreparationTimeout => Sys2Proof.Machine.execFwPreparationTimeout s
  | .fwReady => Sys2Proof.Machine.execFwReady s
  | .fwReadyTimeout => Sys2Proof.Machine.execFwReadyTimeout s
  | .fwHoldTimeout => Sys2Proof.Machine.execFwHoldTimeout s
  | .debugNonceExpiry => Sys2Proof.Machine.execDebugNonceExpiry s
  | .ringSealDeadline => Sys2Proof.Machine.execRingSealDeadline s
  | .tickOutPulseEnd => Sys2Proof.Machine.execTickOutPulseEnd s
  | .usb4LinkLoss => Sys2Proof.Machine.execUsb4LinkLoss s

end Sys2Proof.Machine
end

