-- ==== Sys2Proof/Machine/Step.lean ====
section
/-!
DEFINITION. One step of the block: the command at the front of the queue, or idling.
-/

namespace Sys2Proof.Machine

open Sys2Proof

/-- The state with the first waiting command taken off the queue. -/
def State.rest (s : State) : State := { s with pending := s.pending.tail }

/-- One step: the command at the front of the queue runs on the state that holds the queue's rest; on an empty queue
the block idles. [log 1: DESIGN CHOICE] -/
def step (s : State) : Host.Outcome State Fault Refusal :=
  match s.pending with
  | [] => .next s
  | c :: _ => exec c s.rest

/-- The state with the command that a word spells at the front of its queue. [log 1: DESIGN CHOICE] -/
def State.withFetchWord (s : State) (nbits w : Nat) : State :=
  match decodeTableWord nbits w with
  | some c => { s with pending := c :: s.pending }
  | none => s

end Sys2Proof.Machine
end

