-- ==== Sys2Proof/Safety.lean ====
section
/-!
DEFINITION. What the claims call a command's turn, its answer, and a good state.
-/

namespace Sys2Proof.Machine

open Sys2Proof

/-! ### Mailbox commands -/

/-- What R404 lists of a mailbox command, with its issuing function and request; no other command has any. -/
def mbRow : Instr → Option (MbMeta × Nat × MbReq)
  | .devIdentify n r => some (Mb.devIdentify, n, r)
  | .devCertRead n r => some (Mb.devCertRead, n, r)
  | .paramSet n r => some (Mb.paramSet, n, r)
  | .paramGet n r => some (Mb.paramGet, n, r)
  | .devResources n r => some (Mb.devResources, n, r)
  | .devShockConfigure n r => some (Mb.devShockConfigure, n, r)
  | .devTickoutConfigure n r => some (Mb.devTickoutConfigure, n, r)
  | .devLongResult n r => some (Mb.devLongResult, n, r)
  | .fnCreate n r => some (Mb.fnCreate, n, r)
  | .fnDestroy n r => some (Mb.fnDestroy, n, r)
  | .fnReset n r => some (Mb.fnReset, n, r)
  | .fnInfo n r => some (Mb.fnInfo, n, r)
  | .fnPool n r => some (Mb.fnPool, n, r)
  | .fnHostConfigure n r => some (Mb.fnHostConfigure, n, r)
  | .fnPf0Grant n r => some (Mb.fnPf0Grant, n, r)
  | .fnLinkStatus n r => some (Mb.fnLinkStatus, n, r)
  | .fnQueueCreate n r => some (Mb.fnQueueCreate, n, r)
  | .fnQueueDelete n r => some (Mb.fnQueueDelete, n, r)
  | .fnQueueStatus n r => some (Mb.fnQueueStatus, n, r)
  | .fnCmdAbort n r => some (Mb.fnCmdAbort, n, r)
  | .fnQueueTimer n r => some (Mb.fnQueueTimer, n, r)
  | .fnEventConfigure n r => some (Mb.fnEventConfigure, n, r)
  | .nsCreate n r => some (Mb.nsCreate, n, r)
  | .nsDelete n r => some (Mb.nsDelete, n, r)
  | .nsAttach n r => some (Mb.nsAttach, n, r)
  | .nsDetach n r => some (Mb.nsDetach, n, r)
  | .nsInfo n r => some (Mb.nsInfo, n, r)
  | .nsStreamOpen n r => some (Mb.nsStreamOpen, n, r)
  | .nsStreamClose n r => some (Mb.nsStreamClose, n, r)
  | .nsRetentionLengthen n r => some (Mb.nsRetentionLengthen, n, r)
  | .nsRclockSet n r => some (Mb.nsRclockSet, n, r)
  | .nsChainAnchor n r => some (Mb.nsChainAnchor, n, r)
  | .nsRnsTrim n r => some (Mb.nsRnsTrim, n, r)
  | .nsFreeze n r => some (Mb.nsFreeze, n, r)
  | .nsUnfreeze n r => some (Mb.nsUnfreeze, n, r)
  | .nsImageOpen n r => some (Mb.nsImageOpen, n, r)
  | .nsImageVerify n r => some (Mb.nsImageVerify, n, r)
  | .nsImageActivate n r => some (Mb.nsImageActivate, n, r)
  | .nsImageRollback n r => some (Mb.nsImageRollback, n, r)
  | .nsImageErase n r => some (Mb.nsImageErase, n, r)
  | .hzConfigure n r => some (Mb.hzConfigure, n, r)
  | .hzStatus n r => some (Mb.hzStatus, n, r)
  | .hzPlanRead n r => some (Mb.hzPlanRead, n, r)
  | .hzRingRelease n r => some (Mb.hzRingRelease, n, r)
  | .ftStatus n r => some (Mb.ftStatus, n, r)
  | .ftProfile n r => some (Mb.ftProfile, n, r)
  | .ftLostList n r => some (Mb.ftLostList, n, r)
  | .mediaStatus n r => some (Mb.mediaStatus, n, r)
  | .mediaHealth n r => some (Mb.mediaHealth, n, r)
  | .mediaOffsetsRead n r => some (Mb.mediaOffsetsRead, n, r)
  | .mediaProfileList n r => some (Mb.mediaProfileList, n, r)
  | .mediaPatrol n r => some (Mb.mediaPatrol, n, r)
  | .mediaCare n r => some (Mb.mediaCare, n, r)
  | .rdPoolForm n r => some (Mb.rdPoolForm, n, r)
  | .rdStatus n r => some (Mb.rdStatus, n, r)
  | .rdReshape n r => some (Mb.rdReshape, n, r)
  | .rdReshapeCancel n r => some (Mb.rdReshapeCancel, n, r)
  | .rdProfile n r => some (Mb.rdProfile, n, r)
  | .rdMemberFail n r => some (Mb.rdMemberFail, n, r)
  | .haloTableCreate n r => some (Mb.haloTableCreate, n, r)
  | .haloTableDestroy n r => some (Mb.haloTableDestroy, n, r)
  | .haloTableInsert n r => some (Mb.haloTableInsert, n, r)
  | .haloTableDelete n r => some (Mb.haloTableDelete, n, r)
  | .haloTableModify n r => some (Mb.haloTableModify, n, r)
  | .haloTableRead n r => some (Mb.haloTableRead, n, r)
  | .haloTableCompact n r => some (Mb.haloTableCompact, n, r)
  | .haloTableSearch n r => some (Mb.haloTableSearch, n, r)
  | .haloStatus n r => some (Mb.haloStatus, n, r)
  | .sqProfile n r => some (Mb.sqProfile, n, r)
  | .sqStatus n r => some (Mb.sqStatus, n, r)
  | .modKeyEnroll n r => some (Mb.modKeyEnroll, n, r)
  | .modKeyRevoke n r => some (Mb.modKeyRevoke, n, r)
  | .modLoad n r => some (Mb.modLoad, n, r)
  | .modUnload n r => some (Mb.modUnload, n, r)
  | .modList n r => some (Mb.modList, n, r)
  | .anvConfigure n r => some (Mb.anvConfigure, n, r)
  | .anvProfile n r => some (Mb.anvProfile, n, r)
  | .anvStatus n r => some (Mb.anvStatus, n, r)
  | .anvStats n r => some (Mb.anvStats, n, r)
  | .anvFaultRead n r => some (Mb.anvFaultRead, n, r)
  | .zlPortConfigure n r => some (Mb.zlPortConfigure, n, r)
  | .zlPortStatus n r => some (Mb.zlPortStatus, n, r)
  | .zlNodeSet n r => some (Mb.zlNodeSet, n, r)
  | .zlTrustEnroll n r => some (Mb.zlTrustEnroll, n, r)
  | .zlTrustRevoke n r => some (Mb.zlTrustRevoke, n, r)
  | .zlPeerAdmit n r => some (Mb.zlPeerAdmit, n, r)
  | .zlGroupForm n r => some (Mb.zlGroupForm, n, r)
  | .zlGroupJoin n r => some (Mb.zlGroupJoin, n, r)
  | .zlGroupLeave n r => some (Mb.zlGroupLeave, n, r)
  | .zlGroupStatus n r => some (Mb.zlGroupStatus, n, r)
  | .zlMemberAdmit n r => some (Mb.zlMemberAdmit, n, r)
  | .zlRouteSet n r => some (Mb.zlRouteSet, n, r)
  | .zlRouteClear n r => some (Mb.zlRouteClear, n, r)
  | .zlMirrorBreak n r => some (Mb.zlMirrorBreak, n, r)
  | .zlFenceClear n r => some (Mb.zlFenceClear, n, r)
  | .pwStateSet n r => some (Mb.pwStateSet, n, r)
  | .pwStatus n r => some (Mb.pwStatus, n, r)
  | .pwHoldupMeasure n r => some (Mb.pwHoldupMeasure, n, r)
  | .fwStatus n r => some (Mb.fwStatus, n, r)
  | .fwDownload n r => some (Mb.fwDownload, n, r)
  | .fwActivate n r => some (Mb.fwActivate, n, r)
  | .fwCommit n r => some (Mb.fwCommit, n, r)
  | .fwDebugChallenge n r => some (Mb.fwDebugChallenge, n, r)
  | .fwDebugUnlock n r => some (Mb.fwDebugUnlock, n, r)
  | .fwDebugDisable n r => some (Mb.fwDebugDisable, n, r)
  | .fwKeyRevoke n r => some (Mb.fwKeyRevoke, n, r)
  | .logRead n r => some (Mb.logRead, n, r)
  | .logStatus n r => some (Mb.logStatus, n, r)
  | .telSampleConfigure n r => some (Mb.telSampleConfigure, n, r)
  | _ => none

/-- The commands that report values which the state holds, without a name to look up. -/
def statusReads : List MbMeta :=
  [Mb.devIdentify, Mb.devCertRead, Mb.devResources, Mb.fnPool, Mb.hzStatus, Mb.hzPlanRead, Mb.ftStatus, Mb.ftLostList, Mb.mediaStatus,
    Mb.mediaHealth, Mb.mediaOffsetsRead, Mb.mediaProfileList] ++
  [Mb.rdStatus, Mb.haloStatus, Mb.modList, Mb.anvStatus, Mb.anvFaultRead, Mb.zlPortStatus, Mb.zlGroupStatus,
    Mb.pwStatus, Mb.fwStatus, Mb.logStatus]

/-- Function `n`'s accepted request is (`m`, `r`) and it is next in order: the function is live, firmware runs (R400). -/
abbrev State.next (s : State) (m : MbMeta) (n : Nat) (r : MbReq) : Prop := s.fnLive n = true ∧ s.mbReady m n r = true

/-- It is the request's turn, and every check of R401 passes. -/
abbrev State.turn (s : State) (m : MbMeta) (n : Nat) (r : MbReq) : Prop :=
  s.next m n r ∧ (s.taken n).mbCheck m n r = none

/-- The final reply ST_OK with its values is ready (R402, basic). -/
def State.answer (s : State) (m : MbMeta) (n : Nat) (r : MbReq) (vals : List Nat) : State :=
  s.stage n m.opcode r.tag St.ok vals none

/-- The final reply ST_OK is ready once epoch `e` is sealed (R402, persistent change). -/
def State.answerSealed (s : State) (m : MbMeta) (n : Nat) (r : MbReq) (vals : List Nat) (e : Nat) : State :=
  s.stage n m.opcode r.tag St.ok vals (some e)

/-- ST_MB_ACCEPTED with the long-command ID is ready (R402, long). -/
def State.answerLong (s : State) (m : MbMeta) (n : Nat) (r : MbReq) (id : Nat) : State :=
  s.stage n m.opcode r.tag St.mbAccepted [id] none

/-! ### Engines -/

/-- Register `r` of engine `e`; a register that the list lacks reads 0. -/
def State.xreg (s : State) (e r : Nat) : Nat := ((s.engine e).x.getD r 0).toNat

/-- Status and value of the last service call on engine `e`: a0 and a1 (R278). -/
def State.resultOf (s : State) (e : Nat) : Nat × Nat := (s.xreg e 10, s.xreg e 11)

/-- A reset of function `n` has fenced it (R291). -/
def State.fenced (s : State) (n : Nat) : Bool := (s.fn? n).elim false (·.reset.fenced)

/-- What a thread of function `n` has run reaches engine `e` and memory, and then these registers are set. -/
def State.ranWith (s : State) (n e : Nat) (run : ThreadRun) (rs : List (Nat × Nat)) : State :=
  (s.ran n e run).modEngine e fun c => c.setRegs rs

/-- The registers of a call of service `k`: its arguments in a0 on, its number in a7 (R278). -/
def callRegs (k : Nat) (args : List Nat) : List (Nat × Nat) := (args.zipIdx.map fun r => (10 + r.2, r.1)) ++ [(17, k)]

/-- Engine `e` exists and has 32 integer registers. -/
abbrev State.engineOk (s : State) (e : Nat) : Prop := e < s.anv.engines.length ∧ (s.engine e).x.length = 32

/-- Thread `t` of instance `i` and module `m` runs on engine `e` and is in no call that stalls; its function is
ACTIVE, its instance does not end. -/
abbrev State.calls (s : State) (e : Nat) (t : Thread) (i : Inst) (m : Module) : Prop :=
  s.runningOn e = some t ∧ s.callStalled e = false ∧ s.fnState t.fn = .active ∧ s.inst? t.inst = some i ∧
    i.st ≠ .ending ∧ s.module? t.fn i.handle = some m

/-! ### Good states -/

/-- Every message area is in its canonical form (R398). -/
abbrev State.areasOk (s : State) : Prop := ∀ f ∈ s.fns, Mem.wf f.mb.area = true

/-- The message areas are canonical (R398) and there are 16 digest contexts (R249). -/
abbrev State.good (s : State) : Prop := s.areasOk ∧ s.dg.length = 16

end Sys2Proof.Machine
end

