-- ==== Sys2Proof/Certificates/Slice0/Obligations.lean ====
section
/-!
DEFINITION. The statements about the block, each named for what it says.
-/

open Sys2Proof Sys2Proof.Machine

/-- For every one of the 109 mailbox commands: if it is the request's turn (the function is live, its accepted request is
next in order, Sutas firmware runs) and a check of R401 (or R485) gives status st, the command answers the state in
which the request is taken and the reply st, without values, is ready; nothing else of the state changes. (R401, R485) -/
def Obligations.FailedCheckAnswersOnly : Prop :=
  ∀ (i : Instr) (m : MbMeta) (n : Nat) (r : MbReq) (s : State) (st : Status), mbRow i = some (m, n, r) → s.next m n r →
    (s.taken n).mbCheck m n r = some st → exec i s = .next ((s.taken n).stage n m.opcode r.tag st [] none)

/-- For every one of the 109 mailbox commands and every function whose BAR0 is live and whose mailbox is not BUSY, while
Sutas firmware does not run or another request is first: the command answers the state in which the bytes of the
message stand at the start of the area, STATE is 1 (BUSY), the request waits last in the order of the GO writes, and
nothing else changes. A second clause: at a BUSY mailbox that holds another request the message is ignored and counted
as a violation. (R400) -/
def Obligations.GoAccepts : Prop :=
  (∀ (i : Instr) (m : MbMeta) (n : Nat) (r : MbReq) (s : State) (f : Fn), mbRow i = some (m, n, r) → s.fn? n = some f →
      s.fnLive n = true → f.mb.state ≠ 1 → (s.fwRuns = false ∨ (s.recs.goOrder ≠ [] ∧ s.recs.goOrder.head? ≠ some n)) →
      exec i s = .next (s.accept n m.opcode r (Mem.putBytes f.mb.area 0 ((requestBytes m.opcode r).take (areaSize n))))) ∧
    (∀ (i : Instr) (m : MbMeta) (n : Nat) (r : MbReq) (s : State) (f : Fn), mbRow i = some (m, n, r) → s.fn? n = some f →
      s.fnLive n = true → f.mb.state = 1 → f.mb.request ≠ some (m.opcode, r) → exec i s = .next (s.violate n))

/-- At its turn, every one of the 22 commands whose opcode is in the list statusReads (dev.identify, dev.cert.read,
dev.resources, fn.pool, hz.status, hz.plan.read, ft.status, ft.lost.list, media.status, media.health,
media.offsets.read, media.profile.list, rd.status, halo.status, mod.list, anv.status, anv.fault.read, zl.port.status,
zl.group.status, pw.status, fw.status, log.status) has its reply ST_OK ready, and so has anv.stats for an engine that
the issuer holds, or for PF0; nothing else of the state changes. fn.link.status (link state) and sq.status (busy
shares) have their reply ST_OK ready and draw one free value, and nothing else changes; fn.link.status reports the
generation, the retimers, the below-floor flag and the retrain count as the state holds them. (R402, R404, R363, R70,
R247, R295) -/
def Obligations.StatusReadsAnswer : Prop :=
  ∀ (s : State) (n : Nat) (r : MbReq),
    (∀ (i : Instr) (m : MbMeta), mbRow i = some (m, n, r) → m ∈ statusReads → s.turn m n r →
      ∃ vals, exec i s = .next ((s.taken n).answer m n r vals)) ∧
    (let t := s.taken n; let u := { t with freeCtr := t.freeCtr + 1 }
      (s.turn Mb.anvStats n r → (n = 0 ∨ (s.grantOf n).engineList.contains (fld r 0 6) = true) →
        ∃ vals, exec (.anvStats n r) s = .next (t.answer Mb.anvStats n r vals)) ∧
      (s.turn Mb.fnLinkStatus n r → ∃ lanes link, exec (.fnLinkStatus n r) s =
        .next (u.answer Mb.fnLinkStatus n r [s.link.gen, lanes, link, s.link.retimers, b2n s.link.below, s.link.retrains])) ∧
      (s.turn Mb.sqStatus n r → ∃ vals, exec (.sqStatus n r) s = .next (u.answer Mb.sqStatus n r vals)))

/-- At their turn: param.get of a parameter that passes R407 reports value, default, range, step, scope, persistence and
whether the profile of its subsystem and scope is modified; dev.long.result reports a long command that has ended,
answers ST_MB_ACCEPTED with the opcode for one that has not, and ST_MB_NO_RESULT for an unknown ID; fn.info reports
the state of a function in range, UNCREATED too, and answers ST_FN_NO_FUNCTION for a number out of range (log 52,
DEDUCED); fn.queue.status reports an existing pair; ns.info and ns.chain.anchor report the namespace; halo.table.read
reports the valid entry that the request names and halo.table.search the search of the value; log.read reports at most
COUNT entries from the index on. Nothing else of the state changes. (R405, R403, R363, R395, R96, R85, R224, R421) -/
def Obligations.ObjectReadsAnswer : Prop :=
  ∀ (s : State) (n : Nat) (r : MbReq), let t := s.taken n
    (∀ p, s.turn Mb.paramGet n r → t.paramCheck n r = .ok p → exec (.paramGet n r) s =
      .next (t.answer Mb.paramGet n r [t.param p.id (paramTarget r), t.paramDefault t.inForce p.id (paramTarget r), p.min, p.max,
        p.step, p.scope.code, b2n p.persist, b2n (t.modified p (paramTarget r))])) ∧
    (∀ l st, s.turn Mb.devLongResult n r → s.recs.longs.find? (fun l => l.fn == n && l.id == fld r 0 32) = some l →
      l.status = some st →
      exec (.devLongResult n r) s = .next (t.answer Mb.devLongResult n r ([l.opcode, st.toNat] ++ l.result))) ∧
    (∀ l, s.turn Mb.devLongResult n r → s.recs.longs.find? (fun l => l.fn == n && l.id == fld r 0 32) = some l →
      l.status = none →
      exec (.devLongResult n r) s = .next (t.stage n 0x0108 r.tag St.mbAccepted [l.opcode] none)) ∧
    (s.turn Mb.devLongResult n r → s.recs.longs.find? (fun l => l.fn == n && l.id == fld r 0 32) = none →
      exec (.devLongResult n r) s = .next (t.stage n 0x0108 r.tag St.mbNoResult [] none)) ∧
    (∀ f, s.turn Mb.fnInfo n r → fld r 0 16 ≤ s.maxFn → s.fn? (fld r 0 16) = some f → ∃ vals, exec (.fnInfo n r) s =
      .next (t.answer Mb.fnInfo n r (f.st.code :: vals))) ∧
    (s.turn Mb.fnInfo n r → fld r 0 16 ≤ s.maxFn → s.fn? (fld r 0 16) = none → ∃ vals, exec (.fnInfo n r) s =
      .next (t.answer Mb.fnInfo n r (FnState.uncreated.code :: vals))) ∧
    (s.turn Mb.fnInfo n r → s.maxFn < fld r 0 16 →
      exec (.fnInfo n r) s = .next (t.stage n 0x0204 r.tag St.fnNoFunction [] none)) ∧
    (∀ k p, s.turn Mb.fnQueueStatus n r → t.targetFn n (fld r 16 16) = some k → s.pair? k (fld r 0 16) = some p →
      ∃ vals, exec (.fnQueueStatus n r) s = .next (t.answer Mb.fnQueueStatus n r ([p.st.code, p.sqHead, p.sqTail] ++ vals))) ∧
    (∀ x, s.turn Mb.nsInfo n r → t.nsArg n (fld r 0 32) = .inr x → ∃ vals, exec (.nsInfo n r) s =
      .next (t.answer Mb.nsInfo n r ([x.f.nsid, x.f.cls, x.f.flags, x.f.pi, x.f.redun, x.f.capacity, x.f.retainDays,
        x.f.mirrorNode, x.f.freezeS] ++ vals))) ∧
    (∀ x, s.turn Mb.nsChainAnchor n r → t.nsArg n (fld r 0 32) = .inr x → x.isRns = true → s.keyUsable = true →
      exec (.nsChainAnchor n r) s = .next (t.answer Mb.nsChainAnchor n r ((t.anchor x).map (·.toNat)))) ∧
    (∀ x e, s.turn Mb.haloTableRead n r → t.tableFor n (fld r 0 8) true = some x →
      x.entries.find? (fun e => e.valid && (if bitAt r.payload 8 then e.slot else e.id) == fld r 32 32) = some e →
      exec (.haloTableRead n r) s = .next (t.answer Mb.haloTableRead n r
        [e.value.toNat, e.mask.toNat, e.prio, e.word.toNat, sumBy (fun x => x) e.hits, e.id, e.slot])) ∧
    (∀ x, s.turn Mb.haloTableSearch n r → t.tableFor n (fld r 0 8) false = some x →
      exec (.haloTableSearch n r) s =
        .next ((t.search x (BitVec.ofNat 128 (fldB r 16 16))).2.answer Mb.haloTableSearch n r
          [searchResult x (t.search x (BitVec.ofNat 128 (fldB r 16 16))).1])) ∧
    (s.turn Mb.logRead n r → exec (.logRead n r) s =
      .next (t.answer Mb.logRead n r ([t.logOldest, s.recs.nextIdx] ++
        ((((t.logSeen n).filter fun e => decide (fld r 0 32 ≤ e.index)).take (fld r 32 8)).flatMap fun e =>
          [e.index, e.epoch, e.status.toNat, e.cls, e.fn, e.detail]))))

/-- At their turn, for the operands that their rules admit: param.set of a persistent parameter, dev.shock.configure,
dev.tickout.configure, fn.host.configure, fn.pf0.grant, fn.queue.timer, tel.sample.configure and anv.configure append
their change to the changes that the epoch being accepted records, and the reply ST_OK awaits the seal of that epoch;
nothing else changes. param.set of a volatile parameter is answered at once and takes effect from the next tick. A
feature whose comparator is 0 gives up the one it holds. A comparator that another feature holds is answered with
ST_RESOURCE_CONFLICT and no change. (R24, R27, R402, R406, R407, R408, R349, R356) -/
def Obligations.SettingsRecorded : Prop :=
  ∀ (s : State) (n : Nat) (r : MbReq), let t := s.taken n; let e := s.hz.epoch
    let moved := fun k op : Nat => Ctrl.unclaim op :: if k = 0 then [] else [Ctrl.claim k op n]
    (∀ p, s.turn Mb.paramSet n r → t.paramCheck n r = .ok p → p.ok (fldB r 8 8) = true →
      t.paramRefusal p.id (fldB r 8 8) = none → p.persist = true → exec (.paramSet n r) s =
        .next ((t.record [.param p.id (paramTarget r) (fldB r 8 8)]).answerSealed Mb.paramSet n r [] e)) ∧
    (∀ p, s.turn Mb.paramSet n r → t.paramCheck n r = .ok p → p.ok (fldB r 8 8) = true →
      t.paramRefusal p.id (fldB r 8 8) = none → p.persist = false → exec (.paramSet n r) s =
        .next ((t.modRecs fun x => { x with
          pendParams := x.pendParams ++ [(e + 1, ⟨p.id, paramTarget r, fldB r 8 8⟩)] }).answer Mb.paramSet n r [])) ∧
    (s.turn Mb.devShockConfigure n r → fld r 0 1 = 0 → exec (.devShockConfigure n r) s =
      .next ((t.record [.unclaim 0x0106]).answerSealed Mb.devShockConfigure n r [] e)) ∧
    (s.turn Mb.devShockConfigure n r → fld r 0 1 = 1 → t.conflict 0x0010 0x0106 = none → exec (.devShockConfigure n r) s =
      .next ((t.record [.unclaim 0x0106, .claim 0x0010 0x0106 n]).answerSealed Mb.devShockConfigure n r [] e)) ∧
    (∀ v, s.turn Mb.devShockConfigure n r → fld r 0 1 = 1 → t.conflict 0x0010 0x0106 = some v →
      exec (.devShockConfigure n r) s = .next (t.stage n 0x0106 r.tag St.resourceConflict v none)) ∧
    (s.turn Mb.devTickoutConfigure n r → (fld r 0 2 ≠ 0 → t.conflict (fld r 0 2) 0x0107 = none) →
      exec (.devTickoutConfigure n r) s =
        .next (((t.record (moved (fld r 0 2) 0x0107)).record [.tickOut (fld r 16 8)]).answerSealed
          Mb.devTickoutConfigure n r [] e)) ∧
    (s.turn Mb.fnHostConfigure n r →
      sumBy (·.read) t.grants ≤ readCapacity t.accepted.period (fld r 3 3) → exec (.fnHostConfigure n r) s =
        .next ((t.record [.hostCfg (fld r 0 1) (fld r 3 3)]).answerSealed Mb.fnHostConfigure n r [] e)) ∧
    (s.turn Mb.fnPf0Grant n r →
      t.accepted.creditsFit t.accepted.period t.accepted.linkFloor [grantOfReq r] t.accepted.portCredit = true →
      exec (.fnPf0Grant n r) s =
        .next ((t.record [.pf0Grant (grantOfReq r)]).answerSealed Mb.fnPf0Grant n r [] e)) ∧
    (s.turn Mb.fnQueueTimer n r → (fld r 0 2 ≠ 0 → t.conflict (fld r 0 2) 0x020D = none) →
      exec (.fnQueueTimer n r) s = .next ((t.record (moved (fld r 0 2) 0x020D)).answerSealed Mb.fnQueueTimer n r [] e)) ∧
    (s.turn Mb.telSampleConfigure n r → (fld r 0 2 ≠ 0 → t.conflict (fld r 0 2) 0x0E03 = none) →
      exec (.telSampleConfigure n r) s =
        .next (((t.record (moved (fld r 0 2) 0x0E03)).record [.sampling (fld r 16 16)]).answerSealed
          Mb.telSampleConfigure n r [] e)) ∧
    (s.turn Mb.anvConfigure n r → (fld r 0 2 ≠ 0 → t.conflict (fld r 0 2) 0x0A06 = none) →
      exec (.anvConfigure n r) s = .next ((t.record (moved (fld r 0 2) 0x0A06)).answerSealed Mb.anvConfigure n r [] e)) ∧
    (∀ v, s.turn Mb.anvConfigure n r → fld r 0 2 ≠ 0 → t.conflict (fld r 0 2) 0x0A06 = some v →
      exec (.anvConfigure n r) s = .next (t.stage n 0x0A06 r.tag St.resourceConflict v none))

/-- At their turn, for the operands that their rules admit: ns.create (of a namespace without MIRROR; one with MIRROR is
offered to its replica first, and the reply follows the answer), ns.delete, ns.attach, ns.detach, ns.stream.open,
ns.stream.close, ns.retention.lengthen and ns.rclock.set (outside a ring group) append their change to the changes
that the epoch being accepted records; the reply ST_OK awaits the seal of that epoch, and ns.create's reply carries
the NSID, the lowest free one where the request says 0. Nothing else changes. A shorter retention is answered with
ST_NS_RETENTION_SHORTEN and a clock set back with ST_NS_RCLOCK_BACK, without a change. (R24, R73, R74, R75, R16, R78,
R86, R87, R331, R484) -/
def Obligations.NamespaceChangesRecorded : Prop :=
  ∀ (s : State) (n : Nat) (r : MbReq), let t := s.taken n; let e := s.hz.epoch
    (s.turn Mb.nsCreate n r → t.nsCreateCheck (nsFieldsOf r) = none → bitAt (nsFieldsOf r).flags 2 = false →
      let g := { nsFieldsOf r with nsid := if (nsFieldsOf r).nsid = 0 then t.lowestNsid else (nsFieldsOf r).nsid }
      exec (.nsCreate n r) s = .next ((t.record [.nsCreate g e false]).answerSealed Mb.nsCreate n r [g.nsid] e)) ∧
    (s.turn Mb.nsCreate n r → t.nsCreateCheck (nsFieldsOf r) = none → bitAt (nsFieldsOf r).flags 2 = true →
      let g := { nsFieldsOf r with nsid := if (nsFieldsOf r).nsid = 0 then t.lowestNsid else (nsFieldsOf r).nsid }
      exec (.nsCreate n r) s = .next ((t.modZl fun z => { z with
        creating := some (n, r.tag, g) }).sendTo fMirror g.mirrorNode 0 g.nsid)) ∧
    (∀ x, s.turn Mb.nsDelete n r → t.nsArg n (fld r 0 32) = .inr x → t.anyAttached x.f.nsid = false →
      (x.isRns = true → t.retained x none = false) → x.st ≠ .offlineRing → x.isReplica = false →
      exec (.nsDelete n r) s = .next ((t.record [.nsDelete x.f.nsid]).answerSealed Mb.nsDelete n r [] e)) ∧
    (∀ x, s.turn Mb.nsAttach n r → t.nsArg n (fld r 0 32) = .inr x → fld r 32 16 ≤ t.maxFn → t.fnExists (fld r 32 16) = true →
      fld r 48 5 &&& rightsOf x.f.cls = fld r 48 5 → exec (.nsAttach n r) s =
        .next ((t.record [.attach x.f.nsid (fld r 32 16) (fld r 48 5)]).answerSealed Mb.nsAttach n r [] e)) ∧
    (∀ x, s.turn Mb.nsDetach n r → t.nsArg n (fld r 0 32) = .inr x → fld r 32 16 ≤ t.maxFn → t.fnExists (fld r 32 16) = true →
      t.attachAccepted x.f.nsid (fld r 32 16) = true → exec (.nsDetach n r) s =
        .next ((t.record [.detach x.f.nsid (fld r 32 16)]).answerSealed Mb.nsDetach n r [] e)) ∧
    (∀ x, s.turn Mb.nsStreamOpen n r → t.nsArg n (fld r 0 32) = .inr x → x.isStream = true →
      (∀ y, t.streamAccepted (fld r 32 12) = some y → y.nsid = x.f.nsid) → exec (.nsStreamOpen n r) s =
        .next ((t.record [.streamOpen x.f.nsid (fld r 32 12) (fld r 44 1 == 1)]).answerSealed Mb.nsStreamOpen n r [] e)) ∧
    (∀ x y, s.turn Mb.nsStreamClose n r → t.nsArg n (fld r 0 32) = .inr x → x.isStream = true →
      t.streamAccepted (fld r 32 12) = some y → y.nsid = x.f.nsid → y.isOpen = true → exec (.nsStreamClose n r) s =
        .next ((t.record [.streamClose x.f.nsid (fld r 32 12)]).answerSealed Mb.nsStreamClose n r [] e)) ∧
    (∀ x, s.turn Mb.nsRetentionLengthen n r → t.nsArg n (fld r 0 32) = .inr x → x.isRns = true → x.isReplica = false →
      exec (.nsRetentionLengthen n r) s =
        (if fld r 32 32 < t.retainAccepted x then .next (t.stage n 0x0308 r.tag St.nsRetentionShorten [] none)
         else .next ((t.record [.retain x.f.nsid (fld r 32 32)]).answerSealed Mb.nsRetentionLengthen n r [] e))) ∧
    (s.turn Mb.nsRclockSet n r → s.zl.group ≠ .member → s.zl.group ≠ .master → exec (.nsRclockSet n r) s =
      (if fld r 0 64 < s.hz.rclkUs / 1000000 then .next (t.stage n 0x0309 r.tag St.nsRclockBack [] none)
       else .next ((t.record [.rclkSet (fld r 0 64)]).answerSealed Mb.nsRclockSet n r [] e)))

/-- At their turn: ns.freeze records the region of R90 and counts it from now on; a 65th region is answered with
ST_NS_FREEZE_LIMIT; ns.unfreeze records the release of the region that the request names, ST_NS_NO_REGION where there
is none; ns.image.open takes an EMPTY slot to STAGING; ns.image.verify starts a long command and takes a STAGING slot
to verify pending; ns.image.activate takes a VERIFIED slot to ACTIVE, the former ACTIVE slot to PREVIOUS and the
former PREVIOUS to EMPTY; ns.image.rollback takes the PREVIOUS slot to ACTIVE; ns.image.erase makes a slot EMPTY, and
an ACTIVE or verify-pending slot answers ST_IMG_SLOT_STATE; ns.rns.trim starts a long command, and is refused with
ST_NS_RETAINED while a record up to the epoch is inside its retention. (R88, R90, R91, R95, R96, R484) -/
def Obligations.ImagesAndRegionsRecorded : Prop :=
  ∀ (s : State) (n : Nat) (r : MbReq) (x : Ns), let t := s.taken n; let e := s.hz.epoch; let k := fld r 32 2
    t.nsArg n (fld r 0 32) = .inr x →
    (∀ u, s.turn Mb.nsFreeze n r → x.isSns = true → x.f.freezeS ≠ 0 → t.freezeNs x = some u →
      exec (.nsFreeze n r) s = .next (u.answerSealed Mb.nsFreeze n r [] e)) ∧
    (s.turn Mb.nsFreeze n r → x.isSns = true → x.f.freezeS ≠ 0 →
      64 < (t.regionsWith x.f.nsid (freezeSpan x.f.freezeS t.periodUs e)).length →
      exec (.nsFreeze n r) s = .next (t.stage n 0x030C r.tag St.nsFreezeLimit [] none)) ∧
    (s.turn Mb.nsUnfreeze n r → exec (.nsUnfreeze n r) s =
      (if x.regions.any (fun g => g.1 == fld r 64 64) then
        .next ((t.record [.unfreeze x.f.nsid (fld r 64 64)]).answerSealed Mb.nsUnfreeze n r [] e)
       else .next (t.stage n 0x030D r.tag St.nsNoRegion [] none))) ∧
    (∀ y, s.turn Mb.nsImageOpen n r → x.isIns = true → (t.slotsAccepted x)[k]? = some y → y.st = .empty →
      exec (.nsImageOpen n r) s = .next ((t.record [.slotErase x.f.nsid k,
        .slot x.f.nsid k { Slot.empty with st := .staging }]).answerSealed Mb.nsImageOpen n r [] e)) ∧
    (∀ y, s.turn Mb.nsImageVerify n r → x.isIns = true → fld r 64 64 ≤ x.f.capacity * 4096 →
      (t.slotsAccepted x)[k]? = some y → y.st = .staging → s.longsOpen n < 8 → exec (.nsImageVerify n r) s =
        .next (((t.startLong n 0x030F).record [.slot x.f.nsid k
          ⟨.verifyPending, fld r 64 64, fldB r 16 32, e, s.recs.nextLong, n⟩]).answerLong
          Mb.nsImageVerify n r s.recs.nextLong)) ∧
    (∀ y, s.turn Mb.nsImageActivate n r → x.isIns = true → (t.slotsAccepted x)[k]? = some y → y.st = .verified →
      exec (.nsImageActivate n r) s = .next ((t.record [.slotFormer x.f.nsid .previous .empty,
        .slotFormer x.f.nsid .active .previous, .slot x.f.nsid k { y with st := .active }]).answerSealed
          Mb.nsImageActivate n r [] e)) ∧
    (∀ y, s.turn Mb.nsImageRollback n r → x.isIns = true →
      let k' := (t.slotsAccepted x).findIdx fun z => z.st == .previous
      (t.slotsAccepted x)[k']? = some y → exec (.nsImageRollback n r) s =
        .next ((t.record [.slotFormer x.f.nsid .active .previous,
          .slot x.f.nsid k' { y with st := .active }]).answerSealed Mb.nsImageRollback n r [] e)) ∧
    (∀ y, s.turn Mb.nsImageErase n r → x.isIns = true → (t.slotsAccepted x)[k]? = some y → exec (.nsImageErase n r) s =
      (if y.st = .active ∨ y.st = .verifyPending then .next (t.stage n 0x0312 r.tag St.imgSlotState [] none)
       else .next ((t.record [.slotErase x.f.nsid k]).answerSealed Mb.nsImageErase n r [] e))) ∧
    (s.turn Mb.nsRnsTrim n r → x.isRns = true → x.isReplica = false → s.longsOpen n < 8 → exec (.nsRnsTrim n r) s =
      (if t.retained x (some (fld r 64 64)) then .next (t.stage n 0x030B r.tag St.nsRetained [] none)
       else .next (((t.startLong n 0x030B).record [.trim x.f.nsid (min (fld r 64 64) (e - 1)) n s.recs.nextLong]).answerLong
        Mb.nsRnsTrim n r s.recs.nextLong)))

/-- At their turn, for the operands that their rules admit: hz.configure records period, source and window, in effect from
tick A + 3; hz.ring.release records the end of the group in REFORMING or ISOLATED; ft.profile, media.care and
rd.profile record their classes; media.patrol starts a long command that the patrol serves; rd.member.fail records the
failure of a member that is ONLINE and not known to be lost, with its event; rd.pool.form starts a long command and
records the pool with every member ONLINE and its C_d; rd.reshape starts a long command and records the start;
rd.reshape.cancel records the cancellation. (R32, R33, R70, R131, R167, R169, R171, R192, R193, R200) -/
def Obligations.MediaSettingsRecorded : Prop :=
  ∀ (s : State) (n : Nat) (r : MbReq), let t := s.taken n; let e := s.hz.epoch; let id := s.recs.nextLong
    (s.turn Mb.hzConfigure n r → t.hzRefusal (fld r 0 8) (fld r 8 8) (fld r 16 8) = none →
      exec (.hzConfigure n r) s = .next ((((t.record [.hzConfig (fld r 0 8) (fld r 8 8) (fld r 16 8)]).record
        (Ctrl.unclaim 0x0401 :: if fld r 8 8 = 1 then [Ctrl.claim 0x10 0x0401 n] else [])).modHz fun h => { h with
          changes := h.changes ++ [(e + 3, fld r 0 8, fld r 8 8, fld r 16 8)]
          tickIn := if fld r 8 8 = 1 ∧ h.tickIn.watching = false then .watch (fld r 0 8) (e + 3)
            else h.tickIn }).answerSealed Mb.hzConfigure n r [] e)) ∧
    (s.turn Mb.hzRingRelease n r → s.zl.group = .reforming ∨ s.zl.group = .isolated → exec (.hzRingRelease n r) s =
      .next ((t.releaseRing.record [t.releaseRing.membershipCtrl false]).answerSealed Mb.hzRingRelease n r [] e)) ∧
    (s.turn Mb.ftProfile n r → fld r 0 8 ≤ t.accepted.op → exec (.ftProfile n r) s =
      .next ((t.record [.ftProfile (fld r 0 8) (fld r 8 2)]).answerSealed Mb.ftProfile n r [] e)) ∧
    (s.turn Mb.mediaCare n r → exec (.mediaCare n r) s =
      .next ((t.record [.mediaCare (fld r 0 2)]).answerSealed Mb.mediaCare n r [] e)) ∧
    (s.turn Mb.rdProfile n r → exec (.rdProfile n r) s =
      .next ((t.record [.rdProfile (fld r 0 1)]).answerSealed Mb.rdProfile n r [] e)) ∧
    (s.turn Mb.mediaPatrol n r → s.longsOpen n < 8 → exec (.mediaPatrol n r) s =
      .next (((t.startLong n 0x0508).modFlash fun f => { f with patrol := f.patrol ++ [id] }).answerLong
        Mb.mediaPatrol n r id)) ∧
    (s.turn Mb.rdMemberFail n r → s.store.pool.formed = true → s.store.pool.members.any (fun x => x.1 == fld r 0 4) = true →
      exec (.rdMemberFail n r) s = .next ((t.failMember (fld r 0 4)).answerSealed Mb.rdMemberFail n r [] e)) ∧
    (∀ m, s.store.pool.members.any (fun x => x.1 == m && x.2 == .online) = true → s.flash.lostMembers.contains m = false →
      s.failMember m = ((s.modFlash fun f => { f with
        lostMembers := f.lostMembers ++ [m]
        windowFails := if s.hz.phase = .sealWindow then f.windowFails ++ [m] else f.windowFails }).mediaEvent
          St.rdMemberFailed m).record [.memberFail m]) ∧
    (s.turn Mb.rdPoolForm n r → t.nsFieldsAccepted = [] → 2 ≤ fld r 16 4 →
      fld r 16 4 + 2 ≤ (maskMembers (fld r 0 16)).length → t.badPopulation (maskMembers (fld r 0 16)) = false →
      sumBy (·.write) t.grants + t.accepted.portCredit ≤ t.drainCapOf (maskMembers (fld r 0 16)) → s.longsOpen n < 8 →
      exec (.rdPoolForm n r) s = .next (((t.startLong n 0x0601).record [.poolForm ⟨true,
        (maskMembers (fld r 0 16)).map fun m => (m, .online), fld r 16 4, [],
        t.drainCapOf (maskMembers (fld r 0 16))⟩ id]).answerLong Mb.rdPoolForm n r id)) ∧
    (∀ x, s.turn Mb.rdReshape n r → s.store.ns? (fld r 0 32) = some x → s.store.pool.codeOk (fld r 32 8) = true →
      x.isRns = false → t.store.pool.consumes { x.f with redun := fld r 32 8 } ≤ t.freeSpace t.accepted.op →
      t.reshaping = false → s.longsOpen n < 8 → exec (.rdReshape n r) s =
        .next (((t.startLong n 0x0603).record [.reshapeStart x.f.nsid (fld r 32 8) n id]).answerLong Mb.rdReshape n r id)) ∧
    (s.turn Mb.rdReshapeCancel n r → s.store.reshape.st ≠ .none → s.store.reshape.nsid = fld r 0 32 →
      exec (.rdReshapeCancel n r) s = .next ((t.record [.reshapeCancel]).answer Mb.rdReshapeCancel n r []))

/-- At their turn: mod.key.enroll records a key in an empty slot and answers ST_ANV_KEY_SLOT for a slot in use;
mod.key.revoke records the revocation and marks every module of the key; zl.port.configure records the setting of a
port within its budget; zl.node.set records the node number of a device outside a group and answers ST_ZL_IN_GROUP in
one; zl.trust.enroll records an anchor in an empty slot and answers ST_ZL_TRUST_SLOT otherwise; zl.trust.revoke
records the revocation and fences every port that is up and rests on the anchor. Each reply awaits the seal. (R282,
R295, R326, R334, R337) -/
def Obligations.KeysAndPortsRecorded : Prop :=
  ∀ (s : State) (n : Nat) (r : MbReq), let t := s.taken n; let e := s.hz.epoch
    (s.turn Mb.modKeyEnroll n r → exec (.modKeyEnroll n r) s =
      (if t.accepted.modKeys.any fun k => k.1 == fld r 0 8 then .next (t.stage n 0x0A01 r.tag St.anvKeySlot [] none)
       else .next ((t.record [.keyEnroll (fld r 0 8) ⟨fldB r 36 64, fldB r 4 32⟩]).answerSealed Mb.modKeyEnroll n r [] e))) ∧
    (s.turn Mb.modKeyRevoke n r → t.accepted.modKeys.any (fun x => x.1 == fld r 0 8) = true → exec (.modKeyRevoke n r) s =
      .next (((t.record [.keyRevoke (fld r 0 8)]).modAnv fun a => { a with
        modules := updIf (fun m => m.file.keySlot == fld r 0 8) (fun m => { m with revoked := true })
          a.modules }).dropRevoked.answerSealed Mb.modKeyRevoke n r [] e)) ∧
    (let c : PortCfg := ⟨fld r 2 3, fld r 5 1 == 1, fld r 6 1 == 1, fld r 7 1 == 1, fld r 32 32⟩;
      s.turn Mb.zlPortConfigure n r → 1 ≤ c.lanes → c.lanes ≤ 4 → (c.lr && c.fec) = false →
      c.credit ≤ portBudget c t.accepted.period → sumBy (·.write) t.grants +
        (t.accepted.portCredit - (t.accepted.ports.getD (fld r 0 2) .default).credit) + c.credit ≤
          t.accepted.writeCap t.accepted.period →
      exec (.zlPortConfigure n r) s = .next ((t.record [.portCfg (fld r 0 2) c]).answerSealed Mb.zlPortConfigure n r [] e)) ∧
    (s.turn Mb.zlNodeSet n r → exec (.zlNodeSet n r) s =
      (if t.grouped then .next (t.stage n 0x0B03 r.tag St.zlInGroup [] none)
       else .next ((t.record [.nodeSet (fld r 0 16)]).answerSealed Mb.zlNodeSet n r [] e))) ∧
    (s.turn Mb.zlTrustEnroll n r → exec (.zlTrustEnroll n r) s =
      (if t.accepted.trust.any fun x => x.1 == fldB r 0 1 then .next (t.stage n 0x0B04 r.tag St.zlTrustSlot [] none)
       else .next ((t.record [.trustEnroll (fldB r 0 1) ⟨fldB r 4 64, fldB r 1 1⟩]).answerSealed
        Mb.zlTrustEnroll n r [] e))) ∧
    (s.turn Mb.zlTrustRevoke n r → t.accepted.trust.any (fun x => x.1 == fldB r 0 1) = true → exec (.zlTrustRevoke n r) s =
      .next ((((List.range 3).filter fun p => s.portUp p && (s.port p).trustSlot == some (fldB r 0 1)).foldl
        (fun a p => a.fencePort p) (t.record [.trustRevoke (fldB r 0 1)])).answerSealed Mb.zlTrustRevoke n r [] e))

/-- At their turn, for the operands that their rules admit: fn.create makes the function, ACTIVE from the next tick with
the grant of the request; fn.destroy begins the removal of an existing function and fn.reset its reset, and both
answer ST_FN_NO_FUNCTION for one that does not exist; fn.queue.create makes the pair, from the next tick, under the
lowest free global number; fn.queue.delete starts a long command and takes an ACTIVE or STOPPED pair to DELETING, its
unstarted commands aborted; fn.cmd.abort answers 3 for a command that is not there, 1 where nothing of it has started
(it ends with ST_CMD_ABORTED) and 2 otherwise, and of an exec that runs it stops the instance, the reply following its
end; fn.event.configure makes an empty ring of the given size. (R354, R355, R357, R363, R369, R385, R394, R395) -/
def Obligations.FunctionCommandsActAtOnce : Prop :=
  ∀ (s : State) (n : Nat) (r : MbReq), let t := s.taken n
    (s.turn Mb.fnCreate n r → t.createRefusal r = none → exec (.fnCreate n r) s =
      .next (({ t with fns := (t.fns.filter fun x => x.num != fldB r 0 2) ++
        [t.newFn (fldB r 0 2) (grantOfReq r)] } : State).answer Mb.fnCreate n r [])) ∧
    (s.turn Mb.fnDestroy n r → t.fnExists (fld r 0 16) = true → fld r 0 16 ≠ 0 → exec (.fnDestroy n r) s =
      .next ((t.beginRemoval (fld r 0 16) (some 0x0202)).answer Mb.fnDestroy n r [])) ∧
    (s.turn Mb.fnDestroy n r → t.fnExists (fld r 0 16) = false → exec (.fnDestroy n r) s =
      .next (t.stage n 0x0202 r.tag St.fnNoFunction [] none)) ∧
    (s.turn Mb.fnReset n r → exec (.fnReset n r) s =
      (if t.fnExists (fld r 0 16) then .next ((t.resetFn (fld r 0 16) (some 0x0203)).answer Mb.fnReset n r [])
       else .next (t.stage n 0x0203 r.tag St.fnNoFunction [] none))) ∧
    (s.turn Mb.fnQueueCreate n r → fld r 0 16 < (t.grantOf n).qpairs → t.pair? n (fld r 0 16) = none →
      pow2In (fld r 16 16) 16 4096 = true → fld r 32 16 < (t.grantOf n).vectors → fld r 48 16 = 0 → fldB r 24 8 = 0 →
      fldB r 8 8 % 4096 = 0 → fldB r 16 8 % 4096 = 0 → t.dmaOk n (fldB r 8 8) (64 * fld r 16 16) = true →
      t.dmaOk n (fldB r 16 8) (16 * fld r 16 16) = true →
      let g := ((List.range 1024).find? fun i => !t.q.pairs.any fun p => p.global == i).getD 0
      exec (.fnQueueCreate n r) s = .next ((t.modQ fun q => { q with
        pairs := q.pairs ++ [Pair.fresh n (fld r 0 16) g (fld r 16 16) (fld r 32 16) (fldB r 8 8) (fldB r 16 8)
          (s.hz.epoch + 1)] }).answer Mb.fnQueueCreate n r [g])) ∧
    (∀ p, s.turn Mb.fnQueueDelete n r → t.pair? n (fld r 0 16) = some p → p.st ≠ .deleting → s.longsOpen n < 8 →
      exec (.fnQueueDelete n r) s = .next ((((t.startLong n 0x020A).modPair n (fld r 0 16) fun p => { p with
        st := .deleting, longId := s.recs.nextLong }).dropUnstarted n (fld r 0 16)).answerLong
          Mb.fnQueueDelete n r s.recs.nextLong)) ∧
    (∀ k p, s.turn Mb.fnCmdAbort n r → t.targetFn n (fld r 32 16) = some k → t.pair? k (fld r 0 16) = some p →
      (t.cmd? k (fld r 0 16) (fld r 16 16) = none → exec (.fnCmdAbort n r) s = .next (t.answer Mb.fnCmdAbort n r [3])) ∧
      ∀ c, t.cmd? k (fld r 0 16) (fld r 16 16) = some c →
        (c.e.opc ≠ opExec → c.unstarted = true → exec (.fnCmdAbort n r) s = .next (((t.endCmd c St.cmdAborted 0).modAnv
          fun a => { a with insts := a.insts.filter fun i => i.id != c.inst || c.e.opc != opExec }).answer
            Mb.fnCmdAbort n r [1])) ∧
        (c.e.opc ≠ opExec → c.unstarted = false →
          exec (.fnCmdAbort n r) s = .next (t.answer Mb.fnCmdAbort n r [2])) ∧
        (c.e.opc = opExec → c.stage = .execing → t.execState c = some .running ∨ t.execState c = some .starting →
          exec (.fnCmdAbort n r) s = .next ((t.stopInst c.inst St.cmdAborted).modInst c.inst fun i => { i with
            abortBy := some (n, r.tag) })) ∧
        (c.e.opc = opExec → c.stage = .execing → t.execState c = some .waitEngines → exec (.fnCmdAbort n r) s =
          .next (((t.endCmd c St.cmdAborted 0).modAnv fun a => { a with
            insts := a.insts.filter fun i => i.id != c.inst }).answer Mb.fnCmdAbort n r [1])) ∧
        (c.e.opc = opExec → c.stage = .execing → t.execState c = some .ending →
          exec (.fnCmdAbort n r) s = .next (t.answer Mb.fnCmdAbort n r [2]))) ∧
    (s.turn Mb.fnEventConfigure n r → pow2In (fld r 64 16) 64 4096 = true → fldB r 0 8 % 4096 = 0 → fld r 80 48 = 0 →
      t.dmaOk n (fldB r 0 8) (16 * fld r 64 16) = true → exec (.fnEventConfigure n r) s =
        .next ((t.modFn n fun f => { f with evq := { f.evq with
          base := fldB r 0 8, entries := fld r 64 16, head := 0, tail := 0, phase := true, overflow := 0 } }).answer
            Mb.fnEventConfigure n r []))

/-- At their turn, for the operands that their rules admit: halo.table.create makes an empty table of the issuer (the
classification table for PF0 alone, where none exists) under a free ID, answered at once with the ID;
halo.table.destroy removes it, and the long command of a compaction under way ends with an open status (log 78, DESIGN
CHOICE); halo.table.delete, halo.table.modify and halo.table.insert begin the steps of R218 on the table, whose reply
follows the last step; an insertion takes a hole at its place, or first moves the entries to the nearest one,
ST_HALO_NO_HOLE where the moves exceed their limit and ST_HALO_TABLE_FULL where no slot is free; halo.table.compact
starts a long command and the moves of R219. (R205, R217, R218, R219, R221, R222, R224) -/
def Obligations.HaloTableCommands : Prop :=
  ∀ (s : State) (n : Nat) (r : MbReq), let t := s.taken n
    (s.turn Mb.haloTableCreate n r → t.halo.tables.length < 256 →
      (bitAt r.payload 11 = true → n = 0 ∧ t.classTable = none ∧ wordOk (BitVec.ofNat 32 (fld r 32 32)) = true) →
      fld r 0 8 * fld r 8 3 ≤ t.banksFree n →
      let c := t.choose (fun v => decide (v < 256) && (t.table? v).isNone)
        (((List.range 256).find? fun v => decide (v < 256) && (t.table? v).isNone).getD 0)
      exec (.haloTableCreate n r) s = .next ((c.2.modHalo fun h => { h with
        tables := h.tables ++ [⟨c.1, n, bitAt r.payload 11, fld r 0 8, fld r 8 3, holeSpacing (fld r 12 2),
          BitVec.ofNat 32 (fld r 32 32), [], 1, false, [], 0, 0, 0, 0, none⟩] }).answer Mb.haloTableCreate n r [c.1])) ∧
    (∀ x, s.turn Mb.haloTableDestroy n r → t.tableFor n (fld r 0 8) true = some x →
      let drop := fun u : State => (u.modHalo fun h => { h with
        tables := h.tables.filter fun y => y.id != x.id }).modRecs fun z => { z with
          vparams := z.vparams.filter fun p => !(p.id == 0x0710 && p.target == x.id) }
      exec (.haloTableDestroy n r) s = .next ((drop (if x.compacting then
        ((t.settleTable x.id).freeStatus 5).2.endLong x.longId ((t.settleTable x.id).freeStatus 5).1 []
        else t.settleTable x.id)).answer Mb.haloTableDestroy n r [])) ∧
    (let u := t.settleTable (fld r 0 8);
      ∀ x e, s.turn Mb.haloTableDelete n r → u.tableFor n (fld r 0 8) false = some x → x.compacting = false →
      x.entries.find? (fun e => e.id == fld r 32 32) = some e → exec (.haloTableDelete n r) s =
        .next (u.beginSteps x.id [.invalidate e.slot] (n, 0x0704, r.tag, []) id)) ∧
    (let u := t.settleTable (fldB r 32 1);
      ∀ x e, s.turn Mb.haloTableModify n r → u.tableFor n (fldB r 32 1) false = some x → x.compacting = false →
      u.entryCheck x (reqValue r) (reqMask r) (reqWord r) = none →
      x.entries.find? (fun e => e.id == fldB r 36 4) = some e → e.prio = fldB r 33 1 → exec (.haloTableModify n r) s =
        .next (u.beginSteps x.id [.invalidate e.slot,
          .write ⟨e.id, e.slot, reqValue r, reqMask r, e.prio, false, reqWord r, List.replicate x.replicas 0⟩, .validate e.slot]
          (n, 0x0705, r.tag, []) id)) ∧
    (let u := t.settleTable (fldB r 32 1);
      ∀ x i, s.turn Mb.haloTableInsert n r → u.tableFor n (fldB r 32 1) false = some x → x.compacting = false →
      u.entryCheck x (reqValue r) (reqMask r) (reqWord r) = none →
      x.place (fldB r 33 1) (fld r 272 2) (fldB r 36 4) = some i →
      (fld r 272 2 = 2 → (x.entries[i]?).all (fun e => e.prio == fldB r 33 1) = true) →
      let c := fun lo hi : Nat => u.choose (fun v => decide (lo ≤ v) && decide (v < hi)) lo
      let begun := fun (u : State) (slot : Nat) (ms : List (Nat × Nat)) => u.beginSteps x.id (ms.flatMap moveSteps ++
        [.write ⟨x.nextId, slot, reqValue r, reqMask r, fldB r 33 1, false, reqWord r, List.replicate x.replicas 0⟩, .validate slot])
        (n, 0x0703, r.tag, [x.nextId, slot, ms.length]) fun y => { y with nextId := y.nextId + 1 }
      (∀ lo hi, x.room i = .free lo hi → exec (.haloTableInsert n r) s = .next (begun (c lo hi).2 (c lo hi).1 [])) ∧
      (∀ slot ms, x.room i = .moves slot ms → ms.length ≤ u.param 0x0711 0 →
        exec (.haloTableInsert n r) s = .next (begun u slot ms)) ∧
      (∀ slot ms, x.room i = .moves slot ms → u.param 0x0711 0 < ms.length →
        exec (.haloTableInsert n r) s = .next (t.stage n 0x0703 r.tag St.haloNoHole [] none)) ∧
      (x.room i = .full → exec (.haloTableInsert n r) s = .next (t.stage n 0x0703 r.tag St.haloTableFull [] none))) ∧
    (let u := t.settleTable (fld r 0 8);
      ∀ x, s.turn Mb.haloTableCompact n r → u.tableFor n (fld r 0 8) true = some x → x.compacting = false →
      u.longsOpen n < 8 →
      exec (.haloTableCompact n r) s = .next (((u.startLong n 0x0707).modTable x.id fun y => { y with
        compacting := true, steps := (x.compactMoves (u.param 0x0710 x.id)).flatMap moveSteps
        moved := (x.compactMoves (u.param 0x0710 x.id)).length, longId := u.recs.nextLong }).answerLong
          Mb.haloTableCompact n r s.recs.nextLong))

/-- At their turn: sq.profile and anv.profile of a created function take effect from the next tick and are answered at
once; mod.load starts a long command while fewer than 8 are open; mod.unload of a module without an instance removes
it. MODULE_LOAD_DONE of that long command: where the file passes the checks of R283 the module is held under a handle
and the long command ends with ST_OK, otherwise it ends with the first failing check's status and no module is held.
(R27, R245, R247, R283, R290, R295) -/
def Obligations.ModulesAndProfiles : Prop :=
  ∀ (s : State) (n : Nat) (r : MbReq), let t := s.taken n
    (let k := if fld r 8 8 = 0 then n else fld r 8 8;
      s.turn Mb.sqProfile n r → t.fnExists k = true → exec (.sqProfile n r) s =
        .next ((t.modRecs fun x => { x with
          pendParams := x.pendParams ++ [(s.hz.epoch + 1, ⟨0x0801, k, fld r 0 4⟩)] }).answer Mb.sqProfile n r [])) ∧
    (let k := if fld r 8 8 = 0 then n else fld r 8 8;
      s.turn Mb.anvProfile n r → t.fnExists k = true → exec (.anvProfile n r) s =
        .next ((t.modRecs fun x => { x with
          pendParams := x.pendParams ++ [(s.hz.epoch + 1, ⟨0x0A07, k, fld r 0 2⟩)] }).answer Mb.anvProfile n r [])) ∧
    (s.turn Mb.modLoad n r → t.dmaOk n (fldB r 0 8) (fld r 64 32) = true → s.longsOpen n < 8 → exec (.modLoad n r) s =
      .next ((t.startLong n 0x0A03).answerLong Mb.modLoad n r s.recs.nextLong)) ∧
    (∀ m, s.turn Mb.modUnload n r → t.module? n (fld r 0 16) = some m →
      s.anv.insts.any (fun i => i.fn == n && i.handle == fld r 0 16) = false → exec (.modUnload n r) s =
        .next ((t.modAnv fun a => { a with
          modules := a.modules.filter fun m => !(m.fn == n && m.handle == fld r 0 16) }).answer Mb.modUnload n r [])) ∧
    (∀ id x, (s.recs.longs.any fun l => l.id == id && l.fn == n && l.opcode == 0x0A03 && l.status == none) = true →
      s.fnExists n = true → ∃ h, 1 ≤ h ∧ h ≤ 16 ∧ exec (.moduleLoadDone n id x) s =
        .next (match s.loadCheck n x with
          | some st => s.endLong id st []
          | none => (s.free.2.modAnv fun a => { a with
            modules := a.modules ++ [⟨n, h, moduleOf x.bytes, false⟩] }).endLong id St.ok [h]))

/-- At their turn: zl.peer.admit admits the quarantined certificate of a port that is not up; zl.group.form starts a long
command that makes a device with a node number and outside a group the master of a group of one, recorded by the epoch
being accepted; zl.group.join starts a long command and sends the request on a port that is up, if any; zl.group.leave
records the end of the membership (a member, or one whose group re-forms under another master, becomes ISOLATED, a
master alone leaves); zl.member.admit offers or refuses a waiting join; zl.route.set holds the route in place of an
older one of the stream, ST_ZL_ROUTE_LIMIT at 64; zl.route.clear removes it, ST_ZL_NO_ROUTE where there is none;
zl.mirror.break on the device that is not the replica is recorded, and the replica is told where it is a member;
zl.fence.clear sets the back-off of the port to 1 s. (R319, R317, R328, R330, R308, R333, R337) -/
def Obligations.GroupCommands : Prop :=
  ∀ (s : State) (n : Nat) (r : MbReq), let t := s.taken n; let e := s.hz.epoch; let id := s.recs.nextLong
    (s.turn Mb.zlPeerAdmit n r → (s.port (fld r 0 2)).peerCert = fldB r 4 16 → fldB r 4 16 ≠ 0 →
      s.portUp (fld r 0 2) = false → exec (.zlPeerAdmit n r) s =
        .next ((t.modPort (fld r 0 2) fun x => { x with
          admitted := (x.admitted ++ [fldB r 4 16]).eraseDups }).answer Mb.zlPeerAdmit n r [])) ∧
    (s.turn Mb.zlGroupForm n r → s.node ≠ 0 → s.zl.group = .solo → s.longsOpen n < 8 →
      let u := (t.startLong n 0x0B07).modZl fun z => { z with
        group := .master, gen := z.gen + 1, effective := 1, master := s.node, members := [⟨s.node, e⟩], base := e
        offset := e, latency := 0, cables := [], hostAdmit := fld r 0 1 == 1, joinAt := 1, joinOffset := e, joins := []
        committed := 0, votes := [], slow := [], unlocked := [] }
      exec (.zlGroupForm n r) s =
        .next (((u.record [u.membershipCtrl true id]).zlOpenEvent 0 t.node).answerLong Mb.zlGroupForm n r id)) ∧
    (s.turn Mb.zlGroupJoin n r → s.node ≠ 0 → t.grouped = false → t.joiner = false → s.longsOpen n < 8 →
      let u := (t.startLong n 0x0B08).modZl fun z => { z with
        group := if z.group = .solo then .joining else z.group
        joinAuto := fld r 0 1 == 1, joinLong := id, joinAt := 0, lock := .none }
      exec (.zlGroupJoin n r) s = .next ((match u.joinPorts with | p :: _ => u.askJoin p | [] => u).answerLong
        Mb.zlGroupJoin n r id)) ∧
    (s.turn Mb.zlGroupLeave n r → s.zl.group = .member ∨ (s.zl.group = .reforming ∧ s.zl.master ≠ s.node) →
      exec (.zlGroupLeave n r) s = .next (t.leaveGroup.answerSealed Mb.zlGroupLeave n r [] e)) ∧
    (s.turn Mb.zlGroupLeave n r → s.zl.group = .master → s.zl.members.any (fun m => m.node != s.node) = false →
      exec (.zlGroupLeave n r) s = .next (((t.modZl fun z => { z with leaving := e }).record
        [.membership false ⟨t.zl.gen, t.zl.master, t.zl.members⟩ 0 0 0]).answerSealed Mb.zlGroupLeave n r [] e)) ∧
    (∀ j, s.turn Mb.zlMemberAdmit n r → s.zl.group = .master →
      s.zl.joins.find? (fun j => j.node == fld r 0 16 && j.waitingHost) = some j → exec (.zlMemberAdmit n r) s =
        .next ((if fld r 16 1 = 1 then t.offerJoin j else t.refuseJoin j.node St.zlJoinRefused).answer
          Mb.zlMemberAdmit n r [])) ∧
    (let rest := s.zl.routes.filter fun x => !(x.nsid == fldB r 0 4 && x.stream == fldB r 4 2);
      ∀ x, s.turn Mb.zlRouteSet n r → s.store.ns? (fldB r 0 4) = some x → x.isStream = true →
      t.streamBound (fldB r 0 4) (fldB r 4 2) = true → exec (.zlRouteSet n r) s =
        (if 64 ≤ rest.length then .next (t.stage n 0x0B0C r.tag St.zlRouteLimit [] none)
         else .next ((t.modZl fun z => { z with
          routes := rest ++ [⟨fldB r 0 4, fldB r 4 2, fldB r 6 2, fldB r 8 4, fldB r 12 2, [], 0, 0⟩] }).answer
            Mb.zlRouteSet n r []))) ∧
    (let here := fun (x : Route) => x.nsid == fldB r 0 4 && x.stream == fldB r 4 2;
      s.turn Mb.zlRouteClear n r → exec (.zlRouteClear n r) s =
        (if s.zl.routes.any here then .next ((t.modZl fun z => { z with
          routes := z.routes.filter fun x => !here x }).answer Mb.zlRouteClear n r [])
         else .next (t.stage n 0x0B0D r.tag St.zlNoRoute [] none))) ∧
    (∀ x, s.turn Mb.zlMirrorBreak n r → s.store.ns? (fld r 0 32) = some x → (x.mirror && x.replica) = false →
      let u := t.record [.mirrorBreak (fld r 0 32)]
      exec (.zlMirrorBreak n r) s = .next ((if x.mirror = true ∧ t.isMember x.f.mirrorNode = true
        then u.sendTo fMirror x.f.mirrorNode 0 (fld r 0 32) else u).answerSealed Mb.zlMirrorBreak n r [] e)) ∧
    (s.turn Mb.zlFenceClear n r → exec (.zlFenceClear n r) s =
      .next ((t.modPort (fld r 0 2) fun x => { x with backoff := 1 }).answer Mb.zlFenceClear n r []))

/-- At their turn: pw.state.set among P0 to P2 sets the request that the boundary of R426 serves, answers ST_OK at once in
the state asked for, and P3 and P4 start a long command that begins to quiesce; pw.holdup.measure starts a long
command and the measurement, with STORE after both copies of the board record are written with the next SEQ, is
answered with ST_PW_BUSY while one runs, and with ST_PW_HOLDUP_RECORD, nothing stored, where the record is not valid,
whatever the power state; fw.download starts a long command into the slot that is not running, which is EMPTY from
then on; fw.activate by a reset marks the slot TRIAL and ends its long command, HOT starts a preparation; fw.commit of
a committed image changes nothing and one of a trial image either commits the running slot and raises the SVN or
answers ST_FW_FLASH; fw.debug.challenge gives a fresh nonce in place of the former one; fw.debug.unlock with an
accepted signature unlocks debug and takes the ports down, any other answers ST_FW_DEBUG and ends the nonce;
fw.debug.disable burns the fuse. (R413, R414, R416, R418, R419, R421, R426, R427, R433, R434) -/
def Obligations.PowerAndFirmwareCommands : Prop :=
  ∀ (s : State) (n : Nat) (r : MbReq), let t := s.taken n; let id := s.recs.nextLong; let b := s.free.1
    (s.turn Mb.pwStateSet n r → t.pstateRefusal (pstateOf (fld r 0 3)) = none → exec (.pwStateSet n r) s =
      (if s.pw.st = pstateOf (fld r 0 3) then .next (t.answer Mb.pwStateSet n r [])
       else if pstateOf (fld r 0 3) = .p3 ∨ pstateOf (fld r 0 3) = .p4 then
        if s.longsOpen n < 8 then .next (((t.startLong n 0x0C01).pauseAll.modPw fun p => { p with
          entry := if pstateOf (fld r 0 3) = .p3 then .toP3 else .toP4
          entryLong := some (n, id), quiesced := false }).answerLong Mb.pwStateSet n r id)
        else .next (t.stage n 0x0C01 r.tag St.mbLongLimit [] none)
       else .next (t.modPw fun p => { p with
        request := some (pstateOf (fld r 0 3), s.hz.uptimeUs + s.hz.elapsedNs / 1000 + s.pw.st.interval)
        replyTo := some (n, r.tag) }))) ∧
    (s.turn Mb.pwHoldupMeasure n r → s.pw.holdup.phase = .idle → s.pw.entry ≠ .toP3 → s.pw.entry ≠ .toP4 →
      s.longsOpen n < 8 →
      (bitAt r.payload 0 = false → exec (.pwHoldupMeasure n r) s =
        .next (((t.startLong n 0x0C03).startHoldup (some (n, id))).answerLong Mb.pwHoldupMeasure n r id)) ∧
      (∀ x, recordOf r = some x → let y := { x with seq := s.boardRecord.elim 1 fun z => z.seq + 1 }
        exec (.pwHoldupMeasure n r) s = .next ((((t.startLong n 0x0C03).modPw fun p => { p with
          record1 := some y, record2 := some y }).startHoldup (some (n, id))).answerLong Mb.pwHoldupMeasure n r id))) ∧
    (s.turn Mb.pwHoldupMeasure n r → s.pw.holdup.phase ≠ .idle →
      exec (.pwHoldupMeasure n r) s = .next (t.stage n 0x0C03 r.tag St.pwBusy [] none)) ∧
    (s.next Mb.pwHoldupMeasure n r → n = 0 → s.pw.st ≠ .halted → s.fw.recovery = false → r.hdrRsv = 0 → r.len = 68 →
      fld r 1 31 = 0 → bitAt r.payload 0 = true → recordOf r = none →
      exec (.pwHoldupMeasure n r) s = .next (t.stage n 0x0C03 r.tag St.pwHoldupRecord [] none)) ∧
    (s.turn Mb.fwDownload n r → s.fwInProgress = false → s.fw.recovery = false → s.fw.isCommitted = true →
      s.longsOpen n < 8 → exec (.fwDownload n r) s = .next (((t.startLong n 0x0D02).modFw fun f =>
        { f.markEmpty (1 - s.fw.running) with download := some (id, 1 - s.fw.running) }).answerLong Mb.fwDownload n r id)) ∧
    (s.turn Mb.fwDownload n r → s.fwInProgress = false → s.fw.recovery = true → s.longsOpen n < 8 → ∃ k < 2,
      exec (.fwDownload n r) s = .next ((({ t.startLong n 0x0D02 with freeCtr := t.freeCtr + 1 } : State).modFw fun f =>
        { f.markEmpty k with download := some (id, k) }).answerLong Mb.fwDownload n r id)) ∧
    (s.turn Mb.fwActivate n r → s.fwInProgress = false → (s.fw.slot (fld r 0 1)).st = .valid → fld r 1 1 = 1 →
      s.longsOpen n < 8 → exec (.fwActivate n r) s = .next ((((t.startLong n 0x0D03).modFw fun f => { f with
        trial := some (fld r 0 1), selectorOk := true }).endLong id St.ok []).answerLong Mb.fwActivate n r id)) ∧
    (s.turn Mb.fwActivate n r → s.fwInProgress = false → (s.fw.slot (fld r 0 1)).st = .valid → fld r 1 1 = 0 →
      s.fw.needsReset (fld r 0 1) = false → s.longsOpen n < 8 → exec (.fwActivate n r) s =
        .next (((t.startLong n 0x0D03).modFw fun f => { f with
          phase := .preparing, target := fld r 0 1, longId := id }).answerLong Mb.fwActivate n r id)) ∧
    (s.turn Mb.fwCommit n r → exec (.fwCommit n r) s =
      (if s.fw.isCommitted then .next (t.answer Mb.fwCommit n r [])
       else if bitAt b.toNat 0 then .next (({ t with freeCtr := t.freeCtr + 1 } : State).stage n 0x0D04 r.tag St.fwFlash [] none)
       else .next ((({ t with freeCtr := t.freeCtr + 1 } : State).modFw fun f => { f with
        committed := f.running, selectorOk := true, isCommitted := true, svn := max f.svn f.runImg.svn }).answer Mb.fwCommit n r []))) ∧
    (s.turn Mb.fwDebugChallenge n r → s.fw.debug ≠ .disabled → exec (.fwDebugChallenge n r) s =
      .next ((({ t with freeCtr := t.freeCtr + 1 } : State).modFw fun f => { f with
        nonce := some b.toNat, nonceCtr := f.nonceCtr + 1 }).answer Mb.fwDebugChallenge n r [b.toNat, s.fw.serial])) ∧
    (s.turn Mb.fwDebugUnlock n r → s.fw.debug ≠ .disabled → exec (.fwDebugUnlock n r) s =
      (if s.unlockOk r then .next ((t.modFw fun f => { f with
        debug := .unlocked, nonce := none }).portsDown.answer Mb.fwDebugUnlock n r [])
       else .next ((t.modFw fun f => { f with nonce := none }).stage n 0x0D06 r.tag St.fwDebug [] none))) ∧
    (s.turn Mb.fwDebugDisable n r → exec (.fwDebugDisable n r) s = .next ((t.modFw fun f => { f with
      debug := .disabled, debugDisabled := true, nonce := none }).answer Mb.fwDebugDisable n r []))

/-- At its turn fw.key.revoke of key slot k is answered with ST_FW_KEY_REVOKED, and changes nothing else, if the COMMITTED
image is signed with the key of slot k or no other slot would remain unrevoked; in every other case it sets the revoke
bit of slot k, and that bit alone, and is answered with ST_OK. (R417) -/
def Obligations.FirmwareKeyRevoked : Prop :=
  ∀ (s : State) (n : Nat) (r : MbReq), s.turn Mb.fwKeyRevoke n r → let t := s.taken n; let k := fld r 0 2
    ((s.fw.slot s.fw.committed).img.keyIndex = k ∨ (∀ i < 4, i ≠ k → s.fw.revoked[i]? ≠ some false) →
      exec (.fwKeyRevoke n r) s = .next (t.stage n 0x0D08 r.tag St.fwKeyRevoked [] none)) ∧
    ((s.fw.slot s.fw.committed).img.keyIndex ≠ k → (∃ i < 4, i ≠ k ∧ s.fw.revoked[i]? = some false) →
      ∃ u, exec (.fwKeyRevoke n r) s = .next u ∧
        u = (t.modFw fun f => { f with revoked := u.fw.revoked }).answer Mb.fwKeyRevoke n r [] ∧
        (k < s.fw.revoked.length → u.fw.revoked[k]? = some true) ∧ ∀ j : Nat, j ≠ k → u.fw.revoked[j]? = s.fw.revoked[j]?)

/-- For a function whose BAR0 is live and a context of its own: CLAIM of a FREE context gives it to the function, IDLE and
clear; a CLAIM, a data write or any other command of a function that does not own a claimed context changes nothing
but the violation count; RELEASE clears it to FREE; START with ALG 1 to 5 makes it ACTIVE with an empty message, with
another ALG it is IDLE with ST_DG_ALG; a data word in ACTIVE is appended, is refused with ST_DG_OVERRUN while BUSY and
with ST_DG_LENGTH past 2^61 - 1 bytes, and sets ST_DG_SEQUENCE in IDLE, FINALISING and DONE; FINAL in ACTIVE appends
the tail bytes and makes it FINALISING, and in IDLE, FINALISING and DONE sets ST_DG_SEQUENCE; ERROR ignores both; a
block done frees a buffer; the end of the digest sets DONE with the digest of the message. Nothing but this context
changes. (R251, R253, R254, R255, R256, R258, R259) -/
def Obligations.DigestContexts : Prop :=
  ∀ (s : State) (n i : Nat) (c : DgCtx), s.dg[i]? = some c → let put := fun (d : DgCtx) => { s with dg := s.dg.set i d }
    (s.fnLive n = true → c.st = .free → exec (.claim n i) s = .next (put { DgCtx.free with owner := n, st := .idle })) ∧
    (s.fnLive n = true → c.st ≠ .free → c.owner ≠ n → ∀ a k w v,
      exec (.claim n i) s = .next (s.violate n) ∧ exec (.release n i) s = .next (s.violate n) ∧
      exec (.start n i a) s = .next (s.violate n) ∧ exec (.final n i k) s = .next (s.violate n) ∧
      exec (.dgDataWrite n i w v) s = .next (s.violate n) ∧ exec (.dgResultRead n i) s = .next (s.violate n)) ∧
    (s.fnLive n = true → c.st ≠ .free → c.owner = n →
      exec (.release n i) s = .next (put .free) ∧
      (∀ a, 1 ≤ a → a ≤ 5 → exec (.start n i a) s = .next (put { c with
        st := .active, alg := a, err := St.ok, msg := [], full := 0, msgLen := 0, result := [], done := false })) ∧
      (∀ a, a = 0 ∨ 5 < a → exec (.start n i a) s = .next (put { c with
        st := .idle, alg := 0, err := St.dgAlg, msg := [], full := 0, msgLen := 0, result := [], done := false })) ∧
      (∀ w v, w = 4 ∨ w = 8 → c.st = .active → c.full < 2 → c.msgLen + w < 2 ^ 61 →
        exec (.dgDataWrite n i w v) s = .next (put { c with
          msg := c.msg ++ bytesLE w v, msgLen := c.msgLen + w
          full := c.full + ((c.msgLen + w) / dgBlockBytes c.alg - c.msgLen / dgBlockBytes c.alg) })) ∧
      (∀ w v, w = 4 ∨ w = 8 → c.st = .active → 2 ≤ c.full →
        exec (.dgDataWrite n i w v) s = .next (put { c with st := .error, err := St.dgOverrun })) ∧
      (∀ w v, w = 4 ∨ w = 8 → c.st = .active → c.full < 2 → 2 ^ 61 ≤ c.msgLen + w →
        exec (.dgDataWrite n i w v) s = .next (put { c with st := .error, err := St.dgLength })) ∧
      (∀ k, c.st = .active → exec (.final n i k) s = .next (put { c with
        st := .finalising, msg := c.msg ++ bytesLE (k % 8) c.tail, msgLen := c.msgLen + k % 8 })) ∧
      (∀ w v k, w = 4 ∨ w = 8 → c.st = .idle ∨ c.st = .finalising ∨ c.st = .done →
        exec (.dgDataWrite n i w v) s = .next (put { c with err := St.dgSequence }) ∧
        exec (.final n i k) s = .next (put { c with err := St.dgSequence })) ∧
      (∀ w v k, w = 4 ∨ w = 8 → c.st = .error → exec (.dgDataWrite n i w v) s = .next s ∧ exec (.final n i k) s = .next s)) ∧
    exec (.dgBlockDone i) s = .next (put { c with full := c.full - 1 }) ∧
    (c.st = .finalising → exec (.dgDigestDone i) s = .next (put { c with
      st := .done, done := true, full := 0, result := dgDigest c.alg c.msg }))

/-- For the owner of a context: a read of any of the eight DG_RESULT registers in ACTIVE, FINALISING, IDLE or ERROR
returns 0, and the read sets ERR to ST_DG_NOT_FINAL and changes nothing else, so that the message continues. In DONE
it changes nothing, and register j returns bytes 8 j to 8 j + 7 of the digest. (R257) -/
def Obligations.DigestResultRead : Prop :=
  ∀ (s : State) (n i j : Nat) (c : DgCtx), s.fnLive n = true → s.dg[i]? = some c → i < 16 → j < 8 → c.owner = n →
    (c.st = .active ∨ c.st = .finalising ∨ c.st = .idle ∨ c.st = .error →
      s.regVal n (0x0840 + 0x80 * i + 8 * j) = 0 ∧
      exec (.dgResultRead n i) s = .next { s with dg := s.dg.set i { c with err := St.dgNotFinal } }) ∧
    (c.st = .done → exec (.dgResultRead n i) s = .next s ∧
      s.regVal n (0x0840 + 0x80 * i + 8 * j) = natLE ((c.result.drop (8 * j)).take 8))

/-- For a function of the device: a 32-bit read of the low half of a register that exists latches the register's high half
for this function, and a read of the high half uses that latch up; a read of offset 0 of TEL_ANV_REC, and by PF0 of
TEL_TICK_REC and TEL_SAMPLE_REC, latches the record as it then is; a read at an offset that is reserved or foreign, or
of a function that is not ACTIVE outside the identification and device-state registers, counts a violation. Each
firing of the comparator of tel.sample.configure takes a new sample: SEQ + 1, the time, the bytes admitted and read
since the tick boundary. Nothing else changes. (R446, R459, R460, R347) -/
def Obligations.RegisterReadsLatch : Prop :=
  ∀ (s : State) (n o : Nat) (f : Fn), s.fn? n = some f →
    let setL := fun (g : List (Nat × Nat) → List (Nat × Nat)) => s.modFn n fun f => { f with latches := g f.latches }
    let setR := fun (v : Data) => s.modFn n fun f => { f with
      recLatches := (f.recLatches.filter fun x => x.1 != o) ++ [(o, v)] }
    (s.badAccess n o = false → o < 2 ^ 32 → regsAll.contains o = true ∨ regsPf0.contains o = true →
      exec (.splitReadLatch n o) s = .next (setL fun l => setAssoc l o (s.regVal n o / 2 ^ 32))) ∧
    (s.badAccess n (o + 4) = false → o + 4 < 2 ^ 32 → regsAll.contains o = true ∨ regsPf0.contains o = true →
      exec (.splitReadLatch n (o + 4)) s = .next (setL fun l => l.filter fun x => x.1 != o)) ∧
    (s.badAccess n o = true → o < 2 ^ 32 → exec (.splitReadLatch n o) s = .next (s.violate n) ∧
      exec (.recordLatchRead n o) s = .next (s.violate n)) ∧
    (s.fnLive n = true → o = 0x2100 → exec (.recordLatchRead n o) s = .next (setR (s.anvRec n))) ∧
    (s.fnLive n = true → n = 0 → o = 0x2200 → exec (.recordLatchRead n o) s = .next (setR s.hz.lastTick.bytes)) ∧
    (s.fnLive n = true → n = 0 → o = 0x2240 → exec (.recordLatchRead n o) s = .next (setR s.sampleRec)) ∧
    (∀ time, (s.inForce.claims.any fun c => c.opcode == 0x0E03) = true → exec (.telSample time) s =
      .next { s with recs := { s.recs with
        sampleSeq := (s.recs.sampleSeq + 1) % 2 ^ 32
        sample := some ((s.recs.sampleSeq + 1) % 2 ^ 32, time, s.hz.tick.admitted, s.hz.tick.read) } })

/-- For a function whose BAR0 is live: a 64-bit write of DG_TAIL of an owned context sets it, a 32-bit write one half of
it; a write to the message area stores its bytes while the mailbox is not BUSY, and is ignored and counted while it is
BUSY; a write of ANV_SEL sets it; a write to a register without RW fields or action changes nothing, and one of
INT_STATUS, INT_EVQ_HEAD or MB_CTL is the command of that register; a write that is not an aligned 32-bit or 64-bit
access, one at a reserved or foreign offset, and a DG_CTL write that sets more than one of CLAIM, RELEASE, START and
FINAL count a violation and change nothing else. (R4, R347, R400, R446, R456) -/
def Obligations.RegisterWrites : Prop :=
  ∀ (s : State) (n o v : Nat) (f : Fn), s.fn? n = some f → s.fnLive n = true →
    (∀ i c, s.dg[i]? = some c → i < 16 → c.st ≠ .free → c.owner = n → o = 0x0818 + 0x80 * i →
      exec (.registerWrite n o 8 v) s = .next { s with dg := s.dg.set i { c with tail := v } } ∧
      exec (.registerWrite n o 4 v) s =
        .next { s with dg := s.dg.set i { c with tail := c.tail / 2 ^ 32 * 2 ^ 32 + v % 2 ^ 32 } } ∧
      exec (.registerWrite n (o + 4) 4 v) s =
        .next { s with dg := s.dg.set i { c with tail := c.tail % 2 ^ 32 + v % 2 ^ 32 * 2 ^ 32 } }) ∧
    (∀ w, w = 4 ∨ w = 8 → o % w = 0 → 0x1000 ≤ o → o < 0x1000 + areaSize n → exec (.registerWrite n o w v) s =
      (if f.mb.state = 1 then .next (s.violate n)
       else .next (s.modFn n fun f => { f with mb := { f.mb with
        area := Mem.putBytes f.mb.area (o - 0x1000) (bytesLE w v) } }))) ∧
    exec (.registerWrite n 0x2008 8 v) s = .next (s.modFn n fun f => { f with anvSel := v % 64 }) ∧
    (regsAll.contains o = true → o ≠ 0x0200 → o ≠ 0x0208 → o ≠ 0x0300 → o ≠ 0x2008 →
      exec (.registerWrite n o 8 v) s = .next s) ∧
    exec (.registerWrite n 0x0200 8 v) s = exec (.intStatusW1c n (v % 8)) s ∧
    exec (.registerWrite n 0x0208 8 v) s = exec (.intEvqHeadWrite n (v % 65536)) s ∧
    (bitAt v 0 = true → exec (.registerWrite n 0x0300 8 v) s = exec (.go n) s) ∧
    (∀ w, alignedAccess (o % 2 ^ 32) w = false → exec (.registerWrite n o w v) s = .next (s.violate n)) ∧
    (∀ w, w = 4 ∨ w = 8 → o % w = 0 → o < 2 ^ 32 → s.badAccess n o = true →
      exec (.registerWrite n o w v) s = .next (s.violate n)) ∧
    (∀ i, i < 16 → dgMany v = true → exec (.registerWrite n (0x0800 + 0x80 * i) 8 v) s = .next (s.violate n))

/-- For a function whose BAR0 is live: GO in a mailbox that is not BUSY sets STATE to 1 and makes the message that stands
in the area the waiting request, last in the order of the GO writes (an opcode that R404 does not list is answered:
ST_MB_OPCODE, or ST_MB_FORMAT where reserved header bits are set); GO while BUSY is ignored and counted. A reply that
is ready and due, with firmware running, is written over the area, STATE is 2 (DONE), STATUS is the reply's,
INT_STATUS.MB_DONE is set and the message of vector 0 goes out; a reply that awaits an unsealed epoch stays. A write
of INT_STATUS clears the bits that are 1 in it. A write of INT_EVQ_HEAD from the old head to TAIL moves the head, and
outside it, or without a ring, is ignored and counted. (R394, R400, R402, R451, R452) -/
def Obligations.MailboxTransport : Prop :=
  ∀ (s : State) (n v : Nat) (f : Fn), s.fn? n = some f → s.fnLive n = true →
    let q := requestOf f.mb.area (areaSize n)
    (f.mb.state ≠ 1 → (catalogue.any fun m => m.opcode == q.1) = true →
      exec (.go n) s = .next (s.accept n q.1 q.2 f.mb.area)) ∧
    (f.mb.state ≠ 1 → (catalogue.any fun m => m.opcode == q.1) = false → s.pw.st ≠ .halted → exec (.go n) s =
      .next (((s.accept n q.1 q.2 f.mb.area).taken n).stage n q.1 q.2.tag
        (if q.2.hdrRsv = 0 then St.mbOpcode else St.mbFormat) [] none)) ∧
    (f.mb.state = 1 → exec (.go n) s = .next (s.violate n)) ∧
    (∀ r, f.mb.reply = some r → s.fwRuns = true → r.due s.hz.sealed = true → exec (.mailboxReply n) s =
      .next ((s.modFn n fun f => { f with
        intStatus := f.intStatus ||| 1
        mb := { f.mb with
          area := Mem.putBytes f.mb.area 0 ((replyArea r).take (areaSize n)), state := 2, status := r.status
          request := none, reply := none } }).msix n 0)) ∧
    (∀ r, f.mb.reply = some r → r.due s.hz.sealed = false → exec (.mailboxReply n) s = .next s) ∧
    exec (.intStatusW1c n v) s = .next (s.modFn n fun f => { f with
      intStatus := f.intStatus &&& ~~~ (BitVec.ofNat 3 v) }) ∧
    (v < f.evq.entries → (v + f.evq.entries - f.evq.head) % f.evq.entries ≤ f.evq.used → f.evq.overflow = 0 →
      exec (.intEvqHeadWrite n v) s = .next (s.modFn n fun f => { f with evq := { f.evq with head := v } })) ∧
    (f.evq.entries ≤ v ∨ f.evq.used < (v + f.evq.entries - f.evq.head) % f.evq.entries →
      exec (.intEvqHeadWrite n v) s = .next (s.violate n))

/-- A link that trains at a generation from 2 up to the generation cap is up at that generation, with at most 2 retimers,
a retrain counted after the first, the functions held where it is below LINK_FLOOR; held writes that may now go out
are issued in order. A lost link has generation 0 and is in recovery; a failed lane bond keeps it at generation 0. Bus
Master Enable and D3hot are set and cleared on the function alone (D3hot on PF0 alone), and their ends issue the held
writes. The store, Horizon and every command stay as they are. (R339, R342, R343, R345, R360, R362) -/
def Obligations.LinkAndBusMaster : Prop :=
  ∀ (s : State) (n : Nat),
    (∀ g r, 2 ≤ g → g ≤ s.param 0x0210 0 → s.inForce.linkFloor ≤ g → exec (.usb4LinkTrained g r) s =
      .next (s.modLink fun l => { l with
        gen := g, retimers := min 2 r, bonding := false, recovering := false, trained := l.trained + 1
        retrains := if l.trained = 0 then l.retrains else sat32 (l.retrains + 1) }).releaseHeld) ∧
    (∀ g r, 2 ≤ g → g ≤ s.param 0x0210 0 → g < s.inForce.linkFloor → ∃ t, exec (.usb4LinkTrained g r) s = .next t ∧
      t.link.gen = g ∧ t.link.below = true ∧ t.store = s.store ∧ t.hz = s.hz ∧ t.q.cmds = s.q.cmds) ∧
    (s.link.gen ≠ 0 → exec .usb4LinkLoss s = .next { s with link := { s.link with gen := 0, recovering := true } }) ∧
    exec (.laneBondRetry true) s = .next { s with link := { s.link with bonding := false } } ∧
    exec (.laneBondRetry false) s = .next { s with link := { s.link with bonding := true, gen := 0 } } ∧
    exec (.busMasterEnableClear n) s = .next (s.modFn n fun f => { f with bme := false }) ∧
    exec (.busMasterEnableSet n) s = .next (s.modFn n fun f => { f with bme := true }).releaseHeld ∧
    exec (.d3hotEntry 0) s = .next (s.modFn 0 fun f => { f with d3 := true }) ∧
    exec (.d3hotExit 0) s = .next (s.modFn 0 fun f => { f with d3 := false }).releaseHeld ∧
    (∀ w, s.q.held = [(n, w)] → (s.dmaHeld n = false → s.releaseHeld.q.issued = s.q.issued ++ [w] ∧ s.releaseHeld.q.held = []) ∧
      (s.dmaHeld n = true → s.releaseHeld.q.issued = s.q.issued ∧ s.releaseHeld.q.held = [(n, w)]))

/-- A function-level reset of an ACTIVE function other than PF0 makes it RESETTING and fenced from now on, takes every
fetched command of the function out of the queues, and leaves every other function and the durable state as they are;
a reset under way absorbs another. A reset of PF0, a tunnelled link reset and a link that is down for 1 s make PF0
RESETTING and every other created function REMOVING; a cleared VF Enable removes every VF. Once the reset is due, it
completes: the function's pairs are gone, its digest contexts FREE, and its mailbox, event ring, interrupt and
violation registers at their reset values, with the grant of before for a reset, UNCREATED for a removal. A reset that
is not due yet stays under way. VF Enable puts VFs 1 to NumVFs on the bus, UNCREATED where they were not there before.
(R351, R357, R358, R359, R360, R388, R439, R253) -/
def Obligations.FunctionResets : Prop :=
  ∀ (s : State) (n : Nat),
    (n ≠ 0 → s.fnState n = .active → ∃ t, exec (.flr n) s = .next t ∧ t.fnState n = .resetting ∧ t.store = s.store ∧
      (∀ f, t.fn? n = some f → f.reset.fenced = true ∧ f.reset.t0 = s.hz.uptimeUs) ∧
      (∀ c ∈ t.q.cmds, c.fn ≠ n) ∧ (∀ c ∈ s.q.cmds, c.fn ≠ n → c ∈ t.q.cmds) ∧ (∀ k, k ≠ n → t.fn? k = s.fn? k)) ∧
    (n ≠ 0 → s.fnState n ≠ .active → exec (.flr n) s = .next s) ∧
    (s.fnState 0 = .active → ∀ i, i = .flr 0 ∨ i = .tunnelledLinkReset ∨ (i = .usb4LinkDownTimeout ∧ s.link.recovering = true) →
      ∃ t, exec i s = .next t ∧ t.fnState 0 = .resetting ∧ t.store = s.store ∧
        (∀ k, k ≠ 0 → s.fnExists k = true → t.fnState k = .removing) ∧
        (i ≠ .flr 0 → t.link.vfEnable = false)) ∧
    (s.link.mode = 0 → ∃ t, exec .vfEnableClear s = .next t ∧ t.link.vfEnable = false ∧ t.store = s.store ∧
      t.fn? 0 = s.fn? 0 ∧ ∀ k, k ≠ 0 → s.fnExists k = true → t.fnState k = .removing) ∧
    (∀ v, s.link.mode = 0 → s.link.vfEnable = false → v ≤ 63 → ∃ t, exec (.vfEnableSet v) s = .next t ∧
      t.link = { s.link with vfEnable := true, numVfs := v } ∧ t.store = s.store ∧
      (∀ k f, s.fn? k = some f → t.fn? k = some f) ∧ ∀ k, 1 ≤ k → k ≤ v → (t.fn? k).isSome = true) ∧
    (∀ f, s.fn? n = some f → s.resetDue f = true → ∃ t, exec (.fnResetComplete n) s = .next t ∧
      (∀ p ∈ t.q.pairs, p.fn ≠ n) ∧ (∀ c ∈ t.dg, c.st = .free ∨ c.owner ≠ n) ∧
      (f.st ≠ .removing → ∃ g, t.fn? n = some g ∧ g.st = .active ∧ g.grant = f.grant ∧ g.mb = .reset ∧ g.evq = .reset ∧
        g.intStatus = 0 ∧ g.viol = 0) ∧
      (f.st = .removing → t.fnState n = .uncreated)) ∧
    (∀ f, s.fn? n = some f → s.resetDue f = false → exec (.fnResetComplete n) s = .next s) ∧
    (s.anv.zeroing.contains n = true → exec (.fnMemoryZeroingDone n) s =
      .next ((s.modAnv fun a => { a with
        zeroing := a.zeroing.filter fun k => k != n, data := a.data.filter fun x => x.1 != n }).modFn n fun f =>
        if f.st = .uncreated then { f with grant := { f.grant with mem := 0 } } else f))

/-- While the device ticks: the cut point of a tick in its accept phase falls at (1 - s) x P, and every epoch of the
accepting number is closed; the accepting number stays. Where the epoch of two ticks before is late or not empty, the
seal window begins; where it is the oldest unsealed one, not late, with a seal that programs nothing and no move to
record, it is sealed at the cut point and slack begins (log 131, DEDUCED); slack begins too where there is no such
epoch. In the seal window, an epoch that is the oldest unsealed one, two ticks old, not late, with its programs and
intent entry confirmed and no supply inhibit, is sealed by its deadline 5 us before the end of the tick: the durable
state is that of this epoch, HZ_SEALED its number, and slack begins. A late epoch in the same condition is sealed at
once, whatever the phase. At the boundary, where no deadline has passed unmet, the next epoch number is accepted from
the start of its accept phase, the clock has advanced by one period (stated for a tick without a switch of source),
and every volatile setting that is due is in effect. (R27, R36, R37, R39, R42, R43, R61, R67) -/
def Obligations.TickPhases : Prop :=
  ∀ (s : State),
    (s.hz.ticking = true → s.hz.phase = .accept → ∃ t, exec .cutPoint s = .next t ∧
      t.hz.elapsedNs = s.periodNs - windowNs s.hz.period s.hz.window ∧ t.hz.epoch = s.hz.epoch ∧
      ∀ e ∈ t.hz.epochs, e.n = s.hz.epoch → e.closed = true) ∧
    (s.hz.ticking = true → s.hz.phase = .accept → s.sealing = none → ∃ t, exec .cutPoint s = .next t ∧ t.hz.phase = .slack) ∧
    (∀ e, s.sealing = some e → s.hz.ticking = true → s.hz.phase = .accept → (e.isLate = true ∨ e.empty = false) →
      ∃ t, exec .cutPoint s = .next t ∧ t.hz.phase = .sealWindow) ∧
    (∀ e, s.sealing = some e → s.hz.ticking = true → s.hz.phase = .accept → s.oldest = some e → e.isLate = false →
      s.flash.moves = [] → s.programsNothing e s.joinMark = true →
      ∃ t, exec .cutPoint s = .next t ∧ t.hz.phase = .slack ∧ t.hz.sealed = e.n) ∧
    (∀ e a, s.oldest = some e → s.hz.ticking = true → s.hz.phase = .sealWindow → s.ready e = true → s.ageOf e = 2 →
      e.isLate = false → s.flash.inhibited = false → a + 5000 ≤ s.periodNs → ∃ t, exec (.sealInstant a) s = .next t ∧
      t.store.sealed = e.n ∧ t.hz.sealed = e.n ∧ t.hz.phase = .slack ∧ t.hz.epoch = s.hz.epoch) ∧
    (∀ e a, s.oldest = some e → s.hz.ticking = true → s.pw.restarting = false → s.ready e = true → e.isLate = true →
      s.flash.inhibited = false → ∃ t, exec (.lateEpochSeal a) s = .next t ∧
      t.store.sealed = e.n ∧ t.hz.sealed = e.n ∧ t.hz.phase = s.hz.phase ∧ t.hz.epoch = s.hz.epoch) ∧
    (s.hz.ticking = true → s.hz.phase ≠ .accept → s.lateDue = none → s.ringDue = none → s.unsealedDue = false →
      s.hz.tickIn.switchDue = false → ∀ ns, ∃ t, exec (.tickBoundary ns) s = .next t ∧ t.hz.epoch = s.hz.epoch + 1 ∧
      t.hz.phase = .accept ∧ t.hz.elapsedNs = 0 ∧ t.hz.uptimeUs = s.hz.uptimeUs + s.periodUs ∧
      ∀ x ∈ t.recs.pendParams, s.hz.epoch + 1 < x.1)

/-- While the device ticks: an epoch whose seal deadline has passed raises HZ_SEAL_LATE (code 1, its number in
HZ_FAULT_LAST, the counter one higher, saturating), and is late from then on; the epoch of three ticks before whose
commit is not held at the end of the vote window, or whose ring mark is not sealed by the ring seal deadline, raises
HZ_RING_SEAL_LATE (code 3) in the same way. Where no such epoch exists nothing changes. A device that was RUNNING is
LATE with late count 1 by the first of the two faults of an epoch; the second one of the same epoch counts no further
late epoch (log 57, DEDUCED). (R39, R46, R60, R65) -/
def Obligations.HorizonFaults : Prop :=
  ∀ (s : State), s.hz.ticking = true → (s.hz.st = .running ∨ s.hz.st = .late) →
    (∀ e, s.lateDue = some e → ∃ t, exec .hzSealLate s = .next t ∧ t.hz.faultCode = 1 ∧ t.hz.faultEpoch = e.n ∧
      t.hz.sealLate = sat32 (s.hz.sealLate + 1) ∧ (s.hz.st = .running → (∀ x ∈ t.hz.epochs, x.n = e.n → x.isLate = true) ∧
        (e.ringLate = false → t.hz.st = .late ∧ t.hz.lateCount = 1) ∧ (e.ringLate = true → t.hz.st = .running))) ∧
    (s.lateDue = none → exec .hzSealLate s = .next s) ∧
    (∀ e, s.ringDue = some e → s.hz.commitHeld < e.n → ∃ t, exec .voteWindowEnd s = .next t ∧ t.hz.faultCode = 3 ∧
      t.hz.faultEpoch = e.n ∧ t.hz.ringLate = sat32 (s.hz.ringLate + 1) ∧
      (s.hz.st = .running → (∀ x ∈ s.hz.epochs, x.n = e.n → x.isLate = false) →
        t.hz.st = .late ∧ t.hz.lateCount = 1)) ∧
    (∀ e, s.ringDue = some e → s.hz.ringMark < e.n → s.hz.phase ≠ .accept → ∃ t, exec .ringSealDeadline s = .next t ∧
      t.hz.faultCode = 3 ∧ t.hz.faultEpoch = e.n ∧ t.hz.ringLate = sat32 (s.hz.ringLate + 1) ∧
      (s.hz.st = .running → (∀ x ∈ s.hz.epochs, x.n = e.n → x.isLate = false) →
        t.hz.st = .late ∧ t.hz.lateCount = 1)) ∧
    (s.ringDue = none → exec .voteWindowEnd s = .next s ∧ exec .ringSealDeadline s = .next s)

/-- From RUNNING, three late epochs without a seal in time between them, each late by the first of its two faults
HZ_SEAL_LATE and HZ_RING_SEAL_LATE, in any order, take Horizon to HALTED; so does EPOCH_UNSEALED_N6 on a ticking
device that holds an epoch not sealed, or a ring-synchronous one without its ring mark, by the end of tick N + 6. In
an overrun the Horizon state stays as it is. (R63) -/
def Obligations.HaltedEntered : Prop :=
  ∀ (s : State),
    (let late := fun x y : State => (∃ e : Epoch, e.ringLate = false ∧ y = x.sealLateAt e) ∨
        ∃ n, (x.hz.epochs.any fun e => e.n == n && e.isLate) = false ∧ y = x.ringLateAt n
      ∀ a b c : State, s.hz.st = .running → late s a → late a b → late b c → c.hz.st = .halted) ∧
    (s.hz.ticking = true → s.unsealedDue = true → ∃ t, exec .epochUnsealedN6 s = .next t ∧ t.hz.st = .halted) ∧
    s.overrun.hz.st = s.hz.st

/-- Entry to Halted from any state leaves no fetched command, no instance, thread or Squall job, no ticking, no unsealed
epoch; the durable state is untouched, PSTATE is HALTED, every namespace is HALTED to commands, every long command has
ended, and a mailbox command is answered with ST_HALTED unless it is dev.identify, dev.cert.read, log.read or
log.status. (R64, R77, R401, R403) -/
def Obligations.HaltedStops : Prop :=
  ∀ (s : State), let t := s.enterHalted
    t.q.cmds = [] ∧ t.anv.insts = [] ∧ t.anv.threads = [] ∧ t.sq.jobs = [] ∧ t.hz.ticking = false ∧ t.hz.st = .halted ∧
    t.pw.st = .halted ∧ t.store = s.store ∧ (∀ e ∈ t.hz.epochs, e.isSealed = true) ∧
    (∀ l ∈ t.recs.longs, l.status ≠ none) ∧ (∀ x, t.nsStateOf x = .halted) ∧
    (∀ m n r, m ∈ catalogue → m ≠ Mb.devIdentify → m ≠ Mb.devCertRead → m ≠ Mb.logRead → m ≠ Mb.logStatus →
      t.mbCheck m n r = some St.halted)

/-- While the device watches TICK_IN: an edge outside the acceptance window is discarded and counted; an accepted edge in
lock clears the misses and moves the phase by at most the nudge limit; an accepted edge before lock counts one hit
more, and the relock count of hits makes the switch due. A window without an edge is a miss in lock, the third in a
row drops the lock and starts the count again; out of lock it clears the hits. At 1,024 ticks after the start of the
watch without a switch the event ST_HZ_SOURCE goes out. An intent entry with the next sequence number is programmed
and confirmed for the oldest closed epoch without one, where programs run and no supply inhibit holds them. The
TICK_OUT pulse ends. Nothing else changes. Where a SHOCK_IN claim is in force and the device is not Halted: while the
hold-off lasts, a trigger only counts as ignored; outside it, in a tick, the trigger freezes the region of R90 in the
one SNS with a freeze window (stated for a device with one) and the hold-off begins, where its length is not 0. In the
drain the last epoch that is still to be sealed records the freezes, and the hold-off begins. In BOOT, HELD, P4 and
STOPPED a trigger is counted and raised as ST_NS_FREEZE_NO_TICK, and freezes nothing. The hold-off ends. The end of a
verify whose bytes are all readable: where SHA-256 of the first LEN bytes of the slot equals the expected digest the
slot becomes VERIFIED at the next seal; otherwise it is STAGING again at once and the long command ends with
ST_IMG_VERIFY_FAIL. (R30, R31, R34, R43, R187, R470, R90, R91, R92, R93, R95) -/
def Obligations.ClockAndShockInputs : Prop :=
  ∀ (s : State) (err : Int) (iv : Nat),
    (let t := s.hz.tickIn
    let put := fun (x : TickIn) => { s with hz := { s.hz with tickIn := x } }
    (t.watching = true → s.hz.ticking = true → s.edgeOk err iv = false → exec (.tickInEdge err iv) s =
      .next (put { t with discarded := t.discarded + 1, hits := if t.locked then t.hits else 0 })) ∧
    (t.watching = true → s.hz.ticking = true → s.edgeOk err iv = true → t.locked = true → exec (.tickInEdge err iv) s =
      .next (put { t with misses := 0, lastHit := true, nudgeNs := nudge (s.param 0x0414 0) err
                          estNs := if t.lastHit then rateStep s.periodNs t.estNs iv else t.estNs })) ∧
    (t.watching = true → s.hz.ticking = true → s.edgeOk err iv = true → t.locked = false → ∃ x,
      exec (.tickInEdge err iv) s = .next (put x) ∧ x.hits = t.hits + 1 ∧ x.locked = false ∧
      (s.param 0x0413 0 ≤ t.hits + 1 → x.switchDue = true)) ∧
    (s.hz.ticking = true → s.hz.source = 1 → t.locked = false →
      exec .tickInWindowEnd s = .next (put { t with hits := 0, lastHit := false })) ∧
    (s.hz.ticking = true → s.hz.source = 1 → t.locked = true → t.misses < 2 → exec .tickInWindowEnd s =
      .next (put { t with misses := t.misses + 1, lastHit := false, nudgeNs := 0 })) ∧
    (s.hz.ticking = true → s.hz.source = 1 → t.locked = true → 2 ≤ t.misses → exec .tickInWindowEnd s =
      .next ((put { t with
        misses := 0, hits := 0, sumNs := 0, ivals := 0, lastHit := false, locked := false, nudgeNs := 0 }).hzEvent
        St.hzLockLost s.hz.epoch)) ∧
    (s.hz.ticking = true → t.watching = true → s.hz.source ≠ 1 → t.watchFrom + 1024 ≤ s.hz.epoch →
      exec .tickInRelockTimeout s = .next (s.hzEvent St.hzSource s.hz.epoch)) ∧
    (∀ e, (s.hz.epochs.find? fun e => e.closed && !e.intentOk && !e.isSealed &&
        (decide (e.n < s.hz.epoch) || s.pw.st == .draining)) = some e → s.programsRun = true →
      s.flash.inhibited = false → exec (.intentEntryConfirmed (s.hz.intentSeq + 1)) s =
        .next ((s.programIntent (s.hz.intentSeq + 1) e.n).modHz fun h => { h with
          intentSeq := s.hz.intentSeq + 1
          epochs := updIf (fun x => x.n == e.n)
            (fun x => { x with intentSeq := some (s.hz.intentSeq + 1), intentOk := true }) h.epochs })) ∧
    exec .tickOutPulseEnd s = .next { s with hz := { s.hz with tickOutHigh := false } }) ∧
    ((s.inForce.claims.any fun c => c.opcode == 0x0106) = true → s.hz.st ≠ .halted →
      (s.ns.holdoff = true → exec .shockInTrigger s =
        .next { s with ns := { s.ns with ignored := sat32 (s.ns.ignored + 1) } }) ∧
      (∀ x u, s.hz.ticking = true → s.ns.holdoff = false → s.shockTargets = [x] → s.freezeNs x = some u →
        s.param 0x0321 0 ≠ 0 → exec .shockInTrigger s = .next { u with ns := { u.ns with holdoff := true } }) ∧
      (s.hz.ticking = false → s.ns.holdoff = false → s.pw.st = .draining → exec .shockInTrigger s = .next s.shockDrain.startHoldoff) ∧
      (s.hz.ticking = false → s.ns.holdoff = false → s.pw.st = .boot ∨ s.pw.st = .held ∨ s.pw.st = .p4 ∨ s.pw.st = .stopped →
        exec .shockInTrigger s = .next
          (({ s with ns := { s.ns with noTick := sat32 (s.ns.noTick + 1) } } : State).event 2 deviceFn [0] St.nsFreezeNoTick 0))) ∧
    exec .shockInHoldoffEnd s = .next { s with ns := { s.ns with holdoff := false } } ∧
    (∀ i k n x y, s.store.ns? i = some n → n.slots[k]? = some x → (s.slotsAccepted n)[k]? = some y →
      x.st = .verifyPending → y.st = .verifyPending → s.hz.ticking = true → s.slotLost n k x.len = false →
      exec (.imageVerifyDone i k) s =
        (if natLE (sha256 (s.slotBytes n k x.len)) = x.expect then .next (s.recordNext [.slot i k { x with st := .verified }])
         else .next ((s.modStore fun d => d.setSlot i k { x with st := .staging }).endLong x.longId St.imgVerifyFail [])))

/-- For an ACTIVE pair whose doorbell page is live: an SQ tail below the depth that differs from the one held becomes the
tail, the one held changes nothing, and one of the depth or more stops the pair with the QUEUE event ST_CMD_DOORBELL;
a CQ head from the old head to the next write position releases the entries up to it, any other value stops the pair;
a pair that is not ACTIVE ignores both writes. A doorbell without a live pair only counts a violation of the function.
Nothing else changes. (R347, R366, R369, R462) -/
def Obligations.Doorbells : Prop :=
  ∀ (s : State) (n q v : Nat),
    (s.pairLive n q = none → exec (.sqTailDoorbellWrite n q v) s = .next (s.violate n) ∧
      exec (.cqHeadDoorbellWrite n q v) s = .next (s.violate n)) ∧
    (∀ p, s.pairLive n q = some p → p.st ≠ .active → exec (.sqTailDoorbellWrite n q v) s = .next s ∧
      exec (.cqHeadDoorbellWrite n q v) s = .next s) ∧
    (∀ p, s.pairLive n q = some p → p.st = .active →
      let stopped := (s.modPair n q fun p => { p with st := .stopped }).event 1 n [n] St.cmdDoorbell q
      exec (.sqTailDoorbellWrite n q p.sqTail) s = .next s ∧
      (v < p.depth → exec (.sqTailDoorbellWrite n q v) s =
        .next (if v = p.sqTail then s else s.modPair n q fun p => { p with sqTail := v })) ∧
      (p.depth ≤ v → v ≠ p.sqTail → exec (.sqTailDoorbellWrite n q v) s = .next stopped) ∧
      exec (.cqHeadDoorbellWrite n q p.cqHead) s = .next s ∧
      (v ≠ p.cqHead → v < p.depth → (v + p.depth - p.cqHead) % p.depth ≤ p.cqUsed →
        exec (.cqHeadDoorbellWrite n q v) s = .next (s.modPair n q fun x => { x with
          cqHead := v, entries := x.entries.drop ((v + p.depth - p.cqHead) % p.depth) })) ∧
      (v ≠ p.cqHead → p.depth ≤ v ∨ p.cqUsed < (v + p.depth - p.cqHead) % p.depth →
        exec (.cqHeadDoorbellWrite n q v) s = .next stopped))

/-- Where a function may have entries fetched and a pair is next: an entry with an opcode of R375 whose CID is free
becomes the newest command, and SQ head moves; one with a CID in use, an unknown opcode, or fetched in Halted is
answered with ST_CMD_CID_IN_USE, ST_CMD_OPCODE or ST_HALTED. A DMA read error ends the command whose data or header is
fetched with ST_FN_DMA_ERROR: at once where nothing of it is admitted, else with the parts admitted; one in the fetch
of entries stops the pair. In the slack phase with a comparator assigned, the one expired command of which nothing is
admitted ends with ST_CMD_TIMEOUT; with no expired command the scan changes nothing. A DELETING pair without commands
or held completions goes. The end of a coalescing time sends the message of the pair's vector. Held writes of a
function are issued once nothing holds them, and its module's puts go on. (R343, R348, R369, R370, R371, R376, R380,
R386, R387) -/
def Obligations.FetchAndEnds : Prop :=
  ∀ (s : State) (n q : Nat),
    (∀ p left e, s.fetches n = true → s.nextPair n (assoc s.q.rr n, 0) = some (p, left) →
      let s1 := s.modPair p.fn p.qid fun x => { x with sqHead := (x.sqHead + 1) % x.depth }
      let end_ := fun (t : State) => t.modQ fun z => { z with rr := setAssoc z.rr n p.qid }
      (s.hz.st ≠ .halted → s.cmd? p.fn p.qid e.cid = none → 1 ≤ e.opc → e.opc ≤ 6 →
        exec (.sqSubmissionFetch n [e]) s = .next (end_ (s1.modQ fun z => { z with
          nextSeq := z.nextSeq + 1, cmds := z.cmds ++ [Cmd.fresh p.fn p.qid z.nextSeq s.hz.epoch e] }))) ∧
      (s.hz.st ≠ .halted → (s.cmd? p.fn p.qid e.cid).isSome = true → exec (.sqSubmissionFetch n [e]) s =
        .next (end_ (s1.postCq p.fn p.qid e.cid St.cmdCidInUse 0))) ∧
      (s.hz.st ≠ .halted → s.cmd? p.fn p.qid e.cid = none → e.opc = 0 ∨ 6 < e.opc → exec (.sqSubmissionFetch n [e]) s =
        .next (end_ (s1.postCq p.fn p.qid e.cid St.cmdOpcode 0))) ∧
      (s.hz.st = .halted → exec (.sqSubmissionFetch n [e]) s = .next (end_ (s1.postCq p.fn p.qid e.cid St.halted 0)))) ∧
    (∀ c cid, (s.q.cmds.find? fun c => c.fn == n && c.qid == q && c.e.cid == cid &&
        (c.stage == .fetched || (s.store.ns? c.e.nsid).elim (c.stage == .needData) c.toFetch)) = some c →
      (c.done = 0 → exec (.dmaReadError (.command n q cid)) s =
        .next ((s.dropCmd c.seq).postCq c.fn c.qid c.e.cid St.fnDmaError 0)) ∧
      (c.done ≠ 0 → exec (.dmaReadError (.command n q cid)) s = .next (s.modCmd c.seq fun x => { x with
        stage := .admitted, ended := true, status := St.fnDmaError }))) ∧
    (∀ p, s.pair? n q = some p → p.st = .active → exec (.dmaReadError (.entry n q)) s =
      .next ((s.modPair n q fun p => { p with st := .stopped }).event 1 n [n] St.fnDmaError q)) ∧
    (∀ c, s.timerOn = true → s.hz.ticking = true → s.hz.phase = .slack → (s.q.cmds.filter fun c => s.expired c) = [c] →
      s.due c = false → c.done = 0 → c.partLeft = true → c.e.opc ≠ opExec → exec .commandTimeoutScan s =
        .next ((s.dropCmd c.seq).postCq c.fn c.qid c.e.cid St.cmdTimeout 0)) ∧
    ((s.q.cmds.filter fun c => s.expired c) = [] → exec .commandTimeoutScan s = .next s) ∧
    (∀ p, s.pair? n q = some p → p.st = .deleting → (∀ c ∈ s.q.cmds, ¬ (c.fn = n ∧ c.qid = q)) → s.heldOf n q = 0 →
      ∃ t, exec (.queueDeleteDone n q) s = .next t ∧ t.pair? n q = none ∧ t.store = s.store ∧ t.q.cmds = s.q.cmds ∧
        ∀ x ∈ s.q.pairs, ¬ (x.fn = n ∧ x.qid = q) → x ∈ t.q.pairs) ∧
    (∀ p, s.pair? n q = some p → p.coalescing = true → exec (.msixCoalesceExpiry n q) s =
      .next ((s.modPair n q fun p => { p with coalescing := false }).msix n p.vector)) ∧
    (s.dmaHeld n = true → exec (.completionWriteRelease n) s = .next s) ∧
    (s.dmaHeld n = false → exec (.completionWriteRelease n) s = .next s.releaseHeld.runPuts)

/-- For a fetched command of opcode READ, WRITE, APPEND, DISCARD, FLUSH or EXEC: a failing check of R376 ends it with that
status and nothing else but the pair's completion entry (and the clearing of a deferred error that it reports)
changes. Where every check passes: READ, within the stream's end for a stream, waits for admission with its whole
length; WRITE, where R109 allows it, waits for its data; DISCARD waits for admission; FLUSH waits, with the kind of
its namespace; APPEND whose header passes checks 1 to 7 of R81 waits for its class with the header kept; EXEC that
passes R285 and whose buffers lie in the DMA window waits with a new instance. (R81, R109, R285, R373, R375, R376,
R384) -/
def Obligations.CommandChecks : Prop :=
  ∀ (s : State) (n q cid : Nat) (bufs : List BufEntry) (c : Cmd),
    (∀ st i, s.toCheck n q cid i.2 = some c → s.checks c (if i.1 then bufs else []) = .error st →
      (i = (true, opRead) → exec (.read n q cid bufs) s = .next (s.failCmd c st)) ∧
      (i = (true, opWrite) → exec (.write n q cid bufs) s = .next (s.failCmd c st)) ∧
      (i = (true, opAppend) → ∀ h, exec (.append n q cid h bufs) s = .next (s.failCmd c st)) ∧
      (i = (false, opDiscard) → exec (.discard n q cid) s = .next (s.failCmd c st)) ∧
      (i = (false, opFlush) → exec (.flush n q cid) s = .next (s.failCmd c st)) ∧
      (i = (false, opExec) → ∀ b, exec (.exec n q cid b) s = .next (s.failCmd c st))) ∧
    (∀ x, s.toCheck n q cid opRead = some c → s.checks c bufs = .ok x →
      (x.isStream = true → s.streamBound x.f.nsid c.e.stream = true ∧ c.e.addr + c.e.len ≤ s.streamEnd c.e.stream) →
      exec (.read n q cid bufs) s = .next (s.modCmd c.seq fun c => { c with stage := .waiting, left := c.e.len })) ∧
    (∀ x, s.toCheck n q cid opWrite = some c → s.checks c bufs = .ok x → (x.isStream = true → s.streamWriteCheck x c.e = none) →
      exec (.write n q cid bufs) s = .next (s.modCmd c.seq fun c => { c with stage := .needData, left := c.e.len })) ∧
    (∀ x, s.toCheck n q cid opDiscard = some c → s.checks c [] = .ok x → (x.isStream = true → s.streamWriteCheck x c.e = none) →
      exec (.discard n q cid) s = .next (s.modCmd c.seq fun c => { c with stage := .waiting, left := c.e.len })) ∧
    (∀ x, s.toCheck n q cid opFlush = some c → s.checks c [] = .ok x →
      exec (.flush n q cid) s = .next (s.modCmd c.seq fun c => { c with stage := .waiting, ring := x.ring })) ∧
    (∀ x h, s.toCheck n q cid opAppend = some c → s.checks c bufs = .ok x → s.mirrorCheck x = none →
      s.recordCheck x h true c.e.len (s.grantOf n).write = none → exec (.append n q cid h bufs) s =
        .next (s.modCmd c.seq fun c => { c with stage := .needClass, left := c.e.len, hdr := some h })) ∧
    (∀ x b, s.toCheck n q cid opExec = some c → s.checks c [] = .ok x → s.execWindow n (s.execBlock n b) = true →
      s.execCheck n x (s.execBlock n b) = none → exec (.exec n q cid b) s = .next ((s.modAnv fun a => { a with
        insts := a.insts ++ [Inst.fresh a.nextInst n q cid c.e.nsid (s.execBlock n b)], nextInst := a.nextInst + 1 }).modCmd
        c.seq fun c => { c with stage := .waiting, left := 1, inst := s.anv.nextInst }))

/-- Data that arrives for a command, a record whole or whole units of a write, and finds room joins what it holds and
makes it wait for admission where its check values are right (for an append: of an unmirrored namespace), and a wrong
one ends it with that check's status: at once where nothing of it is admitted, else with the parts admitted. The class
of a host append that passes R207 makes it wait for its data; the class of a link record of an unmirrored namespace
with a right PAY_CRC is kept with the record. An ingest segment, full or of an epoch past its cut point, whose frame
saves a codeword, whose records have room in the epoch and which decodes back is staged as one compressed item; one
that saves none or has no room stays as admitted, and one that does not decode back stays as admitted and is counted
and logged. Without admission open, nothing is admitted. With it, the first function in turn whose oldest command
waits has it admitted: a write as far as the credit of R55 reaches, the units fetched and the credit charged, the
command needing this epoch; a discard whole; a read as far as its credit reaches; an append of an unmirrored namespace
that its gate lets go, with the releases that make room; an exec to its start; a command whose namespace is no longer
accessible or whose image slot has left STAGING ends with the failing check's status; the turn goes to the next
holder. (R54, R55, R81, R109, R197, R203, R207, R238, R239, R377, R483) -/
def Obligations.IngestAndAdmission : Prop :=
  ∀ (s : State) (n q cid : Nat),
    (∀ c x bytes pi, (s.q.cmds.find? fun c => c.fn == n && c.qid == q && c.e.cid == cid) = some c →
      s.store.ns? c.e.nsid = some x → c.toFetch x = true → c.fetchOk x bytes.length = true →
      pi.length = (if piLen x = 0 then 0 else bytes.length / 4096) →
      s.ingressFits n bytes.length (c.e.opc == opAppend) = true →
      (∀ st, dataCheck x c bytes pi = some st → exec (.dataFetchDone n q cid bytes pi) s = .next (s.cutShort c st)) ∧
      (dataCheck x c bytes pi = none → (c.e.opc ≠ opAppend ∨ x.mirror = false) → exec (.dataFetchDone n q cid bytes pi) s =
        .next (s.modCmd c.seq fun c => { c with stage := .waiting, bytes := c.bytes ++ bytes, pi := c.pi ++ pi }))) ∧
    (∀ c x h, (s.q.cmds.find? fun c => c.fn == n && c.qid == q && c.e.cid == cid && c.stage == .needClass) = some c →
      s.store.ns? c.e.nsid = some x → c.hdr = some h → let r := s.classify (classKey c.fn 0 x.f.nsid s.srcNode h)
      r.2.2.ingestCheck x h r.1 = none → exec (.classificationResult (.host n q cid)) s =
        .next (r.2.2.modCmd c.seq fun c => { c with stage := .needData, word := some r.1, matched := r.2.1, room := wordIdx r.1 })) ∧
    (∀ p y x h, s.linkRec? p cid = some y → s.store.ns? y.nsid = some x → y.hdr = some h → y.word = none → y.mirror = false →
      let r := s.classify (classKey 0 (p + 1) x.f.nsid h.srcNode { h with stream := y.stream })
      r.2.2.ingestCheck x { h with stream := y.stream } r.1 = none → payCrcOk h y.bytes = true →
      exec (.classificationResult (.link p cid)) s =
        .next (r.2.2.modRec p y.rid fun z => { z with word := some r.1, matched := r.2.1 })) ∧
    (∀ i st w len, (s.halo.segs.any fun g => g.nsid == i && g.stream == st && g.window == w) = true →
      (s.hz.phase = .accept → (w + 1) * 65536 ≤ s.streamEnd st) →
      let us := s.segUnits i st w; let c := (96 + len + 4095) / 4096
      let s1 := s.modHalo fun h => { h with segs := h.segs.filter fun g => !(g.nsid == i && g.stream == st && g.window == w) };
      let go := s.segLevel i st us ≠ 0 ∧ c < us.length ∧ s.metaFits 0 us.length = true
      (go → exec (.segmentCompressDone i st w len true) s =
        .next ((s1.modSq fun z => { z with compressed := z.compressed + 1 }).modEpoch fun e => { e with
          fx := packSegment i (us.map fun u => streamKey st (4096 * u)) c (s.segLevel i st us, len) e.fx
          hostRecs := e.hostRecs + us.length })) ∧
      (go → ∃ t, exec (.segmentCompressDone i st w len false) s = .next t ∧
        t.sq.verifyFails = s.sq.verifyFails + 1 ∧ t.hz = s.hz ∧ t.recs.nextIdx = s.recs.nextIdx + 1) ∧
      (¬ go → ∀ ok, exec (.segmentCompressDone i st w len ok) s =
        .next (s1.modSq fun z => { z with asAdmitted := z.asAdmitted + 1 }))) ∧
    (s.admits = false → exec .admission s = .next s) ∧
    (∀ hs c cs x, s.admits = true → turnOrder (s.hz.credits.map (·.holder)) s.hz.turn = n :: hs → n < 256 →
      (s.credit n).hold = false → s.link.below = false → s.fnState n = .active →
      (s.q.cmds.filter fun c => c.fn == n) = c :: cs → c.stage = .waiting → c.ended = false → s.mustWait c = false →
      s.store.ns? c.e.nsid = some x →
      let pass := fun (t : State) => t.modHz fun z => { z with turn := nextHolder (z.credits.map (·.holder)) n };
      (c.done = 0 → c.e.opc ≠ opFlush → ∀ st, s.accessCheck c = some st →
        exec .admission s = .next (pass (s.failCmd c st))) ∧
      (c.done = 0 → s.accessCheck c = none → (c.e.opc = opWrite ∨ c.e.opc = opDiscard) → s.slotRefuses x c = true →
        exec .admission s = .next (pass (s.failCmd c St.imgSlotState))) ∧
      ((c.done = 0 → s.accessCheck c = none) → c.e.opc = opWrite → s.slotRefuses x c = false →
        let k := min (min (c.left / unitLen x) (c.fetchedUnits x)) ((s.credit c.fn).write / (4096 * s.copies c.e.nsid))
        0 < k → s.metaFits (piLen x * k) (s.copies c.e.nsid) = true → ∃ t, exec .admission s = .next t ∧
          t = pass (s.writePiece x c k) ∧ t.store = s.store ∧
          t.q.cmds = updIf (fun y => y.seq == c.seq) (fun y => { y with
            done := y.done + k * unitLen x, left := y.left - k * unitLen x, need := s.hz.epoch
            pieces := y.pieces ++ [(s.hz.epoch, k * unitLen x)]
            stage := if y.left ≤ k * unitLen x then .admitted else y.stage }) s.q.cmds) ∧
      (c.done = 0 → s.accessCheck c = none → c.e.opc = opDiscard → s.slotRefuses x c = false →
        s.metaFits 0 (s.copies c.e.nsid) = true → ∃ t, exec .admission s = .next t ∧ t.store = s.store ∧
          t.q.cmds = updIf (fun y => y.seq == c.seq) (fun y => { y with
            done := y.left, left := 0, need := s.hz.epoch, stage := .admitted, pieces := [(s.hz.epoch, y.left)] })
            s.q.cmds) ∧
      ((c.done = 0 → s.accessCheck c = none) → c.e.opc = opRead →
        ¬ (x.isIns = true ∧ c.e.addr < x.f.capacity ∧ x.activeSlot = none ∧ c.done = 0) →
        let k := if x.isBlock then min c.left ((s.credit c.fn).read / 4096) else min c.left (s.credit c.fn).read
        0 < k → exec .admission s = .next (pass (s.readPart x
          (if c.done = 0 then { c with offset := x.aliasBase c.e.addr } else c) k))) ∧
      (∀ h w plan, c.done = 0 → s.accessCheck c = none → c.e.opc = opAppend → c.hdr = some h → c.word = some w →
        s.streamOpen x.f.nsid h.stream = true → x.mirror = false → s.routeFull x.f.nsid h.stream (32 + h.declLen) = false →
        (s.dropCmd c.seq).recGate c.fn x h.stream h.declLen w = .go plan →
        exec .admission s = .next (pass (s.appendGo x c h w plan))) ∧
      (c.done = 0 → s.accessCheck c = none → c.e.opc = opExec → exec .admission s = .next (pass ((s.modAnv fun a => { a with
        insts := (a.insts.filter fun i => i.id != c.inst) ++ a.insts.filter fun i => i.id == c.inst }).modCmd c.seq
          fun x => { x with stage := .execing }))))

/-- A power-on reset outside a drain leaves the device in BOOT with LAST_RESET 0, Horizon STOPPED over the durable state,
which outside a seal window is untouched, no command, only PF0 with the durable PF0 grant, every digest context FREE
and the log empty; in a drain it is held off. A write of CTRL_RESET with the key in a ticking state begins a
controller reset: PSTATE is RESETTING, no command of any created function remains, and nothing durable changes; with
another key, or in BOOT, it is ignored. Once every admitted epoch is sealed, the reset leaves the same state as
power-on over the sealed state, but LAST_RESET 1 and the log kept, after Halted with the NAMESPACE events of
namespaces that leave HALTED added (log 133, DEDUCED) (stated for a part whose OTP reads well). (R253, R420, R424,
R439, R440, R447, R471) -/
def Obligations.ResetsKeepTheSealedState : Prop :=
  ∀ (s : State),
    (s.pw.st ≠ .draining → ∃ t, exec .powerOnReset s = .next t ∧ t.pw.st = .boot ∧ t.pw.lastReset = 0 ∧
      t.pw.resetN = false ∧ t.hz.st = .stopped ∧ t.hz.ticking = false ∧ t.hz.sealed = t.store.sealed ∧
      (∀ e ∈ t.hz.epochs, e.isSealed = true) ∧ t.q.cmds = [] ∧ t.fns = [t.store.pf0] ∧ t.dg = List.replicate 16 .free ∧
      t.recs.log = [] ∧ ((s.hz.ticking = false ∨ s.hz.phase ≠ .sealWindow) → t.store = s.store ∧
        t.flash.cells = s.flash.cells ∧ t.fw.slots = s.fw.slots)) ∧
    (s.pw.st = .draining → exec .powerOnReset s = .next { s with pw := { s.pw with heldPor := true } }) ∧
    (∀ k, k ≠ 0xC4A5 ∨ s.pw.st = .boot → exec (.ctrlReset k) s = .next s) ∧
    (s.pw.st = .p0 ∨ s.pw.st = .p1 ∨ s.pw.st = .p2 ∨ s.pw.st = .halted → ∃ t, exec (.ctrlReset 0xC4A5) s = .next t ∧
      t.pw.st = .resetting ∧ t.store = s.store ∧ (∀ c ∈ t.q.cmds, s.fnExists c.fn = false) ∧ t.hz.epoch = s.hz.epoch) ∧
    (s.pw.st = .draining → exec (.ctrlReset 0xC4A5) s = .next { s with pw := { s.pw with heldReset := true } }) ∧
    (s.pw.st = .resetting → s.allSealed = true → s.fw.otpOk = true → ∃ t, exec .ctrlResetSealsDone s = .next t ∧
      t.store = s.store ∧ t.pw.st = .boot ∧ t.pw.lastReset = 1 ∧ t.hz.st = .stopped ∧ t.hz.ticking = false ∧ t.q.cmds = [] ∧
      t.dg = List.replicate 16 .free) ∧
    (s.pw.st = .resetting → s.allSealed = true → s.fw.otpOk = true → s.hz.st ≠ .halted → ∃ t,
      exec .ctrlResetSealsDone s = .next t ∧ t.fns = [s.store.pf0] ∧ t.recs.log = s.recs.log) ∧
    (s.pw.st = .resetting → s.allSealed = true → s.hz.st = .halted → ∃ t, exec .ctrlResetSealsDone s = .next t ∧
      t.recs.log = (s.restart false).nsRestored.recs.log) ∧
    (s.pw.st ≠ .resetting → exec .ctrlResetSealsDone s = .next s)

/-- The release of RESET_N with TEST_EN low, PWRFAIL_N high and no trip runs the boot ROM: it starts the TRIAL slot if one
is set, else the COMMITTED slot, and the other slot where that one fails its checks, and clears the TRIAL mark; where
neither passes it enters recovery mode; with TEST_EN high no function is presented. When Sutas firmware runs, BOOT
becomes HELD and the hold-up measurement begins (stated for a board with a record). Channels that are trained are
brought up without a report; a report of a channel leaves its dies, in the order of their numbers, its rate and its
profile as the Read ID bytes and the profiles of the running image give them, and a channel with a die that no valid
profile fits stops at step 3. Recovery ends with the resynchronisation narrowed where an intent copy was found and in
full otherwise (stated for a device outside a group). HELD with recovery done and hold-up accepted is left for P0:
Horizon RUNNING, the first epoch HIGH_WATER + 1 in its accept phase. (R45, R65, R67, R136, R189, R410, R424, R430,
R434, R472) -/
def Obligations.BootToTheFirstTick : Prop :=
  ∀ (s : State),
    (s.pw.resetN = false → ∃ t, exec (.resetNRelease true) s = .next t ∧ t.fns = [] ∧ t.pw.resetN = true ∧ t.store = s.store) ∧
    (s.pw.resetN = false → s.pw.pwrfailLow = false → s.pw.tripped = false → s.fw.otpOk = true →
      (∀ i sl, s.fw.pick = some i → s.fw.slots[i]? = some sl → ∃ t, exec (.resetNRelease false) s = .next t ∧
        t.fw.running = i ∧ t.fw.runImg = sl.img ∧ t.fw.trial = none ∧ t.fw.recovery = false ∧ t.fw.romDone = true ∧
        t.fw.isCommitted = (i == s.fw.committed) ∧ t.fw.slots = s.fw.slots ∧ t.pw.pwrSafe = false ∧ t.store = s.store) ∧
      (s.fw.pick = none → ∃ t, exec (.resetNRelease false) s = .next t ∧ t.fw.recovery = true ∧ t.store = s.store)) ∧
    (∀ i, s.fw.pick = some i → s.fw.bootable i = true) ∧
    (∀ b, s.pw.st = .boot → s.fw.romDone = true → s.pw.resetN = true → s.pw.pwrfailLow = false → s.boardRecord = some b →
      exec .sutasFirmwareRunning s = .next { s with pw := { s.pw with
        st := .held, holdup := { s.pw.holdup with phase := .settling, samples := [], longId := none } } }) ∧
    (∀ rs, s.pw.st = .boot ∨ s.pw.st = .held → s.pw.bringupDone = false → s.pw.resetN = true → s.flash.trained = true →
      exec (.channelBringup rs) s = .next { s with
        flash := { s.flash with wpAsserted := false, trained := true }, pw := { s.pw with bringupDone := true } }) ∧
    (∀ r, s.pw.st = .boot ∨ s.pw.st = .held → s.pw.bringupDone = false → s.pw.resetN = true → s.flash.trained = false →
      ∃ t, exec (.channelBringup [r]) s = .next t ∧ t.flash.trained = true ∧ t.flash.wpAsserted = false ∧
        t.pw.bringupDone = true ∧ t.flash.channels = (s.flash.channels.filter fun c => c.ch != r.ch) ++ [(s.channelOf r).1] ∧
        ((s.channelOf r).1.failed = 0 → t.store = s.store)) ∧
    (∀ r, let ps := s.fw.runImg.profiles.filter (·.valid); let ds := sortOn (fun d : DieReport => 4 * d.ce + d.lun) r.dies
      r.dies.length ≤ 16 → (s.channelOf r).1.luns = ds.map (fun d => (d.ce, d.lun)) ∧
        ((∃ d ∈ r.dies, profileOf ps d.id = none) → r.failed = 0 → (s.channelOf r).1.failed = 3) ∧
        (∀ d p, ds.head? = some d → profileOf ps d.id = some p → (s.channelOf r).1.profile = p ∧
          (s.channelOf r).1.rate ≤ p.maxRate)) ∧
    (∀ b, s.pw.st = .held → s.pw.bringupDone = true → s.pw.recovered = false → s.pw.pwrfailLow = false →
      s.store.grouped = false → ∃ t, exec (.recovery b) s = .next t ∧ t.pw.recovered = true ∧ t.flash.resyncFull = !b ∧
        t.store.map = s.store.map ∧ t.store.recs = s.store.recs ∧ t.store.sealed = s.store.sealed) ∧
    (s.pw.st = .held → s.pw.recovered = true → s.pw.holdup.ok = true → ∃ t, exec .heldExit s = .next t ∧
      t.pw.st = .p0 ∧ t.hz.st = .running ∧ t.hz.ticking = true ∧ t.hz.epoch = s.store.highWater + 1 ∧
      t.hz.phase = .accept ∧ t.store = s.store) ∧
    (s.pw.st = .held → s.pw.recovered = false ∨ s.pw.holdup.ok = false → exec .heldExit s = .next s)

/-- PWRFAIL_N low in a ticking state stops admission and ticking, PSTATE DRAINING, the open accept epoch discarded, the
durable state untouched; in Halted it changes nothing else, and in P4, and during the boot (log 132, DEDUCED), the
device is STOPPED at once. The drain ends, once every epoch past its cut point is sealed or an inhibit has begun, with
the device STOPPED, PWRSAFE_N and the write protect asserted, every unsealed epoch discarded (stated without a
held-off reset). PWRFAIL_N high again begins the 100 ms wait in DRAINING and STOPPED alone; its end holds a controller
reset during the drain. A thermal trip asserts FAULT_N and drains; in HALTED, where nothing is left to seal, the
device is STOPPED at once (log 139, DEDUCED). A supply inhibit stops programs until its release, and counts in each
die of a channel; a reading of the sensors sets TJ_MAX, and the first one at the threshold raises the warning. (R66,
R161, R437, R438, R442, R468) -/
def Obligations.DrainAndTrip : Prop :=
  ∀ (s : State),
    (s.pw.st = .p0 ∨ s.pw.st = .p1 ∨ s.pw.st = .p2 → ∃ t, exec .pwrfailAssert s = .next t ∧ t.pw.st = .draining ∧
      t.pw.pwrfailLow = true ∧ t.hz.st = .draining ∧ t.hz.ticking = false ∧ t.store = s.store ∧ t.anv.insts = [] ∧
      ((∀ e, s.epoch? = some e → e.closed = false) → s.hz.phase = .accept → ∀ e ∈ t.hz.epochs, e.n ≠ s.hz.epoch)) ∧
    (s.pw.st = .halted → exec .pwrfailAssert s = .next { s with pw := { s.pw with pwrfailLow := true, highTimer := false } }) ∧
    (s.pw.st = .p4 ∨ (s.pw.st = .boot ∧ s.pw.resetN = true) → ∃ t, exec .pwrfailAssert s = .next t ∧ t.pw.st = .stopped ∧ t.pw.pwrSafe = true ∧ t.store = s.store) ∧
    (s.pw.st = .draining → s.drained = true ∨ s.flash.inhibited = true → s.pw.heldPor = false → s.pw.heldReset = false →
      ∃ t, exec .drainEnd s = .next t ∧ t.pw.st = .stopped ∧ t.pw.pwrSafe = true ∧ t.hz.st = .stopped ∧
        t.flash.wpAsserted = true ∧ t.store = s.store ∧ ∀ e ∈ t.hz.epochs, e.isSealed = true) ∧
    (s.pw.st = .draining → s.drained = false → s.flash.inhibited = false → exec .drainEnd s = .next s) ∧
    exec .pwrfailDeassert s = .next { s with pw := { s.pw with
      pwrfailLow := false, highTimer := s.pw.st == .draining || s.pw.st == .stopped } } ∧
    (s.pw.st = .draining → s.pw.highTimer = true → exec .pwrfailHighTimerExpiry s =
      .next { s with pw := { s.pw with highTimer := false, heldReset := true } }) ∧
    (s.pw.st = .stopped → s.pw.highTimer = true → s.pw.tripped = false → ∃ t, exec .pwrfailHighTimerExpiry s = .next t ∧
      t.pw.st = .boot ∧ t.pw.lastReset = 1 ∧ t.store = s.store) ∧
    (s.pw.st = .p0 ∨ s.pw.st = .p1 ∨ s.pw.st = .p2 → s.pw.tripped = false → ∃ t, exec .thermalTrip s = .next t ∧
      t.pw.tripped = true ∧ t.pw.fault = true ∧ t.pw.st = .draining ∧ t.hz.ticking = false ∧ t.store = s.store) ∧
    (s.pw.st = .halted → s.pw.tripped = false → ∃ t, exec .thermalTrip s = .next t ∧ t.pw.tripped = true ∧
      t.pw.fault = true ∧ t.pw.st = .stopped ∧ t.pw.pwrSafe = true ∧ t.store = s.store) ∧
    (∀ m, s.flash.monitors.contains m = false → ∃ t, exec (.supplyInhibit m) s = .next t ∧ t.flash.inhibited = true ∧
      t.store = s.store ∧ t.hz = s.hz ∧ t.flash.monitors = s.flash.monitors ++ [m] ∧
      (s.allDies.Nodup → ∀ g ∈ s.allDies, (t.die g).inhibits = (s.die g).inhibits + 1) ∧
      ∀ g, g ∉ s.allDies → t.die g = s.die g) ∧
    exec .supplyInhibitRelease s = .next { s with flash := { s.flash with monitors := [], inhibited := false } } ∧
    (∀ r rs, s.pw.st = .p0 → ∃ t, exec (.thermalSensorSample (r :: rs)) s = .next t ∧ t.pw.tjMax = rs.foldl max r ∧
      (s.pw.warn = false → (s.param 0x0C10 0 : Int) ≤ rs.foldl max r → t.pw.warn = true) ∧
      (s.pw.warn = true → rs.foldl max r ≤ (s.param 0x0C10 0 : Int) - 5 → t.pw.warn = false) ∧ t.store = s.store)

/-- While the bus settles, a sample is kept among the last ten; once ten samples lie within 0.5 % of their mean, V_start
is that mean and the test load is on; after 10 s the measurement fails with ST_PW_HOLDUP_CHARGE. Under load, a sample
that is neither 3 % below V_start nor taken at 2 ms changes nothing; the first such sample ends the measurement:
HOLDUP_OK is 1 exactly where 0.97 V_start is above V_MIN and E_u reaches E_req, and the status is ST_OK or
ST_PW_HOLDUP_LOW. (R434, R435, R444) -/
def Obligations.HoldupMeasurement : Prop :=
  ∀ (s : State) (v us : Nat),
    (s.pw.holdup.phase = .settling → s.pw.holdup.samples.length < 9 → exec (.holdupSample v) s =
      .next { s with pw := { s.pw with holdup := { s.pw.holdup with samples := s.pw.holdup.samples ++ [v] } } }) ∧
    (∀ w, s.pw.holdup.phase = .settling → s.pw.holdup.samples.length = 9 → w = s.pw.holdup.samples ++ [v] →
      settled w = true → exec (.holdupSample v) s = .next { s with pw := { s.pw with
        holdup := { s.pw.holdup with phase := .loaded, samples := [], vStart := w.foldl (· + ·) 0 / 10 }, huLoad := true } }) ∧
    (s.pw.holdup.phase = .settling → ∃ t, exec .holdupChargeTimeout s = .next t ∧ t.pw.holdup.phase = .idle ∧
      t.pw.holdup.ok = false ∧ t.pw.holdup.status = St.pwHoldupCharge ∧ t.store = s.store) ∧
    (s.pw.holdup.phase = .loaded → 100 * (s.pw.holdup.vStart - v) < 3 * s.pw.holdup.vStart → us < 2000 →
      exec (.holdupLoadSample v us) s = .next s) ∧
    (∀ r, s.pw.holdup.phase = .loaded → s.boardRecord = some r →
      3 * s.pw.holdup.vStart ≤ 100 * (s.pw.holdup.vStart - v) ∨ 2000 ≤ us →
      let ok := holdupOk s.pw.holdup r us (s.pw.holdup.vStart - v)
      ∃ t, exec (.holdupLoadSample v us) s = .next t ∧ t.pw.holdup.phase = .idle ∧ t.pw.huLoad = false ∧ t.store = s.store ∧
        t.pw.holdup.ok = ok ∧ t.pw.holdup.status = (if ok then St.ok else St.pwHoldupLow) ∧
        (ok = false → s.hz.ticking = true → s.pw.entry = .none → t.pw.entry = .toHeld))

/-- A watchdog expiry outside BOOT, STOPPED and a restart begins a restart of the control processors, logs it, ends an
activation under way, and touches nothing durable; where it is the third within 60 s of a RUNNING or LATE device, the
device is Halted. The end of the restart with a failed image check begins a controller reset; with a good one, and no
seal meanwhile, the completions that are due follow. A P3 or P4 entry whose commands and seals have ended is quiesced.
The seal that carries the P4 checkpoint takes the device to P4: ticking stops, every digest context is FREE, every
port off, PWRSAFE_N asserted. (R253, R415, R425, R428, R429, R441) -/
def Obligations.WatchdogAndEntries : Prop :=
  ∀ (s : State),
    (s.pw.restarting = false → s.pw.st ≠ .boot → s.pw.st ≠ .stopped → ∃ t, exec .watchdogExpiry s = .next t ∧
      t.pw.restarting = true ∧ t.store = s.store ∧ t.pw.restarts = s.recentRestarts ++ [s.hz.uptimeUs] ∧
      (s.fw.phase ≠ .idle → t.fw.phase = .idle) ∧
      (2 ≤ s.recentRestarts.length → s.hz.st = .running ∨ s.hz.st = .late → t.hz.st = .halted) ∧
      (s.recentRestarts.length < 2 → t.hz = s.hz ∧ t.dg = s.dg)) ∧
    (s.pw.restarting = true → exec .watchdogExpiry s = .next s) ∧
    (s.pw.restarting = true → ∃ t, exec (.fwRestartDone false) s = .next t ∧ t.pw.st = .resetting ∧ t.store = s.store) ∧
    (s.pw.restarting = true → s.hz.sealed = s.pw.restartSealed → exec (.fwRestartDone true) s =
      .next ({ s with pw := { s.pw with restarting := false } } : State).endDue) ∧
    (s.q.cmds = [] → s.allSealed = true → s.pw.entry = .toP3 ∨ s.pw.entry = .toP4 →
      exec .p3Quiesced s = .next { s with pw := { s.pw with quiesced := true } }) ∧
    (s.pw.entry = .toP4 → s.pw.quiesced = true → s.dirty = 0 → s.flash.ckpt = none → s.allSealed = true →
      ∃ t, exec .p4CheckpointSealed s = .next t ∧ t.pw.st = .p4 ∧ t.pw.entry = .none ∧ t.pw.pwrSafe = true ∧
        t.hz.ticking = false ∧ t.hz.st = .stopped ∧ t.store = s.store ∧ (∀ c ∈ t.dg, c.st = .free) ∧
        ∀ p ∈ t.zl.ports, p.st = .off)

/-- For an item of an epoch whose landing runs, no inhibit being in force, and whose codewords are to be had from an
address on (the condition landingFits): its confirmation puts a codeword of that epoch at each of these addresses, the
first with the item's units, and marks the item, and no other, as landed there; its failure makes the block a victim
that is to be retired (unless it is retired or awaits its erase already), counts in the die, and leaves the epochs as
they are, so that the item is still to be programmed. A copy of a move whose intent entry is confirmed, while programs
run without an inhibit, makes every move to that address confirmed and puts the source's units, or a unit of zeros,
there; one that fails makes the block a victim and counts in the die. No program changes the durable state. (R43,
R120, R122, R124, R153, R161, R163) -/
def Obligations.ProgramsLand : Prop :=
  ∀ (s : State) (n i a : Nat),
    (∀ r, s.landingFits n i a = some r →
      (∃ t, exec (.landingProgramDone n i a) s = .next t ∧ t.store = s.store ∧ t.q = s.q ∧
        t.hz.epochs = updIf (fun e => e.n == n)
          (fun e => { e with fx := setItem (fun x => { x with addr := some a, confirmed := true }) e.fx i }) s.hz.epochs ∧
        r.2.1.length = max 1 r.1.codewords ∧ (∀ x ∈ r.2.1, ∃ c ∈ t.flash.cells, c.addr = x ∧ c.epoch = n ∧ c.item = a) ∧
        (∃ c ∈ t.flash.cells, c.addr = a ∧ c.units = r.1.units ∧ c.epoch = n ∧ c.pi = r.1.pi) ∧
        ∀ c ∈ s.flash.cells, c ∈ t.flash.cells) ∧
      ∃ t, exec (.landingProgramFail n i a) s = .next t ∧ t.store = s.store ∧ t.q = s.q ∧ t.hz = s.hz ∧
        (∀ b ∈ t.flash.blocks, b.blk = blockOf a → b.st = .retired ∨ b.st = .eraseWait ∨ (b.st = .victim ∧ b.failed = true)) ∧
        (t.die (globalDie a)).progFails = (s.die (globalDie a)).progFails + 1 ∧ t.flash.cells = s.flash.cells) ∧
    (s.landingFits n i a = none → exec (.landingProgramDone n i a) s = .next s ∧ exec (.landingProgramFail n i a) s = .next s) ∧
    (∀ m, (s.flash.moves.find? fun m => m.dst == a && !m.confirmed) = some m → s.programsRun = true → s.flash.inhibited = false →
      s.intentKept m.epoch = true → ∃ t, exec (.moveProgramDone a) s = .next t ∧ t.store = s.store ∧ t.hz = s.hz ∧ t.q = s.q ∧
        t.flash.moves = updIf (fun x => x.dst == a) (fun x => { x with confirmed := true }) s.flash.moves ∧
        (m.zero = true → ∃ x ∈ t.flash.cells, x.addr = a ∧ x.units = [(m.key, [])]) ∧
        (∀ c, m.zero = false → s.cell? m.src = some c → (s.itemCells c).head? = some c → m.cws.contains a = true →
          ∃ x ∈ t.flash.cells, x.addr = a ∧ x.units = c.units ∧ x.nsid = c.nsid ∧ x.key = c.key ∧ x.epoch = m.epoch)) ∧
    (s.programsRun = true → (s.flash.moves.any fun m => m.dst == a && !m.confirmed && s.intentKept m.epoch) = true →
      ∃ t, exec (.moveProgramFail a) s = .next t ∧ t.store = s.store ∧ t.hz = s.hz ∧ t.q.cmds = s.q.cmds ∧
        (∀ b ∈ s.flash.blocks, b.blk = blockOf a → ∃ y ∈ t.flash.blocks, y.blk = b.blk ∧
          (y.st = .retired ∨ y.st = .eraseWait ∨ (y.st = .victim ∧ y.failed = true))) ∧
        (t.die (globalDie a)).progFails = (s.die (globalDie a)).progFails + 1)

/-- Where moves run: FOLD makes every full landing block of the oldest foldable super-block a victim, GC_COLLECT its
collectable block, and CONSOLIDATION of an extent with enough hot units that fits at its target adds a move of each of
its units, in order; none changes the map or an epoch. The erase of a block that awaits it, with no read pending,
starts in the accept phase; once done, its codewords are gone, its wear is one higher, and it is FREE below the P/E
limit of its mode and retired at it; an erase that fails retires the block. A loaded segment is whole and holds no
entries of its own, and the commands that wait for it go on; the oldest dirty segment that may be written is
programmed and queued for the next seal; a checkpoint of the directory is programmed and waits for its seal. (R103,
R105, R108, R112, R113, R121, R122, R124, R163) -/
def Obligations.BlocksAndSegments : Prop :=
  ∀ (s : State) (a b : Nat),
    (∀ sb, s.oldestLanding = some sb → s.movesRun = true → ∃ t, exec (.fold a) s = .next t ∧ t.store = s.store ∧ t.hz = s.hz ∧
      ∀ x ∈ s.flash.blocks, superOf x.blk = sb → x.st = .fullLanding → ∃ y ∈ t.flash.blocks, y.blk = x.blk ∧ y.st = .victim) ∧
    (∀ x, s.flash.blocks.find? (fun x => x.blk == b) = some x → s.movesRun = true → s.collectable x = true →
      ∃ t, exec (.gcCollect b a) s = .next t ∧ t.store.map = s.store.map ∧ t.store.extents = s.store.extents ∧ t.hz = s.hz ∧
        ∃ y ∈ t.flash.blocks, y.blk = b ∧ y.st = .victim) ∧
    (∀ i k x u r, (s.store.extents.filter fun x => x.run != [] && x.ovl.isSome).find? (fun x => x.nsid == i && x.key == k) = some x →
      s.movesRun = true → s.param 0x0513 0 ≤ x.hot.length → s.withSuper false (superOf a) 1 = some u →
      u.moveExtent a i k = some r → exec (.consolidation i k a) s = .next r.2 ∧ r.2.store = s.store ∧ r.2.hz = s.hz ∧
        ∃ ms, r.2.flash.moves = s.flash.moves ++ ms ∧ ms.map (·.key) = (s.extentPlan i k).map (·.1) ∧
          ∀ m ∈ ms, m.nsid = i ∧ m.coarse = true ∧ m.confirmed = false) ∧
    (s.reserveRuns = true → s.hz.phase = .accept → (s.q.cmds.any fun c => c.toRead.any fun x => blockOf x.1 == b) = false →
      (s.flash.blocks.any fun x => x.blk == b && x.st == .eraseWait && !x.erasing && decide (x.eraseFrom ≤ s.hz.epoch)) = true →
      exec (.blockErase b) s = .next (s.modBlock b fun x => { x with erasing := true, suspends := 0 })) ∧
    (∀ x, s.flash.blocks.find? (fun x => x.blk == b && x.erasing) = some x →
      let w := assoc (bump s.flash.wear (2 * b + b2n x.qlc) 1) (2 * b + b2n x.qlc) + assoc s.flash.formed (addrCh b)
      ∃ t, exec (.eraseDone b) s = .next t ∧ t.store = s.store ∧ (∀ c ∈ t.flash.cells, blockOf c.addr ≠ b) ∧
        t.flash.wear = bump s.flash.wear (2 * b + b2n x.qlc) 1 ∧
        (w < FlashProfile.peLimit s.profile (b2n x.qlc) → (∀ y ∈ t.flash.blocks, y.blk ≠ b) ∧ t.flash.erased = s.flash.erased ++ [b]) ∧
        (FlashProfile.peLimit s.profile (b2n x.qlc) ≤ w → ∀ y ∈ t.flash.blocks, y.blk = b → y.st = .retired)) ∧
    ((s.flash.blocks.any fun x => x.blk == b && x.erasing) = true → ∃ t, exec (.eraseFail b) s = .next t ∧ t.store = s.store ∧
      ∀ y ∈ t.flash.blocks, y.blk = b → y.st = .retired) ∧
    (∀ i ty k, (s.flash.dirEnts.any fun x => x.1 == i && x.2.1 == ty && x.2.2.1 == k) = true → s.flash.segs.length < 524288 →
      ∃ u : State, exec (.segmentLoadDone i ty k) s = .next (u.loadDone (i, ty, k)) ∧ u.store = s.store ∧ u.hz = s.hz ∧
        u.q = s.q ∧ (∃ g ∈ u.flash.segs, g.is i ty k = true ∧ g.whole = true ∧ g.held = []) ∧
        ∀ g ∈ s.flash.segs, g.is i ty k = false → g ∈ u.flash.segs) ∧
    (∀ g r, let d := s.store.segBytes g.nsid g.typ g.idx s.store.sealed
      s.oldestDirty = some g → s.reserveRuns = true → g.whole = true → s.programMap a d = some r →
      ∃ t, exec (.segmentWriteback a) s = .next t ∧ t.store = s.store ∧ t.hz = s.hz ∧ t.flash.segs = s.flash.segs ∧
        t.flash.writeback = s.flash.writeback ++ [(g.nsid, g.typ, g.idx, a)] ∧
        ∀ x ∈ r.1.zip (codewordsOf d), ∃ c ∈ t.flash.cells, c.addr = x.1 ∧ c.data = x.2 ∧ c.utype = 3) ∧
    (∀ r, s.reserveRuns = true → s.flash.ckpt = none → s.programMap a (s.store.checkpointBytes s.flash.dirEnts) = some r →
      ∃ t, exec (.directoryCheckpoint a) s = .next t ∧ t.store = s.store ∧ t.hz = s.hz ∧ t.flash.ckpt = some a ∧
        t.flash.ckptCws = r.1 ∧ t.flash.segs = s.flash.segs)

/-- For a codeword that is not on the ladder and whose die does not make the read wait for an erase: a decode within its
iterations that converges with the codeword's namespace, type and key and a right check, of a codeword that can be
read, leaves the ladder as it is; any other puts it on the ladder at the level after the starting one; the decoder's
figures are held. On the ladder a level below L6 that fails gives way to the next; a level that succeeds takes the
codeword off; L6 that fails is L7: each unit that the map still names there and no confirmed copy holds is recorded
LOST by the epoch being accepted, and the codeword is off the ladder. The durable map stays as it is. (R125, R141,
R142, R143, R144, R145, R147, R148, R160) -/
def Obligations.DecodeAndLadder : Prop :=
  ∀ (s : State) (a k it w : Nat) (c : Codeword), s.cell? a = some c →
    ((s.flash.ladders.any fun l => l.addr == a) = false → (s.suspendErase a).isSome = true →
      let l := (s.flash.blocks.find? fun b => b.blk == blockOf a).elim 0 s.startLevel
      (s.unreadable a = false → it ≤ s.iterLimit l →
        ∃ t, exec (.decodeResult a true c.nsid c.utype c.key true ⟨k, it, w⟩) s = .next t ∧ t.store = s.store ∧
          t.flash.ladders = s.flash.ladders ∧ t.flash.cells = s.flash.cells ∧ t.flash.decode = some ⟨a, true, k, it, w⟩) ∧
      (∀ cv i u key ok, ¬ (cv = true ∧ s.unreadable a = false ∧ it ≤ s.iterLimit l ∧ i = c.nsid ∧ u = c.utype ∧ key = c.key ∧
          ok = true) →
        ∃ t, exec (.decodeResult a cv i u key ok ⟨k, it, w⟩) s = .next t ∧ t.store = s.store ∧ t.hz = s.hz ∧
          t.flash.decode = some ⟨a, cv, k, it, w⟩ ∧
          t.flash.ladders = s.flash.ladders ++ [⟨a, if l = 0 then 1 else 2, !(s.readingOf a).isEmpty⟩])) ∧
    (∀ l, s.flash.ladders.find? (fun l => l.addr == a) = some l →
      (s.levelOpen c l.level it = true → ∃ t, exec (.ladderStep a ⟨true, k, it⟩) s = .next t ∧ t.store.map = s.store.map ∧
        t.store.extents = s.store.extents ∧ t.flash.ladders = s.flash.ladders.filter fun x => x.addr != a) ∧
      (l.level < 6 → exec (.ladderStep a ⟨false, k, it⟩) s = .next ((s.countRead (blockOf a)).modFlash fun f => { f with
        ladders := updIf (fun x => x.addr == a) (fun x => { x with level := x.level + 1 }) f.ladders })) ∧
      (6 ≤ l.level → ∃ t, exec (.ladderStep a ⟨false, k, it⟩) s = .next t ∧ t.store.map = s.store.map ∧
        (t.flash.ladders = s.flash.ladders.filter fun x => x.addr != a) ∧ (c.utype ≠ 3 →
        ∀ u ∈ s.lostUnits (s.headOf c), ∀ e ∈ t.hz.epochs, e.n = s.hz.epoch → Fx.lost u.1 u.2 ∈ e.fx)))

/-- A temperature read sets the die's temperature, and a channel at least 10 degrees from its training is to be retrained.
A threshold of the wanted sweep that has its channel's retrain slot with five senses left, within two steps of the
offset in force and within 8 bits, is appended for five senses. A retraining that has the slot and succeeds notes the
temperature and clears the failures, one that fails counts, and the third in a row records the failure of the member.
A die without ready is failed, and its failure recorded by the epoch being accepted. A verify scan notes the codeword
as read, and as failing where it does not decode within the limit; the scan of a super-block that needs nothing more
ends with its parity and its log dropped. A patrol pass that is due or asked for ends with its counts, and the next
one is due one interval later. A parity row that is lost is computed again where its codewords can be read. (R51,
R149, R151, R152, R154, R158, R159, R160, R164, R178) -/
def Obligations.DiesAndScans : Prop :=
  ∀ (s : State) (g ch : Nat) (temp : Int),
    (∃ t, exec (.dieTempRead [(g, temp)]) s = .next t ∧ (t.die g).temp = temp ∧ t.store = s.store ∧ t.hz = s.hz ∧
      ∀ c ∈ t.flash.channels, c.ch = g / 16 → 10 ≤ tempDiff temp c.trainTemp → 1 ≤ c.training) ∧
    (∀ m b best, let x := s.bin (g, m, b)
      let mine := fun c : Channel => c.ch == g / 16 && c.action == .sweep g m b && decide (5 ≤ c.senses)
      s.hz.ticking = true → s.flash.channels.any mine = true → x.wanted = true → x.sweep.length < x.offsets.length →
      (best - x.offsets.getD x.sweep.length 0).natAbs ≤ 2 → -128 ≤ best → best ≤ 127 → exec (.recalibration g m b best) s =
        .next (((s.modBin (g, m, b) fun y => { y with sweep := y.sweep ++ [best] }).modFlash fun f => { f with
          channels := updIf mine (fun c => { c with senses := c.senses - 5 }) f.channels }).countRead (x.sample.getD 0))) ∧
    (∀ c, s.flash.channels.find? (fun c => c.ch == ch && c.action == .interface) = some c →
      let set := fun g : Channel → Channel => s.modFlash fun f => { f with channels := updIf (fun c => c.ch == ch) g f.channels }
      exec (.interfaceRetrain ch true temp) s =
        .next (set fun c => { c with trainTemp := temp, trainFails := 0, training := 0, action := .none }) ∧
      (c.trainFails < 2 → exec (.interfaceRetrain ch false temp) s =
        .next (set fun c => { c with trainFails := c.trainFails + 1, action := .none })) ∧
      (2 ≤ c.trainFails → (s.store.pool.members.any fun x => x.1 == ch && x.2 == .online) = true →
        s.flash.lostMembers.contains ch = false → ∃ t, exec (.interfaceRetrain ch false temp) s = .next t ∧ t.store = s.store ∧
          ch ∈ t.flash.lostMembers ∧ ∀ e ∈ t.hz.epochs, e.n = s.hz.epoch → Ctrl.memberFail ch ∈ e.ctrl)) ∧
    ((s.die g).failed = false → ∃ t, exec (.dieReadyTimeout g) s = .next t ∧ (t.die g).failed = true ∧ t.store = s.store ∧
      ∀ e ∈ t.hz.epochs, e.n = s.hz.epoch → Ctrl.dieFail g ∈ e.ctrl) ∧
    (∀ sb a k p c u, s.flash.parity.find? (fun p => p.sb == sb && p.pending) = some p → s.cell? a = some c → superOf a = sb →
      s.suspendErase a = some u → p.scanned.contains a = false →
      (s.unreadable a = false → k ≤ s.profile.verifyLimit → exec (.verifyScan sb a k true) s =
        .next ((u.countRead (blockOf a)).modFlash fun f => { f with
          parity := updIf (fun q => q.sb == sb) (fun q => { q with scanned := q.scanned ++ [a] }) f.parity })) ∧
      ∃ t, exec (.verifyScan sb a k false) s = .next t ∧ t.store.map = s.store.map ∧ t.hz = s.hz ∧ t.q.cmds = s.q.cmds ∧
        ∃ q ∈ t.flash.parity, q.sb = sb ∧ a ∈ q.scanned ∧ a ∈ q.failing) ∧
    (∀ sb p, s.flash.parity.find? (fun p => p.sb == sb && p.pending) = some p →
      (∀ b ∈ s.flash.blocks, superOf b.blk = sb → b.st = .retired) →
      (∀ m ∈ s.flash.moves, superOf m.src ≠ sb) → s.flash.resyncLeft.contains sb = false →
      exec (.verifyScanEnd sb) s = .next (s.modFlash fun f => { f with
        parity := f.parity.filter fun q => q.sb != sb, logs := f.logs.filter fun l => l.sb != sb })) ∧
    (∀ n l, s.flash.patrol ≠ [] ∨ s.flash.patrolNext ≤ s.hz.uptimeUs → ∃ t, exec (.patrolInterval n l) s = .next t ∧
      t.flash.patrol = [] ∧ t.flash.patrolRead = n ∧ t.store = s.store ∧ t.hz = s.hz ∧ t.flash.cells = s.flash.cells ∧
      t.flash.patrolNext = s.hz.uptimeUs + 3600000000 * s.param 0x0523 0) ∧
    (∀ sb row, exec (.parityRowEccError sb row) s = .next (s.modFlash fun f => { f with
      parity := updIf (fun p => p.sb == sb) (fun p => { p with
        rows := p.rows.filterMap fun r => if r.row = row then s.rowAgain sb r else some r }) f.parity }))

/-- While a member rebuilds in a ticking device without an inhibit: the walk of the next super-block in the order of R183
records LOST every unit of a codeword that it names lost on a lost member, where no confirmed copy holds it, and
changes nothing in the map. Once every super-block is walked and no move of a hurt stripe is open, every REBUILDING
member is CLEAR and the walk is over. A full resynchronisation takes the super-block off its list; a mismatch that it
or a stripe check finds changes nothing in the map or in an epoch; a stripe check without one changes nothing. While a
reshape copies, a live unit of the old layout that the new one does not hold is copied by moves into the new layout, a
closed extent as a whole; once the new layout holds every live unit the switch is recorded by the epoch being
accepted. (R161, R180, R182, R183, R189, R190, R192, R193, R199) -/
def Obligations.RebuildAndReshape : Prop :=
  ∀ (s : State) (sb a : Nat),
    (∀ lost, s.rebuilding = true → s.reserveRuns = true → s.flash.walked.contains sb = false → s.supers.contains sb = true →
      (s.supers.all fun x => s.flash.walked.contains x || s.walksBefore sb x) = true →
      ∃ t, exec (.rebuildWalk sb lost a) s = .next t ∧ t.store.map = s.store.map ∧ t.flash.walking = true ∧
        (s.flash.walking = false → t.flash.walkTotal = s.walkLeft) ∧ t.q.cmds = s.q.cmds ∧
        ∀ c ∈ s.flash.cells, superOf c.addr = sb → lost.contains c.addr = true → (c.utype = 1 ∨ c.utype = 2) →
          s.store.pool.slotLost (addrCh c.addr) (addrDie c.addr) = true → ∀ u ∈ s.lostUnits (s.headOf c),
            ∀ e ∈ t.hz.epochs, e.n = s.hz.epoch → Fx.lost u.1 u.2 ∈ e.fx) ∧
    (s.flash.walking = true → (s.supers.all fun b => s.flash.walked.contains b) = true →
      (s.flash.moves.any fun m => s.stripeHurt m.src) = false → exec .rebuildWalkEnd s = .next { s with
        store := { s.store with pool := { s.store.pool with
          members := s.store.pool.members.map fun m => if m.2 = .rebuilding then (m.1, .clear) else m } }
        flash := { s.flash with walking := false, walked := [] } }) ∧
    (s.flash.walking = false → exec .rebuildWalkEnd s = .next s) ∧
    (s.reserveRuns = true → s.flash.resyncLeft.contains sb = true →
      exec (.resyncFull sb false) s = .next { s with flash := { s.flash with
        resyncLeft := s.flash.resyncLeft.filter fun x => x != sb } } ∧
      ∃ t, exec (.resyncFull sb true) s = .next t ∧ t.store.map = s.store.map ∧ t.hz = s.hz ∧ t.q.cmds = s.q.cmds ∧
        t.flash.resyncLeft = s.flash.resyncLeft.filter fun x => x != sb) ∧
    exec (.stripeCheck sb false) s = .next s ∧
    (s.reserveRuns = true → s.param 0x0611 0 ≠ 0 → (s.flash.stripes.any fun p => p.sb == sb && p.closed) = true →
      ∃ t, exec (.stripeCheck sb true) s = .next t ∧ t.store.map = s.store.map ∧ t.hz = s.hz ∧ t.q.cmds = s.q.cmds ∧
        t.recs.nextIdx = s.recs.nextIdx + 1) ∧
    (∀ k u, let i := newLayout s.store.reshape.nsid
      let whole := s.store.inExtents i && s.closedExtent (extentKey k) &&
        (s.extentPlan i (extentKey k)).all fun x => s.resolve i x.1 == .zero none
      s.store.reshape.st = .copying → s.reserveRuns = true → s.uncopied k = true →
      (s.flash.moves.any fun m => m.nsid == i && m.key == k) = false → s.withSuper false (superOf a) 1 = some u →
      (whole = true → ∀ r, u.moveExtent a i (extentKey k) = some r → exec (.reshapeCopy k a) s = .next r.2 ∧
        r.2.store = s.store ∧ r.2.hz = s.hz) ∧
      (whole = false → ∀ t, u.copyUnits k a = some t → exec (.reshapeCopy k a) s = .next t ∧ t.store = s.store ∧ t.hz = s.hz ∧
        ∃ ms, t.flash.moves = s.flash.moves ++ ms ∧ ∀ m ∈ ms, m.nsid = i ∧ m.confirmed = false ∧
          s.store.mapHit s.store.reshape.nsid m.key = .flash m.src)) ∧
    (s.store.reshape.st = .copying → s.hz.ticking = true → s.reshapeLeft = [] →
      exec .reshapeCopyDone s = .next (({ s with store := { s.store with
        reshape := { s.store.reshape with st := .switchPending } } } : State).record [.reshapeSwitch]))

/-- For every list of at most 14 data codewords of one length with the P and Q that GF(2^8) arithmetic gives them: where
one of them is an erasure, the reconstruction of a stripe with Q gives all of them back from P and Q, from P alone and
from Q alone, and that of a P-only stripe from P; where two are, that of a stripe with Q gives them back from P and Q.
(R176, R177) -/
def Obligations.LostCodewordsRecovered : Prop :=
  ∀ (n : Nat) (ds : List Data), ds.length ≤ 14 → (∀ d ∈ ds, d.length = n) →
    let p := parityP ds
    let q := parityQ ds
    (∀ x, x < ds.length →
      let e := (ds.map some).set x none
      solveStripe true e (some p) (some q) = some ds ∧ solveStripe true e none (some q) = some ds ∧
        solveStripe true e (some p) none = some ds ∧ solveStripe false e (some p) none = some ds) ∧
    ∀ x y, x < y → y < ds.length →
      solveStripe true (((ds.map some).set x none).set y none) (some p) (some q) = some ds

/-- HALO_UPDATE_STEP performs the first waiting step of its table and no other, leaves every other table, durable state
and the queues as they are, and after the last step the waiting reply is staged with ST_OK. A write or a copy leaves
its slot with VALID 0 and every other slot as it was; validate sets VALID; invalidate frees the slot.
HALO_COMPACT_DONE of a compacting table without steps left ends the compaction and its long command with the entries
moved; otherwise it changes nothing. (R218, R219, R221, R224) -/
def Obligations.HaloUpdates : Prop :=
  ∀ (s : State) (n : Nat),
    (s.table? n = none → exec (.haloUpdateStep n) s = .next s ∧ exec (.haloCompactDone n) s = .next s) ∧
    ∀ t, s.table? n = some t →
      (t.steps = [] → exec (.haloUpdateStep n) s = .next s) ∧
      (∀ x xs, t.steps = x :: xs → ∃ u, exec (.haloUpdateStep n) s = .next u ∧ u = { s with halo := u.halo, fns := u.fns } ∧
        u.table? n = some { t.apply x with steps := xs, reply := if xs = [] then none else t.reply } ∧
        (∀ m, m ≠ n → u.table? m = s.table? m) ∧
        (xs = [] → ∀ k op tag vals f r, t.reply = some (k, op, tag, vals) → s.fn? k = some f →
          f.mb.request = some r → r.1 = op → r.2.tag = tag →
          u.fn? k = some { f with
            mb := { f.mb with request := none, reply := some ⟨op, tag, St.ok, vals, none⟩ } })) ∧
      (∀ e, (∀ x ∈ (t.apply (.write e)).entries, x.slot = e.slot → x = { e with valid := false }) ∧
        ∀ x ∈ t.entries, x.slot ≠ e.slot → x ∈ (t.apply (.write e)).entries) ∧
      (∀ a b e, t.entries.find? (fun x => x.slot == a) = some e →
        (∀ x ∈ (t.apply (.copy a b)).entries, x.slot = b → x = { e with slot := b, valid := false }) ∧
        ∀ x ∈ t.entries, x.slot ≠ b → x ∈ (t.apply (.copy a b)).entries) ∧
      (∀ a, (∀ x ∈ (t.apply (.validate a)).entries, x.slot = a → x.valid = true) ∧
        (∀ x ∈ (t.apply (.invalidate a)).entries, x.slot ≠ a) ∧
        ∀ x ∈ t.entries, x.slot ≠ a → x ∈ (t.apply (.validate a)).entries ∧ x ∈ (t.apply (.invalidate a)).entries) ∧
      (t.compacting = true → t.steps = [] → exec (.haloCompactDone n) s =
        .next ((s.modTable n fun t => { t with compacting := false }).endLong t.longId St.ok [t.moved])) ∧
      (t.compacting = false ∨ t.steps ≠ [] → exec (.haloCompactDone n) s = .next s)

/-- SQ_JOB_START on an engine and pipe without a job takes the oldest queued job of one function that still holds time on
the pipe, and that function then stands last in turn; without such a function, or on a pipe that is taken or does not
exist, nothing changes. SQ_JOB_COMPLETE charges the time used and removes the job; what the job came to is the
decoding of its source for a decompress job, or what the pipe reports, where the report decodes to the source, for a
compress job. The record in memory carries its status: a format error keeps its status, else an EXPECT that differs
from the CRC it selects gives ST_SQ_EXPECT, else the status stays; a stream that goes on keeps its state area, one
that cannot loses it. A job that was stopped leaves no record; a pipe without a job changes nothing. (R226, R227,
R228, R231, R232, R233, R236, R237, R286) -/
def Obligations.SquallJobs : Prop :=
  ∀ (s : State) (e p : Nat) (r : SqReport),
    (8 ≤ e ∨ 2 ≤ p ∨ (∃ j ∈ s.sq.jobs, j.engine = some e ∧ sqPipe j.desc = p) ∨ s.sqReady p = [] →
      exec (.sqJobStart e p) s = .next s) ∧
    (e < 8 → p < 2 → (∀ j ∈ s.sq.jobs, ¬ (j.engine = some e ∧ sqPipe j.desc = p)) → s.sqReady p ≠ [] →
      ∃ n ∈ s.sqReady p, exec (.sqJobStart e p) s = .next (({ s with sq := { s.sq with
        jobs := updAt s.sq.jobs (s.sq.jobs.findIdx fun j => j.fn == n && j.engine == none && sqPipe j.desc == p)
          fun j => { j with engine := some e }
        time := (s.sq.time.filter fun x => x.1 / 2 != n) ++ [(2 * n, s.sqLeft n 0), (2 * n + 1, s.sqLeft n 1)] } } : State).spill
          e)) ∧
    ((∀ j ∈ s.sq.jobs, ¬ (j.engine = some e ∧ sqPipe j.desc = p)) → exec (.sqJobComplete e p r) s = .next s) ∧
    (∀ j, s.sq.jobs.find? (fun j => j.engine == some e && sqPipe j.desc == p) = some j →
      (j.stopping = true → exec (.sqJobComplete e p r) s = .next { s with sq := { s.sq with
        jobs := s.sq.jobs.erase j
        time := s.sq.time.map fun x => if x.1 = 2 * j.fn + p then (x.1, x.2 - r.usedTime) else x } }) ∧
      (sqCompress j.desc = false → s.sqRun j r = some (sqDecode j.desc (s.sqWindow j.fn j.desc)
        (if j.desc.dict = 0 then [] else s.modRead j.fn j.from_ j.desc.dict j.desc.dictLen) (s.sqArea j.fn j.from_ j.desc)
        (s.modRead j.fn j.from_ j.desc.src j.desc.srcLen))) ∧
      (∀ d, j.stopping = false → s.sqRun j r = some d → j.from_ < s.anv.engines.length →
        let st := if decodeError d.out.status then d.out.status
          else if bitAt j.desc.flags 3 ∧ (if bitAt j.desc.flags 4 then d.out.crcOut else d.out.crcIn) ≠ j.desc.expect
          then St.sqExpect else d.out.status
        ∃ t, exec (.sqJobComplete e p r) s = .next t ∧ t = { s with sq := t.sq, anv := t.anv } ∧
          t.sq.time = s.sq.time.map (fun (x : Nat × Int) => if x.1 = 2 * j.fn + p then (x.1, x.2 - r.usedTime) else x) ∧
          t.modRead j.fn j.from_ j.record 32 = sqRecordBytes j.desc.tag { d.out with status := st } ∧
          (d.out.stateOk = true → j.desc.state ≠ 0 →
            ⟨j.fn, spotOf j.from_ j.desc.state, j.desc.state, j.desc.op, j.desc.format, d.src, d.dst⟩ ∈ t.sq.states) ∧
          (d.out.stateOk = false → j.desc.state ≠ 0 → ∀ x ∈ t.sq.states,
            ¬ (x.fn = j.fn ∧ x.spot = spotOf j.from_ j.desc.state ∧ x.addr = j.desc.state)) ∧
          t.sq.jobsDone = bump s.sq.jobsDone (65536 * j.fn + st.toNat) 1))

/-- THREAD_DISPATCH on a free engine with an eligible READY thread runs one of the highest priority and of it the oldest,
in U-mode at its entry, with the argument registers of R271 in a0 to a7 and its operand slots emptied; a running
engine, the Halted state, or no eligible thread changes nothing. A return with EXIT, or of a cancelled thread, frees
the thread and the engine with its delays; REARM keeps the tokens of the declared slots and the thread is READY if
they are full, else WAITING, with the new priority where SETPRIO is 1. An invalid return value, a module fault, or the
activation limit ends a STARTING or RUNNING instance with ST_ANV_FAULT, ST_ANV_FAULT or ST_ANV_ACTIVATION_LIMIT, keeps
a fault record and frees the engine. An mcause that is no module fault of R264 changes nothing. (R263, R264, R269,
R270, R271, R272, R273, R286, R295) -/
def Obligations.ThreadsRunAndReturn : Prop :=
  ∀ (s : State) (e : Nat) (run : ThreadRun),
    ((s.anv.running.any fun r => r.1 == e) = true ∨ s.hz.st = .halted ∨ s.eligible e = [] →
      exec (.threadDispatch e) s = .next s) ∧
    ((s.anv.running.any fun r => r.1 == e) = false → s.hz.st ≠ .halted → s.eligible e ≠ [] →
      ∃ t ∈ s.eligible e, (∀ v ∈ s.eligible e, v.prio < t.prio ∨ (v.prio = t.prio ∧ t.order ≤ v.order)) ∧
        ∃ u, exec (.threadDispatch e) s = .next u ∧ u.anv.running = s.anv.running ++ [(e, t.tid)] ∧
          u = { s with anv := u.anv, freeCtr := u.freeCtr } ∧ u.anv.insts = s.anv.insts ∧
          u.thread? t.tid = (s.thread? t.tid).map (fun x => { x with
            st := .running, ops := [none, none, none, none] }) ∧
          (s.engineOk e → (u.engine e).user = true ∧ (u.engine e).pc = t.entry ∧
            ∀ k < 8, u.xreg e (10 + k) = (dispatchRegs t).getD k 0 % 2 ^ 64)) ∧
    (∀ a, s.runningOn e = none → exec (.threadReturn ⟨e, run⟩ a) s = .next s ∧ exec (.activationLimit ⟨e, run⟩) s = .next s ∧
      ∀ b c, exec (.moduleFault ⟨e, run⟩ a b c) s = .next s) ∧
    (∀ a b c, faultCauses.contains a = false → exec (.moduleFault ⟨e, run⟩ a b c) s = .next s) ∧
    ∀ t a, s.runningOn e = some t → s.fenced t.fn = false →
      (s.callStalled e = false → t.cancelled = true ∨ s.fnState t.fn ≠ .active ∨
          (returnOk a (s.maxPrio t) = true ∧ bitsAt a 0 2 = 0) →
        ∃ u, exec (.threadReturn ⟨e, run⟩ a) s = .next u ∧ u.thread? t.tid = none ∧ (∀ r ∈ u.anv.running, r.1 ≠ e) ∧
          (∀ d ∈ u.anv.delays, d.tid ≠ t.tid) ∧ u = { s with anv := u.anv, sq := u.sq }) ∧
      (s.callStalled e = false → t.cancelled = false → s.fnState t.fn = .active → returnOk a (s.maxPrio t) = true →
          bitsAt a 0 2 = 1 →
        let k := bitsAt a 2 3
        let ops := (t.ops.take k) ++ List.replicate (4 - k) none
        ∃ u, exec (.threadReturn ⟨e, run⟩ a) s = .next u ∧ (∀ r ∈ u.anv.running, r.1 ≠ e) ∧
          u = { s with anv := u.anv } ∧ u.thread? t.tid = some { t with
            nslots := k, ops := ops, st := if (ops.take k).all Option.isSome then .ready else .waiting
            order := s.anv.order, first := false, prio := if bitAt a 10 then bitsAt a 5 5 else t.prio }) ∧
      (∀ i b c st x, s.inst? t.inst = some i → i.st = .starting ∨ i.st = .running →
        (x = .threadReturn ⟨e, run⟩ a ∧ st = St.anvFault ∧ s.callStalled e = false ∧ t.cancelled = false ∧
            s.fnState t.fn = .active ∧ returnOk a (s.maxPrio t) = false) ∨
          (x = .moduleFault ⟨e, run⟩ a b c ∧ st = St.anvFault ∧ s.callStalled e = false ∧ faultCauses.contains a = true) ∨
          (x = .activationLimit ⟨e, run⟩ ∧ st = St.anvActivationLimit) →
        ∃ u, exec x s = .next u ∧ (∀ r ∈ u.anv.running, r.1 ≠ e) ∧ u.thread? t.tid = none ∧
          u = { s with anv := u.anv, sq := u.sq, freeCtr := u.freeCtr } ∧ u.inst? t.inst = some { i with st := .ending, status := st, code := 0, resultLen := 0 } ∧
          ∃ r ∈ u.anv.faults, r.fn = t.fn ∧ r.inst = t.inst ∧ r.tid = t.tid ∧ r.engine = e ∧ r.status = st ∧
            (x = .moduleFault ⟨e, run⟩ a b c → r.mcause = a ∧ r.mepc = b ∧ r.mtval = c))

/-- TOKEN_DELIVER leaves a producer that still stalls as it is, and where the one token held can be delivered it is, with
the caller of a stalled send given ST_OK in a0. DELAY_LIST_FIRE with a comparator assigned and a ticking device takes
every delay whose wake time is at or before the time counter off the lists and keeps every other; without a comparator
nothing changes. (R274, R275, R276, R277) -/
def Obligations.TokensAndDelays : Prop :=
  ∀ (s : State) (k : Nat),
    (∃ u, exec (.tokenDeliver k) s = .next u ∧ u = { s with anv := u.anv } ∧ u.anv.insts = s.anv.insts ∧
      ((∀ x ∈ s.anv.stalled, x.tok.source = k → s.deliver x.tid x.slot x.tok = none) → u = s)) ∧
    (∀ x v, s.anv.stalled = [x] → x.tok.source = k → s.deliver x.tid x.slot x.tok = some v →
      ∃ u, exec (.tokenDeliver k) s = .next u ∧ u.anv.stalled = [] ∧
        u = { s with anv := u.anv } ∧ u.anv.threads = v.anv.threads ∧
        ∀ e, x.caller = some e → s.engineOk e → u.resultOf e = (St.ok.toNat, 0)) ∧
    (s.delayTimer = true → s.hz.ticking = true → ∃ u, exec (.delayListFire k) s = .next u ∧
      u = { s with anv := u.anv } ∧ u.anv.delays = s.anv.delays.filter fun d => !decide (d.wake ≤ k)) ∧
    (∀ d t, s.delayTimer = true → s.hz.ticking = true → s.anv.delays = [d] → d.wake ≤ k → s.thread? d.tid = some t →
      d.slot < 4 → t.ops.length = 4 → (t.st = .running ∨ d.slot < t.nslots) → t.ops[d.slot]? = some none →
      s.tokensOut t.fn 5 < 512 * (s.grantOf t.fn).engineList.length → s.readyFull t.fn t.cluster = false →
      ∃ u x, exec (.delayListFire k) s = .next u ∧ u.thread? d.tid = some x ∧
        x.ops = t.ops.set d.slot (some ⟨k, St.ok, 5, none⟩)) ∧
    (s.delayTimer = false ∨ s.hz.ticking = false → exec (.delayListFire k) s = .next s)

/-- INSTANCE_START gives the oldest waiting exec of an ACTIVE function, where its engines are free, a thread slot is free
and no zeroing runs, its engines in ascending number, makes it STARTING, copies its argument block to module data
memory where it has room there, and spawns its initial thread READY, pinned to the first engine, with the argument
address; otherwise it changes nothing. CHUNK_DELIVER for a RUNNING instance with a free buffer, thread slot and ready
share charges chunk and overlap bytes to the scan credit, copies them to the buffer with the mask of the units that
are LOST, and starts a READY chunk thread pinned to that engine; with too little scan credit nothing changes.
INSTANCE_END of an ENDING instance without puts, jobs or threads frees its memory and ends the exec with its status,
module code and result length. (R270, R271, R275, R284, R286, R287, R288) -/
def Obligations.InstancesAndChunks : Prop :=
  ∀ (s : State) (n : Nat) (arg : Data),
    (s.waitingInst n = none ∨ s.anv.zeroing.contains n = true ∨ s.fnState n ≠ .active →
      exec (.instanceStart ⟨n, arg⟩) s = .next s) ∧
    (∀ i m e es, s.waitingInst n = some i → s.anv.zeroing.contains n = false → s.fnState n = .active →
      s.module? n i.handle = some m → s.freeEngines n = e :: es →
      let k := if i.blk.engines = 0 then (s.grantOf n).engineList.length else i.blk.engines;
      (es.length + 1 < k → exec (.instanceStart ⟨n, arg⟩) s = .next s) ∧
      (1 ≤ k → k ≤ es.length + 1 → s.freeSlots e ≠ [] → ∃ u a st, exec (.instanceStart ⟨n, arg⟩) s = .next u ∧
        u = { s with anv := u.anv, freeCtr := u.freeCtr } ∧
        u.inst? i.id = (s.inst? i.id).map (fun x => { x with
          st := .starting, engines := (e :: es).take k, argAddr := a, stackAt := st }) ∧
        (∀ x ∈ s.anv.threads, x ∈ u.anv.threads) ∧
        ((s.dataAlloc n i.id i.blk.argLen 1).isSome = true → arg.length = i.blk.argLen → u.modRead n 0 a arg.length = arg) ∧
        ∃ x ∈ u.anv.threads, x.inst = i.id ∧ x.first = true ∧ x.st = .ready ∧ x.entry = m.file.entry ∧ x.arg = a ∧
          x.pin = some e ∧ x.prio = i.blk.priority)) ∧
    (∀ i j m d, s.inst? n = some i → i.nextChunkEngine = some j → s.store.ns? i.nsid = some d →
      s.module? i.fn i.handle = some m → i.st = .running → s.fnState i.fn = .active →
      let e := i.engines.getD j 0
      let len := min (chunkBytes i.blk) (i.blk.rangeLen - i.delivered)
      let ov := min (overlapBytes i.blk) (i.blk.rangeLen - i.delivered - len)
      let bytes := s.chunkData d i.blk.stream (i.blk.rangeStart + i.delivered) (len + ov)
      let mask := s.lostMask d i.blk.stream (i.blk.rangeStart + i.delivered) ((len + ov + 4095) / 4096);
      ((s.credit i.fn).scan < len + ov ∨ len = 0 → exec (.chunkDeliver n) s = .next s) ∧
      (len ≠ 0 → len + ov ≤ (s.credit i.fn).scan →
        (s.anv.threads.filter fun t => t.inst == n).length < m.file.maxThreads →
        s.readyFull i.fn (clusterOf e) = false → s.freeSlots e ≠ [] →
        ∃ u a, exec (.chunkDeliver n) s = .next u ∧
          u = { s with anv := u.anv, hz := u.hz, freeCtr := u.freeCtr } ∧
          u.inst? n = some { i with
            delivered := i.delivered + len, nextEng := j + 1, chunks := i.chunks ++ [⟨e, a, i.delivered, len, ov, mask⟩] } ∧
          u.hz.credits = (s.charge i.fn 0 0 (len + ov)).hz.credits ∧
          (a < imageBase → e < s.anv.engines.length → u.modRead i.fn e a bytes.length = bytes) ∧
          ∃ x ∈ u.anv.threads, x.inst = n ∧ x.st = .ready ∧ x.pin = some e ∧ x.entry = m.file.chunkEntry ∧
            x.chunk = some ⟨e, a, i.delivered, len, ov, mask⟩)) ∧
    (s.inst? n = none → exec (.chunkDeliver n) s = .next s ∧ exec (.instanceEnd n) s = .next s) ∧
    (∀ i c, s.inst? n = some i → i.st = .ending → i.puts = [] → (∀ j ∈ s.sq.jobs, j.inst ≠ n) →
      (∀ t ∈ s.anv.threads, t.inst ≠ n) →
      s.q.cmds.find? (fun c => c.inst == n && c.e.opc == opExec) = some c →
      ∃ A : Anvil, A.insts = s.anv.insts.filter (fun x => x.id != n) ∧ A.threads = s.anv.threads ∧
        A.mem = s.anv.mem.filter (fun x => !(x.1 == i.fn && x.2.1 == n)) ∧
        exec (.instanceEnd n) s = .next ((({ s with anv := A } : State).endCmd c i.status
          (i.code % 4294967296 + 4294967296 * i.resultLen)).abortReply i)) ∧
    (∀ i, s.inst? n = some i → i.st ≠ .ending ∨ i.puts ≠ [] → exec (.instanceEnd n) s = .next s)

/-- On an engine whose thread may call, once what the thread has run is in its registers and memory: th.spawn with good
arguments creates a thread in a free slot, READY without operand slots and WAITING with them, and returns its ID; bad
arguments give ST_ANV_SERVICE, a priority above the manifest ST_ANV_PRIORITY, no room ST_ANV_NO_SLOT. th.send to a
thread that is not the instance's gives ST_ANV_NO_THREAD, to an undeclared slot ST_ANV_BAD_SLOT; where the slot is
full or the send pool is empty the call stalls; else the token is held in the slot. th.delay without a comparator
gives ST_ANV_NO_TIMER, else the newest delay of the slot replaces an older one. th.cancel removes a thread that does
not run with its delays, and marks one that runs. inst.done ends the instance with ST_OK, the module code and the
result length, cancels its other threads, and ends the activation. (R269, R274, R275, R276, R277, R278, R286) -/
def Obligations.ThreadServices : Prop :=
  ∀ (s : State) (e : Nat) (t : Thread) (i : Inst) (m : Module) (a b c d f : Nat) (run : ThreadRun), s.calls e t i m →
    e < s.anv.engines.length → run.x.length = 32 →
    let call := fun k args => s.ranWith t.fn e run (callRegs k args);
    (let v := call 1 [a, b, c, d, f]
      let n := (s.anv.threads.filter fun t => t.inst == i.id).length
      let part := (if f = 255 then none else i.engines[f]?).getD e;
      (m.holds a 1 = false ∨ 4 < d ∨ (f ≠ 255 ∧ i.engines.length ≤ f) →
        exec (.thSpawn ⟨e, run⟩ a b c d f) s = .next (v.setResult e St.anvService 0)) ∧
      (m.holds a 1 = true → d ≤ 4 → (f = 255 ∨ f < i.engines.length) →
        (m.file.maxPrio < c → exec (.thSpawn ⟨e, run⟩ a b c d f) s = .next (v.setResult e St.anvPriority 0)) ∧
        (c ≤ m.file.maxPrio → m.file.maxThreads ≤ n ∨ s.freeSlots part = [] → exec (.thSpawn ⟨e, run⟩ a b c d f) s =
          .next (v.setResult e St.anvNoSlot 0)) ∧
        (c ≤ m.file.maxPrio → n < m.file.maxThreads → s.freeSlots part ≠ [] → ∃ u k,
          exec (.thSpawn ⟨e, run⟩ a b c d f) s = .next u ∧ u.resultOf e = (St.ok.toNat, k % 2 ^ 64) ∧
          u = { s with anv := u.anv, freeCtr := u.freeCtr } ∧
          ∃ x, u.anv.threads = s.anv.threads ++ [x] ∧ x.tid = k ∧ x.entry = a ∧ x.arg = b ∧ x.prio = c ∧ x.nslots = d ∧
            x.inst = i.id ∧ x.fn = i.fn ∧ x.st = (if d = 0 then .ready else .waiting) ∧
            x.pin = (if f = 255 then none else i.engines[f]?)))) ∧
    (let v := call 2 [a, b, c]
      let k : Token := ⟨c, St.ok, 4, some e⟩;
      (s.threadOf i.id a = none → exec (.thSend ⟨e, run⟩ a b c) s = .next (v.setResult e St.anvNoThread 0)) ∧
      ∀ x, s.threadOf i.id a = some x →
        (4 ≤ b ∨ (x.st ≠ .running ∧ x.nslots ≤ b) → exec (.thSend ⟨e, run⟩ a b c) s =
          .next ((v.discard 4).setResult e St.anvBadSlot 0)) ∧
        (b < 4 → x.st = .running ∨ b < x.nslots → (x.ops[b]?.bind id).isSome = true ∨
            256 * (s.grantOf x.fn).engineList.length ≤ s.tokensOut x.fn 4 → exec (.thSend ⟨e, run⟩ a b c) s =
          .next (v.modAnv fun z => { z with stalled := z.stalled ++ [⟨some e, a, b, k⟩] })) ∧
        (b < 4 → x.st = .running ∨ b < x.nslots → x.ops[b]? = some none →
          s.tokensOut x.fn 4 < 256 * (s.grantOf x.fn).engineList.length → s.readyFull x.fn x.cluster = false →
          ∃ u y, exec (.thSend ⟨e, run⟩ a b c) s = .next u ∧ u.resultOf e = (St.ok.toNat, 0) ∧
            u = { s with anv := u.anv } ∧ u.thread? a = some y ∧ y.ops = x.ops.set b (some k) ∧
            y.st = if x.st = .waiting ∧ ((x.ops.set b (some k)).take x.nslots).all Option.isSome = true
              then .ready else x.st)) ∧
    (let v := call 3 [a, b, c];
      (s.delayTimer = false → exec (.thDelay ⟨e, run⟩ a b c) s = .next (v.setResult e St.anvNoTimer 0)) ∧
      (s.delayTimer = true → s.threadOf i.id a = none → exec (.thDelay ⟨e, run⟩ a b c) s =
        .next (v.setResult e St.anvNoThread 0)) ∧
      (s.delayTimer = true → (s.threadOf i.id a).isSome = true → b < 4 → exec (.thDelay ⟨e, run⟩ a b c) s =
        .next ((v.modAnv fun z => { z with
          delays := (z.delays.filter fun d => !(d.tid == a && d.slot == b)) ++ [⟨a, b, c⟩] }).setResult e St.ok 0))) ∧
    (let v := call 4 [a];
      (s.threadOf i.id a = none → exec (.thCancel ⟨e, run⟩ a) s = .next (v.setResult e St.anvNoThread 0)) ∧
      ∀ x, s.threadOf i.id a = some x →
        (x.st = .running → exec (.thCancel ⟨e, run⟩ a) s =
          .next ((v.modThread a fun t => { t with cancelled := true }).setResult e St.ok 0)) ∧
        (x.st ≠ .running → ∃ u, exec (.thCancel ⟨e, run⟩ a) s = .next u ∧ u.resultOf e = (St.ok.toNat, 0) ∧ u.thread? a = none ∧
          (∀ d ∈ u.anv.delays, d.tid ≠ a) ∧ u = { s with anv := u.anv } ∧ u.anv.insts = s.anv.insts)) ∧
    (s.fenced t.fn = false → ∃ u, exec (.instDone ⟨e, run⟩ a b) s = .next u ∧
      u = { s with anv := u.anv, sq := u.sq } ∧
      u.inst? i.id = some { i with st := .ending, status := St.ok, code := a, resultLen := b } ∧
      u.thread? t.tid = none ∧ (∀ r ∈ u.anv.running, r.1 ≠ e) ∧
      ∀ x ∈ u.anv.threads, x.inst = i.id → x.cancelled = true)

/-- On an engine whose thread may call, once what the thread has run is in its registers and memory: halo.search of a
table that does not exist or is another function's returns ST_OK and its token carries ST_HALO_NO_TABLE or
ST_HALO_TABLE_ACCESS; a search of its own table searches the keys that memory holds in order, writes the results, and
its token reports the keys and the hits. sq.submit reads the descriptor from memory, queues a job that passes the
checks of R231 and completes one that fails at once. host.put within the result buffer takes its bytes from memory and
is queued, and one beyond it gives ST_ANV_RESULT_RANGE; a put waits for read credit for all of it. chunk.release of a
held buffer frees it. mem.alloc returns an aligned free piece of the function's data memory, or ST_ANV_NO_MEMORY;
mem.free returns one of the instance's allocations. mod.log returns ST_OK. Bad arguments, and buffers outside the
module's rights, give ST_ANV_SERVICE. Every call of a function that is not ACTIVE returns ST_OK and has no effect
beyond what the thread had run. (R216, R221, R231, R266, R278, R279, R288, R291) -/
def Obligations.DataServices : Prop :=
  ∀ (s : State) (e : Nat) (t : Thread) (i : Inst) (m : Module) (a b c d f g : Nat) (run : ThreadRun),
    e < s.anv.engines.length → run.x.length = 32 →
    let call := fun k args => s.ranWith t.fn e run (callRegs k args);
    (s.calls e t i m →
      (let v := call 5 [a, b, c, d, f, g]
        let good := v.setResult e St.ok 0;
        (bitAt m.file.flags 0 = false ∨ c = 0 ∨ 256 < c ∨ s.readable_ m b (16 * c) = false ∨ s.writable t.fn d (8 * c) = false ∨
          4 ≤ g → exec (.haloSearch ⟨e, run⟩ a ⟨b, c⟩ d f g) s = .next (v.setResult e St.anvService 0)) ∧
        (bitAt m.file.flags 0 = true → 1 ≤ c → c ≤ 256 → s.readable_ m b (16 * c) = true → s.writable t.fn d (8 * c) = true →
          g < 4 → (s.threadOf i.id f = none → exec (.haloSearch ⟨e, run⟩ a ⟨b, c⟩ d f g) s = .next (v.setResult e St.anvNoThread 0)) ∧
          ((s.threadOf i.id f).isSome = true →
            (s.table? a = none → exec (.haloSearch ⟨e, run⟩ a ⟨b, c⟩ d f g) s = .next (good.produce f g ⟨0, St.haloNoTable, 2, none⟩)) ∧
            ∀ x, s.table? a = some x →
              (x.owner ≠ t.fn → exec (.haloSearch ⟨e, run⟩ a ⟨b, c⟩ d f g) s =
                .next (good.produce f g ⟨0, St.haloTableAccess, 2, none⟩)) ∧
              (x.owner = t.fn →
                let ks := (List.range c).map fun k => BitVec.ofNat 128 (natLE (v.userRead m e (b + 16 * k) 16))
                let r := good.searchKeys t.fn e a d ks
                exec (.haloSearch ⟨e, run⟩ a ⟨b, c⟩ d f g) s =
                  .next (r.2.produce f g ⟨c + 4294967296 * r.1, St.ok, 2, none⟩))))) ∧
      (let v := call 6 [a, b, c, d]
        let q := sqDescOf (v.userRead m e a 64);
        (bitAt m.file.flags 1 = false ∨ s.readable_ m a 64 = false ∨ s.writable t.fn b 32 = false ∨ 4 ≤ d →
          exec (.sqSubmit ⟨e, run⟩ a b c d) s = .next (v.setResult e St.anvService 0)) ∧
        (bitAt m.file.flags 1 = true → s.readable_ m a 64 = true → s.writable t.fn b 32 = true → d < 4 →
          (s.threadOf i.id c).isSome = true →
          (v.sqCheck t.fn e q = none → exec (.sqSubmit ⟨e, run⟩ a b c d) s = .next ((v.setResult e St.ok 0).modSq fun z => { z with
            jobs := z.jobs ++ [⟨t.fn, i.id, e, q, b, c, d, none, false⟩] })) ∧
          (∀ st, v.sqCheck t.fn e q = some st → exec (.sqSubmit ⟨e, run⟩ a b c d) s =
            .next ((v.setResult e St.ok 0).sqRecord t.fn e b c d q.tag (sqRefused st))))) ∧
      (let v := call 7 [a, b, c, d, f];
        (bitAt m.file.flags 2 = false ∨ c = 0 ∨ 1048576 < c ∨ s.readable_ m a c = false ∨ 4 ≤ f →
          exec (.hostPut e a b c d f run) s = .next (v.setResult e St.anvService 0)) ∧
        (bitAt m.file.flags 2 = true → 1 ≤ c → c ≤ 1048576 → s.readable_ m a c = true → f < 4 →
          (s.threadOf i.id d).isSome = true →
          (i.blk.resultLen < b + c → exec (.hostPut e a b c d f run) s = .next (v.setResult e St.anvResultRange 0)) ∧
          (b + c ≤ i.blk.resultLen → exec (.hostPut e a b c d f run) s = .next (((v.setResult e St.ok 0).modInst i.id fun x =>
            { x with puts := x.puts ++ [⟨e, d, f, b, v.userRead m e a c⟩] }).runPuts)))) ∧
      (let v := call 8 [a];
        ((∃ x ∈ i.chunks, x.engine = e ∧ x.addr = a) → exec (.chunkRelease ⟨e, run⟩ a) s =
          .next ((v.modInst i.id fun x => { x with
            chunks := x.chunks.filter fun c => !(c.engine == e && c.addr == a) }).setResult e St.ok 0)) ∧
        ((∀ x ∈ i.chunks, ¬ (x.engine = e ∧ x.addr = a)) → exec (.chunkRelease ⟨e, run⟩ a) s =
          .next (v.setResult e St.anvService 0))) ∧
      (let v := call 9 [a, b];
        ((∀ j < 23, b ≠ 2 ^ j) → exec (.memAlloc ⟨e, run⟩ a b) s = .next (v.setResult e St.anvService 0)) ∧
        (∀ j, j < 23 → b = 2 ^ j → (s.dataBytes t.fn < s.dataUsed t.fn + a →
            exec (.memAlloc ⟨e, run⟩ a b) s = .next (v.setResult e St.anvNoMemory 0)) ∧
          (s.dataUsed t.fn + a ≤ s.dataBytes t.fn →
            (∃ x ∈ s.dataStarts t.fn b, x % b = 0 ∧ s.dataFree t.fn x a = true) → ∃ u x,
              exec (.memAlloc ⟨e, run⟩ a b) s = .next u ∧ u.resultOf e = (St.ok.toNat, x % 2 ^ 64) ∧ x % b = 0 ∧
              s.dataFree t.fn x a = true ∧ u.anv.mem = s.anv.mem ++ [(t.fn, i.id, x, a)] ∧
              u.anv.threads = s.anv.threads ∧ u = { s with anv := u.anv, freeCtr := u.freeCtr }))) ∧
      (let v := call 10 [a];
        (a ≠ i.argAddr → (∃ x ∈ s.anv.mem, x.1 = t.fn ∧ x.2.1 = i.id ∧ x.2.2.1 = a) → exec (.memFree ⟨e, run⟩ a) s =
          .next ((v.modAnv fun z => { z with
            mem := z.mem.filter fun x => !(x.1 == t.fn && x.2.1 == i.id && x.2.2.1 == a) }).setResult e St.ok 0)) ∧
        (a = i.argAddr ∨ (∀ x ∈ s.anv.mem, ¬ (x.1 = t.fn ∧ x.2.1 = i.id ∧ x.2.2.1 = a)) → exec (.memFree ⟨e, run⟩ a) s =
          .next (v.setResult e St.anvService 0))) ∧
      (let v := call 12 [a, b];
        (b ≤ 256 → s.readable_ m a b = true → ∃ u, exec (.modLog ⟨e, run⟩ a b) s = .next u ∧ u.resultOf e = (St.ok.toNat, 0) ∧
          u = { s with anv := u.anv, recs := u.recs, freeCtr := u.freeCtr } ∧ u.anv.threads = s.anv.threads ∧
          u.recs.nextIdx = s.recs.nextIdx + (b + 15) / 16) ∧
        (256 < b ∨ s.readable_ m a b = false → exec (.modLog ⟨e, run⟩ a b) s = .next (v.setResult e St.anvService 0)))) ∧
    (s.runningOn e = some t → s.callStalled e = false → s.fnState t.fn ≠ .active →
      ∀ x ∈ [(Instr.thSpawn ⟨e, run⟩ a b c d f, 1, [a, b, c, d, f]), (.thSend ⟨e, run⟩ a b c, 2, [a, b, c]),
        (.thDelay ⟨e, run⟩ a b c, 3, [a, b, c]), (.thCancel ⟨e, run⟩ a, 4, [a]), (.haloSearch ⟨e, run⟩ a ⟨b, c⟩ d f g, 5, [a, b, c, d, f, g]),
        (.sqSubmit ⟨e, run⟩ a b c d, 6, [a, b, c, d]), (.hostPut e a b c d f run, 7, [a, b, c, d, f]), (.chunkRelease ⟨e, run⟩ a, 8, [a]),
        (.memAlloc ⟨e, run⟩ a b, 9, [a, b]), (.memFree ⟨e, run⟩ a, 10, [a]), (.instDone ⟨e, run⟩ a b, 11, [a, b]),
        (.modLog ⟨e, run⟩ a b, 12, [a, b])], exec x.1 s = .next ((call x.2.1 x.2.2).setResult e St.ok 0)) ∧
    (∀ p : Put, (s.credit i.fn).read < p.bytes.length → s.putLoop i [p] [] = s)

/-- An enabled port that is DOWN goes to step 2 on a signal, but in P3, where the links idle (log 170, DEDUCED). Each step
that succeeds leads to the next, step 5 begins with DELAY frames and step 6 with this device's DISCOVER; step 6 leads
to authentication, where the initiator sends HELLO and the other end waits. A failed step counts and leaves the port
waiting 10 ms, after which it is DOWN; failed authentication fences it with a doubled back-off of at most 64 s and
sends nothing. Lost block lock takes a port that is up, or in a step, down and drops its retransmit buffer. DISCOVER
at step 6 records node, certificate digest and capabilities; DELAY at step 5 or while up records the port delay. The
back-off ends a fence, 10 quiet minutes set it back to 1 s. In every other state of the port each of these changes
nothing. (R298, R299, R305, R313, R327, R329, R330) -/
def Obligations.PortBringUp : Prop :=
  ∀ (s : State) (p a b c : Nat), let x := s.port p
    (x.st = .down → (s.portCfg p).enable = true → s.pw.st ≠ .p3 →
      exec (.zlSignalDetect p) s = .next (s.modPort p fun x => { x with st := .step 2 })) ∧
    (x.st ≠ .down ∨ (s.portCfg p).enable = false ∨ s.pw.st = .p3 → exec (.zlSignalDetect p) s = .next s) ∧
    (∀ n, x.st = .step n → n ≠ 7 →
      exec (.zlPortBringupStep p false) s =
        .next (s.modPort p fun x => { x.drop .restartWait with fails := x.fails + 1 }) ∧
      (n ≠ 4 → n ≠ 5 → n ≠ 6 → exec (.zlPortBringupStep p true) s =
        .next (s.modPort p fun x => { x with st := .step (n + 1) })) ∧
      (n = 4 → exec (.zlPortBringupStep p true) s = .next ((s.modPort p fun x => { x with st := .step 5 }).sendDelay p)) ∧
      (n = 5 → ∃ t, exec (.zlPortBringupStep p true) s = .next t ∧ (t.port p).st = .step 6 ∧ t = { s with zl := t.zl } ∧
        t.zl.sent = s.zl.sent ++ [⟨p, 1, 65535, 0, s.node⟩])) ∧
    (x.st = .step 6 → s.initiates p = false → exec (.zlPortBringupStep p true) s =
      .next (s.modPort p fun x => { x with st := .step 7, auth := .none, initiator := false, nonces := [] })) ∧
    (x.st = .step 6 → s.initiates p = true → ∃ t, exec (.zlPortBringupStep p true) s = .next t ∧
      (t.port p).st = .step 7 ∧ (t.port p).auth = .helloSeen ∧ (t.port p).initiator = true ∧
      t = { s with zl := t.zl, freeCtr := t.freeCtr } ∧
      t.zl.sent = s.zl.sent ++ [⟨p, 2, 65535, 0, 1⟩]) ∧
    (x.st = .step 7 → exec (.zlPortBringupStep p true) s = .next s ∧
      ∃ t, exec (.zlPortBringupStep p false) s = .next t ∧ (t.port p).st = .fenced ∧ (t.port p).fails = x.fails + 1 ∧
        (t.port p).backoff = min 64 (2 * x.backoff) ∧ t.zl.sent = s.zl.sent ∧ t = { s with zl := t.zl, recs := t.recs, fns := t.fns, q := t.q }) ∧
    ((∀ n, x.st ≠ .step n) → ∀ ok, exec (.zlPortBringupStep p ok) s = .next s) ∧
    (x.st = .restartWait → exec (.zlPortRestartTimer p) s = .next (s.modPort p fun x => { x with st := .down })) ∧
    (x.st ≠ .restartWait → exec (.zlPortRestartTimer p) s = .next s) ∧
    (∀ n, x.st = .step n → exec (.zlBlockLockLoss p) s = .next (s.modPort p fun x => x.drop .down)) ∧
    (x.st = .up → ∃ t, exec (.zlBlockLockLoss p) s = .next t ∧ (t.port p).st = .down ∧ (t.port p).unacked = []) ∧
    (x.st ≠ .up → (∀ n, x.st ≠ .step n) → exec (.zlBlockLockLoss p) s = .next s) ∧
    (x.st = .step 6 → ∃ t, exec (.discover p a b c) s = .next t ∧ t.zl.sent = s.zl.sent ∧
      t = { s with zl := t.zl, recs := t.recs, fns := t.fns, q := t.q, freeCtr := t.freeCtr } ∧ t.port p = { x with
      rxSeq := x.rxSeq + 1, ackDue := true, peer := a, peerCert := b, peerCaps := c }) ∧
    (s.portUp p = true → exec (.discover p a b c) s =
      .next (s.modPort p fun x => { x with rxSeq := x.rxSeq + 1, ackDue := true, peerCaps := c })) ∧
    (x.st ≠ .step 6 → s.portUp p = false → exec (.discover p a b c) s = .next s) ∧
    (x.st = .step 5 ∨ s.portUp p = true → exec (.delay p a) s =
      .next (s.modPort p fun x => { x with rxSeq := x.rxSeq + 1, ackDue := true, dPort := a })) ∧
    (x.st ≠ .step 5 → s.portUp p = false → exec (.delay p a) s = .next s) ∧
    (x.st = .fenced → exec (.fenceBackoffEnd p) s = .next (s.modPort p fun x => { x with st := .down })) ∧
    (x.st ≠ .fenced → exec (.fenceBackoffEnd p) s = .next s) ∧
    exec (.violationQuietTimer p) s = .next (s.modPort p fun x => { x with backoff := 1 })

/-- In authentication: HELLO at the responder is answered with REPLY and REPLY at the initiator with FINISH, each only
while debug is not UNLOCKED; REPLY and FINISH with a good signature under a trusted certificate set the scope, any
other one fences the port; FINISH at the responder and DONE at the initiator bring the port up, authenticated. A
timeout after HELLO fences the port. Outside step 7 each of these changes nothing. A lane margin at or above both
thresholds is recorded; one below a threshold and not below half makes the lane due for a retrain; the third report in
a row below half takes the lane out of service, and the last lane the port with it. (R298, R301, R302, R326, R327,
R328, R329, R418) -/
def Obligations.PeerAuthentication : Prop :=
  ∀ (s : State) (p a b n : Nat) (g : Bool), let x := s.port p
    (x.st ≠ .step 7 → ∀ i ∈ [Instr.hello p a b, .reply p a b g n, .finish p g n, .done p, .authTimeout p],
      exec i s = .next s) ∧
    (x.st = .step 7 →
      (x.initiator = false → x.auth = .none → s.keyUsable = true → ∃ t, exec (.hello p a b) s = .next t ∧
        (t.port p).auth = .replied ∧ (t.port p).st = .step 7 ∧
        t = { s with zl := t.zl, freeCtr := t.freeCtr } ∧ t.zl.sent = s.zl.sent ++ [⟨p, 2, 65535, 0, 2⟩]) ∧
      (s.keyUsable = false → exec (.hello p a b) s = .next s ∧ exec (.reply p a b g n) s = .next s) ∧
      (∀ sc, s.trusts p n = some sc → x.initiator = true → x.auth = .helloSeen → s.keyUsable = true →
        ∃ t, exec (.reply p a b true n) s = .next t ∧ (t.port p).auth = .finished ∧ (t.port p).scope = some sc.1 ∧
          (t.port p).trustSlot = sc.2 ∧ (t.port p).st = .step 7 ∧
          t = { s with zl := t.zl } ∧ t.zl.sent = s.zl.sent ++ [⟨p, 2, 65535, 0, 3⟩]) ∧
      (∀ sc, s.trusts p n = some sc → x.initiator = false → x.auth = .replied →
        ∃ t, exec (.finish p true n) s = .next t ∧ (t.port p).st = .up ∧ (t.port p).auth = .authed ∧
          (t.port p).scope = some sc.1 ∧
          t = { s with zl := t.zl, recs := t.recs, fns := t.fns, q := t.q, freeCtr := t.freeCtr }) ∧
      (g = false ∨ s.trusts p n = none → ∀ i,
        (i = .reply p a b g n ∧ x.initiator = true ∧ x.auth = .helloSeen ∧ s.keyUsable = true) ∨
          (i = .finish p g n ∧ x.initiator = false ∧ x.auth = .replied) →
        ∃ t, exec i s = .next t ∧ (t.port p).st = .fenced ∧ t.zl.sent = s.zl.sent ∧
          t = { s with zl := t.zl, recs := t.recs, fns := t.fns, q := t.q }) ∧
      (x.initiator = true → x.auth = .finished → ∃ t, exec (.done p) s = .next t ∧ (t.port p).st = .up ∧
        (t.port p).auth = .authed ∧ (t.port p).scope = x.scope ∧
        t = { s with zl := t.zl, recs := t.recs, fns := t.fns, q := t.q, freeCtr := t.freeCtr }) ∧
      (x.auth ≠ .none → ∃ t, exec (.authTimeout p) s = .next t ∧ (t.port p).st = .fenced ∧ t.zl.sent = s.zl.sent ∧
        t = { s with zl := t.zl, recs := t.recs, fns := t.fns, q := t.q }) ∧
      (x.auth = .none → exec (.authTimeout p) s = .next s)) ∧
    (s.portUp p = false ∨ (s.portCfg p).lanes ≤ n → exec (.laneMarginReport p n a b) s = .next s) ∧
    (s.portUp p = true → n < (s.portCfg p).lanes → (∀ m ∈ x.margins, m.1 = n → m.2.2.2 < 3) →
        (∀ r ∈ x.retrain, r.lane = n → r.full = false) →
      let tv := s.param 0x0B10 p
      let th := s.param 0x0B11 p
      let kept := x.margins.filter fun m => m.1 != n
      (tv ≤ a → th ≤ b → exec (.laneMarginReport p n a b) s =
        .next (s.modPort p fun x => { x with margins := kept ++ [(n, a, b, 0)], adapted := x.adapted.filter (· != n) })) ∧
      (a < tv ∨ b < th → tv ≤ 2 * a → th ≤ 2 * b → (∀ r ∈ x.retrain, r.lane ≠ n) →
        exec (.laneMarginReport p n a b) s = .next (s.modPort p fun x => { x with
          margins := kept ++ [(n, a, b, 0)], retrain := x.retrain ++ [⟨n, false, 0⟩] })) ∧
      (∀ m, x.margins.find? (fun m => m.1 == n) = some m → m.2.2.2 = 2 → 2 * a < tv ∨ 2 * b < th →
        ∃ t, exec (.laneMarginReport p n a b) s = .next t ∧
          (2 ≤ x.lanesUp → (t.port p).lanesUp = x.lanesUp - 1 ∧ (t.port p).st = .up ∧ t = { s with zl := t.zl }) ∧
          (x.lanesUp ≤ 1 → (t.port p).st = .down)))

/-- A frame other than those that bring a port up counts as a violation without NAK while the port is in a bring-up step,
and is dropped where the port is down, off, fenced or waits to restart. On a port that is up: a frame that does not
decode, or of an unknown type, is NAKed with ST_ZL_FRAME and a violation; a failed tag or a SEQ above the next one is
answered with RETRANS naming the next SEQ; a SEQ that came before only asks for an acknowledgement. A frame for
another node goes out unchanged on the port of the shortest path to it, and is NAKed with ST_ZL_NO_ROUTE where there
is none. RETRANS sends the frames from its SEQ on again, the retransmit timeout all of them, and the acknowledgement
timer a frame without payload. PAUSE and CREDIT are recorded. (R303, R304, R305, R306, R308, R315, R329, R330, R332) -/
def Obligations.FramesOnAPort : Prop :=
  ∀ (s : State) (p a b c : Nat) (f : Frame) (bs : Data) (ms : List Member) (cs : List Cable) (ns : List Nat)
    (st : Status) (i : Int) (q : NsFields), let x := s.port p
    let group := [Instr.sealReady p a b c a, .sealCommit p a b, .membership p a b c ⟨ms, cs⟩ a, .memberLost p ⟨a, ns⟩,
      .joinRequest p a b ⟨c, a⟩ cs b, .joinAccept p a, .joinOffer p a b c a b, .joinRefuse p st, .mirrorCreate p a q b,
      .mirrorHeld p a, .mirrorAdmit p a b]
    let link := [Instr.data p f bs, .nak p f, .retrans p a, .unknownFrameType p f, .pause p a, .credit p a b]
    ((∃ n, x.st = .step n) → ∀ y ∈ link ++ group, exec y s = .next (s.openViolation p)) ∧
    ((∀ n, x.st ≠ .step n) → x.st ≠ .up → ∀ y ∈ link ++ group, exec y s = .next s) ∧
    (f.dst = s.node ∨ f.dst = 65535 → exec (.frameRelay p f) s = .next s) ∧
    (s.portUp p = false → exec (.zlRetransmitTimeout p) s = .next s ∧ exec (.emptyAckFrameTimer p) s = .next s ∧
      exec (.tickMark p a i b true) s = .next s) ∧
    (x.st = .up →
      let good := s.modPort p fun x => { x.ack f.ack with rxSeq := f.seq, ackDue := true }
      let got := s.modPort p fun x => { x with rxSeq := x.rxSeq + 1, ackDue := true }
      (∀ y n, (y = .data p f bs ∧ n = bs.length) ∨ (y = .nak p f ∧ n = f.len) ∨
          (y = .frameRelay p f ∧ n = f.len ∧ f.dst ≠ s.node ∧ f.dst ≠ 65535) →
        (frameOk f n = false →
          exec y s = .next ((s.sendNak p f.src f.rid f.seq St.zlFrame).violation p St.zlFrame)) ∧
        (frameOk f n = true → f.tagOk = false ∨ x.rxSeq + 1 < f.seq →
          exec y s = .next ((s.sendFrame p 0x12 65535 0 (x.rxSeq + 1)).openViolation p)) ∧
        (frameOk f n = true → f.tagOk = true → f.seq ≤ x.rxSeq →
          exec y s = .next (s.modPort p fun x => { x with ackDue := true }))) ∧
      (f.dst ≠ s.node → f.dst ≠ 65535 → frameOk f f.len = true → f.tagOk = true → f.seq = x.rxSeq + 1 →
        (hopOf f.dst good.cablesNow s.node = none → exec (.frameRelay p f) s =
          .next ((good.sendNak p f.src f.rid f.seq St.zlNoRoute).violation p St.zlNoRoute)) ∧
        ∀ h, hopOf f.dst good.cablesNow s.node = some h → h.port < 3 → good.portUp h.port = true →
          ∃ t, exec (.frameRelay p f) s = .next t ∧ t = { s with zl := t.zl } ∧
            t.zl.sent = s.zl.sent ++ [⟨h.port, f.typ, f.dst, f.rid, f.arg⟩]) ∧
      exec (.unknownFrameType p f) s =
        .next ((s.sendNak p f.src f.rid f.seq St.zlFrame).violation p St.zlFrame) ∧
      exec (.retrans p a) s = .next (got.modZl fun z => { z with
        sent := z.sent ++ (x.unacked.filter fun u => decide (a ≤ u.1)).map (·.2) }) ∧
      exec (.pause p a) s = .next (got.modPort p fun x => { x with pausedTo := max x.pausedTo a }) ∧
      exec (.credit p a b) s = .next (got.modPort p fun x => { x with mirrorTick := a, mirrorCredit := b })) ∧
    (s.portUp p = true →
      exec (.zlRetransmitTimeout p) s = .next (s.modZl fun z => { z with sent := z.sent ++ x.unacked.map (·.2) }) ∧
      (x.ackDue = false → exec (.emptyAckFrameTimer p) s = .next s) ∧
      (x.ackDue = true → ∃ t, exec (.emptyAckFrameTimer p) s = .next t ∧
        t = { s with zl := t.zl } ∧ t.zl.sent = s.zl.sent ++ [⟨p, 16, 65535, 0, 0⟩] ∧
        (t.port p).ackDue = false ∧ (t.port p).txSeq = x.txSeq + 1))

/-- For a frame in order to this device on a port that is up: DATA without a RID only acknowledges; the one frame of a
whole record that passes checks 1 to 7 of R81 and fits the ingress share is held complete; bytes of a record under way
are appended, and past its length it is refused. A NAK of a mirror record takes it off the list; one that names
nothing known changes nothing. MIRROR CREATE that the replica accepts is recorded as a namespace and answered HELD,
else it is NAKed with ST_NS_MIRROR_PEER. HELD marks the record, or with RID 0 records the mirrored creation and stages
its reply for the seal. ADMIT for the running tick admits the record, for an earlier tick or after the cut point it is
ST_ZL_MIRROR_LATE, for a later tick it waits. A copy that is done is recorded. (R81, R304, R307, R308, R331, R332,
R333) -/
def Obligations.RecordsAndMirrors : Prop :=
  ∀ (s : State) (p a b : Nat) (f : Frame) (bs : Data) (q : NsFields), (s.port p).st = .up →
    let good := s.modPort p fun x => { x.ack f.ack with rxSeq := f.seq, ackDue := true }
    let got := s.modPort p fun x => { x with rxSeq := x.rxSeq + 1, ackDue := true }
    (frameOk f bs.length = true → f.tagOk = true → f.seq = (s.port p).rxSeq + 1 → f.dst = s.node ∨ f.dst = 65535 →
      (f.rid = 0 → exec (.data p f bs) s = .next good) ∧
      (∀ r h, f.rid ≠ 0 → (good.port p).partial? f.src f.rid = some r → r.hdr = some h →
        (bitAt f.flags 0 = false → r.bytes.length + bs.length ≤ 32 + h.declLen → exec (.data p f bs) s =
          .next (good.setPartial p f.src f.rid (some { r with bytes := r.bytes ++ bs }))) ∧
        (32 + h.declLen < r.bytes.length + bs.length → exec (.data p f bs) s =
          .next (good.refuseRec p { r with bytes := r.bytes ++ bs } (bitAt f.flags 0) St.lengthLong))) ∧
      (let m := (good.store.ns? (bitsAt f.arg 0 32)).elim false fun n => n.mirror && n.replica && n.f.mirrorNode == f.src
        let r : LinkRec := ⟨f.rid, f.src, bitsAt f.arg 0 32, bitsAt f.arg 32 12, bs, none, none, false, false, m, none⟩
        let h := headerOf bs
        f.rid ≠ 0 → (good.port p).partial? f.src f.rid = none → bitAt f.flags 0 = true → bs.length = 32 + h.declLen →
          good.firstCheck r h = none → good.lastCheck p { r with hdr := some h } h = none →
          good.portHeld p + bs.length ≤ good.portShare p → good.ingressAll + bs.length ≤ Config.ingressBytes →
          ∃ t, exec (.data p f bs) s = .next t ∧
            t = { s with zl := t.zl } ∧ { r with hdr := some h, complete := true } ∈ (t.port p).recs)) ∧
    (frameOk f f.len = true → f.tagOk = true → f.seq = (s.port p).rxSeq + 1 → f.dst = s.node ∨ f.dst = 65535 →
      BitVec.ofNat 16 (bitsAt f.arg 0 16) ≠ St.zlMirrorLate →
      (f.rid ≠ 0 → ∃ t, exec (.nak p f) s = .next t ∧ ∀ m ∈ t.zl.mirror, m.rid ≠ f.rid) ∧
      (f.rid ≠ 0 → (∀ m ∈ s.zl.mirror, m.rid ≠ f.rid) → (∀ r ∈ s.zl.routes, r.node ≠ f.src) →
        exec (.nak p f) s = .next good)) ∧
    (s.inRing = false ∨ s.hz.ticking = false ∨ s.refusesMirror q b = true → exec (.mirrorCreate p a q b) s =
      .next (got.sendNak p a 0 ((s.port p).rxSeq + 1) St.nsMirrorPeer)) ∧
    (s.inRing = true → s.hz.ticking = true → s.refusesMirror q b = false → exec (.mirrorCreate p a q b) s =
      .next ((got.record [.nsCreate { q with mirrorNode := a } s.hz.epoch true]).sendTo 0x30 a 0 0)) ∧
    (a ≠ 0 → exec (.mirrorHeld p a) s = .next (got.modZl fun z => { z with
      mirror := z.mirror.map fun m => if m.rid = a then { m with held := true } else m })) ∧
    (s.zl.creating = none → exec (.mirrorHeld p 0) s = .next got) ∧
    (∀ fn tag g, s.zl.creating = some (fn, tag, g) → exec (.mirrorHeld p 0) s =
      .next (((got.modZl fun z => { z with creating := none }).record [.nsCreate g s.hz.epoch false]).stage fn 0x0301 tag
        St.ok [g.nsid] (some s.hz.epoch))) ∧
    ((∀ r ∈ (s.port p).recs, ¬ (r.rid = a ∧ r.complete = true ∧ r.mirror = true)) →
      exec (.mirrorAdmit p a b) s = .next got) ∧
    (∀ r, (s.port p).recs.find? (fun r => r.rid == a && r.complete && r.mirror) = some r →
      (b < s.gtickNow ∨ (b = s.gtickNow ∧ s.admits = false) → exec (.mirrorAdmit p a b) s =
        .next (got.rejectRec p r St.zlMirrorLate)) ∧
      (b = s.gtickNow → s.admits = true → exec (.mirrorAdmit p a b) s = .next (got.mirrorGo p r)) ∧
      (s.gtickNow < b → exec (.mirrorAdmit p a b) s = .next (got.modRec p a fun x => { x with ticket := some b }))) ∧
    (s.zl.copying.contains a = true → s.hz.ticking = true → exec (.mirrorCopyDone a) s =
      .next (s.record [.mirrorCopied a])) ∧
    (s.zl.copying.contains a = false ∨ s.hz.ticking = false → exec (.mirrorCopyDone a) s = .next s)

/-- On a port that is up: SEAL_READY at the master from a member with the GEN in force never lowers the committed tick,
and with it every vote for the next group tick commits that tick; from no member or with another GEN it is NAKed as a
violation; elsewhere it is only acknowledged. SEAL_COMMIT with the right GEN at a member, and any while the group
re-forms, raises the commit held to the epoch of its tick; at a master it is a violation. A newer MEMBERSHIP that
names this member is adopted, one without it isolates the member, one that is not newer is a violation; a joining
device adopts one that names it. MEMBER_LOST takes the cables that it names out of the cabling: a member that still
has a path to the master passes it on, one without isolates; at a master every member that no path reaches leaves the
membership, and where each is reached none does. (R46, R315, R318, R320, R321, R322, R323, R324, R325, R330) -/
def Obligations.SealVoteAndMembership : Prop :=
  ∀ (s : State) (p a b c d : Nat) (ms : List Member) (cs : List Cable) (ns : List Nat), (s.port p).st = .up →
    let got := s.modPort p fun x => { x with rxSeq := x.rxSeq + 1, ackDue := true }
    let bad := (got.sendNak p (s.port p).peer 0 ((s.port p).rxSeq + 1) St.zlFrame).violation p St.zlFrame
    let me := ms.any fun m => m.node == s.node
    (s.zl.group ≠ .master → exec (.sealReady p a b c d) s = .next got) ∧
    (s.zl.group = .master → s.isMember a = false ∨ s.genOk b c = false → exec (.sealReady p a b c d) s = .next bad) ∧
    (s.zl.group = .master → s.isMember a = true → s.genOk b c = true →
      ∃ t, exec (.sealReady p a b c d) s = .next t ∧ s.zl.committed ≤ t.zl.committed ∧
        t = { s with zl := t.zl, hz := t.hz, recs := t.recs, fns := t.fns, q := t.q, freeCtr := t.freeCtr } ∧
        (d = 0 → 1 ≤ s.param 0x0B13 0 → b = s.zl.committed + 1 →
          (∀ n ∈ s.votersOf b, n = a ∨ ∃ v ∈ s.zl.votes, v.gtick = b ∧ v.node = n) →
          b ≤ t.zl.committed ∧ b + s.zl.offset ≤ t.hz.commitHeld)) ∧
    (s.zl.group = .member → s.genOk a b = true → ∃ t, exec (.sealCommit p a b) s = .next t ∧ t = { s with zl := t.zl, hz := t.hz } ∧
      t.hz.commitHeld = max s.hz.commitHeld (a + s.zl.offset) ∧ s.hz.pendingSealMark ≤ t.hz.pendingSealMark ∧
      t.zl = got.zl) ∧
    (s.zl.group = .member → s.genOk a b = false → exec (.sealCommit p a b) s = .next bad) ∧
    (s.zl.group = .master → exec (.sealCommit p a b) s = .next bad) ∧
    (s.zl.group = .reforming → exec (.sealCommit p a b) s = .next { got with
      hz := { s.hz with commitHeld := max s.hz.commitHeld (a + s.zl.offset) } }) ∧
    (s.zl.group = .solo ∨ s.zl.group = .joining ∨ s.zl.group = .isolated → exec (.sealCommit p a b) s = .next got) ∧
    (s.zl.group = .master ∨ (s.zl.group = .member ∧ a ≤ s.zl.gen) →
      exec (.membership p a b c ⟨ms, cs⟩ d) s = .next bad) ∧
    (s.zl.group = .member → s.zl.gen < a → me = false → exec (.membership p a b c ⟨ms, cs⟩ d) s = .next got.isolate) ∧
    ((s.zl.group = .member ∧ s.zl.gen < a) ∨ s.zl.group = .joining ∨ s.zl.group = .reforming → me = true →
      ∃ t, exec (.membership p a b c ⟨ms, cs⟩ d) s = .next t ∧ t.zl.gen = a ∧ t.zl.effective = b ∧ t.zl.master = c ∧
        t.zl.members = ms ∧ t.zl.group = s.zl.group ∧ t = { s with zl := t.zl, hz := t.hz }) ∧
    (s.zl.group = .solo ∨ (s.zl.group = .joining ∧ me = false) → exec (.membership p a b c ⟨ms, cs⟩ d) s = .next got) ∧
    (let cut := got.dropCables a ns
      let lost := cut.cutOff ns
      (s.zl.group = .master → (∀ n ∈ lost, s.isMember n = false) → exec (.memberLost p ⟨a, ns⟩) s = .next cut) ∧
      (s.zl.group = .master → (∃ n ∈ lost, s.isMember n = true ∧ n ≠ s.node) → ∃ t, exec (.memberLost p ⟨a, ns⟩) s = .next t ∧
        s.zl.gen < t.zl.gen ∧ (∀ m ∈ t.zl.members, m.node = s.node ∨ m.node ∉ lost) ∧
        t = { s with zl := t.zl, hz := t.hz, recs := t.recs, fns := t.fns, q := t.q, freeCtr := t.freeCtr }) ∧
      (s.zl.group = .member → (hopOf s.zl.master cut.cablesNow s.node).isSome = true → exec (.memberLost p ⟨a, ns⟩) s =
        .next (cut.sendTo 0x24 s.zl.master 0 (ns.headD 0))) ∧
      (s.zl.group = .member → hopOf s.zl.master cut.cablesNow s.node = none → exec (.memberLost p ⟨a, ns⟩) s = .next cut.loseMaster)) ∧
    (s.zl.group ≠ .member → s.zl.group ≠ .master → exec (.memberLost p ⟨a, ns⟩) s = .next got)

/-- On a port that is up: a JOIN request from a peer of PEER scope is a violation; at a master one with a node number in
use is refused; with host admission it waits for the host, else it is offered GROUP_BASE, or the least offset that
puts its first group epoch above its last epoch. A JOIN accept of an offered join commits a membership with the joiner
from its join tick on. An offer to a joiner without a tick records it, and the joiner acquires lock at once where
period and window stay. A JOIN refusal ends the join. At the lock deadline a joiner out of lock ends its join. At its
tick a locked joiner in the membership becomes a member whose epoch number jumps. An accepted mark in lock or flywheel
leaves the device in lock; a missing or unexpected mark makes a locked device FLYWHEEL, and at the third miss in a row
the lock is lost; a mark outside its limits is only counted. (R67, R311, R312, R314, R317, R318, R319, R325) -/
def Obligations.JoinsAndTickLock : Prop :=
  ∀ (s : State) (p a b c d e : Nat) (cs : List Cable) (st : Status) (i : Int), let x := s.port p
    let got := s.modPort p fun x => { x with rxSeq := x.rxSeq + 1, ackDue := true }
    let bad := (got.sendNak p x.peer 0 (x.rxSeq + 1) St.zlFrame).violation p St.zlFrame
    let lt := got.learnCables a cs
    let g := s.gtickNow + s.joinLead;
    (x.st = .up →
      (x.scope ≠ some 0 → exec (.joinRequest p a b ⟨c, d⟩ cs e) s = .next bad) ∧
      (x.scope = some 0 → s.zl.group = .master → a = 0 ∨ s.isMember a = true ∨ (∃ j ∈ s.zl.joins, j.node = a) →
        exec (.joinRequest p a b ⟨c, d⟩ cs e) s = .next (lt.refuseJoin a St.zlNodeId)) ∧
      (x.scope = some 0 → s.zl.group = .master → a ≠ 0 → a ≠ 65535 → s.isMember a = false →
        (∀ j ∈ s.zl.joins, j.node ≠ a) → ∃ t, exec (.joinRequest p a b ⟨c, d⟩ cs e) s = .next t ∧
          t = { s with zl := t.zl, hz := t.hz, recs := t.recs, fns := t.fns, q := t.q, freeCtr := t.freeCtr } ∧
          (s.zl.hostAdmit = true → t.zl.joins = s.zl.joins ++ [⟨a, p, d, 0, 0, e, true, false, b, c⟩]) ∧
          (s.zl.hostAdmit = false → lt.latencyFits a = true → t.zl.joins =
            s.zl.joins ++ [⟨a, p, d, joinerOffset s.zl.base d g, g, e, false, false, b, c⟩])) ∧
      (x.scope = some 0 → s.zl.group ≠ .master → (s.zl.group = .reforming → s.zl.master ≠ s.node) →
        exec (.joinRequest p a b ⟨c, d⟩ cs e) s = .next got) ∧
      (∀ j, s.zl.joins.find? (fun j => j.node == a && !j.waitingHost && !j.accepted && j.gJ != 0) = some j →
        s.zl.group = .master ∨ s.zl.group = .reforming → ∃ t, exec (.joinAccept p a) s = .next t ∧
          t = { s with zl := t.zl, hz := t.hz, recs := t.recs, fns := t.fns, q := t.q, freeCtr := t.freeCtr } ∧
          t.zl.gen = s.zl.gen + 1 ∧ t.zl.effective = j.gJ ∧ (∃ m ∈ t.zl.members, m.node = a) ∧
          ∀ m ∈ s.zl.members, m ∈ t.zl.members) ∧
      (s.joiner = true → s.zl.joinAt = 0 → ∃ t, exec (.joinOffer p a b c d e) s = .next t ∧ t.zl.joinAt = a ∧
        t.zl.joinOffset = d ∧ t.zl.joinPort = p ∧ t = { s with zl := t.zl, hz := t.hz } ∧
        (s.hz.period = b → s.hz.window = c → s.hz.changes = [] → t.zl.lock = .acquiring ∧ t.zl.tickPort = p) ∧
        (s.hz.period ≠ b → (s.hz.epoch + 3, b, s.hz.source, c) ∈ t.hz.changes)) ∧
      (s.joiner = false ∨ s.zl.joinAt ≠ 0 → exec (.joinOffer p a b c d e) s = .next got) ∧
      (s.joiner = true → ∃ t, exec (.joinRefuse p st) s = .next t ∧ t.zl.joinAt = 0 ∧ t.zl.lock = .none ∧
        t = { s with zl := t.zl, recs := t.recs, fns := t.fns, q := t.q } ∧ t.zl.group = if s.zl.group = .joining then .solo else s.zl.group) ∧
      (s.joiner = false → exec (.joinRefuse p st) s = .next (got.modZl fun z => { z with
        joins := z.joins.filter fun j => !(j.port == p && !j.accepted) }))) ∧
    (s.joiner = false ∨ s.zl.joinAt = 0 → exec .joinLockDeadline s = .next s) ∧
    (s.joiner = true → s.zl.joinAt ≠ 0 → s.zl.lock = .locked → exec .joinLockDeadline s =
      .next (s.sendFrame s.zl.joinPort 0x23 65535 0 2)) ∧
    (s.joiner = true → s.zl.joinAt ≠ 0 → s.zl.lock ≠ .locked → ∃ t, exec .joinLockDeadline s = .next t ∧
      t.zl.joinAt = 0 ∧ t.zl.lock = .none ∧ t = { s with zl := t.zl, recs := t.recs, fns := t.fns, q := t.q }) ∧
    (s.hz.ticking = false ∨ s.zl.joinAt = 0 ∨ s.freshEpoch = false ∨ s.zl.joinAt + s.zl.joinOffset < s.hz.epoch →
      exec .joinTickReached s = .next s) ∧
    (s.hz.ticking = true → s.zl.joinAt ≠ 0 → s.freshEpoch = true → s.hz.epoch ≤ s.zl.joinAt + s.zl.joinOffset →
      s.zl.group = .joining → s.zl.lock = .locked →
      s.isMember s.node = true → ∃ t, exec .joinTickReached s = .next t ∧ t.zl.group = .member ∧
        t.hz.epoch = s.zl.joinAt + s.zl.joinOffset ∧ t.zl.offset = s.zl.joinOffset ∧ t.zl.committed = s.zl.joinAt - 1) ∧
    (s.zl.lock = .none ∨ s.zl.marked = true ∨ s.hz.ticking = false → exec .markWindowEnd s = .next s) ∧
    (s.hz.ticking = true → s.zl.marked = false →
      let missed := s.modZl fun z => { z with marked := true, marksMiss := sat32 (z.marksMiss + 1), nudgeNs := 0 }
      (s.zl.lock = .locked → exec .markWindowEnd s = .next (missed.modZl fun z => { z with lock := .flywheel, misses := 1 })) ∧
      (s.zl.lock = .flywheel → s.zl.misses < 2 → exec .markWindowEnd s =
        .next (missed.modZl fun z => { z with misses := z.misses + 1 })) ∧
      (s.zl.lock = .flywheel → 2 ≤ s.zl.misses → exec .markWindowEnd s = .next ((missed.modZl fun z => { z with
        lock := .unlocked, misses := 0, hits := 0, sumNs := 0 }).hzEvent St.hzLockLost s.hz.epoch)) ∧
      (s.portUp p = true → s.zl.tickPort = p → s.zl.lock = .locked ∨ s.zl.lock = .flywheel →
        (i.natAbs ≤ s.param 0x0B16 0 → s.inRing = false ∨ a = s.gtickNow → ∃ t, exec (.tickMark p a i b true) s = .next t ∧
          t.zl.lock = .locked ∧ t.zl.misses = 0 ∧ t.zl.phaseErr = i ∧ t.zl.marked = true ∧ t = { s with zl := t.zl } ∧
          t.zl.marksOk = sat32 (s.zl.marksOk + 1)) ∧
        (i.natAbs ≤ s.param 0x0B16 0 → s.inRing = true → a ≠ s.gtickNow → s.zl.lock = .locked →
          exec (.tickMark p a i b true) s = exec .markWindowEnd s) ∧
        (s.param 0x0B16 0 < i.natAbs → exec (.tickMark p a i b true) s =
          .next (s.modZl fun z => { z with marksBad := sat32 (z.marksBad + 1) })) ∧
        exec (.tickMark p a i b false) s = .next (s.modZl fun z => { z with marksBad := sat32 (z.marksBad + 1) })))

/-- FW_DOWNLOAD_DONE of a download under way ends it and its long command: a failed fetch gives ST_FN_DMA_ERROR, then a
bad header ST_FW_IMAGE, then a key hash that no unrevoked slot holds ST_FW_KEY_REVOKED, then a bad signature
ST_FW_SIGNATURE, then an SVN below the counter ST_FW_ROLLBACK, then a failed program ST_FW_FLASH, and only then is the
slot VALID. Preparation that ends chooses this tick before its cut point and the next one after it; the ready report
of a handover makes the new image the running one and resumes; a timeout of preparation, of the ready report or of the
hold ends the activation with ST_FW_ACTIVATE_TIMEOUT and the firmware as it was. The end of the nonce time removes the
nonce. Out of their phase each of these changes nothing. (R413, R414, R415, R416, R419) -/
def Obligations.FirmwareChanges : Prop :=
  ∀ (s : State) (file : FwFile),
    let ended := (s.endLong s.fw.longId St.fwActivateTimeout []).modFw fun f => { f with phase := .idle, holding := false }
    let img := imageOf file
    let st :=
      if file.fetchOk = false then St.fnDmaError
      else if imgHeaderOk file.bytes = false then St.fwImage
      else if s.fw.keyHashes[img.keyIndex]? ≠ some (natLE (sha256 ((file.bytes.drop 0x120).take 64))) ∨
        s.fw.revoked[img.keyIndex]? ≠ some false then St.fwKeyRevoked
      else if (sha256 (file.bytes.drop 0x200) == (file.bytes.drop 0x1A0).take 32 &&
        Config.ecdsaVerify ((file.bytes.drop 0x120).take 64) (sha256 (file.bytes.take 0x1A0))
          ((file.bytes.drop 0x1C0).take 64)) = false then St.fwSignature
      else if imgField file.bytes 0x10 1 < s.fw.svn then St.fwRollback
      else if file.programOk = false then St.fwFlash
      else St.ok
    (s.fw.download = none → exec (.fwDownloadDone file) s = .next s) ∧
    (∀ id k, s.fw.download = some (id, k) → exec (.fwDownloadDone file) s = .next ((s.modFw fun f => { f with
        download := none
        slots := if st = St.ok then updAt f.slots k fun _ => ⟨.valid, img⟩ else f.slots }).endLong id st [])) ∧
    (s.fw.phase = .preparing → s.hz.ticking = true → exec .fwPreparationDone s = .next (s.modFw fun f => { f with
      phase := .chosen (if s.hz.phase = .accept then s.hz.epoch else s.hz.epoch + 1) })) ∧
    (s.fw.phase ≠ .preparing ∨ s.hz.ticking = false → exec .fwPreparationDone s = .next s) ∧
    (s.fw.phase = .preparing → exec .fwPreparationTimeout s = .next ended) ∧
    (s.fw.phase ≠ .preparing → exec .fwPreparationTimeout s = .next s) ∧
    (∀ a, s.fw.phase = .handover a → exec .fwReadyTimeout s = .next ended ∧ exec .fwReady s =
      .next ((s.endLong s.fw.longId St.ok []).modFw fun f => { f with
        phase := .idle, holding := false, running := f.target, runImg := (f.slot f.target).img
        isCommitted := f.target == f.committed })) ∧
    ((∀ a, s.fw.phase ≠ .handover a) → exec .fwReadyTimeout s = .next s ∧ exec .fwReady s = .next s) ∧
    (s.fw.holding = true → s.fw.phase ≠ .idle → exec .fwHoldTimeout s = .next ended) ∧
    (s.fw.holding = false ∨ s.fw.phase = .idle → exec .fwHoldTimeout s = .next s) ∧
    exec .debugNonceExpiry s = .next (s.modFw fun f => { f with nonce := none })

/-- For every command c and state s: where c stands at the front of the queue, step of s is exec of c on s with the
queue's rest. On an empty queue step answers s. withFetchWord puts the command that a word spells at the front of the
queue, and where the word spells none changes nothing. The queue and the idle step are the model's own (log entry 1).
(13_command_queues.md, 14_mailbox_firmware.md) -/
def Obligations.StepRunsTheFrontCommand : Prop :=
  ∀ (s : State),
    (∀ c cs, s.pending = c :: cs → step s = exec c { s with pending := cs }) ∧
    (s.pending = [] → step s = .next s) ∧
    ∀ nbits w, (∀ c, decodeTableWord nbits w = some c →
        s.withFetchWord nbits w = { s with pending := c :: s.pending }) ∧
      (decodeTableWord nbits w = none → s.withFetchWord nbits w = s)

/-- State.reset meets the invariant of GoodStateKept, holds no command, has the one function PF0 ACTIVE, 16 FREE digest
contexts, no namespace, no pool, no tick running and no group; the period is 1,000 us, the seal window share 2/16, the
delay lists hold comparator HC2 and the command timeout scan HC3, and debug is not UNLOCKED. What the spec gives no
reset value for is not stated here. (R28, R35, R36, R253, R350, R353, R398) -/
def Obligations.ResetState : Prop :=
  State.reset.good ∧ State.reset.pending = [] ∧ State.reset.fns.map (fun f => (f.num, f.st)) = [(0, .active)] ∧
    (∀ c ∈ State.reset.dg, c.st = .free ∧ c.result = []) ∧ State.reset.store.nss = [] ∧
    State.reset.store.pool.formed = false ∧ State.reset.hz.ticking = false ∧ State.reset.zl.group = .solo ∧
    250 * State.reset.store.period = 1000 ∧ State.reset.store.window = 2 ∧
    State.reset.store.claims = [⟨2, 0x0A06, 0⟩, ⟨3, 0x020D, 0⟩] ∧ State.reset.fw.debug ≠ .unlocked

/-- For every constructor of Instr (all 297 forms: register accesses, doorbells and queue entries, mailbox commands with
the status reads among them, USB4 link and reset events with usb4LinkDownTimeout and tunnelledLinkReset among them,
tick, seal and shock events, program, read and erase ends, redundancy, Halo, Squall, hash, Anvil and Zelim events,
power and firmware events), every operand and every state there is a next state that exec answers. In it the queue is
the one it was given, a revoked OTP key slot stays revoked, the SVN counter does not fall, and debug that is disabled
for good stays so. The spec names no command that stops the block. That exec leaves the queue to step is the model's
own (log entry 1). (13_command_queues.md, 14_mailbox_firmware.md, R416, R417, R418) -/
def Obligations.EveryCommandCompletes : Prop :=
  ∀ (i : Instr) (s : State), ∃ t, exec i s = .next t ∧ t.pending = s.pending ∧ s.fw.svn ≤ t.fw.svn ∧
    (s.fw.debugDisabled = true → t.fw.debugDisabled = true) ∧
    ∀ k : Nat, s.fw.revoked[k]? = some true → t.fw.revoked[k]? = some true

/-- From every state in which each message area lists its bytes in canonical form (addresses strictly rising, no zero byte
listed) and there are 16 digest contexts, every step, whatever command stands at the front, leads to such a state.
(R249, R398) -/
def Obligations.GoodStateKept : Prop :=
  ∀ (s t : State), s.good → step s = .next t → t.good
end

