-- ==== Sys2Proof/Laws/Frames.lean ====
section
/-!
SUPPORT. What the shared operations change, each said once: an operation's answer is its state with the named parts of
the answer in place, so that every other part is unchanged.
-/

namespace Sys2Proof.Machine

open Sys2Proof

/-! ### Log, events, replies -/

theorem State.hostWrite_frame (s : State) (n : Nat) (w : HostWrite) : s.hostWrite n w = { s with q := (s.hostWrite n w).q } := by
  unfold State.hostWrite
  split <;> rfl

theorem State.msix_frame (s : State) (n v : Nat) :
    s.msix n v = { s with fns := (s.msix n v).fns, q := (s.msix n v).q } := by
  unfold State.msix
  dsimp only
  (repeat' split) <;> first | rfl | rw [State.hostWrite_frame]

theorem State.ringEvent_frame (s : State) (n cls : Nat) (st : Status) (d : Nat) :
    s.ringEvent n cls st d = { s with fns := (s.ringEvent n cls st d).fns, q := (s.ringEvent n cls st d).q } := by
  unfold State.ringEvent
  (repeat' split) <;> first | rfl | (rw [State.msix_frame, State.hostWrite_frame]; rfl)

theorem State.rings_frame (cls : Nat) (st : Status) (d : Nat) : ∀ (l : List Nat) (a : State),
    l.foldl (fun a n => a.ringEvent n cls st d) a = { a with
      fns := (l.foldl (fun a n => a.ringEvent n cls st d) a).fns
      q := (l.foldl (fun a n => a.ringEvent n cls st d) a).q }
  | [], _ => rfl
  | n :: l, a => by
    rw [List.foldl_cons]
    exact (State.rings_frame cls st d l _).trans (by rw [State.ringEvent_frame])

theorem State.log_frame (s : State) (cls fn : Nat) (st : Status) (d : Nat) :
    s.log cls fn st d = { s with recs := (s.log cls fn st d).recs } := rfl

/-- An event changes the log, event rings and interrupts of functions, and the writes to host memory. -/
theorem State.event_frame (s : State) (cls fn : Nat) (l : List Nat) (st : Status) (d : Nat) :
    s.event cls fn l st d =
      { s with recs := (s.log cls fn st d).recs, fns := (s.event cls fn l st d).fns, q := (s.event cls fn l st d).q } := by
  unfold State.event
  have h := State.log_frame s cls fn st d
  refine (State.rings_frame cls st d l _).trans ?_
  generalize l.foldl (fun a n => a.ringEvent n cls st d) (s.log cls fn st d) = u
  generalize s.log cls fn st d = v at h ⊢
  conv_lhs => rw [h]

/-- The end of a long command changes the records, event rings and interrupts, and the writes to host memory. -/
theorem State.endLong_frame (s : State) (id : Nat) (st : Status) (vs : List Nat) :
    s.endLong id st vs = { s with
      recs := (s.endLong id st vs).recs, fns := (s.endLong id st vs).fns, q := (s.endLong id st vs).q } := by
  unfold State.endLong
  split
  · rfl
  · dsimp only
    rw [State.event_frame]
    rfl

/-! ### Zelim -/

/-- A frame sent changes the ports and what was sent. -/
theorem State.sendFrame_frame (s : State) (p typ dst rid arg : Nat) :
    s.sendFrame p typ dst rid arg = { s with zl := (s.sendFrame p typ dst rid arg).zl } := by
  unfold State.sendFrame
  extract_lets x o
  clear_value o
  split <;> rfl

theorem State.sendTo_frame (s : State) (typ dst rid arg : Nat) : s.sendTo typ dst rid arg =
    { s with zl := (s.sendTo typ dst rid arg).zl } := s.sendFrame_frame ..

theorem State.zlEvent_frame (s : State) (st : Status) (p n : Nat) : s.zlEvent st p n =
    { s with recs := (s.zlEvent st p n).recs, fns := (s.zlEvent st p n).fns, q := (s.zlEvent st p n).q } := by
  unfold State.zlEvent
  rw [State.event_frame]

/-! ### Engines -/

theorem State.freeThread_frame (s : State) (tid : Nat) : s.freeThread tid = { s with anv := (s.freeThread tid).anv } := rfl

theorem State.deliver_frame {s u : State} {tid slot : Nat} {k : Token} (h : s.deliver tid slot k = some u) :
    u = { s with anv := u.anv } := by
  unfold State.deliver at h
  dsimp only at h
  (repeat' split at h) <;> first | (cases h; done) | (cases h; rfl)

theorem State.produce_frame (s : State) (tid slot : Nat) (k : Token) :
    s.produce tid slot k = { s with anv := (s.produce tid slot k).anv } := by
  unfold State.produce
  split
  · next h => exact State.deliver_frame h
  · rfl

theorem State.cancel_frame (s : State) (tid : Nat) : s.cancel tid = { s with anv := (s.cancel tid).anv } := by
  unfold State.cancel
  (repeat' split) <;> rfl

theorem State.endInst_frame (s : State) (id : Nat) (st : Status) (code len : Nat) : s.endInst id st code len =
    { s with anv := (s.endInst id st code len).anv, sq := (s.endInst id st code len).sq } := by
  have h : ∀ (l : List Thread) (a : State), (l.foldl (fun a t => a.cancel t.tid) a) =
      { a with anv := (l.foldl (fun a t => a.cancel t.tid) a).anv } := by
    intro l
    induction l with
    | nil => intro a; rfl
    | cons t l ih => intro a; rw [List.foldl_cons, ih, State.cancel_frame]
  unfold State.endInst
  split
  · rfl
  · split
    · rfl
    · dsimp only
      rw [h]
      rfl

theorem State.idleCheck_frame (s : State) (id : Nat) : s.idleCheck id =
    { s with anv := (s.idleCheck id).anv, sq := (s.idleCheck id).sq } := by
  unfold State.idleCheck
  split
  · split
    · rw [State.endInst_frame]
    · rfl
  · rfl

/-- What a spawn that finds a slot makes: the thread at the end of the list under its new ID. -/
theorem State.spawn_some {s : State} {t : Thread} {x : Nat × State} (h : s.spawn t = some x) :
    x.2 = { s with freeCtr := s.freeCtr + 1, anv := { s.anv with
      threads := s.anv.threads ++ [{ t with
        tid := x.1, order := s.anv.order, st := if t.nslots = 0 then .ready else .waiting }]
      order := s.anv.order + 1 } } := by
  unfold State.spawn at h
  split at h
  · cases h
  · cases h; rfl

/-- A spawn finds a slot where the partition has a free one. -/
theorem State.spawn_of_free {s : State} {t : Thread} (h : s.freeSlots t.part ≠ []) : ∃ x, s.spawn t = some x := by
  unfold State.spawn
  split
  · next hn => exact absurd hn h
  · exact ⟨_, rfl⟩

theorem State.spawn_none {s : State} {t : Thread} (h : s.freeSlots t.part = []) : s.spawn t = none := by
  unfold State.spawn
  rw [h]

end Sys2Proof.Machine
end

