-- ==== Sys2Proof/Laws/State.lean ====
section
/-!
SUPPORT. The fields of the state after each update of one subsystem, and after the shared operations that change one
field only.
-/

namespace Sys2Proof.Machine

open Sys2Proof

/-! ### `modStore` -/

@[simp] theorem State.modStore_part (s : State) (f : Store → Store) : (s.modStore f).part = s.part := rfl
@[simp] theorem State.modStore_store (s : State) (f : Store → Store) : (s.modStore f).store = f s.store := rfl
@[simp] theorem State.modStore_hz (s : State) (f : Store → Store) : (s.modStore f).hz = s.hz := rfl
@[simp] theorem State.modStore_ns (s : State) (f : Store → Store) : (s.modStore f).ns = s.ns := rfl
@[simp] theorem State.modStore_flash (s : State) (f : Store → Store) : (s.modStore f).flash = s.flash := rfl
@[simp] theorem State.modStore_q (s : State) (f : Store → Store) : (s.modStore f).q = s.q := rfl
@[simp] theorem State.modStore_fns (s : State) (f : Store → Store) : (s.modStore f).fns = s.fns := rfl
@[simp] theorem State.modStore_link (s : State) (f : Store → Store) : (s.modStore f).link = s.link := rfl
@[simp] theorem State.modStore_halo (s : State) (f : Store → Store) : (s.modStore f).halo = s.halo := rfl
@[simp] theorem State.modStore_sq (s : State) (f : Store → Store) : (s.modStore f).sq = s.sq := rfl
@[simp] theorem State.modStore_dg (s : State) (f : Store → Store) : (s.modStore f).dg = s.dg := rfl
@[simp] theorem State.modStore_anv (s : State) (f : Store → Store) : (s.modStore f).anv = s.anv := rfl
@[simp] theorem State.modStore_zl (s : State) (f : Store → Store) : (s.modStore f).zl = s.zl := rfl
@[simp] theorem State.modStore_fw (s : State) (f : Store → Store) : (s.modStore f).fw = s.fw := rfl
@[simp] theorem State.modStore_pw (s : State) (f : Store → Store) : (s.modStore f).pw = s.pw := rfl
@[simp] theorem State.modStore_recs (s : State) (f : Store → Store) : (s.modStore f).recs = s.recs := rfl
@[simp] theorem State.modStore_freeCtr (s : State) (f : Store → Store) : (s.modStore f).freeCtr = s.freeCtr := rfl
@[simp] theorem State.modStore_pending (s : State) (f : Store → Store) : (s.modStore f).pending = s.pending := rfl

/-! ### `modHz` -/

@[simp] theorem State.modHz_part (s : State) (f : Horizon → Horizon) : (s.modHz f).part = s.part := rfl
@[simp] theorem State.modHz_store (s : State) (f : Horizon → Horizon) : (s.modHz f).store = s.store := rfl
@[simp] theorem State.modHz_hz (s : State) (f : Horizon → Horizon) : (s.modHz f).hz = f s.hz := rfl
@[simp] theorem State.modHz_ns (s : State) (f : Horizon → Horizon) : (s.modHz f).ns = s.ns := rfl
@[simp] theorem State.modHz_flash (s : State) (f : Horizon → Horizon) : (s.modHz f).flash = s.flash := rfl
@[simp] theorem State.modHz_q (s : State) (f : Horizon → Horizon) : (s.modHz f).q = s.q := rfl
@[simp] theorem State.modHz_fns (s : State) (f : Horizon → Horizon) : (s.modHz f).fns = s.fns := rfl
@[simp] theorem State.modHz_link (s : State) (f : Horizon → Horizon) : (s.modHz f).link = s.link := rfl
@[simp] theorem State.modHz_halo (s : State) (f : Horizon → Horizon) : (s.modHz f).halo = s.halo := rfl
@[simp] theorem State.modHz_sq (s : State) (f : Horizon → Horizon) : (s.modHz f).sq = s.sq := rfl
@[simp] theorem State.modHz_dg (s : State) (f : Horizon → Horizon) : (s.modHz f).dg = s.dg := rfl
@[simp] theorem State.modHz_anv (s : State) (f : Horizon → Horizon) : (s.modHz f).anv = s.anv := rfl
@[simp] theorem State.modHz_zl (s : State) (f : Horizon → Horizon) : (s.modHz f).zl = s.zl := rfl
@[simp] theorem State.modHz_fw (s : State) (f : Horizon → Horizon) : (s.modHz f).fw = s.fw := rfl
@[simp] theorem State.modHz_pw (s : State) (f : Horizon → Horizon) : (s.modHz f).pw = s.pw := rfl
@[simp] theorem State.modHz_recs (s : State) (f : Horizon → Horizon) : (s.modHz f).recs = s.recs := rfl
@[simp] theorem State.modHz_freeCtr (s : State) (f : Horizon → Horizon) : (s.modHz f).freeCtr = s.freeCtr := rfl
@[simp] theorem State.modHz_pending (s : State) (f : Horizon → Horizon) : (s.modHz f).pending = s.pending := rfl

/-! ### `modNs` -/

@[simp] theorem State.modNs_part (s : State) (f : NsVol → NsVol) : (s.modNs f).part = s.part := rfl
@[simp] theorem State.modNs_store (s : State) (f : NsVol → NsVol) : (s.modNs f).store = s.store := rfl
@[simp] theorem State.modNs_hz (s : State) (f : NsVol → NsVol) : (s.modNs f).hz = s.hz := rfl
@[simp] theorem State.modNs_ns (s : State) (f : NsVol → NsVol) : (s.modNs f).ns = f s.ns := rfl
@[simp] theorem State.modNs_flash (s : State) (f : NsVol → NsVol) : (s.modNs f).flash = s.flash := rfl
@[simp] theorem State.modNs_q (s : State) (f : NsVol → NsVol) : (s.modNs f).q = s.q := rfl
@[simp] theorem State.modNs_fns (s : State) (f : NsVol → NsVol) : (s.modNs f).fns = s.fns := rfl
@[simp] theorem State.modNs_link (s : State) (f : NsVol → NsVol) : (s.modNs f).link = s.link := rfl
@[simp] theorem State.modNs_halo (s : State) (f : NsVol → NsVol) : (s.modNs f).halo = s.halo := rfl
@[simp] theorem State.modNs_sq (s : State) (f : NsVol → NsVol) : (s.modNs f).sq = s.sq := rfl
@[simp] theorem State.modNs_dg (s : State) (f : NsVol → NsVol) : (s.modNs f).dg = s.dg := rfl
@[simp] theorem State.modNs_anv (s : State) (f : NsVol → NsVol) : (s.modNs f).anv = s.anv := rfl
@[simp] theorem State.modNs_zl (s : State) (f : NsVol → NsVol) : (s.modNs f).zl = s.zl := rfl
@[simp] theorem State.modNs_fw (s : State) (f : NsVol → NsVol) : (s.modNs f).fw = s.fw := rfl
@[simp] theorem State.modNs_pw (s : State) (f : NsVol → NsVol) : (s.modNs f).pw = s.pw := rfl
@[simp] theorem State.modNs_recs (s : State) (f : NsVol → NsVol) : (s.modNs f).recs = s.recs := rfl
@[simp] theorem State.modNs_freeCtr (s : State) (f : NsVol → NsVol) : (s.modNs f).freeCtr = s.freeCtr := rfl
@[simp] theorem State.modNs_pending (s : State) (f : NsVol → NsVol) : (s.modNs f).pending = s.pending := rfl

/-! ### `modFlash` -/

@[simp] theorem State.modFlash_part (s : State) (f : Flash → Flash) : (s.modFlash f).part = s.part := rfl
@[simp] theorem State.modFlash_store (s : State) (f : Flash → Flash) : (s.modFlash f).store = s.store := rfl
@[simp] theorem State.modFlash_hz (s : State) (f : Flash → Flash) : (s.modFlash f).hz = s.hz := rfl
@[simp] theorem State.modFlash_ns (s : State) (f : Flash → Flash) : (s.modFlash f).ns = s.ns := rfl
@[simp] theorem State.modFlash_flash (s : State) (f : Flash → Flash) : (s.modFlash f).flash = f s.flash := rfl
@[simp] theorem State.modFlash_q (s : State) (f : Flash → Flash) : (s.modFlash f).q = s.q := rfl
@[simp] theorem State.modFlash_fns (s : State) (f : Flash → Flash) : (s.modFlash f).fns = s.fns := rfl
@[simp] theorem State.modFlash_link (s : State) (f : Flash → Flash) : (s.modFlash f).link = s.link := rfl
@[simp] theorem State.modFlash_halo (s : State) (f : Flash → Flash) : (s.modFlash f).halo = s.halo := rfl
@[simp] theorem State.modFlash_sq (s : State) (f : Flash → Flash) : (s.modFlash f).sq = s.sq := rfl
@[simp] theorem State.modFlash_dg (s : State) (f : Flash → Flash) : (s.modFlash f).dg = s.dg := rfl
@[simp] theorem State.modFlash_anv (s : State) (f : Flash → Flash) : (s.modFlash f).anv = s.anv := rfl
@[simp] theorem State.modFlash_zl (s : State) (f : Flash → Flash) : (s.modFlash f).zl = s.zl := rfl
@[simp] theorem State.modFlash_fw (s : State) (f : Flash → Flash) : (s.modFlash f).fw = s.fw := rfl
@[simp] theorem State.modFlash_pw (s : State) (f : Flash → Flash) : (s.modFlash f).pw = s.pw := rfl
@[simp] theorem State.modFlash_recs (s : State) (f : Flash → Flash) : (s.modFlash f).recs = s.recs := rfl
@[simp] theorem State.modFlash_freeCtr (s : State) (f : Flash → Flash) : (s.modFlash f).freeCtr = s.freeCtr := rfl
@[simp] theorem State.modFlash_pending (s : State) (f : Flash → Flash) : (s.modFlash f).pending = s.pending := rfl

/-! ### `modQ` -/

@[simp] theorem State.modQ_part (s : State) (f : Queues → Queues) : (s.modQ f).part = s.part := rfl
@[simp] theorem State.modQ_store (s : State) (f : Queues → Queues) : (s.modQ f).store = s.store := rfl
@[simp] theorem State.modQ_hz (s : State) (f : Queues → Queues) : (s.modQ f).hz = s.hz := rfl
@[simp] theorem State.modQ_ns (s : State) (f : Queues → Queues) : (s.modQ f).ns = s.ns := rfl
@[simp] theorem State.modQ_flash (s : State) (f : Queues → Queues) : (s.modQ f).flash = s.flash := rfl
@[simp] theorem State.modQ_q (s : State) (f : Queues → Queues) : (s.modQ f).q = f s.q := rfl
@[simp] theorem State.modQ_fns (s : State) (f : Queues → Queues) : (s.modQ f).fns = s.fns := rfl
@[simp] theorem State.modQ_link (s : State) (f : Queues → Queues) : (s.modQ f).link = s.link := rfl
@[simp] theorem State.modQ_halo (s : State) (f : Queues → Queues) : (s.modQ f).halo = s.halo := rfl
@[simp] theorem State.modQ_sq (s : State) (f : Queues → Queues) : (s.modQ f).sq = s.sq := rfl
@[simp] theorem State.modQ_dg (s : State) (f : Queues → Queues) : (s.modQ f).dg = s.dg := rfl
@[simp] theorem State.modQ_anv (s : State) (f : Queues → Queues) : (s.modQ f).anv = s.anv := rfl
@[simp] theorem State.modQ_zl (s : State) (f : Queues → Queues) : (s.modQ f).zl = s.zl := rfl
@[simp] theorem State.modQ_fw (s : State) (f : Queues → Queues) : (s.modQ f).fw = s.fw := rfl
@[simp] theorem State.modQ_pw (s : State) (f : Queues → Queues) : (s.modQ f).pw = s.pw := rfl
@[simp] theorem State.modQ_recs (s : State) (f : Queues → Queues) : (s.modQ f).recs = s.recs := rfl
@[simp] theorem State.modQ_freeCtr (s : State) (f : Queues → Queues) : (s.modQ f).freeCtr = s.freeCtr := rfl
@[simp] theorem State.modQ_pending (s : State) (f : Queues → Queues) : (s.modQ f).pending = s.pending := rfl

/-! ### `modLink` -/

@[simp] theorem State.modLink_part (s : State) (f : Link → Link) : (s.modLink f).part = s.part := rfl
@[simp] theorem State.modLink_store (s : State) (f : Link → Link) : (s.modLink f).store = s.store := rfl
@[simp] theorem State.modLink_hz (s : State) (f : Link → Link) : (s.modLink f).hz = s.hz := rfl
@[simp] theorem State.modLink_ns (s : State) (f : Link → Link) : (s.modLink f).ns = s.ns := rfl
@[simp] theorem State.modLink_flash (s : State) (f : Link → Link) : (s.modLink f).flash = s.flash := rfl
@[simp] theorem State.modLink_q (s : State) (f : Link → Link) : (s.modLink f).q = s.q := rfl
@[simp] theorem State.modLink_fns (s : State) (f : Link → Link) : (s.modLink f).fns = s.fns := rfl
@[simp] theorem State.modLink_link (s : State) (f : Link → Link) : (s.modLink f).link = f s.link := rfl
@[simp] theorem State.modLink_halo (s : State) (f : Link → Link) : (s.modLink f).halo = s.halo := rfl
@[simp] theorem State.modLink_sq (s : State) (f : Link → Link) : (s.modLink f).sq = s.sq := rfl
@[simp] theorem State.modLink_dg (s : State) (f : Link → Link) : (s.modLink f).dg = s.dg := rfl
@[simp] theorem State.modLink_anv (s : State) (f : Link → Link) : (s.modLink f).anv = s.anv := rfl
@[simp] theorem State.modLink_zl (s : State) (f : Link → Link) : (s.modLink f).zl = s.zl := rfl
@[simp] theorem State.modLink_fw (s : State) (f : Link → Link) : (s.modLink f).fw = s.fw := rfl
@[simp] theorem State.modLink_pw (s : State) (f : Link → Link) : (s.modLink f).pw = s.pw := rfl
@[simp] theorem State.modLink_recs (s : State) (f : Link → Link) : (s.modLink f).recs = s.recs := rfl
@[simp] theorem State.modLink_freeCtr (s : State) (f : Link → Link) : (s.modLink f).freeCtr = s.freeCtr := rfl
@[simp] theorem State.modLink_pending (s : State) (f : Link → Link) : (s.modLink f).pending = s.pending := rfl

/-! ### `modHalo` -/

@[simp] theorem State.modHalo_part (s : State) (f : Halo → Halo) : (s.modHalo f).part = s.part := rfl
@[simp] theorem State.modHalo_store (s : State) (f : Halo → Halo) : (s.modHalo f).store = s.store := rfl
@[simp] theorem State.modHalo_hz (s : State) (f : Halo → Halo) : (s.modHalo f).hz = s.hz := rfl
@[simp] theorem State.modHalo_ns (s : State) (f : Halo → Halo) : (s.modHalo f).ns = s.ns := rfl
@[simp] theorem State.modHalo_flash (s : State) (f : Halo → Halo) : (s.modHalo f).flash = s.flash := rfl
@[simp] theorem State.modHalo_q (s : State) (f : Halo → Halo) : (s.modHalo f).q = s.q := rfl
@[simp] theorem State.modHalo_fns (s : State) (f : Halo → Halo) : (s.modHalo f).fns = s.fns := rfl
@[simp] theorem State.modHalo_link (s : State) (f : Halo → Halo) : (s.modHalo f).link = s.link := rfl
@[simp] theorem State.modHalo_halo (s : State) (f : Halo → Halo) : (s.modHalo f).halo = f s.halo := rfl
@[simp] theorem State.modHalo_sq (s : State) (f : Halo → Halo) : (s.modHalo f).sq = s.sq := rfl
@[simp] theorem State.modHalo_dg (s : State) (f : Halo → Halo) : (s.modHalo f).dg = s.dg := rfl
@[simp] theorem State.modHalo_anv (s : State) (f : Halo → Halo) : (s.modHalo f).anv = s.anv := rfl
@[simp] theorem State.modHalo_zl (s : State) (f : Halo → Halo) : (s.modHalo f).zl = s.zl := rfl
@[simp] theorem State.modHalo_fw (s : State) (f : Halo → Halo) : (s.modHalo f).fw = s.fw := rfl
@[simp] theorem State.modHalo_pw (s : State) (f : Halo → Halo) : (s.modHalo f).pw = s.pw := rfl
@[simp] theorem State.modHalo_recs (s : State) (f : Halo → Halo) : (s.modHalo f).recs = s.recs := rfl
@[simp] theorem State.modHalo_freeCtr (s : State) (f : Halo → Halo) : (s.modHalo f).freeCtr = s.freeCtr := rfl
@[simp] theorem State.modHalo_pending (s : State) (f : Halo → Halo) : (s.modHalo f).pending = s.pending := rfl

/-! ### `modSq` -/

@[simp] theorem State.modSq_part (s : State) (f : Squall → Squall) : (s.modSq f).part = s.part := rfl
@[simp] theorem State.modSq_store (s : State) (f : Squall → Squall) : (s.modSq f).store = s.store := rfl
@[simp] theorem State.modSq_hz (s : State) (f : Squall → Squall) : (s.modSq f).hz = s.hz := rfl
@[simp] theorem State.modSq_ns (s : State) (f : Squall → Squall) : (s.modSq f).ns = s.ns := rfl
@[simp] theorem State.modSq_flash (s : State) (f : Squall → Squall) : (s.modSq f).flash = s.flash := rfl
@[simp] theorem State.modSq_q (s : State) (f : Squall → Squall) : (s.modSq f).q = s.q := rfl
@[simp] theorem State.modSq_fns (s : State) (f : Squall → Squall) : (s.modSq f).fns = s.fns := rfl
@[simp] theorem State.modSq_link (s : State) (f : Squall → Squall) : (s.modSq f).link = s.link := rfl
@[simp] theorem State.modSq_halo (s : State) (f : Squall → Squall) : (s.modSq f).halo = s.halo := rfl
@[simp] theorem State.modSq_sq (s : State) (f : Squall → Squall) : (s.modSq f).sq = f s.sq := rfl
@[simp] theorem State.modSq_dg (s : State) (f : Squall → Squall) : (s.modSq f).dg = s.dg := rfl
@[simp] theorem State.modSq_anv (s : State) (f : Squall → Squall) : (s.modSq f).anv = s.anv := rfl
@[simp] theorem State.modSq_zl (s : State) (f : Squall → Squall) : (s.modSq f).zl = s.zl := rfl
@[simp] theorem State.modSq_fw (s : State) (f : Squall → Squall) : (s.modSq f).fw = s.fw := rfl
@[simp] theorem State.modSq_pw (s : State) (f : Squall → Squall) : (s.modSq f).pw = s.pw := rfl
@[simp] theorem State.modSq_recs (s : State) (f : Squall → Squall) : (s.modSq f).recs = s.recs := rfl
@[simp] theorem State.modSq_freeCtr (s : State) (f : Squall → Squall) : (s.modSq f).freeCtr = s.freeCtr := rfl
@[simp] theorem State.modSq_pending (s : State) (f : Squall → Squall) : (s.modSq f).pending = s.pending := rfl

/-! ### `modAnv` -/

@[simp] theorem State.modAnv_part (s : State) (f : Anvil → Anvil) : (s.modAnv f).part = s.part := rfl
@[simp] theorem State.modAnv_store (s : State) (f : Anvil → Anvil) : (s.modAnv f).store = s.store := rfl
@[simp] theorem State.modAnv_hz (s : State) (f : Anvil → Anvil) : (s.modAnv f).hz = s.hz := rfl
@[simp] theorem State.modAnv_ns (s : State) (f : Anvil → Anvil) : (s.modAnv f).ns = s.ns := rfl
@[simp] theorem State.modAnv_flash (s : State) (f : Anvil → Anvil) : (s.modAnv f).flash = s.flash := rfl
@[simp] theorem State.modAnv_q (s : State) (f : Anvil → Anvil) : (s.modAnv f).q = s.q := rfl
@[simp] theorem State.modAnv_fns (s : State) (f : Anvil → Anvil) : (s.modAnv f).fns = s.fns := rfl
@[simp] theorem State.modAnv_link (s : State) (f : Anvil → Anvil) : (s.modAnv f).link = s.link := rfl
@[simp] theorem State.modAnv_halo (s : State) (f : Anvil → Anvil) : (s.modAnv f).halo = s.halo := rfl
@[simp] theorem State.modAnv_sq (s : State) (f : Anvil → Anvil) : (s.modAnv f).sq = s.sq := rfl
@[simp] theorem State.modAnv_dg (s : State) (f : Anvil → Anvil) : (s.modAnv f).dg = s.dg := rfl
@[simp] theorem State.modAnv_anv (s : State) (f : Anvil → Anvil) : (s.modAnv f).anv = f s.anv := rfl
@[simp] theorem State.modAnv_zl (s : State) (f : Anvil → Anvil) : (s.modAnv f).zl = s.zl := rfl
@[simp] theorem State.modAnv_fw (s : State) (f : Anvil → Anvil) : (s.modAnv f).fw = s.fw := rfl
@[simp] theorem State.modAnv_pw (s : State) (f : Anvil → Anvil) : (s.modAnv f).pw = s.pw := rfl
@[simp] theorem State.modAnv_recs (s : State) (f : Anvil → Anvil) : (s.modAnv f).recs = s.recs := rfl
@[simp] theorem State.modAnv_freeCtr (s : State) (f : Anvil → Anvil) : (s.modAnv f).freeCtr = s.freeCtr := rfl
@[simp] theorem State.modAnv_pending (s : State) (f : Anvil → Anvil) : (s.modAnv f).pending = s.pending := rfl

/-! ### `modZl` -/

@[simp] theorem State.modZl_part (s : State) (f : Zelim → Zelim) : (s.modZl f).part = s.part := rfl
@[simp] theorem State.modZl_store (s : State) (f : Zelim → Zelim) : (s.modZl f).store = s.store := rfl
@[simp] theorem State.modZl_hz (s : State) (f : Zelim → Zelim) : (s.modZl f).hz = s.hz := rfl
@[simp] theorem State.modZl_ns (s : State) (f : Zelim → Zelim) : (s.modZl f).ns = s.ns := rfl
@[simp] theorem State.modZl_flash (s : State) (f : Zelim → Zelim) : (s.modZl f).flash = s.flash := rfl
@[simp] theorem State.modZl_q (s : State) (f : Zelim → Zelim) : (s.modZl f).q = s.q := rfl
@[simp] theorem State.modZl_fns (s : State) (f : Zelim → Zelim) : (s.modZl f).fns = s.fns := rfl
@[simp] theorem State.modZl_link (s : State) (f : Zelim → Zelim) : (s.modZl f).link = s.link := rfl
@[simp] theorem State.modZl_halo (s : State) (f : Zelim → Zelim) : (s.modZl f).halo = s.halo := rfl
@[simp] theorem State.modZl_sq (s : State) (f : Zelim → Zelim) : (s.modZl f).sq = s.sq := rfl
@[simp] theorem State.modZl_dg (s : State) (f : Zelim → Zelim) : (s.modZl f).dg = s.dg := rfl
@[simp] theorem State.modZl_anv (s : State) (f : Zelim → Zelim) : (s.modZl f).anv = s.anv := rfl
@[simp] theorem State.modZl_zl (s : State) (f : Zelim → Zelim) : (s.modZl f).zl = f s.zl := rfl
@[simp] theorem State.modZl_fw (s : State) (f : Zelim → Zelim) : (s.modZl f).fw = s.fw := rfl
@[simp] theorem State.modZl_pw (s : State) (f : Zelim → Zelim) : (s.modZl f).pw = s.pw := rfl
@[simp] theorem State.modZl_recs (s : State) (f : Zelim → Zelim) : (s.modZl f).recs = s.recs := rfl
@[simp] theorem State.modZl_freeCtr (s : State) (f : Zelim → Zelim) : (s.modZl f).freeCtr = s.freeCtr := rfl
@[simp] theorem State.modZl_pending (s : State) (f : Zelim → Zelim) : (s.modZl f).pending = s.pending := rfl

/-! ### `modFw` -/

@[simp] theorem State.modFw_part (s : State) (f : Firmware → Firmware) : (s.modFw f).part = s.part := rfl
@[simp] theorem State.modFw_store (s : State) (f : Firmware → Firmware) : (s.modFw f).store = s.store := rfl
@[simp] theorem State.modFw_hz (s : State) (f : Firmware → Firmware) : (s.modFw f).hz = s.hz := rfl
@[simp] theorem State.modFw_ns (s : State) (f : Firmware → Firmware) : (s.modFw f).ns = s.ns := rfl
@[simp] theorem State.modFw_flash (s : State) (f : Firmware → Firmware) : (s.modFw f).flash = s.flash := rfl
@[simp] theorem State.modFw_q (s : State) (f : Firmware → Firmware) : (s.modFw f).q = s.q := rfl
@[simp] theorem State.modFw_fns (s : State) (f : Firmware → Firmware) : (s.modFw f).fns = s.fns := rfl
@[simp] theorem State.modFw_link (s : State) (f : Firmware → Firmware) : (s.modFw f).link = s.link := rfl
@[simp] theorem State.modFw_halo (s : State) (f : Firmware → Firmware) : (s.modFw f).halo = s.halo := rfl
@[simp] theorem State.modFw_sq (s : State) (f : Firmware → Firmware) : (s.modFw f).sq = s.sq := rfl
@[simp] theorem State.modFw_dg (s : State) (f : Firmware → Firmware) : (s.modFw f).dg = s.dg := rfl
@[simp] theorem State.modFw_anv (s : State) (f : Firmware → Firmware) : (s.modFw f).anv = s.anv := rfl
@[simp] theorem State.modFw_zl (s : State) (f : Firmware → Firmware) : (s.modFw f).zl = s.zl := rfl
@[simp] theorem State.modFw_fw (s : State) (f : Firmware → Firmware) : (s.modFw f).fw = f s.fw := rfl
@[simp] theorem State.modFw_pw (s : State) (f : Firmware → Firmware) : (s.modFw f).pw = s.pw := rfl
@[simp] theorem State.modFw_recs (s : State) (f : Firmware → Firmware) : (s.modFw f).recs = s.recs := rfl
@[simp] theorem State.modFw_freeCtr (s : State) (f : Firmware → Firmware) : (s.modFw f).freeCtr = s.freeCtr := rfl
@[simp] theorem State.modFw_pending (s : State) (f : Firmware → Firmware) : (s.modFw f).pending = s.pending := rfl

/-! ### `modPw` -/

@[simp] theorem State.modPw_part (s : State) (f : Power → Power) : (s.modPw f).part = s.part := rfl
@[simp] theorem State.modPw_store (s : State) (f : Power → Power) : (s.modPw f).store = s.store := rfl
@[simp] theorem State.modPw_hz (s : State) (f : Power → Power) : (s.modPw f).hz = s.hz := rfl
@[simp] theorem State.modPw_ns (s : State) (f : Power → Power) : (s.modPw f).ns = s.ns := rfl
@[simp] theorem State.modPw_flash (s : State) (f : Power → Power) : (s.modPw f).flash = s.flash := rfl
@[simp] theorem State.modPw_q (s : State) (f : Power → Power) : (s.modPw f).q = s.q := rfl
@[simp] theorem State.modPw_fns (s : State) (f : Power → Power) : (s.modPw f).fns = s.fns := rfl
@[simp] theorem State.modPw_link (s : State) (f : Power → Power) : (s.modPw f).link = s.link := rfl
@[simp] theorem State.modPw_halo (s : State) (f : Power → Power) : (s.modPw f).halo = s.halo := rfl
@[simp] theorem State.modPw_sq (s : State) (f : Power → Power) : (s.modPw f).sq = s.sq := rfl
@[simp] theorem State.modPw_dg (s : State) (f : Power → Power) : (s.modPw f).dg = s.dg := rfl
@[simp] theorem State.modPw_anv (s : State) (f : Power → Power) : (s.modPw f).anv = s.anv := rfl
@[simp] theorem State.modPw_zl (s : State) (f : Power → Power) : (s.modPw f).zl = s.zl := rfl
@[simp] theorem State.modPw_fw (s : State) (f : Power → Power) : (s.modPw f).fw = s.fw := rfl
@[simp] theorem State.modPw_pw (s : State) (f : Power → Power) : (s.modPw f).pw = f s.pw := rfl
@[simp] theorem State.modPw_recs (s : State) (f : Power → Power) : (s.modPw f).recs = s.recs := rfl
@[simp] theorem State.modPw_freeCtr (s : State) (f : Power → Power) : (s.modPw f).freeCtr = s.freeCtr := rfl
@[simp] theorem State.modPw_pending (s : State) (f : Power → Power) : (s.modPw f).pending = s.pending := rfl

/-! ### `modRecs` -/

@[simp] theorem State.modRecs_part (s : State) (f : Records → Records) : (s.modRecs f).part = s.part := rfl
@[simp] theorem State.modRecs_store (s : State) (f : Records → Records) : (s.modRecs f).store = s.store := rfl
@[simp] theorem State.modRecs_hz (s : State) (f : Records → Records) : (s.modRecs f).hz = s.hz := rfl
@[simp] theorem State.modRecs_ns (s : State) (f : Records → Records) : (s.modRecs f).ns = s.ns := rfl
@[simp] theorem State.modRecs_flash (s : State) (f : Records → Records) : (s.modRecs f).flash = s.flash := rfl
@[simp] theorem State.modRecs_q (s : State) (f : Records → Records) : (s.modRecs f).q = s.q := rfl
@[simp] theorem State.modRecs_fns (s : State) (f : Records → Records) : (s.modRecs f).fns = s.fns := rfl
@[simp] theorem State.modRecs_link (s : State) (f : Records → Records) : (s.modRecs f).link = s.link := rfl
@[simp] theorem State.modRecs_halo (s : State) (f : Records → Records) : (s.modRecs f).halo = s.halo := rfl
@[simp] theorem State.modRecs_sq (s : State) (f : Records → Records) : (s.modRecs f).sq = s.sq := rfl
@[simp] theorem State.modRecs_dg (s : State) (f : Records → Records) : (s.modRecs f).dg = s.dg := rfl
@[simp] theorem State.modRecs_anv (s : State) (f : Records → Records) : (s.modRecs f).anv = s.anv := rfl
@[simp] theorem State.modRecs_zl (s : State) (f : Records → Records) : (s.modRecs f).zl = s.zl := rfl
@[simp] theorem State.modRecs_fw (s : State) (f : Records → Records) : (s.modRecs f).fw = s.fw := rfl
@[simp] theorem State.modRecs_pw (s : State) (f : Records → Records) : (s.modRecs f).pw = s.pw := rfl
@[simp] theorem State.modRecs_recs (s : State) (f : Records → Records) : (s.modRecs f).recs = f s.recs := rfl
@[simp] theorem State.modRecs_freeCtr (s : State) (f : Records → Records) : (s.modRecs f).freeCtr = s.freeCtr := rfl
@[simp] theorem State.modRecs_pending (s : State) (f : Records → Records) : (s.modRecs f).pending = s.pending := rfl

/-! ### `modFn` -/

@[simp] theorem State.modFn_part (s : State) (n : Nat) (g : Fn → Fn) : (s.modFn n g).part = s.part := rfl
@[simp] theorem State.modFn_store (s : State) (n : Nat) (g : Fn → Fn) : (s.modFn n g).store = s.store := rfl
@[simp] theorem State.modFn_hz (s : State) (n : Nat) (g : Fn → Fn) : (s.modFn n g).hz = s.hz := rfl
@[simp] theorem State.modFn_ns (s : State) (n : Nat) (g : Fn → Fn) : (s.modFn n g).ns = s.ns := rfl
@[simp] theorem State.modFn_flash (s : State) (n : Nat) (g : Fn → Fn) : (s.modFn n g).flash = s.flash := rfl
@[simp] theorem State.modFn_q (s : State) (n : Nat) (g : Fn → Fn) : (s.modFn n g).q = s.q := rfl
@[simp] theorem State.modFn_link (s : State) (n : Nat) (g : Fn → Fn) : (s.modFn n g).link = s.link := rfl
@[simp] theorem State.modFn_halo (s : State) (n : Nat) (g : Fn → Fn) : (s.modFn n g).halo = s.halo := rfl
@[simp] theorem State.modFn_sq (s : State) (n : Nat) (g : Fn → Fn) : (s.modFn n g).sq = s.sq := rfl
@[simp] theorem State.modFn_dg (s : State) (n : Nat) (g : Fn → Fn) : (s.modFn n g).dg = s.dg := rfl
@[simp] theorem State.modFn_anv (s : State) (n : Nat) (g : Fn → Fn) : (s.modFn n g).anv = s.anv := rfl
@[simp] theorem State.modFn_zl (s : State) (n : Nat) (g : Fn → Fn) : (s.modFn n g).zl = s.zl := rfl
@[simp] theorem State.modFn_fw (s : State) (n : Nat) (g : Fn → Fn) : (s.modFn n g).fw = s.fw := rfl
@[simp] theorem State.modFn_pw (s : State) (n : Nat) (g : Fn → Fn) : (s.modFn n g).pw = s.pw := rfl
@[simp] theorem State.modFn_recs (s : State) (n : Nat) (g : Fn → Fn) : (s.modFn n g).recs = s.recs := rfl
@[simp] theorem State.modFn_freeCtr (s : State) (n : Nat) (g : Fn → Fn) : (s.modFn n g).freeCtr = s.freeCtr := rfl
@[simp] theorem State.modFn_pending (s : State) (n : Nat) (g : Fn → Fn) : (s.modFn n g).pending = s.pending := rfl

/-! ### `modEpoch` -/

@[simp] theorem State.modEpoch_part (s : State) (f : Epoch → Epoch) : (s.modEpoch f).part = s.part := rfl
@[simp] theorem State.modEpoch_store (s : State) (f : Epoch → Epoch) : (s.modEpoch f).store = s.store := rfl
@[simp] theorem State.modEpoch_ns (s : State) (f : Epoch → Epoch) : (s.modEpoch f).ns = s.ns := rfl
@[simp] theorem State.modEpoch_flash (s : State) (f : Epoch → Epoch) : (s.modEpoch f).flash = s.flash := rfl
@[simp] theorem State.modEpoch_q (s : State) (f : Epoch → Epoch) : (s.modEpoch f).q = s.q := rfl
@[simp] theorem State.modEpoch_fns (s : State) (f : Epoch → Epoch) : (s.modEpoch f).fns = s.fns := rfl
@[simp] theorem State.modEpoch_link (s : State) (f : Epoch → Epoch) : (s.modEpoch f).link = s.link := rfl
@[simp] theorem State.modEpoch_halo (s : State) (f : Epoch → Epoch) : (s.modEpoch f).halo = s.halo := rfl
@[simp] theorem State.modEpoch_sq (s : State) (f : Epoch → Epoch) : (s.modEpoch f).sq = s.sq := rfl
@[simp] theorem State.modEpoch_dg (s : State) (f : Epoch → Epoch) : (s.modEpoch f).dg = s.dg := rfl
@[simp] theorem State.modEpoch_anv (s : State) (f : Epoch → Epoch) : (s.modEpoch f).anv = s.anv := rfl
@[simp] theorem State.modEpoch_zl (s : State) (f : Epoch → Epoch) : (s.modEpoch f).zl = s.zl := rfl
@[simp] theorem State.modEpoch_fw (s : State) (f : Epoch → Epoch) : (s.modEpoch f).fw = s.fw := rfl
@[simp] theorem State.modEpoch_pw (s : State) (f : Epoch → Epoch) : (s.modEpoch f).pw = s.pw := rfl
@[simp] theorem State.modEpoch_recs (s : State) (f : Epoch → Epoch) : (s.modEpoch f).recs = s.recs := rfl
@[simp] theorem State.modEpoch_freeCtr (s : State) (f : Epoch → Epoch) : (s.modEpoch f).freeCtr = s.freeCtr := rfl
@[simp] theorem State.modEpoch_pending (s : State) (f : Epoch → Epoch) : (s.modEpoch f).pending = s.pending := rfl

/-! ### `record` -/

@[simp] theorem State.record_part (s : State) (cs : List Ctrl) : (s.record cs).part = s.part := rfl
@[simp] theorem State.record_store (s : State) (cs : List Ctrl) : (s.record cs).store = s.store := rfl
@[simp] theorem State.record_ns (s : State) (cs : List Ctrl) : (s.record cs).ns = s.ns := rfl
@[simp] theorem State.record_flash (s : State) (cs : List Ctrl) : (s.record cs).flash = s.flash := rfl
@[simp] theorem State.record_q (s : State) (cs : List Ctrl) : (s.record cs).q = s.q := rfl
@[simp] theorem State.record_fns (s : State) (cs : List Ctrl) : (s.record cs).fns = s.fns := rfl
@[simp] theorem State.record_link (s : State) (cs : List Ctrl) : (s.record cs).link = s.link := rfl
@[simp] theorem State.record_halo (s : State) (cs : List Ctrl) : (s.record cs).halo = s.halo := rfl
@[simp] theorem State.record_sq (s : State) (cs : List Ctrl) : (s.record cs).sq = s.sq := rfl
@[simp] theorem State.record_dg (s : State) (cs : List Ctrl) : (s.record cs).dg = s.dg := rfl
@[simp] theorem State.record_anv (s : State) (cs : List Ctrl) : (s.record cs).anv = s.anv := rfl
@[simp] theorem State.record_zl (s : State) (cs : List Ctrl) : (s.record cs).zl = s.zl := rfl
@[simp] theorem State.record_fw (s : State) (cs : List Ctrl) : (s.record cs).fw = s.fw := rfl
@[simp] theorem State.record_pw (s : State) (cs : List Ctrl) : (s.record cs).pw = s.pw := rfl
@[simp] theorem State.record_recs (s : State) (cs : List Ctrl) : (s.record cs).recs = s.recs := rfl
@[simp] theorem State.record_freeCtr (s : State) (cs : List Ctrl) : (s.record cs).freeCtr = s.freeCtr := rfl
@[simp] theorem State.record_pending (s : State) (cs : List Ctrl) : (s.record cs).pending = s.pending := rfl

/-! ### `startLong` -/

@[simp] theorem State.startLong_part (s : State) (n opcode : Nat) : (s.startLong n opcode).part = s.part := rfl
@[simp] theorem State.startLong_store (s : State) (n opcode : Nat) : (s.startLong n opcode).store = s.store := rfl
@[simp] theorem State.startLong_hz (s : State) (n opcode : Nat) : (s.startLong n opcode).hz = s.hz := rfl
@[simp] theorem State.startLong_ns (s : State) (n opcode : Nat) : (s.startLong n opcode).ns = s.ns := rfl
@[simp] theorem State.startLong_flash (s : State) (n opcode : Nat) : (s.startLong n opcode).flash = s.flash := rfl
@[simp] theorem State.startLong_q (s : State) (n opcode : Nat) : (s.startLong n opcode).q = s.q := rfl
@[simp] theorem State.startLong_fns (s : State) (n opcode : Nat) : (s.startLong n opcode).fns = s.fns := rfl
@[simp] theorem State.startLong_link (s : State) (n opcode : Nat) : (s.startLong n opcode).link = s.link := rfl
@[simp] theorem State.startLong_halo (s : State) (n opcode : Nat) : (s.startLong n opcode).halo = s.halo := rfl
@[simp] theorem State.startLong_sq (s : State) (n opcode : Nat) : (s.startLong n opcode).sq = s.sq := rfl
@[simp] theorem State.startLong_dg (s : State) (n opcode : Nat) : (s.startLong n opcode).dg = s.dg := rfl
@[simp] theorem State.startLong_anv (s : State) (n opcode : Nat) : (s.startLong n opcode).anv = s.anv := rfl
@[simp] theorem State.startLong_zl (s : State) (n opcode : Nat) : (s.startLong n opcode).zl = s.zl := rfl
@[simp] theorem State.startLong_fw (s : State) (n opcode : Nat) : (s.startLong n opcode).fw = s.fw := rfl
@[simp] theorem State.startLong_pw (s : State) (n opcode : Nat) : (s.startLong n opcode).pw = s.pw := rfl
@[simp] theorem State.startLong_freeCtr (s : State) (n opcode : Nat) : (s.startLong n opcode).freeCtr = s.freeCtr := rfl
@[simp] theorem State.startLong_pending (s : State) (n opcode : Nat) : (s.startLong n opcode).pending = s.pending := rfl

/-! ### `taken` -/

@[simp] theorem State.taken_part (s : State) (n : Nat) : (s.taken n).part = s.part := rfl
@[simp] theorem State.taken_store (s : State) (n : Nat) : (s.taken n).store = s.store := rfl
@[simp] theorem State.taken_hz (s : State) (n : Nat) : (s.taken n).hz = s.hz := rfl
@[simp] theorem State.taken_ns (s : State) (n : Nat) : (s.taken n).ns = s.ns := rfl
@[simp] theorem State.taken_flash (s : State) (n : Nat) : (s.taken n).flash = s.flash := rfl
@[simp] theorem State.taken_q (s : State) (n : Nat) : (s.taken n).q = s.q := rfl
@[simp] theorem State.taken_fns (s : State) (n : Nat) : (s.taken n).fns = s.fns := rfl
@[simp] theorem State.taken_link (s : State) (n : Nat) : (s.taken n).link = s.link := rfl
@[simp] theorem State.taken_halo (s : State) (n : Nat) : (s.taken n).halo = s.halo := rfl
@[simp] theorem State.taken_sq (s : State) (n : Nat) : (s.taken n).sq = s.sq := rfl
@[simp] theorem State.taken_dg (s : State) (n : Nat) : (s.taken n).dg = s.dg := rfl
@[simp] theorem State.taken_anv (s : State) (n : Nat) : (s.taken n).anv = s.anv := rfl
@[simp] theorem State.taken_zl (s : State) (n : Nat) : (s.taken n).zl = s.zl := rfl
@[simp] theorem State.taken_fw (s : State) (n : Nat) : (s.taken n).fw = s.fw := rfl
@[simp] theorem State.taken_pw (s : State) (n : Nat) : (s.taken n).pw = s.pw := rfl
@[simp] theorem State.taken_freeCtr (s : State) (n : Nat) : (s.taken n).freeCtr = s.freeCtr := rfl
@[simp] theorem State.taken_pending (s : State) (n : Nat) : (s.taken n).pending = s.pending := rfl

/-! ### `stage` -/

@[simp] theorem State.stage_part (s : State) (n opcode tag : Nat) (st : Status) (vals : List Nat) (aw : Option Nat) : (s.stage n opcode tag st vals aw).part = s.part := rfl
@[simp] theorem State.stage_store (s : State) (n opcode tag : Nat) (st : Status) (vals : List Nat) (aw : Option Nat) : (s.stage n opcode tag st vals aw).store = s.store := rfl
@[simp] theorem State.stage_hz (s : State) (n opcode tag : Nat) (st : Status) (vals : List Nat) (aw : Option Nat) : (s.stage n opcode tag st vals aw).hz = s.hz := rfl
@[simp] theorem State.stage_ns (s : State) (n opcode tag : Nat) (st : Status) (vals : List Nat) (aw : Option Nat) : (s.stage n opcode tag st vals aw).ns = s.ns := rfl
@[simp] theorem State.stage_flash (s : State) (n opcode tag : Nat) (st : Status) (vals : List Nat) (aw : Option Nat) : (s.stage n opcode tag st vals aw).flash = s.flash := rfl
@[simp] theorem State.stage_q (s : State) (n opcode tag : Nat) (st : Status) (vals : List Nat) (aw : Option Nat) : (s.stage n opcode tag st vals aw).q = s.q := rfl
@[simp] theorem State.stage_link (s : State) (n opcode tag : Nat) (st : Status) (vals : List Nat) (aw : Option Nat) : (s.stage n opcode tag st vals aw).link = s.link := rfl
@[simp] theorem State.stage_halo (s : State) (n opcode tag : Nat) (st : Status) (vals : List Nat) (aw : Option Nat) : (s.stage n opcode tag st vals aw).halo = s.halo := rfl
@[simp] theorem State.stage_sq (s : State) (n opcode tag : Nat) (st : Status) (vals : List Nat) (aw : Option Nat) : (s.stage n opcode tag st vals aw).sq = s.sq := rfl
@[simp] theorem State.stage_dg (s : State) (n opcode tag : Nat) (st : Status) (vals : List Nat) (aw : Option Nat) : (s.stage n opcode tag st vals aw).dg = s.dg := rfl
@[simp] theorem State.stage_anv (s : State) (n opcode tag : Nat) (st : Status) (vals : List Nat) (aw : Option Nat) : (s.stage n opcode tag st vals aw).anv = s.anv := rfl
@[simp] theorem State.stage_zl (s : State) (n opcode tag : Nat) (st : Status) (vals : List Nat) (aw : Option Nat) : (s.stage n opcode tag st vals aw).zl = s.zl := rfl
@[simp] theorem State.stage_fw (s : State) (n opcode tag : Nat) (st : Status) (vals : List Nat) (aw : Option Nat) : (s.stage n opcode tag st vals aw).fw = s.fw := rfl
@[simp] theorem State.stage_pw (s : State) (n opcode tag : Nat) (st : Status) (vals : List Nat) (aw : Option Nat) : (s.stage n opcode tag st vals aw).pw = s.pw := rfl
@[simp] theorem State.stage_recs (s : State) (n opcode tag : Nat) (st : Status) (vals : List Nat) (aw : Option Nat) : (s.stage n opcode tag st vals aw).recs = s.recs := rfl
@[simp] theorem State.stage_freeCtr (s : State) (n opcode tag : Nat) (st : Status) (vals : List Nat) (aw : Option Nat) : (s.stage n opcode tag st vals aw).freeCtr = s.freeCtr := rfl
@[simp] theorem State.stage_pending (s : State) (n opcode tag : Nat) (st : Status) (vals : List Nat) (aw : Option Nat) : (s.stage n opcode tag st vals aw).pending = s.pending := rfl

/-! ### `violate` -/

@[simp] theorem State.violate_part (s : State) (n : Nat) : (s.violate n).part = s.part := rfl
@[simp] theorem State.violate_store (s : State) (n : Nat) : (s.violate n).store = s.store := rfl
@[simp] theorem State.violate_hz (s : State) (n : Nat) : (s.violate n).hz = s.hz := rfl
@[simp] theorem State.violate_ns (s : State) (n : Nat) : (s.violate n).ns = s.ns := rfl
@[simp] theorem State.violate_flash (s : State) (n : Nat) : (s.violate n).flash = s.flash := rfl
@[simp] theorem State.violate_q (s : State) (n : Nat) : (s.violate n).q = s.q := rfl
@[simp] theorem State.violate_link (s : State) (n : Nat) : (s.violate n).link = s.link := rfl
@[simp] theorem State.violate_halo (s : State) (n : Nat) : (s.violate n).halo = s.halo := rfl
@[simp] theorem State.violate_sq (s : State) (n : Nat) : (s.violate n).sq = s.sq := rfl
@[simp] theorem State.violate_dg (s : State) (n : Nat) : (s.violate n).dg = s.dg := rfl
@[simp] theorem State.violate_anv (s : State) (n : Nat) : (s.violate n).anv = s.anv := rfl
@[simp] theorem State.violate_zl (s : State) (n : Nat) : (s.violate n).zl = s.zl := rfl
@[simp] theorem State.violate_fw (s : State) (n : Nat) : (s.violate n).fw = s.fw := rfl
@[simp] theorem State.violate_pw (s : State) (n : Nat) : (s.violate n).pw = s.pw := rfl
@[simp] theorem State.violate_recs (s : State) (n : Nat) : (s.violate n).recs = s.recs := rfl
@[simp] theorem State.violate_freeCtr (s : State) (n : Nat) : (s.violate n).freeCtr = s.freeCtr := rfl
@[simp] theorem State.violate_pending (s : State) (n : Nat) : (s.violate n).pending = s.pending := rfl

/-! ### `accept` -/

@[simp] theorem State.accept_part (s : State) (n opcode : Nat) (r : MbReq) (area : List Host.Cell) : (s.accept n opcode r area).part = s.part := rfl
@[simp] theorem State.accept_store (s : State) (n opcode : Nat) (r : MbReq) (area : List Host.Cell) : (s.accept n opcode r area).store = s.store := rfl
@[simp] theorem State.accept_hz (s : State) (n opcode : Nat) (r : MbReq) (area : List Host.Cell) : (s.accept n opcode r area).hz = s.hz := rfl
@[simp] theorem State.accept_ns (s : State) (n opcode : Nat) (r : MbReq) (area : List Host.Cell) : (s.accept n opcode r area).ns = s.ns := rfl
@[simp] theorem State.accept_flash (s : State) (n opcode : Nat) (r : MbReq) (area : List Host.Cell) : (s.accept n opcode r area).flash = s.flash := rfl
@[simp] theorem State.accept_q (s : State) (n opcode : Nat) (r : MbReq) (area : List Host.Cell) : (s.accept n opcode r area).q = s.q := rfl
@[simp] theorem State.accept_link (s : State) (n opcode : Nat) (r : MbReq) (area : List Host.Cell) : (s.accept n opcode r area).link = s.link := rfl
@[simp] theorem State.accept_halo (s : State) (n opcode : Nat) (r : MbReq) (area : List Host.Cell) : (s.accept n opcode r area).halo = s.halo := rfl
@[simp] theorem State.accept_sq (s : State) (n opcode : Nat) (r : MbReq) (area : List Host.Cell) : (s.accept n opcode r area).sq = s.sq := rfl
@[simp] theorem State.accept_dg (s : State) (n opcode : Nat) (r : MbReq) (area : List Host.Cell) : (s.accept n opcode r area).dg = s.dg := rfl
@[simp] theorem State.accept_anv (s : State) (n opcode : Nat) (r : MbReq) (area : List Host.Cell) : (s.accept n opcode r area).anv = s.anv := rfl
@[simp] theorem State.accept_zl (s : State) (n opcode : Nat) (r : MbReq) (area : List Host.Cell) : (s.accept n opcode r area).zl = s.zl := rfl
@[simp] theorem State.accept_fw (s : State) (n opcode : Nat) (r : MbReq) (area : List Host.Cell) : (s.accept n opcode r area).fw = s.fw := rfl
@[simp] theorem State.accept_pw (s : State) (n opcode : Nat) (r : MbReq) (area : List Host.Cell) : (s.accept n opcode r area).pw = s.pw := rfl
@[simp] theorem State.accept_freeCtr (s : State) (n opcode : Nat) (r : MbReq) (area : List Host.Cell) : (s.accept n opcode r area).freeCtr = s.freeCtr := rfl
@[simp] theorem State.accept_pending (s : State) (n opcode : Nat) (r : MbReq) (area : List Host.Cell) : (s.accept n opcode r area).pending = s.pending := rfl

/-! ### `log` -/

@[simp] theorem State.log_part (s : State) (cls fn : Nat) (st : Status) (detail : Nat) : (s.log cls fn st detail).part = s.part :=
  State.modRecs_part ..
@[simp] theorem State.log_store (s : State) (cls fn : Nat) (st : Status) (detail : Nat) : (s.log cls fn st detail).store = s.store :=
  State.modRecs_store ..
@[simp] theorem State.log_hz (s : State) (cls fn : Nat) (st : Status) (detail : Nat) : (s.log cls fn st detail).hz = s.hz :=
  State.modRecs_hz ..
@[simp] theorem State.log_ns (s : State) (cls fn : Nat) (st : Status) (detail : Nat) : (s.log cls fn st detail).ns = s.ns :=
  State.modRecs_ns ..
@[simp] theorem State.log_flash (s : State) (cls fn : Nat) (st : Status) (detail : Nat) : (s.log cls fn st detail).flash = s.flash :=
  State.modRecs_flash ..
@[simp] theorem State.log_q (s : State) (cls fn : Nat) (st : Status) (detail : Nat) : (s.log cls fn st detail).q = s.q :=
  State.modRecs_q ..
@[simp] theorem State.log_fns (s : State) (cls fn : Nat) (st : Status) (detail : Nat) : (s.log cls fn st detail).fns = s.fns :=
  State.modRecs_fns ..
@[simp] theorem State.log_link (s : State) (cls fn : Nat) (st : Status) (detail : Nat) : (s.log cls fn st detail).link = s.link :=
  State.modRecs_link ..
@[simp] theorem State.log_halo (s : State) (cls fn : Nat) (st : Status) (detail : Nat) : (s.log cls fn st detail).halo = s.halo :=
  State.modRecs_halo ..
@[simp] theorem State.log_sq (s : State) (cls fn : Nat) (st : Status) (detail : Nat) : (s.log cls fn st detail).sq = s.sq :=
  State.modRecs_sq ..
@[simp] theorem State.log_dg (s : State) (cls fn : Nat) (st : Status) (detail : Nat) : (s.log cls fn st detail).dg = s.dg :=
  State.modRecs_dg ..
@[simp] theorem State.log_anv (s : State) (cls fn : Nat) (st : Status) (detail : Nat) : (s.log cls fn st detail).anv = s.anv :=
  State.modRecs_anv ..
@[simp] theorem State.log_zl (s : State) (cls fn : Nat) (st : Status) (detail : Nat) : (s.log cls fn st detail).zl = s.zl :=
  State.modRecs_zl ..
@[simp] theorem State.log_fw (s : State) (cls fn : Nat) (st : Status) (detail : Nat) : (s.log cls fn st detail).fw = s.fw :=
  State.modRecs_fw ..
@[simp] theorem State.log_pw (s : State) (cls fn : Nat) (st : Status) (detail : Nat) : (s.log cls fn st detail).pw = s.pw :=
  State.modRecs_pw ..
@[simp] theorem State.log_freeCtr (s : State) (cls fn : Nat) (st : Status) (detail : Nat) : (s.log cls fn st detail).freeCtr = s.freeCtr :=
  State.modRecs_freeCtr ..
@[simp] theorem State.log_pending (s : State) (cls fn : Nat) (st : Status) (detail : Nat) : (s.log cls fn st detail).pending = s.pending :=
  State.modRecs_pending ..

/-! ### `hostWrite` -/

@[simp] theorem State.hostWrite_part (s : State) (n : Nat) (w : HostWrite) : (s.hostWrite n w).part = s.part := by
  unfold State.hostWrite; split <;> rfl
@[simp] theorem State.hostWrite_store (s : State) (n : Nat) (w : HostWrite) : (s.hostWrite n w).store = s.store := by
  unfold State.hostWrite; split <;> rfl
@[simp] theorem State.hostWrite_hz (s : State) (n : Nat) (w : HostWrite) : (s.hostWrite n w).hz = s.hz := by
  unfold State.hostWrite; split <;> rfl
@[simp] theorem State.hostWrite_ns (s : State) (n : Nat) (w : HostWrite) : (s.hostWrite n w).ns = s.ns := by
  unfold State.hostWrite; split <;> rfl
@[simp] theorem State.hostWrite_flash (s : State) (n : Nat) (w : HostWrite) : (s.hostWrite n w).flash = s.flash := by
  unfold State.hostWrite; split <;> rfl
@[simp] theorem State.hostWrite_fns (s : State) (n : Nat) (w : HostWrite) : (s.hostWrite n w).fns = s.fns := by
  unfold State.hostWrite; split <;> rfl
@[simp] theorem State.hostWrite_link (s : State) (n : Nat) (w : HostWrite) : (s.hostWrite n w).link = s.link := by
  unfold State.hostWrite; split <;> rfl
@[simp] theorem State.hostWrite_halo (s : State) (n : Nat) (w : HostWrite) : (s.hostWrite n w).halo = s.halo := by
  unfold State.hostWrite; split <;> rfl
@[simp] theorem State.hostWrite_sq (s : State) (n : Nat) (w : HostWrite) : (s.hostWrite n w).sq = s.sq := by
  unfold State.hostWrite; split <;> rfl
@[simp] theorem State.hostWrite_dg (s : State) (n : Nat) (w : HostWrite) : (s.hostWrite n w).dg = s.dg := by
  unfold State.hostWrite; split <;> rfl
@[simp] theorem State.hostWrite_anv (s : State) (n : Nat) (w : HostWrite) : (s.hostWrite n w).anv = s.anv := by
  unfold State.hostWrite; split <;> rfl
@[simp] theorem State.hostWrite_zl (s : State) (n : Nat) (w : HostWrite) : (s.hostWrite n w).zl = s.zl := by
  unfold State.hostWrite; split <;> rfl
@[simp] theorem State.hostWrite_fw (s : State) (n : Nat) (w : HostWrite) : (s.hostWrite n w).fw = s.fw := by
  unfold State.hostWrite; split <;> rfl
@[simp] theorem State.hostWrite_pw (s : State) (n : Nat) (w : HostWrite) : (s.hostWrite n w).pw = s.pw := by
  unfold State.hostWrite; split <;> rfl
@[simp] theorem State.hostWrite_recs (s : State) (n : Nat) (w : HostWrite) : (s.hostWrite n w).recs = s.recs := by
  unfold State.hostWrite; split <;> rfl
@[simp] theorem State.hostWrite_freeCtr (s : State) (n : Nat) (w : HostWrite) : (s.hostWrite n w).freeCtr = s.freeCtr := by
  unfold State.hostWrite; split <;> rfl
@[simp] theorem State.hostWrite_pending (s : State) (n : Nat) (w : HostWrite) : (s.hostWrite n w).pending = s.pending := by
  unfold State.hostWrite; split <;> rfl

/-! ### `msix` -/

@[simp] theorem State.msix_part (s : State) (n v : Nat) : (s.msix n v).part = s.part := by
  unfold State.msix; dsimp only; split <;> (try split) <;> simp
@[simp] theorem State.msix_store (s : State) (n v : Nat) : (s.msix n v).store = s.store := by
  unfold State.msix; dsimp only; split <;> (try split) <;> simp
@[simp] theorem State.msix_hz (s : State) (n v : Nat) : (s.msix n v).hz = s.hz := by
  unfold State.msix; dsimp only; split <;> (try split) <;> simp
@[simp] theorem State.msix_ns (s : State) (n v : Nat) : (s.msix n v).ns = s.ns := by
  unfold State.msix; dsimp only; split <;> (try split) <;> simp
@[simp] theorem State.msix_flash (s : State) (n v : Nat) : (s.msix n v).flash = s.flash := by
  unfold State.msix; dsimp only; split <;> (try split) <;> simp
@[simp] theorem State.msix_link (s : State) (n v : Nat) : (s.msix n v).link = s.link := by
  unfold State.msix; dsimp only; split <;> (try split) <;> simp
@[simp] theorem State.msix_halo (s : State) (n v : Nat) : (s.msix n v).halo = s.halo := by
  unfold State.msix; dsimp only; split <;> (try split) <;> simp
@[simp] theorem State.msix_sq (s : State) (n v : Nat) : (s.msix n v).sq = s.sq := by
  unfold State.msix; dsimp only; split <;> (try split) <;> simp
@[simp] theorem State.msix_dg (s : State) (n v : Nat) : (s.msix n v).dg = s.dg := by
  unfold State.msix; dsimp only; split <;> (try split) <;> simp
@[simp] theorem State.msix_anv (s : State) (n v : Nat) : (s.msix n v).anv = s.anv := by
  unfold State.msix; dsimp only; split <;> (try split) <;> simp
@[simp] theorem State.msix_zl (s : State) (n v : Nat) : (s.msix n v).zl = s.zl := by
  unfold State.msix; dsimp only; split <;> (try split) <;> simp
@[simp] theorem State.msix_fw (s : State) (n v : Nat) : (s.msix n v).fw = s.fw := by
  unfold State.msix; dsimp only; split <;> (try split) <;> simp
@[simp] theorem State.msix_pw (s : State) (n v : Nat) : (s.msix n v).pw = s.pw := by
  unfold State.msix; dsimp only; split <;> (try split) <;> simp
@[simp] theorem State.msix_recs (s : State) (n v : Nat) : (s.msix n v).recs = s.recs := by
  unfold State.msix; dsimp only; split <;> (try split) <;> simp
@[simp] theorem State.msix_freeCtr (s : State) (n v : Nat) : (s.msix n v).freeCtr = s.freeCtr := by
  unfold State.msix; dsimp only; split <;> (try split) <;> simp
@[simp] theorem State.msix_pending (s : State) (n v : Nat) : (s.msix n v).pending = s.pending := by
  unfold State.msix; dsimp only; split <;> (try split) <;> simp

/-! ### `ringEvent` -/

@[simp] theorem State.ringEvent_part (s : State) (n cls : Nat) (st : Status) (detail : Nat) : (s.ringEvent n cls st detail).part = s.part := by
  unfold State.ringEvent; split <;> (try (split <;> try split)) <;> simp
@[simp] theorem State.ringEvent_store (s : State) (n cls : Nat) (st : Status) (detail : Nat) : (s.ringEvent n cls st detail).store = s.store := by
  unfold State.ringEvent; split <;> (try (split <;> try split)) <;> simp
@[simp] theorem State.ringEvent_hz (s : State) (n cls : Nat) (st : Status) (detail : Nat) : (s.ringEvent n cls st detail).hz = s.hz := by
  unfold State.ringEvent; split <;> (try (split <;> try split)) <;> simp
@[simp] theorem State.ringEvent_ns (s : State) (n cls : Nat) (st : Status) (detail : Nat) : (s.ringEvent n cls st detail).ns = s.ns := by
  unfold State.ringEvent; split <;> (try (split <;> try split)) <;> simp
@[simp] theorem State.ringEvent_flash (s : State) (n cls : Nat) (st : Status) (detail : Nat) : (s.ringEvent n cls st detail).flash = s.flash := by
  unfold State.ringEvent; split <;> (try (split <;> try split)) <;> simp
@[simp] theorem State.ringEvent_link (s : State) (n cls : Nat) (st : Status) (detail : Nat) : (s.ringEvent n cls st detail).link = s.link := by
  unfold State.ringEvent; split <;> (try (split <;> try split)) <;> simp
@[simp] theorem State.ringEvent_halo (s : State) (n cls : Nat) (st : Status) (detail : Nat) : (s.ringEvent n cls st detail).halo = s.halo := by
  unfold State.ringEvent; split <;> (try (split <;> try split)) <;> simp
@[simp] theorem State.ringEvent_sq (s : State) (n cls : Nat) (st : Status) (detail : Nat) : (s.ringEvent n cls st detail).sq = s.sq := by
  unfold State.ringEvent; split <;> (try (split <;> try split)) <;> simp
@[simp] theorem State.ringEvent_dg (s : State) (n cls : Nat) (st : Status) (detail : Nat) : (s.ringEvent n cls st detail).dg = s.dg := by
  unfold State.ringEvent; split <;> (try (split <;> try split)) <;> simp
@[simp] theorem State.ringEvent_anv (s : State) (n cls : Nat) (st : Status) (detail : Nat) : (s.ringEvent n cls st detail).anv = s.anv := by
  unfold State.ringEvent; split <;> (try (split <;> try split)) <;> simp
@[simp] theorem State.ringEvent_zl (s : State) (n cls : Nat) (st : Status) (detail : Nat) : (s.ringEvent n cls st detail).zl = s.zl := by
  unfold State.ringEvent; split <;> (try (split <;> try split)) <;> simp
@[simp] theorem State.ringEvent_fw (s : State) (n cls : Nat) (st : Status) (detail : Nat) : (s.ringEvent n cls st detail).fw = s.fw := by
  unfold State.ringEvent; split <;> (try (split <;> try split)) <;> simp
@[simp] theorem State.ringEvent_pw (s : State) (n cls : Nat) (st : Status) (detail : Nat) : (s.ringEvent n cls st detail).pw = s.pw := by
  unfold State.ringEvent; split <;> (try (split <;> try split)) <;> simp
@[simp] theorem State.ringEvent_recs (s : State) (n cls : Nat) (st : Status) (detail : Nat) : (s.ringEvent n cls st detail).recs = s.recs := by
  unfold State.ringEvent; split <;> (try (split <;> try split)) <;> simp
@[simp] theorem State.ringEvent_freeCtr (s : State) (n cls : Nat) (st : Status) (detail : Nat) : (s.ringEvent n cls st detail).freeCtr = s.freeCtr := by
  unfold State.ringEvent; split <;> (try (split <;> try split)) <;> simp
@[simp] theorem State.ringEvent_pending (s : State) (n cls : Nat) (st : Status) (detail : Nat) : (s.ringEvent n cls st detail).pending = s.pending := by
  unfold State.ringEvent; split <;> (try (split <;> try split)) <;> simp

/-! ### `event` -/

/-- A fold of an operation that keeps a reading of the state keeps that reading. -/
theorem foldl_keeps {α β : Type} (get : State → β) (f : State → α → State) (h : ∀ s x, get (f s x) = get s) (l : List α)
    (s : State) : get (l.foldl f s) = get s := by
  induction l generalizing s with
  | nil => rfl
  | cons x l ih => rw [List.foldl_cons, ih, h]

@[simp] theorem State.event_part (s : State) (cls fn : Nat) (l : List Nat) (st : Status) (d : Nat) :
    (s.event cls fn l st d).part = s.part := by
  unfold State.event
  rw [foldl_keeps (·.part) _ (fun a x => State.ringEvent_part a x cls st d), State.log_part]
@[simp] theorem State.event_store (s : State) (cls fn : Nat) (l : List Nat) (st : Status) (d : Nat) :
    (s.event cls fn l st d).store = s.store := by
  unfold State.event
  rw [foldl_keeps (·.store) _ (fun a x => State.ringEvent_store a x cls st d), State.log_store]
@[simp] theorem State.event_hz (s : State) (cls fn : Nat) (l : List Nat) (st : Status) (d : Nat) :
    (s.event cls fn l st d).hz = s.hz := by
  unfold State.event
  rw [foldl_keeps (·.hz) _ (fun a x => State.ringEvent_hz a x cls st d), State.log_hz]
@[simp] theorem State.event_ns (s : State) (cls fn : Nat) (l : List Nat) (st : Status) (d : Nat) :
    (s.event cls fn l st d).ns = s.ns := by
  unfold State.event
  rw [foldl_keeps (·.ns) _ (fun a x => State.ringEvent_ns a x cls st d), State.log_ns]
@[simp] theorem State.event_flash (s : State) (cls fn : Nat) (l : List Nat) (st : Status) (d : Nat) :
    (s.event cls fn l st d).flash = s.flash := by
  unfold State.event
  rw [foldl_keeps (·.flash) _ (fun a x => State.ringEvent_flash a x cls st d), State.log_flash]
@[simp] theorem State.event_link (s : State) (cls fn : Nat) (l : List Nat) (st : Status) (d : Nat) :
    (s.event cls fn l st d).link = s.link := by
  unfold State.event
  rw [foldl_keeps (·.link) _ (fun a x => State.ringEvent_link a x cls st d), State.log_link]
@[simp] theorem State.event_halo (s : State) (cls fn : Nat) (l : List Nat) (st : Status) (d : Nat) :
    (s.event cls fn l st d).halo = s.halo := by
  unfold State.event
  rw [foldl_keeps (·.halo) _ (fun a x => State.ringEvent_halo a x cls st d), State.log_halo]
@[simp] theorem State.event_sq (s : State) (cls fn : Nat) (l : List Nat) (st : Status) (d : Nat) :
    (s.event cls fn l st d).sq = s.sq := by
  unfold State.event
  rw [foldl_keeps (·.sq) _ (fun a x => State.ringEvent_sq a x cls st d), State.log_sq]
@[simp] theorem State.event_dg (s : State) (cls fn : Nat) (l : List Nat) (st : Status) (d : Nat) :
    (s.event cls fn l st d).dg = s.dg := by
  unfold State.event
  rw [foldl_keeps (·.dg) _ (fun a x => State.ringEvent_dg a x cls st d), State.log_dg]
@[simp] theorem State.event_anv (s : State) (cls fn : Nat) (l : List Nat) (st : Status) (d : Nat) :
    (s.event cls fn l st d).anv = s.anv := by
  unfold State.event
  rw [foldl_keeps (·.anv) _ (fun a x => State.ringEvent_anv a x cls st d), State.log_anv]
@[simp] theorem State.event_zl (s : State) (cls fn : Nat) (l : List Nat) (st : Status) (d : Nat) :
    (s.event cls fn l st d).zl = s.zl := by
  unfold State.event
  rw [foldl_keeps (·.zl) _ (fun a x => State.ringEvent_zl a x cls st d), State.log_zl]
@[simp] theorem State.event_fw (s : State) (cls fn : Nat) (l : List Nat) (st : Status) (d : Nat) :
    (s.event cls fn l st d).fw = s.fw := by
  unfold State.event
  rw [foldl_keeps (·.fw) _ (fun a x => State.ringEvent_fw a x cls st d), State.log_fw]
@[simp] theorem State.event_pw (s : State) (cls fn : Nat) (l : List Nat) (st : Status) (d : Nat) :
    (s.event cls fn l st d).pw = s.pw := by
  unfold State.event
  rw [foldl_keeps (·.pw) _ (fun a x => State.ringEvent_pw a x cls st d), State.log_pw]
@[simp] theorem State.event_freeCtr (s : State) (cls fn : Nat) (l : List Nat) (st : Status) (d : Nat) :
    (s.event cls fn l st d).freeCtr = s.freeCtr := by
  unfold State.event
  rw [foldl_keeps (·.freeCtr) _ (fun a x => State.ringEvent_freeCtr a x cls st d), State.log_freeCtr]
@[simp] theorem State.event_pending (s : State) (cls fn : Nat) (l : List Nat) (st : Status) (d : Nat) :
    (s.event cls fn l st d).pending = s.pending := by
  unfold State.event
  rw [foldl_keeps (·.pending) _ (fun a x => State.ringEvent_pending a x cls st d), State.log_pending]

/-! ### `hzEvent` -/

@[simp] theorem State.hzEvent_part (s : State) (st : Status) (e : Nat) : (s.hzEvent st e).part = s.part :=
  State.event_part ..
@[simp] theorem State.hzEvent_store (s : State) (st : Status) (e : Nat) : (s.hzEvent st e).store = s.store :=
  State.event_store ..
@[simp] theorem State.hzEvent_hz (s : State) (st : Status) (e : Nat) : (s.hzEvent st e).hz = s.hz :=
  State.event_hz ..
@[simp] theorem State.hzEvent_ns (s : State) (st : Status) (e : Nat) : (s.hzEvent st e).ns = s.ns :=
  State.event_ns ..
@[simp] theorem State.hzEvent_flash (s : State) (st : Status) (e : Nat) : (s.hzEvent st e).flash = s.flash :=
  State.event_flash ..
@[simp] theorem State.hzEvent_link (s : State) (st : Status) (e : Nat) : (s.hzEvent st e).link = s.link :=
  State.event_link ..
@[simp] theorem State.hzEvent_halo (s : State) (st : Status) (e : Nat) : (s.hzEvent st e).halo = s.halo :=
  State.event_halo ..
@[simp] theorem State.hzEvent_sq (s : State) (st : Status) (e : Nat) : (s.hzEvent st e).sq = s.sq :=
  State.event_sq ..
@[simp] theorem State.hzEvent_dg (s : State) (st : Status) (e : Nat) : (s.hzEvent st e).dg = s.dg :=
  State.event_dg ..
@[simp] theorem State.hzEvent_anv (s : State) (st : Status) (e : Nat) : (s.hzEvent st e).anv = s.anv :=
  State.event_anv ..
@[simp] theorem State.hzEvent_zl (s : State) (st : Status) (e : Nat) : (s.hzEvent st e).zl = s.zl :=
  State.event_zl ..
@[simp] theorem State.hzEvent_fw (s : State) (st : Status) (e : Nat) : (s.hzEvent st e).fw = s.fw :=
  State.event_fw ..
@[simp] theorem State.hzEvent_pw (s : State) (st : Status) (e : Nat) : (s.hzEvent st e).pw = s.pw :=
  State.event_pw ..
@[simp] theorem State.hzEvent_freeCtr (s : State) (st : Status) (e : Nat) : (s.hzEvent st e).freeCtr = s.freeCtr :=
  State.event_freeCtr ..
@[simp] theorem State.hzEvent_pending (s : State) (st : Status) (e : Nat) : (s.hzEvent st e).pending = s.pending :=
  State.event_pending ..

/-! ### `mediaEvent` -/

@[simp] theorem State.mediaEvent_part (s : State) (st : Status) (u : Nat) : (s.mediaEvent st u).part = s.part :=
  State.event_part ..
@[simp] theorem State.mediaEvent_store (s : State) (st : Status) (u : Nat) : (s.mediaEvent st u).store = s.store :=
  State.event_store ..
@[simp] theorem State.mediaEvent_hz (s : State) (st : Status) (u : Nat) : (s.mediaEvent st u).hz = s.hz :=
  State.event_hz ..
@[simp] theorem State.mediaEvent_ns (s : State) (st : Status) (u : Nat) : (s.mediaEvent st u).ns = s.ns :=
  State.event_ns ..
@[simp] theorem State.mediaEvent_flash (s : State) (st : Status) (u : Nat) : (s.mediaEvent st u).flash = s.flash :=
  State.event_flash ..
@[simp] theorem State.mediaEvent_link (s : State) (st : Status) (u : Nat) : (s.mediaEvent st u).link = s.link :=
  State.event_link ..
@[simp] theorem State.mediaEvent_halo (s : State) (st : Status) (u : Nat) : (s.mediaEvent st u).halo = s.halo :=
  State.event_halo ..
@[simp] theorem State.mediaEvent_sq (s : State) (st : Status) (u : Nat) : (s.mediaEvent st u).sq = s.sq :=
  State.event_sq ..
@[simp] theorem State.mediaEvent_dg (s : State) (st : Status) (u : Nat) : (s.mediaEvent st u).dg = s.dg :=
  State.event_dg ..
@[simp] theorem State.mediaEvent_anv (s : State) (st : Status) (u : Nat) : (s.mediaEvent st u).anv = s.anv :=
  State.event_anv ..
@[simp] theorem State.mediaEvent_zl (s : State) (st : Status) (u : Nat) : (s.mediaEvent st u).zl = s.zl :=
  State.event_zl ..
@[simp] theorem State.mediaEvent_fw (s : State) (st : Status) (u : Nat) : (s.mediaEvent st u).fw = s.fw :=
  State.event_fw ..
@[simp] theorem State.mediaEvent_pw (s : State) (st : Status) (u : Nat) : (s.mediaEvent st u).pw = s.pw :=
  State.event_pw ..
@[simp] theorem State.mediaEvent_freeCtr (s : State) (st : Status) (u : Nat) : (s.mediaEvent st u).freeCtr = s.freeCtr :=
  State.event_freeCtr ..
@[simp] theorem State.mediaEvent_pending (s : State) (st : Status) (u : Nat) : (s.mediaEvent st u).pending = s.pending :=
  State.event_pending ..

/-! ### `zlEvent` -/

@[simp] theorem State.zlEvent_part (s : State) (st : Status) (p n : Nat) : (s.zlEvent st p n).part = s.part :=
  State.event_part ..
@[simp] theorem State.zlEvent_store (s : State) (st : Status) (p n : Nat) : (s.zlEvent st p n).store = s.store :=
  State.event_store ..
@[simp] theorem State.zlEvent_hz (s : State) (st : Status) (p n : Nat) : (s.zlEvent st p n).hz = s.hz :=
  State.event_hz ..
@[simp] theorem State.zlEvent_ns (s : State) (st : Status) (p n : Nat) : (s.zlEvent st p n).ns = s.ns :=
  State.event_ns ..
@[simp] theorem State.zlEvent_flash (s : State) (st : Status) (p n : Nat) : (s.zlEvent st p n).flash = s.flash :=
  State.event_flash ..
@[simp] theorem State.zlEvent_link (s : State) (st : Status) (p n : Nat) : (s.zlEvent st p n).link = s.link :=
  State.event_link ..
@[simp] theorem State.zlEvent_halo (s : State) (st : Status) (p n : Nat) : (s.zlEvent st p n).halo = s.halo :=
  State.event_halo ..
@[simp] theorem State.zlEvent_sq (s : State) (st : Status) (p n : Nat) : (s.zlEvent st p n).sq = s.sq :=
  State.event_sq ..
@[simp] theorem State.zlEvent_dg (s : State) (st : Status) (p n : Nat) : (s.zlEvent st p n).dg = s.dg :=
  State.event_dg ..
@[simp] theorem State.zlEvent_anv (s : State) (st : Status) (p n : Nat) : (s.zlEvent st p n).anv = s.anv :=
  State.event_anv ..
@[simp] theorem State.zlEvent_zl (s : State) (st : Status) (p n : Nat) : (s.zlEvent st p n).zl = s.zl :=
  State.event_zl ..
@[simp] theorem State.zlEvent_fw (s : State) (st : Status) (p n : Nat) : (s.zlEvent st p n).fw = s.fw :=
  State.event_fw ..
@[simp] theorem State.zlEvent_pw (s : State) (st : Status) (p n : Nat) : (s.zlEvent st p n).pw = s.pw :=
  State.event_pw ..
@[simp] theorem State.zlEvent_freeCtr (s : State) (st : Status) (p n : Nat) : (s.zlEvent st p n).freeCtr = s.freeCtr :=
  State.event_freeCtr ..
@[simp] theorem State.zlEvent_pending (s : State) (st : Status) (p n : Nat) : (s.zlEvent st p n).pending = s.pending :=
  State.event_pending ..

/-! ### `devEvent` -/

@[simp] theorem State.devEvent_part (s : State) (st : Status) (d : Nat) : (s.devEvent st d).part = s.part :=
  State.event_part ..
@[simp] theorem State.devEvent_store (s : State) (st : Status) (d : Nat) : (s.devEvent st d).store = s.store :=
  State.event_store ..
@[simp] theorem State.devEvent_hz (s : State) (st : Status) (d : Nat) : (s.devEvent st d).hz = s.hz :=
  State.event_hz ..
@[simp] theorem State.devEvent_ns (s : State) (st : Status) (d : Nat) : (s.devEvent st d).ns = s.ns :=
  State.event_ns ..
@[simp] theorem State.devEvent_flash (s : State) (st : Status) (d : Nat) : (s.devEvent st d).flash = s.flash :=
  State.event_flash ..
@[simp] theorem State.devEvent_link (s : State) (st : Status) (d : Nat) : (s.devEvent st d).link = s.link :=
  State.event_link ..
@[simp] theorem State.devEvent_halo (s : State) (st : Status) (d : Nat) : (s.devEvent st d).halo = s.halo :=
  State.event_halo ..
@[simp] theorem State.devEvent_sq (s : State) (st : Status) (d : Nat) : (s.devEvent st d).sq = s.sq :=
  State.event_sq ..
@[simp] theorem State.devEvent_dg (s : State) (st : Status) (d : Nat) : (s.devEvent st d).dg = s.dg :=
  State.event_dg ..
@[simp] theorem State.devEvent_anv (s : State) (st : Status) (d : Nat) : (s.devEvent st d).anv = s.anv :=
  State.event_anv ..
@[simp] theorem State.devEvent_zl (s : State) (st : Status) (d : Nat) : (s.devEvent st d).zl = s.zl :=
  State.event_zl ..
@[simp] theorem State.devEvent_fw (s : State) (st : Status) (d : Nat) : (s.devEvent st d).fw = s.fw :=
  State.event_fw ..
@[simp] theorem State.devEvent_pw (s : State) (st : Status) (d : Nat) : (s.devEvent st d).pw = s.pw :=
  State.event_pw ..
@[simp] theorem State.devEvent_freeCtr (s : State) (st : Status) (d : Nat) : (s.devEvent st d).freeCtr = s.freeCtr :=
  State.event_freeCtr ..
@[simp] theorem State.devEvent_pending (s : State) (st : Status) (d : Nat) : (s.devEvent st d).pending = s.pending :=
  State.event_pending ..

/-! ### `nsEvent` -/

@[simp] theorem State.nsEvent_part (s : State) (st : Status) (i l : Nat) : (s.nsEvent st i l).part = s.part :=
  State.event_part ..
@[simp] theorem State.nsEvent_store (s : State) (st : Status) (i l : Nat) : (s.nsEvent st i l).store = s.store :=
  State.event_store ..
@[simp] theorem State.nsEvent_hz (s : State) (st : Status) (i l : Nat) : (s.nsEvent st i l).hz = s.hz :=
  State.event_hz ..
@[simp] theorem State.nsEvent_ns (s : State) (st : Status) (i l : Nat) : (s.nsEvent st i l).ns = s.ns :=
  State.event_ns ..
@[simp] theorem State.nsEvent_flash (s : State) (st : Status) (i l : Nat) : (s.nsEvent st i l).flash = s.flash :=
  State.event_flash ..
@[simp] theorem State.nsEvent_link (s : State) (st : Status) (i l : Nat) : (s.nsEvent st i l).link = s.link :=
  State.event_link ..
@[simp] theorem State.nsEvent_halo (s : State) (st : Status) (i l : Nat) : (s.nsEvent st i l).halo = s.halo :=
  State.event_halo ..
@[simp] theorem State.nsEvent_sq (s : State) (st : Status) (i l : Nat) : (s.nsEvent st i l).sq = s.sq :=
  State.event_sq ..
@[simp] theorem State.nsEvent_dg (s : State) (st : Status) (i l : Nat) : (s.nsEvent st i l).dg = s.dg :=
  State.event_dg ..
@[simp] theorem State.nsEvent_anv (s : State) (st : Status) (i l : Nat) : (s.nsEvent st i l).anv = s.anv :=
  State.event_anv ..
@[simp] theorem State.nsEvent_zl (s : State) (st : Status) (i l : Nat) : (s.nsEvent st i l).zl = s.zl :=
  State.event_zl ..
@[simp] theorem State.nsEvent_fw (s : State) (st : Status) (i l : Nat) : (s.nsEvent st i l).fw = s.fw :=
  State.event_fw ..
@[simp] theorem State.nsEvent_pw (s : State) (st : Status) (i l : Nat) : (s.nsEvent st i l).pw = s.pw :=
  State.event_pw ..
@[simp] theorem State.nsEvent_freeCtr (s : State) (st : Status) (i l : Nat) : (s.nsEvent st i l).freeCtr = s.freeCtr :=
  State.event_freeCtr ..
@[simp] theorem State.nsEvent_pending (s : State) (st : Status) (i l : Nat) : (s.nsEvent st i l).pending = s.pending :=
  State.event_pending ..

end Sys2Proof.Machine
end

