-- ==== Sys2Proof/Laws/KeptOps.lean ====
section
/-!
SUPPORT. What almost every operation leaves alone, as one reading of the state: the queue of waiting commands, the
message areas, the fuses, the number of digest contexts and the part. One lemma per operation.
-/

namespace Sys2Proof.Machine

open Sys2Proof

/-- The queue, the message areas in the order of the functions, revoked keys, the SVN, the debug fuse, the number of
digest contexts and the part. -/
def State.kept (s : State) :
    List Instr × List (List Host.Cell) × List Bool × Nat × Bool × Nat × Nat :=
  (s.pending, s.fns.map (fun f => f.mb.area), s.fw.revoked, s.fw.svn, s.fw.debugDisabled, s.dg.length, s.part)

/-- A change of some functions that keeps each one's area keeps the areas. -/
theorem updIf_areas {p : Fn → Bool} {g : Fn → Fn} (h : ∀ f, (g f).mb.area = f.mb.area) (l : List Fn) :
    (updIf p g l).map (fun f => f.mb.area) = l.map (fun f => f.mb.area) := by
  unfold updIf
  rw [List.map_map]
  refine List.map_congr_left fun f _ => ?_
  simp only [Function.comp]
  split
  · exact h f
  · rfl

@[simp] theorem State.modStore_kept (s : State) (f : Store → Store) : (s.modStore f).kept = s.kept := rfl
@[simp] theorem State.modHz_kept (s : State) (f : Horizon → Horizon) : (s.modHz f).kept = s.kept := rfl
@[simp] theorem State.modNs_kept (s : State) (f : NsVol → NsVol) : (s.modNs f).kept = s.kept := rfl
@[simp] theorem State.modFlash_kept (s : State) (f : Flash → Flash) : (s.modFlash f).kept = s.kept := rfl
@[simp] theorem State.modQ_kept (s : State) (f : Queues → Queues) : (s.modQ f).kept = s.kept := rfl
@[simp] theorem State.modLink_kept (s : State) (f : Link → Link) : (s.modLink f).kept = s.kept := rfl
@[simp] theorem State.modHalo_kept (s : State) (f : Halo → Halo) : (s.modHalo f).kept = s.kept := rfl
@[simp] theorem State.modSq_kept (s : State) (f : Squall → Squall) : (s.modSq f).kept = s.kept := rfl
@[simp] theorem State.modAnv_kept (s : State) (f : Anvil → Anvil) : (s.modAnv f).kept = s.kept := rfl
@[simp] theorem State.modZl_kept (s : State) (f : Zelim → Zelim) : (s.modZl f).kept = s.kept := rfl
@[simp] theorem State.modPw_kept (s : State) (f : Power → Power) : (s.modPw f).kept = s.kept := rfl
@[simp] theorem State.modRecs_kept (s : State) (f : Records → Records) : (s.modRecs f).kept = s.kept := rfl

@[simp] theorem State.modFw_kept {s : State} {f : Firmware → Firmware} (h1 : ∀ x, (f x).revoked = x.revoked)
    (h2 : ∀ x, (f x).svn = x.svn) (h3 : ∀ x, (f x).debugDisabled = x.debugDisabled) : (s.modFw f).kept = s.kept := by
  simp [State.kept, h1, h2, h3]

@[simp] theorem State.modFn_kept {s : State} {n : Nat} {g : Fn → Fn} (h : ∀ f, (g f).mb.area = f.mb.area) :
    (s.modFn n g).kept = s.kept := by
  simp [State.kept, State.modFn, updIf_areas h]

@[simp] theorem State.freeCtr_kept (s : State) (k : Nat) : ({ s with freeCtr := k } : State).kept = s.kept := rfl

@[simp] theorem State.free_kept (s : State) : s.free.2.kept = s.kept := rfl

@[simp] theorem State.store_kept (s : State) (x : Store) : ({ s with store := x } : State).kept = s.kept := rfl

@[simp] theorem foldl_kept {α : Type} {f : State → α → State} (h : ∀ s x, (f s x).kept = s.kept) (l : List α) (s : State) :
    (l.foldl f s).kept = s.kept := foldl_keeps (·.kept) f h l s

theorem foldl_kept₂ {α β : Type} {f : β × State → α → β × State} (h : ∀ x a, (f x a).2.kept = x.2.kept) (l : List α) :
    ∀ x : β × State, (l.foldl f x).2.kept = x.2.kept := by
  induction l with
  | nil => intro x; rfl
  | cons a l ih => intro x; rw [List.foldl_cons, ih, h]

/-- A reading of one of two states. -/
@[simp] theorem kept_ite {p : Prop} [Decidable p] (a b : State) :
    (if p then a else b).kept = if p then a.kept else b.kept := by split <;> rfl


@[simp] theorem State.hostWrite_kept (s : State) (n : Nat) (w : HostWrite) : (s.hostWrite n w).kept = s.kept := by
  unfold State.hostWrite; (repeat' split) <;> (try dsimp only) <;> (try simp only [kept_ite]) <;> (repeat' split) <;> simp

@[simp] theorem State.releaseHeld_kept (s : State) : (s.releaseHeld).kept = s.kept := by
  unfold State.releaseHeld; (repeat' split) <;> (try dsimp only) <;> (try simp only [kept_ite]) <;> (repeat' split) <;> simp

@[simp] theorem State.msix_kept (s : State) (n v : Nat) : (s.msix n v).kept = s.kept := by
  unfold State.msix; (repeat' split) <;> (try dsimp only) <;> (try simp only [kept_ite]) <;> (repeat' split) <;> simp

@[simp] theorem State.log_kept (s : State) (cls fn : Nat) (st : Status) (detail : Nat) : (s.log cls fn st detail).kept = s.kept := State.modRecs_kept ..

@[simp] theorem State.ringEvent_kept (s : State) (n cls : Nat) (st : Status) (detail : Nat) : (s.ringEvent n cls st detail).kept = s.kept := by
  unfold State.ringEvent; (repeat' split) <;> (try dsimp only) <;> (try simp only [kept_ite]) <;> (repeat' split) <;> simp

@[simp] theorem State.event_kept (s : State) (cls fn : Nat) (rcpt : List Nat) (st : Status) (detail : Nat) : (s.event cls fn rcpt st detail).kept = s.kept := by
  unfold State.event; (repeat' split) <;> (try dsimp only) <;> (try simp only [kept_ite]) <;> (repeat' split) <;> simp

@[simp] theorem State.hzEvent_kept (s : State) (st : Status) (epoch : Nat) : (s.hzEvent st epoch).kept = s.kept := by
  unfold State.hzEvent; (repeat' split) <;> (try dsimp only) <;> (try simp only [kept_ite]) <;> (repeat' split) <;> simp

@[simp] theorem State.mediaEvent_kept (s : State) (st : Status) (unit : Nat) : (s.mediaEvent st unit).kept = s.kept := by
  unfold State.mediaEvent; (repeat' split) <;> (try dsimp only) <;> (try simp only [kept_ite]) <;> (repeat' split) <;> simp

@[simp] theorem State.zlEvent_kept (s : State) (st : Status) (port node : Nat) : (s.zlEvent st port node).kept = s.kept := by
  unfold State.zlEvent; (repeat' split) <;> (try dsimp only) <;> (try simp only [kept_ite]) <;> (repeat' split) <;> simp

@[simp] theorem State.devEvent_kept (s : State) (st : Status) (detail : Nat) : (s.devEvent st detail).kept = s.kept := by
  unfold State.devEvent; (repeat' split) <;> (try dsimp only) <;> (try simp only [kept_ite]) <;> (repeat' split) <;> simp

@[simp] theorem State.nsEvent_kept (s : State) (st : Status) (nsid lost : Nat) : (s.nsEvent st nsid lost).kept = s.kept := by
  unfold State.nsEvent; (repeat' split) <;> (try dsimp only) <;> (try simp only [kept_ite]) <;> (repeat' split) <;> simp

@[simp] theorem State.startLong_kept (s : State) (n opcode : Nat) : (s.startLong n opcode).kept = s.kept := by
  unfold State.startLong; (repeat' split) <;> (try dsimp only) <;> (try simp only [kept_ite]) <;> (repeat' split) <;> simp

@[simp] theorem State.endLong_kept (s : State) (id : Nat) (st : Status) (result : List Nat) : (s.endLong id st result).kept = s.kept := by
  unfold State.endLong; (repeat' split) <;> (try dsimp only) <;> (try simp only [kept_ite]) <;> (repeat' split) <;> simp

@[simp] theorem State.stage_kept (s : State) (n opcode tag : Nat) (st : Status) (vals : List Nat) (await : Option Nat) : (s.stage n opcode tag st vals await).kept = s.kept := by
  unfold State.stage; (repeat' split) <;> (try dsimp only) <;> (try simp only [kept_ite]) <;> (repeat' split) <;> simp

@[simp] theorem State.modEpoch_kept (s : State) (f : Epoch → Epoch) : (s.modEpoch f).kept = s.kept := by
  unfold State.modEpoch; (repeat' split) <;> (try dsimp only) <;> (try simp only [kept_ite]) <;> (repeat' split) <;> simp

@[simp] theorem State.record_kept (s : State) (cs : List Ctrl) : (s.record cs).kept = s.kept := by
  unfold State.record; (repeat' split) <;> (try dsimp only) <;> (try simp only [kept_ite]) <;> (repeat' split) <;> simp

@[simp] theorem State.freeStatus_kept (s : State) (area : Nat) : (s.freeStatus area).2.kept = s.kept := by
  unfold State.freeStatus; (repeat' split) <;> (try dsimp only) <;> (try simp only [kept_ite]) <;> (repeat' split) <;> simp

@[simp] theorem State.zlOpenEvent_kept (s : State) (port node : Nat) : (s.zlOpenEvent port node).kept = s.kept := by
  unfold State.zlOpenEvent; (repeat' split) <;> (try dsimp only) <;> (try simp only [kept_ite]) <;> (repeat' split) <;> simp

@[simp] theorem State.choose_kept (s : State) (ok : Nat → Bool) (least : Nat) : (s.choose ok least).2.kept = s.kept := rfl

@[simp] theorem State.noteF_kept (s : State) : (s.noteF).kept = s.kept := by
  unfold State.noteF; (repeat' split) <;> (try dsimp only) <;> (try simp only [kept_ite]) <;> (repeat' split) <;> simp

@[simp] theorem State.openSuper_kept (s : State) (sb mode : Nat) : (s.openSuper sb mode).kept = s.kept := by
  unfold State.openSuper; (repeat' split) <;> (try dsimp only) <;> (try simp only [kept_ite]) <;> (repeat' split) <;> simp

theorem State.withSuper_kept {s : State} {must : Bool} {sb mode : Nat} {u : State} (h : (s.withSuper must sb mode) = some u) : u.kept = s.kept := by
  unfold State.withSuper at h; (try dsimp only at h); (repeat' split at h) <;> first | (cases h; done) | (cases h; simp)

@[simp] theorem State.addStripe_kept (s : State) (p : Stripe) (mode : Nat) : (s.addStripe p mode).kept = s.kept := by
  unfold State.addStripe; (repeat' split) <;> (try dsimp only) <;> (try simp only [kept_ite]) <;> (repeat' split) <;> simp

@[simp] theorem State.markTaken_kept (s : State) (a : Nat) : (s.markTaken a).kept = s.kept := by
  unfold State.markTaken; (repeat' split) <;> (try dsimp only) <;> (try simp only [kept_ite]) <;> (repeat' split) <;> simp

theorem State.takeOne_kept {s : State} {redun n mode : Nat} {move : Bool} {a : Nat} {u : State} (h : (s.takeOne redun n mode move a) = some u) : u.kept = s.kept := by
  unfold State.takeOne at h; (try dsimp only at h); (repeat' split at h) <;> first | (cases h; done) | (cases h; simp)

@[simp] theorem State.confirmCell_kept (s : State) (c : Codeword) : (s.confirmCell c).kept = s.kept := by
  unfold State.confirmCell; (repeat' split) <;> (try dsimp only) <;> (try simp only [kept_ite]) <;> (repeat' split) <;> simp

@[simp] theorem State.closeStripe_kept (s : State) (p : Stripe) : (s.closeStripe p).kept = s.kept := by
  unfold State.closeStripe; (repeat' split) <;> (try dsimp only) <;> (try simp only [kept_ite]) <;> (repeat' split) <;> simp

@[simp] theorem State.padBlock_kept (s : State) (epoch : Nat) (b : Block) : (s.padBlock epoch b).kept = s.kept := by
  unfold State.padBlock; (repeat' split) <;> (try dsimp only) <;> (try simp only [kept_ite]) <;> (repeat' split) <;> simp

@[simp] theorem State.settleFull_kept (s : State) : (s.settleFull).kept = s.kept := by
  unfold State.settleFull; (repeat' split) <;> (try dsimp only) <;> (try simp only [kept_ite]) <;> (repeat' split) <;> simp

@[simp] theorem State.closeStripes_kept (s : State) (q : Stripe → Bool) : (s.closeStripes q).kept = s.kept := by
  unfold State.closeStripes; (repeat' split) <;> (try dsimp only) <;> (try simp only [kept_ite]) <;> (repeat' split) <;> simp

@[simp] theorem State.closeTick_kept (s : State) : (s.closeTick).kept = s.kept := by
  unfold State.closeTick; (repeat' split) <;> (try dsimp only) <;> (try simp only [kept_ite]) <;> (repeat' split) <;> simp

@[simp] theorem State.putSys_kept (s : State) (as : List Nat) (key : Nat) (parts : List Data) : (s.putSys as key parts).kept = s.kept := by
  unfold State.putSys; (repeat' split) <;> (try dsimp only) <;> (try simp only [kept_ite]) <;> (repeat' split) <;> simp

theorem State.mapSuper_kept {s : State} {mode : Nat} {x : Nat × State} (h : s.mapSuper mode = some x) :
    x.2.kept = s.kept := by
  unfold State.mapSuper at h
  dsimp only at h
  split at h
  · cases h
  · split at h
    · cases h; rfl
    · obtain ⟨u, hu, rfl⟩ := Option.map_eq_some_iff.1 h
      exact (State.withSuper_kept hu).trans (State.choose_kept ..)

theorem State.takeRun_kept (redun n mode : Nat) (move : Bool) (k : Nat) : ∀ {a : Nat} {s : State} {x : List Nat × State},
    State.takeRun redun n mode move k a s = some x → x.2.kept = s.kept := by
  induction k with
  | zero => intro a s x h; cases h; rfl
  | succ k ih =>
    intro a s x h
    unfold State.takeRun at h
    split at h
    · cases h
    · next h1 =>
      have h2 := State.takeOne_kept h1
      split at h
      · cases h; exact h2
      · split at h
        · cases h
        · obtain ⟨u, hu, rfl⟩ := Option.map_eq_some_iff.1 h
          exact (ih hu).trans h2

@[simp] theorem State.writeSys_kept (s : State) (mode : Nat) (avoid : List Nat) (key : Nat) (d : Data) :
    (s.writeSys mode avoid key d).2.kept = s.kept := by
  unfold State.writeSys
  split
  · rfl
  · next h1 =>
    dsimp only
    split
    · rfl
    · split
      · next h2 =>
        simpa using (State.takeRun_kept _ _ _ _ _ h2).trans ((State.free_kept _).trans (State.mapSuper_kept h1))
      · rfl

@[simp] theorem State.modDie_kept (s : State) (g : Nat) (h : Die → Die) : (s.modDie g h).kept = s.kept := by
  unfold State.modDie; (repeat' split) <;> (try dsimp only) <;> (try simp only [kept_ite]) <;> (repeat' split) <;> simp

@[simp] theorem State.modBlock_kept (s : State) (blk : Nat) (h : Block → Block) : (s.modBlock blk h).kept = s.kept := by
  unfold State.modBlock; (repeat' split) <;> (try dsimp only) <;> (try simp only [kept_ite]) <;> (repeat' split) <;> simp

@[simp] theorem State.failMember_kept (s : State) (m : Nat) : (s.failMember m).kept = s.kept := by
  unfold State.failMember; (repeat' split) <;> (try dsimp only) <;> (try simp only [kept_ite]) <;> (repeat' split) <;> simp

@[simp] theorem State.failDie_kept (s : State) (g : Nat) : (s.failDie g).kept = s.kept := by
  unfold State.failDie; (repeat' split) <;> (try dsimp only) <;> (try simp only [kept_ite]) <;> (repeat' split) <;> simp

@[simp] theorem State.retireBlock_kept (s : State) (blk : Nat) : (s.retireBlock blk).kept = s.kept := by
  unfold State.retireBlock; (repeat' split) <;> (try dsimp only) <;> (try simp only [kept_ite]) <;> (repeat' split) <;> simp

@[simp] theorem State.condemn_kept (s : State) (blk : Nat) : (s.condemn blk).kept = s.kept := by
  unfold State.condemn; (repeat' split) <;> (try dsimp only) <;> (try simp only [kept_ite]) <;> (repeat' split) <;> simp

@[simp] theorem State.modBin_kept (s : State) (k : Nat × Nat × Nat) (h : Bin → Bin) : (s.modBin k h).kept = s.kept := by
  unfold State.modBin; (repeat' split) <;> (try dsimp only) <;> (try simp only [kept_ite]) <;> (repeat' split) <;> simp

@[simp] theorem State.wantBin_kept (s : State) (k : Nat × Nat × Nat) : (s.wantBin k).kept = s.kept := by
  unfold State.wantBin; (repeat' split) <;> (try dsimp only) <;> (try simp only [kept_ite]) <;> (repeat' split) <;> simp

@[simp] theorem State.track_kept (s : State) (k : Nat × Nat × Nat) (corrected : Nat) : (s.track k corrected).kept = s.kept := by
  unfold State.track; (repeat' split) <;> (try dsimp only) <;> (try simp only [kept_ite]) <;> (repeat' split) <;> simp

@[simp] theorem State.ageBlocks_kept (s : State) (jump : Bool) : (s.ageBlocks jump).kept = s.kept := by
  unfold State.ageBlocks; (repeat' split) <;> (try dsimp only) <;> (try simp only [kept_ite]) <;> (repeat' split) <;> simp

@[simp] theorem State.recordMoves_kept (s : State) (n : Nat) : (s.recordMoves n).kept = s.kept := by
  unfold State.recordMoves; (repeat' split) <;> (try dsimp only) <;> (try simp only [kept_ite]) <;> (repeat' split) <;> simp

@[simp] theorem State.applyMoves_kept (s : State) (n : Nat) : (s.applyMoves n).kept = s.kept := by
  unfold State.applyMoves; (repeat' split) <;> (try dsimp only) <;> (try simp only [kept_ite]) <;> (repeat' split) <;> simp

@[simp] theorem State.settleVictims_kept (s : State) (n : Nat) : (s.settleVictims n).kept = s.kept := by
  unfold State.settleVictims; (repeat' split) <;> (try dsimp only) <;> (try simp only [kept_ite]) <;> (repeat' split) <;> simp

@[simp] theorem State.countLive_kept (s : State) (now : Bool) : (s.countLive now).kept = s.kept := by
  unfold State.countLive; (repeat' split) <;> (try dsimp only) <;> (try simp only [kept_ite]) <;> (repeat' split) <;> simp

@[simp] theorem State.renewSys_kept (s : State) (bad : Nat → Bool) : (s.renewSys bad).kept = s.kept := by
  unfold State.renewSys; (repeat' split) <;> (try dsimp only) <;> (try simp only [kept_ite]) <;> (repeat' split) <;> simp

@[simp] theorem State.touchSegs_kept (s : State) (e : Epoch) : (s.touchSegs e).kept = s.kept := by
  unfold State.touchSegs; (repeat' split) <;> (try dsimp only) <;> (try simp only [kept_ite]) <;> (repeat' split) <;> simp

@[simp] theorem State.sealMapArea_kept (s : State) (n : Nat) : (s.sealMapArea n).kept = s.kept := by
  unfold State.sealMapArea; (repeat' split) <;> (try dsimp only) <;> (try simp only [kept_ite]) <;> (repeat' split) <;> simp

@[simp] theorem State.persistLog_kept (s : State) (n : Nat) (p : ParityBlock) : (s.persistLog n p).kept = s.kept := by
  unfold State.persistLog; (repeat' split) <;> (try dsimp only) <;> (try simp only [kept_ite]) <;> (repeat' split) <;> simp

@[simp] theorem State.persistParity_kept (s : State) (n : Nat) : (s.persistParity n).kept = s.kept := by
  unfold State.persistParity; (repeat' split) <;> (try dsimp only) <;> (try simp only [kept_ite]) <;> (repeat' split) <;> simp

@[simp] theorem State.parityKept_kept (s : State) (n : Nat) : (s.parityKept n).kept = s.kept := by
  unfold State.parityKept; (repeat' split) <;> (try dsimp only) <;> (try simp only [kept_ite]) <;> (repeat' split) <;> simp

@[simp] theorem State.programChain_kept (s : State) (n : Ns) : (s.programChain n).kept = s.kept := by
  unfold State.programChain; (repeat' split) <;> (try dsimp only) <;> (try simp only [kept_ite]) <;> (repeat' split) <;> simp

@[simp] theorem State.programChains_kept (s : State) : (s.programChains).kept = s.kept := by
  unfold State.programChains; (repeat' split) <;> (try dsimp only) <;> (try simp only [kept_ite]) <;> (repeat' split) <;> simp

theorem State.threeCopies_kept {s : State} {x : List Nat × State} (h : s.threeCopies = some x) : x.2.kept = s.kept := by
  have step : ∀ (l : List Nat) (f : Option (List Nat × State) → Nat → Option (List Nat × State)),
      (∀ y k z, f y k = some z → ∃ w, y = some w ∧ z.2.kept = w.2.kept) →
      ∀ y z, l.foldl f y = some z → ∃ w, y = some w ∧ z.2.kept = w.2.kept := by
    intro l f hf
    induction l with
    | nil => intro y z h; exact ⟨z, h, rfl⟩
    | cons k l ih =>
      intro y z h
      obtain ⟨w, hw, e⟩ := ih _ _ h
      obtain ⟨v, hv, e2⟩ := hf _ _ _ hw
      exact ⟨v, hv, e.trans e2⟩
  unfold State.threeCopies at h
  obtain ⟨w, hw, e⟩ := step _ _ (fun y k z hz => by
    cases y with
    | none => cases hz
    | some y =>
      refine ⟨y, rfl, ?_⟩
      dsimp only [Option.bind] at hz
      split at hz
      · cases hz
      · next h1 =>
        split at hz
        · cases hz
        · obtain ⟨u, hu, rfl⟩ := Option.map_eq_some_iff.1 hz
          exact (State.freeCtr_kept _ _).trans ((State.takeOne_kept hu).trans (State.mapSuper_kept h1))) _ _ h
  cases hw
  exact e

@[simp] theorem State.programIntent_kept (s : State) (seq n : Nat) : (s.programIntent seq n).kept = s.kept := by
  unfold State.programIntent
  split
  · next h => simpa using State.threeCopies_kept h
  · rfl

@[simp] theorem State.fillIntents_kept (s : State) : (s.fillIntents).kept = s.kept := by
  unfold State.fillIntents; (repeat' split) <;> (try dsimp only) <;> (try simp only [kept_ite]) <;> (repeat' split) <;> simp

@[simp] theorem State.twoCopies_kept (s : State) (key : Nat) (d : Data) : (s.twoCopies key d).2.2.kept = s.kept := by
  unfold State.twoCopies; (repeat' split) <;> (try dsimp only) <;> (try simp only [kept_ite]) <;> (repeat' split) <;> simp

@[simp] theorem State.replaceCopy_kept (s : State) (old other : List Nat) (key : Nat) : (s.replaceCopy old other key).2.kept = s.kept := by
  unfold State.replaceCopy; (repeat' split) <;> (try dsimp only) <;> (try simp only [kept_ite]) <;> (repeat' split) <;> simp

@[simp] theorem State.replaceCopies_kept (s : State) : (s.replaceCopies).kept = s.kept := by
  unfold State.replaceCopies; (repeat' split) <;> (try dsimp only) <;> (try simp only [kept_ite]) <;> (repeat' split) <;> simp

@[simp] theorem State.pruneJournal_kept (s : State) : (s.pruneJournal).kept = s.kept := by
  unfold State.pruneJournal; (repeat' split) <;> (try dsimp only) <;> (try simp only [kept_ite]) <;> (repeat' split) <;> simp

@[simp] theorem State.modPair_kept (s : State) (n qid : Nat) (g : Pair → Pair) : (s.modPair n qid g).kept = s.kept := by
  unfold State.modPair; (repeat' split) <;> (try dsimp only) <;> (try simp only [kept_ite]) <;> (repeat' split) <;> simp

@[simp] theorem State.modCmd_kept (s : State) (seq : Nat) (g : Cmd → Cmd) : (s.modCmd seq g).kept = s.kept := by
  unfold State.modCmd; (repeat' split) <;> (try dsimp only) <;> (try simp only [kept_ite]) <;> (repeat' split) <;> simp

@[simp] theorem State.dropCmd_kept (s : State) (seq : Nat) : (s.dropCmd seq).kept = s.kept := by
  unfold State.dropCmd; (repeat' split) <;> (try dsimp only) <;> (try simp only [kept_ite]) <;> (repeat' split) <;> simp

@[simp] theorem State.postCq_kept (s : State) (n qid cid : Nat) (st : Status) (result : Nat) : (s.postCq n qid cid st result).kept = s.kept := by
  unfold State.postCq; (repeat' split) <;> (try dsimp only) <;> (try simp only [kept_ite]) <;> (repeat' split) <;> simp

@[simp] theorem State.endCmd_kept (s : State) (c : Cmd) (st : Status) (result : Nat) : (s.endCmd c st result).kept = s.kept := by
  unfold State.endCmd; (repeat' split) <;> (try dsimp only) <;> (try simp only [kept_ite]) <;> (repeat' split) <;> simp

@[simp] theorem State.endFlushes_kept (s : State) (ring : Bool) (epoch : Nat) : (s.endFlushes ring epoch).kept = s.kept := by
  unfold State.endFlushes; (repeat' split) <;> (try dsimp only) <;> (try simp only [kept_ite]) <;> (repeat' split) <;> simp

@[simp] theorem State.endDue_kept (s : State) : (s.endDue).kept = s.kept := by
  unfold State.endDue; (repeat' split) <;> (try dsimp only) <;> (try simp only [kept_ite]) <;> (repeat' split) <;> simp

@[simp] theorem State.haltCmds_kept (s : State) : (s.haltCmds).kept = s.kept := by
  unfold State.haltCmds; (repeat' split) <;> (try dsimp only) <;> (try simp only [kept_ite]) <;> (repeat' split) <;> simp

@[simp] theorem State.abortAll_kept (s : State) (n : Nat) : (s.abortAll n).kept = s.kept := by
  unfold State.abortAll; (repeat' split) <;> (try dsimp only) <;> (try simp only [kept_ite]) <;> (repeat' split) <;> simp

@[simp] theorem State.haltReplies_kept (s : State) : (s.haltReplies).kept = s.kept := by
  simp only [State.kept, State.haltReplies, List.map_map]
  congr 2
  refine List.map_congr_left fun f _ => ?_
  simp only [Function.comp]
  (repeat' split) <;> rfl

@[simp] theorem State.endLongs_kept (s : State) (st : Status) : (s.endLongs st).kept = s.kept := by
  unfold State.endLongs; (repeat' split) <;> (try dsimp only) <;> (try simp only [kept_ite]) <;> (repeat' split) <;> simp

@[simp] theorem State.streamLater_kept (s : State) (nsid num tick : Nat) : (s.streamLater nsid num tick).kept = s.kept := by
  unfold State.streamLater; (repeat' split) <;> (try dsimp only) <;> (try simp only [kept_ite]) <;> (repeat' split) <;> simp

@[simp] theorem State.formPool_kept (s : State) (p : Pool) : (s.formPool p).kept = s.kept := by
  unfold State.formPool; (repeat' split) <;> (try dsimp only) <;> (try simp only [kept_ite]) <;> (repeat' split) <;> simp

@[simp] theorem State.endReshape_kept (s : State) : (s.endReshape).kept = s.kept := by
  unfold State.endReshape; (repeat' split) <;> (try dsimp only) <;> (try simp only [kept_ite]) <;> (repeat' split) <;> simp

@[simp] theorem State.dropReshape_kept (s : State) : (s.dropReshape).kept = s.kept := by
  unfold State.dropReshape; (repeat' split) <;> (try dsimp only) <;> (try simp only [kept_ite]) <;> (repeat' split) <;> simp

@[simp] theorem State.takeOffline_kept (s : State) : (s.takeOffline).kept = s.kept := by
  unfold State.takeOffline; (repeat' split) <;> (try dsimp only) <;> (try simp only [kept_ite]) <;> (repeat' split) <;> simp

@[simp] theorem State.endVerifies_kept (s : State) (nsid : Nat) : (s.endVerifies nsid).kept = s.kept := by
  unfold State.endVerifies; (repeat' split) <;> (try dsimp only) <;> (try simp only [kept_ite]) <;> (repeat' split) <;> simp

@[simp] theorem State.applyCtrl_kept (s : State) (c : Ctrl) : (s.applyCtrl c).kept = s.kept := by
  unfold State.applyCtrl; (repeat' split) <;> (try dsimp only) <;> (try simp only [kept_ite]) <;> (repeat' split) <;> simp

@[simp] theorem State.applyRing_kept (s : State) (mark : Nat) : (s.applyRing mark).kept = s.kept := rfl

@[simp] theorem State.saveRing_kept (s : State) (e : Epoch) : (s.saveRing e).kept = s.kept := by
  unfold State.saveRing; (repeat' split) <;> (try dsimp only) <;> (try simp only [kept_ite]) <;> (repeat' split) <;> simp

@[simp] theorem State.completeSeal_kept (s : State) (epoch : Nat) (ringMarkNew : Bool) : (s.completeSeal epoch ringMarkNew).kept = s.kept := by
  unfold State.completeSeal; (repeat' split) <;> (try dsimp only) <;> (try simp only [kept_ite]) <;> (repeat' split) <;> simp

@[simp] theorem State.sealEntries_kept (s : State) (e : Epoch) (join : Nat) (rs : List DeltaRec × List DeltaRec) : (s.sealEntries e join rs).kept = s.kept := by
  unfold State.sealEntries; (repeat' split) <;> (try dsimp only) <;> (try simp only [kept_ite]) <;> (repeat' split) <;> simp

@[simp] theorem State.sealMarks_kept (s : State) (e : Epoch) (join : Nat) (quiet : Bool) : (s.sealMarks e join quiet).kept = s.kept := rfl

@[simp] theorem State.sealData_kept (s : State) (e : Epoch) : (s.sealData e).1.kept = s.kept := by
  unfold State.sealData; (repeat' split) <;> (try dsimp only) <;> (try simp only [kept_ite]) <;> (repeat' split) <;> simp

@[simp] theorem State.closeUpTo_kept (s : State) (n : Nat) : (s.closeUpTo n).kept = s.kept := by
  unfold State.closeUpTo; (repeat' split) <;> (try dsimp only) <;> (try simp only [kept_ite]) <;> (repeat' split) <;> simp

@[simp] theorem State.sealEpoch_kept (s : State) (e : Epoch) (join : Nat) : (s.sealEpoch e join).kept = s.kept := by
  unfold State.sealEpoch; (repeat' split) <;> (try dsimp only) <;> (try simp only [kept_ite]) <;> (repeat' split) <;> simp

@[simp] theorem State.recordNext_kept (s : State) (cs : List Ctrl) : (s.recordNext cs).kept = s.kept := by
  unfold State.recordNext; (repeat' split) <;> (try dsimp only) <;> (try simp only [kept_ite]) <;> (repeat' split) <;> simp

@[simp] theorem State.discardUnsealed_kept (s : State) : (s.discardUnsealed).kept = s.kept := by
  unfold State.discardUnsealed; (repeat' split) <;> (try dsimp only) <;> (try simp only [kept_ite]) <;> (repeat' split) <;> simp

@[simp] theorem State.violate_kept (s : State) (n : Nat) : (s.violate n).kept = s.kept := by
  unfold State.violate; (repeat' split) <;> (try dsimp only) <;> (try simp only [kept_ite]) <;> (repeat' split) <;> simp

@[simp] theorem State.taken_kept (s : State) (n : Nat) : (s.taken n).kept = s.kept := by
  unfold State.taken; (repeat' split) <;> (try dsimp only) <;> (try simp only [kept_ite]) <;> (repeat' split) <;> simp

@[simp] theorem State.laterReply_kept (s : State) (n opcode tag : Nat) (vals : List Nat) : (s.laterReply n opcode tag vals).kept = s.kept := by
  unfold State.laterReply; (repeat' split) <;> (try dsimp only) <;> (try simp only [kept_ite]) <;> (repeat' split) <;> simp

@[simp] theorem State.stopThreads_kept (s : State) (n : Nat) : (s.stopThreads n).kept = s.kept := by
  unfold State.stopThreads; (repeat' split) <;> (try dsimp only) <;> (try simp only [kept_ite]) <;> (repeat' split) <;> simp

@[simp] theorem State.zeroScratch_kept (s : State) (n : Nat) : (s.zeroScratch n).kept = s.kept := by
  unfold State.zeroScratch; (repeat' split) <;> (try dsimp only) <;> (try simp only [kept_ite]) <;> (repeat' split) <;> simp

@[simp] theorem State.gateEngines_kept (s : State) : (s.gateEngines).kept = s.kept := by
  unfold State.gateEngines; (repeat' split) <;> (try dsimp only) <;> (try simp only [kept_ite]) <;> (repeat' split) <;> simp

@[simp] theorem State.abortReply_kept (s : State) (i : Inst) : (s.abortReply i).kept = s.kept := by
  unfold State.abortReply; (repeat' split) <;> (try dsimp only) <;> (try simp only [kept_ite]) <;> (repeat' split) <;> simp

@[simp] theorem State.enginesEnded_kept (s : State) (n : Nat) : (s.enginesEnded n).kept = s.kept := by
  unfold State.enginesEnded; (repeat' split) <;> (try dsimp only) <;> (try simp only [kept_ite]) <;> (repeat' split) <;> simp

@[simp] theorem State.freeDg_kept (s : State) (p : Nat → Bool) : (s.freeDg p).kept = s.kept := by simp [State.kept, State.freeDg]

@[simp] theorem State.fence_kept (s : State) (n : Nat) (st : FnState) (opcode : Option Nat) : (s.fence n st opcode).kept = s.kept := by
  unfold State.fence; (repeat' split) <;> (try dsimp only) <;> (try simp only [kept_ite]) <;> (repeat' split) <;> simp

@[simp] theorem State.absorb_kept (s : State) (n : Nat) (opcode : Option Nat) :
    (s.modFn n fun f => f.absorb opcode).kept = s.kept := State.modFn_kept fun _ => rfl

@[simp] theorem State.beginReset_kept (s : State) (n : Nat) (opcode : Option Nat) : (s.beginReset n opcode).kept = s.kept := by
  unfold State.beginReset; split <;> simp

@[simp] theorem State.beginRemoval_kept (s : State) (n : Nat) (opcode : Option Nat) : (s.beginRemoval n opcode).kept = s.kept := by
  unfold State.beginRemoval
  split
  · simp
  · exact State.modFn_kept fun _ => rfl
  · simp
  · rfl

@[simp] theorem State.resetPf0_kept (s : State) (opcode : Option Nat) : (s.resetPf0 opcode).kept = s.kept := by
  unfold State.resetPf0; (repeat' split) <;> (try dsimp only) <;> (try simp only [kept_ite]) <;> (repeat' split) <;> simp

@[simp] theorem State.stopEngines_kept (s : State) : (s.stopEngines).kept = s.kept := by
  unfold State.stopEngines; (repeat' split) <;> (try dsimp only) <;> (try simp only [kept_ite]) <;> (repeat' split) <;> simp

@[simp] theorem State.abortCreated_kept (s : State) : (s.abortCreated).kept = s.kept := by
  unfold State.abortCreated; (repeat' split) <;> (try dsimp only) <;> (try simp only [kept_ite]) <;> (repeat' split) <;> simp

@[simp] theorem State.nsRestored_kept (s : State) : (s.nsRestored).kept = s.kept := by
  unfold State.nsRestored; (repeat' split) <;> (try dsimp only) <;> (try simp only [kept_ite]) <;> (repeat' split) <;> simp

@[simp] theorem State.abortActivation_kept (s : State) (st : Status) : (s.abortActivation st).kept = s.kept := by
  unfold State.abortActivation; (repeat' split) <;> (try dsimp only) <;> (try simp only [kept_ite]) <;> (repeat' split) <;> simp

@[simp] theorem State.enterHalted_kept (s : State) : (s.enterHalted).kept = s.kept := by
  unfold State.enterHalted; (repeat' split) <;> (try dsimp only) <;> (try simp only [kept_ite]) <;> (repeat' split) <;> simp

@[simp] theorem State.settleRing_kept (s : State) (mark : Nat) : (s.settleRing mark).kept = s.kept := rfl

@[simp] theorem State.ringNsEvents_kept (s : State) (st : Status) : (s.ringNsEvents st).kept = s.kept := by
  unfold State.ringNsEvents; (repeat' split) <;> (try dsimp only) <;> (try simp only [kept_ite]) <;> (repeat' split) <;> simp

@[simp] theorem State.isolateCmds_kept (s : State) (mark : Nat) : (s.isolateCmds mark).kept = s.kept := by
  unfold State.isolateCmds; (repeat' split) <;> (try dsimp only) <;> (try simp only [kept_ite]) <;> (repeat' split) <;> simp

@[simp] theorem State.isolate_kept (s : State) : (s.isolate).kept = s.kept := by
  unfold State.isolate; (repeat' split) <;> (try dsimp only) <;> (try simp only [kept_ite]) <;> (repeat' split) <;> simp

@[simp] theorem State.releaseRing_kept (s : State) : (s.releaseRing).kept = s.kept := by
  unfold State.releaseRing; (repeat' split) <;> (try dsimp only) <;> (try simp only [kept_ite]) <;> (repeat' split) <;> simp

end Sys2Proof.Machine
end

