-- ==== Sys2Proof/Laws/KeptLink.lean ====
section
/-!
SUPPORT. What the operations of TickOps, LinkOps, Admit, Power leave alone: one lemma per operation.
-/

namespace Sys2Proof.Machine

open Sys2Proof


@[simp] theorem State.recompute_kept (s : State) : (s.recompute).kept = s.kept := by
  unfold State.recompute; (repeat' split) <;> (try dsimp only) <;> (try simp only [kept_ite]) <;> (repeat' split) <;> simp

@[simp] theorem State.charge_kept (s : State) (h write read scan : Nat) : (s.charge h write read scan).kept = s.kept := by
  unfold State.charge; (repeat' split) <;> (try dsimp only) <;> (try simp only [kept_ite]) <;> (repeat' split) <;> simp

@[simp] theorem State.openTick_kept (s : State) (n : Nat) : (s.openTick n).kept = s.kept := by
  unfold State.openTick; (repeat' split) <;> (try dsimp only) <;> (try simp only [kept_ite]) <;> (repeat' split) <;> simp

@[simp] theorem State.startTicking_kept (s : State) : (s.startTicking).kept = s.kept := by
  unfold State.startTicking; (repeat' split) <;> (try dsimp only) <;> (try simp only [kept_ite]) <;> (repeat' split) <;> simp

@[simp] theorem State.leaveHeld_kept (s : State) : (s.leaveHeld).kept = s.kept := by
  unfold State.leaveHeld; (repeat' split) <;> (try dsimp only) <;> (try simp only [kept_ite]) <;> (repeat' split) <;> simp

@[simp] theorem State.stopTicking_kept (s : State) : (s.stopTicking).kept = s.kept := by
  unfold State.stopTicking; (repeat' split) <;> (try dsimp only) <;> (try simp only [kept_ite]) <;> (repeat' split) <;> simp

@[simp] theorem State.modPort_kept (s : State) (p : Nat) (g : Port → Port) : (s.modPort p g).kept = s.kept := by
  unfold State.modPort; (repeat' split) <;> (try dsimp only) <;> (try simp only [kept_ite]) <;> (repeat' split) <;> simp

@[simp] theorem State.sendFrame_kept (s : State) (p typ dst rid arg : Nat) : (s.sendFrame p typ dst rid arg).kept = s.kept := by
  unfold State.sendFrame; (repeat' split) <;> (try dsimp only) <;> (try simp only [kept_ite]) <;> (repeat' split) <;> simp

@[simp] theorem State.sendDelay_kept (s : State) (p : Nat) : (s.sendDelay p).kept = s.kept := by
  unfold State.sendDelay; (repeat' split) <;> (try dsimp only) <;> (try simp only [kept_ite]) <;> (repeat' split) <;> simp

@[simp] theorem State.sendTo_kept (s : State) (typ dst rid arg : Nat) : (s.sendTo typ dst rid arg).kept = s.kept := by
  unfold State.sendTo; (repeat' split) <;> (try dsimp only) <;> (try simp only [kept_ite]) <;> (repeat' split) <;> simp

@[simp] theorem State.sendNak_kept (s : State) (p dst rid seq : Nat) (st : Status) : (s.sendNak p dst rid seq st).kept = s.kept := by
  unfold State.sendNak; (repeat' split) <;> (try dsimp only) <;> (try simp only [kept_ite]) <;> (repeat' split) <;> simp

@[simp] theorem State.pauseAll_kept (s : State) : (s.pauseAll).kept = s.kept := by
  unfold State.pauseAll; (repeat' split) <;> (try dsimp only) <;> (try simp only [kept_ite]) <;> (repeat' split) <;> simp

@[simp] theorem State.sendMembers_kept (s : State) (typ arg : Nat) : (s.sendMembers typ arg).kept = s.kept := by
  unfold State.sendMembers; (repeat' split) <;> (try dsimp only) <;> (try simp only [kept_ite]) <;> (repeat' split) <;> simp

@[simp] theorem State.commitTick_kept (s : State) (g : Nat) : (s.commitTick g).kept = s.kept := by
  unfold State.commitTick; (repeat' split) <;> (try dsimp only) <;> (try simp only [kept_ite]) <;> (repeat' split) <;> simp

theorem State.commitLoop_kept (k : Nat) : ∀ s : State, (State.commitLoop k s).kept = s.kept := by
  induction k with
  | zero => intro s; rfl
  | succ k ih =>
    intro s
    unfold State.commitLoop
    split
    · rw [ih]; simp
    · rfl
@[simp] theorem State.tryCommit_kept (s : State) : (s.tryCommit).kept = s.kept := State.commitLoop_kept _ _

@[simp] theorem State.addVote_kept (s : State) (g node : Nat) : (s.addVote g node).kept = s.kept := by
  unfold State.addVote; (repeat' split) <;> (try dsimp only) <;> (try simp only [kept_ite]) <;> (repeat' split) <;> simp

@[simp] theorem State.voteFor_kept (s : State) (n : Nat) : (s.voteFor n).kept = s.kept := by
  unfold State.voteFor; (repeat' split) <;> (try dsimp only) <;> (try simp only [kept_ite]) <;> (repeat' split) <;> simp

@[simp] theorem State.takeCommit_kept (s : State) : (s.takeCommit).kept = s.kept := by
  unfold State.takeCommit; (repeat' split) <;> (try dsimp only) <;> (try simp only [kept_ite]) <;> (repeat' split) <;> simp

@[simp] theorem State.rebuildPaths_kept (s : State) : (s.rebuildPaths).kept = s.kept := by
  unfold State.rebuildPaths; (repeat' split) <;> (try dsimp only) <;> (try simp only [kept_ite]) <;> (repeat' split) <;> simp

@[simp] theorem State.setMembers_kept (s : State) (gen effective : Nat) (ms : List Member) : (s.setMembers gen effective ms).kept = s.kept := by
  unfold State.setMembers; (repeat' split) <;> (try dsimp only) <;> (try simp only [kept_ite]) <;> (repeat' split) <;> simp

@[simp] theorem State.removeMembers_kept (s : State) (gone : List Nat) : (s.removeMembers gone).kept = s.kept := by
  unfold State.removeMembers; (repeat' split) <;> (try dsimp only) <;> (try simp only [kept_ite]) <;> (repeat' split) <;> simp

@[simp] theorem State.loseMaster_kept (s : State) : (s.loseMaster).kept = s.kept := by
  unfold State.loseMaster; (repeat' split) <;> (try dsimp only) <;> (try simp only [kept_ite]) <;> (repeat' split) <;> simp

@[simp] theorem State.portLost_kept (s : State) (p : Nat) : (s.portLost p).kept = s.kept := by
  unfold State.portLost; (repeat' split) <;> (try dsimp only) <;> (try simp only [kept_ite]) <;> (repeat' split) <;> simp

@[simp] theorem State.portDown_kept (s : State) (p : Nat) : (s.portDown p).kept = s.kept := by
  unfold State.portDown; (repeat' split) <;> (try dsimp only) <;> (try simp only [kept_ite]) <;> (repeat' split) <;> simp

@[simp] theorem State.fencePort_kept (s : State) (p : Nat) : (s.fencePort p).kept = s.kept := by
  unfold State.fencePort; (repeat' split) <;> (try dsimp only) <;> (try simp only [kept_ite]) <;> (repeat' split) <;> simp

@[simp] theorem State.violation_kept (s : State) (p : Nat) (st : Status) : (s.violation p st).kept = s.kept := by
  unfold State.violation; (repeat' split) <;> (try dsimp only) <;> (try simp only [kept_ite]) <;> (repeat' split) <;> simp

@[simp] theorem State.authFail_kept (s : State) (p : Nat) : (s.authFail p).kept = s.kept := by
  unfold State.authFail; (repeat' split) <;> (try dsimp only) <;> (try simp only [kept_ite]) <;> (repeat' split) <;> simp

@[simp] theorem State.sendJoin_kept (s : State) (node code val : Nat) : (s.sendJoin node code val).kept = s.kept := by
  unfold State.sendJoin; (repeat' split) <;> (try dsimp only) <;> (try simp only [kept_ite]) <;> (repeat' split) <;> simp

@[simp] theorem State.tryReform_kept (s : State) : (s.tryReform).kept = s.kept := by
  unfold State.tryReform; (repeat' split) <;> (try dsimp only) <;> (try simp only [kept_ite]) <;> (repeat' split) <;> simp

@[simp] theorem State.gainLock_kept (s : State) : (s.gainLock).kept = s.kept := by
  unfold State.gainLock; (repeat' split) <;> (try dsimp only) <;> (try simp only [kept_ite]) <;> (repeat' split) <;> simp

@[simp] theorem State.sendRecord_kept (s : State) (node rid nsid stream len : Nat) : (s.sendRecord node rid nsid stream len).kept = s.kept := by
  unfold State.sendRecord; (repeat' split) <;> (try dsimp only) <;> (try simp only [kept_ite]) <;> (repeat' split) <;> simp

@[simp] theorem State.nextRid_kept (s : State) (node : Nat) : (s.nextRid node).2.kept = s.kept := by
  unfold State.nextRid; (repeat' split) <;> (try dsimp only) <;> (try simp only [kept_ite]) <;> (repeat' split) <;> simp

@[simp] theorem State.pumpRoutes_kept (s : State) : (s.pumpRoutes).kept = s.kept := by
  unfold State.pumpRoutes
  exact foldl_kept (fun s x => by split <;> simp) _ _

@[simp] theorem State.chargeEpoch_kept (s : State) (metaB recs payload records : Nat) : (s.chargeEpoch metaB recs payload records).kept = s.kept := by
  unfold State.chargeEpoch; (repeat' split) <;> (try dsimp only) <;> (try simp only [kept_ite]) <;> (repeat' split) <;> simp

@[simp] theorem State.addFx_kept (s : State) (f : Fx) : (s.addFx f).kept = s.kept := by
  unfold State.addFx; (repeat' split) <;> (try dsimp only) <;> (try simp only [kept_ite]) <;> (repeat' split) <;> simp

@[simp] theorem State.stageOne_kept (s : State) (bytes : Data) (pi : Option PiField) (key nsid : Nat) : (s.stageOne bytes pi key nsid).kept = s.kept := by
  unfold State.stageOne; (repeat' split) <;> (try dsimp only) <;> (try simp only [kept_ite]) <;> (repeat' split) <;> simp

@[simp] theorem State.stageUnit_kept (s : State) (nsid key : Nat) (bytes : Data) (pi : Option PiField) : (s.stageUnit nsid key bytes pi).kept = s.kept := by
  unfold State.stageUnit; (repeat' split) <;> (try dsimp only) <;> (try simp only [kept_ite]) <;> (repeat' split) <;> simp

@[simp] theorem State.dropUnits_kept (s : State) (nsid : Nat) (f : Nat → Fx) : (s.dropUnits nsid f).kept = s.kept := by
  unfold State.dropUnits; (repeat' split) <;> (try dsimp only) <;> (try simp only [kept_ite]) <;> (repeat' split) <;> simp

@[simp] theorem State.failCmd_kept (s : State) (c : Cmd) (st : Status) : (s.failCmd c st).kept = s.kept := by
  unfold State.failCmd; (repeat' split) <;> (try dsimp only) <;> (try simp only [kept_ite]) <;> (repeat' split) <;> simp

@[simp] theorem State.cutShort_kept (s : State) (c : Cmd) (st : Status) : (s.cutShort c st).kept = s.kept := by
  unfold State.cutShort; (repeat' split) <;> (try dsimp only) <;> (try simp only [kept_ite]) <;> (repeat' split) <;> simp

@[simp] theorem State.writePiece_kept (s : State) (n : Ns) (c : Cmd) (k : Nat) : (s.writePiece n c k).kept = s.kept := by
  unfold State.writePiece; (repeat' split) <;> (try dsimp only) <;> (try simp only [kept_ite]) <;> (repeat' split) <;> simp

@[simp] theorem State.addIndex_kept (s : State) (w : BitVec 32) (matched : Bool) (r : Rec) : (s.addIndex w matched r).kept = s.kept := by
  unfold State.addIndex; (repeat' split) <;> (try dsimp only) <;> (try simp only [kept_ite]) <;> (repeat' split) <;> simp

@[simp] theorem State.addSegs_kept (s : State) (r : Rec) : (s.addSegs r).kept = s.kept := by
  unfold State.addSegs; (repeat' split) <;> (try dsimp only) <;> (try simp only [kept_ite]) <;> (repeat' split) <;> simp

@[simp] theorem State.releaseExtent_kept (s : State) (nsid : Nat) (x : Nat × Nat) : (s.releaseExtent nsid x).kept = s.kept := by
  unfold State.releaseExtent; (repeat' split) <;> (try dsimp only) <;> (try simp only [kept_ite]) <;> (repeat' split) <;> simp

@[simp] theorem State.putRecord_kept (s : State) (r : Rec) : (s.putRecord r).kept = s.kept := by
  unfold State.putRecord; (repeat' split) <;> (try dsimp only) <;> (try simp only [kept_ite]) <;> (repeat' split) <;> simp

@[simp] theorem State.admitRecord_kept (s : State) (holder : Nat) (n : Ns) (r : Rec) (w : BitVec 32) (matched : Bool) (plan : List (Nat × Nat)) : (s.admitRecord holder n r w matched plan).kept = s.kept := by
  unfold State.admitRecord; (repeat' split) <;> (try dsimp only) <;> (try simp only [kept_ite]) <;> (repeat' split) <;> simp

@[simp] theorem State.routeRecord_kept (s : State) (nsid num len : Nat) : (s.routeRecord nsid num len).kept = s.kept := by
  unfold State.routeRecord
  exact foldl_kept (fun s x => by rfl) _ _

@[simp] theorem State.appendGo_kept (s : State) (n : Ns) (c : Cmd) (h : RecHeader) (w : BitVec 32) (plan : List (Nat × Nat)) : (s.appendGo n c h w plan).kept = s.kept := by
  unfold State.appendGo; (repeat' split) <;> (try dsimp only) <;> (try simp only [kept_ite]) <;> (repeat' split) <;> simp

@[simp] theorem State.mirrorSend_kept (s : State) (n : Ns) (m : MirrorRec) (p len : Nat) : (s.mirrorSend n m p len).kept = s.kept := by
  unfold State.mirrorSend; (repeat' split) <;> (try dsimp only) <;> (try simp only [kept_ite]) <;> (repeat' split) <;> simp

@[simp] theorem State.returnData_kept (s : State) (c : Cmd) : (s.returnData c).kept = s.kept := by
  unfold State.returnData; (repeat' split) <;> (try dsimp only) <;> (try simp only [kept_ite]) <;> (repeat' split) <;> simp

@[simp] theorem State.finishRead_kept (s : State) (c : Cmd) : (s.finishRead c).kept = s.kept := by
  unfold State.finishRead; (repeat' split) <;> (try dsimp only) <;> (try simp only [kept_ite]) <;> (repeat' split) <;> simp

@[simp] theorem State.accessSegs_kept (s : State) (nsid : Nat) (ks : List Nat) : (s.accessSegs nsid ks).kept = s.kept := by
  unfold State.accessSegs; (repeat' split) <;> (try dsimp only) <;> (try simp only [kept_ite]) <;> (repeat' split) <;> simp

@[simp] theorem State.readPart_kept (s : State) (n : Ns) (c : Cmd) (k : Nat) : (s.readPart n c k).kept = s.kept := by
  unfold State.readPart; (repeat' split) <;> (try dsimp only) <;> (try simp only [kept_ite]) <;> (repeat' split) <;> simp

@[simp] theorem State.indexRecord_kept (s : State) (num : Nat) : (s.indexRecord num).kept = s.kept := by
  unfold State.indexRecord; (repeat' split) <;> (try dsimp only) <;> (try simp only [kept_ite]) <;> (repeat' split) <;> simp

@[simp] theorem State.ingestDrain_kept (s : State) : (s.ingestDrain).kept = s.kept := by
  unfold State.ingestDrain; (repeat' split) <;> (try dsimp only) <;> (try simp only [kept_ite]) <;> (repeat' split) <;> simp

@[simp] theorem State.openEvent_kept (s : State) (cls : Nat) (rcpt : List Nat) (st : Status) : (s.openEvent cls rcpt st).kept = s.kept := by
  unfold State.openEvent; (repeat' split) <;> (try dsimp only) <;> (try simp only [kept_ite]) <;> (repeat' split) <;> simp

@[simp] theorem State.cutSeal_kept (s : State) : (s.cutSeal).kept = s.kept := by
  unfold State.cutSeal; (repeat' split) <;> (try dsimp only) <;> (try simp only [kept_ite]) <;> (repeat' split) <;> simp

@[simp] theorem State.stopNow_kept (s : State) : (s.stopNow).kept = s.kept := by
  unfold State.stopNow; (repeat' split) <;> (try dsimp only) <;> (try simp only [kept_ite]) <;> (repeat' split) <;> simp

@[simp] theorem State.endHoldup_kept (s : State) (st : Status) (ok : Bool) (h : Holdup) : (s.endHoldup st ok h).kept = s.kept := by
  unfold State.endHoldup; (repeat' split) <;> (try dsimp only) <;> (try simp only [kept_ite]) <;> (repeat' split) <;> simp

@[simp] theorem State.startHoldup_kept (s : State) (long : Option (Nat × Nat)) : (s.startHoldup long).kept = s.kept := by
  unfold State.startHoldup; (repeat' split) <;> (try dsimp only) <;> (try simp only [kept_ite]) <;> (repeat' split) <;> simp

@[simp] theorem State.bringChannel_kept (s : State) (r : ChannelReport) : (s.bringChannel r).kept = s.kept := by
  unfold State.bringChannel; (repeat' split) <;> (try dsimp only) <;> (try simp only [kept_ite]) <;> (repeat' split) <;> simp

@[simp] theorem State.mendDescriptor_kept (s : State) : (s.mendDescriptor).kept = s.kept := by
  unfold State.mendDescriptor; (repeat' split) <;> (try dsimp only) <;> (try simp only [kept_ite]) <;> (repeat' split) <;> simp

@[simp] theorem State.recoverStripes_kept (s : State) : (s.recoverStripes).kept = s.kept := by
  unfold State.recoverStripes; (repeat' split) <;> (try dsimp only) <;> (try simp only [kept_ite]) <;> (repeat' split) <;> simp

@[simp] theorem State.recoverBlocks_kept (s : State) (old : List Nat) : (s.recoverBlocks old).kept = s.kept := by
  unfold State.recoverBlocks; (repeat' split) <;> (try dsimp only) <;> (try simp only [kept_ite]) <;> (repeat' split) <;> simp

@[simp] theorem State.recoverMedia_kept (s : State) : (s.recoverMedia).kept = s.kept := by
  unfold State.recoverMedia; (repeat' split) <;> (try dsimp only) <;> (try simp only [kept_ite]) <;> (repeat' split) <;> simp

@[simp] theorem State.dropAccepting_kept (s : State) : (s.dropAccepting).kept = s.kept := by
  unfold State.dropAccepting; (repeat' split) <;> (try dsimp only) <;> (try simp only [kept_ite]) <;> (repeat' split) <;> simp

@[simp] theorem State.startDrain_kept (s : State) : (s.startDrain).kept = s.kept := by
  unfold State.startDrain; (repeat' split) <;> (try dsimp only) <;> (try simp only [kept_ite]) <;> (repeat' split) <;> simp

@[simp] theorem State.tryHeld_kept (s : State) : (s.tryHeld).kept = s.kept := by
  unfold State.tryHeld; (repeat' split) <;> (try dsimp only) <;> (try simp only [kept_ite]) <;> (repeat' split) <;> simp

@[simp] theorem State.beginCtrlReset_kept (s : State) : (s.beginCtrlReset).kept = s.kept := by
  unfold State.beginCtrlReset; (repeat' split) <;> (try dsimp only) <;> (try simp only [kept_ite]) <;> (repeat' split) <;> simp

end Sys2Proof.Machine
end

