-- ==== Sys2Proof/Laws/KeptEngines.lean ====
section
/-!
SUPPORT. What the operations of ModMem, ModuleFile, AnvilOps, Squall, Queues, Halo, Anvil, Ingest leave alone: one lemma per operation.
-/

namespace Sys2Proof.Machine

open Sys2Proof


@[simp] theorem State.modEngine_kept (s : State) (e : Nat) (g : Engine → Engine) : (s.modEngine e g).kept = s.kept := by
  unfold State.modEngine; (repeat' split) <;> (try dsimp only) <;> (try simp only [kept_ite]) <;> (repeat' split) <;> simp

@[simp] theorem State.modWrite_kept (s : State) (n e a : Nat) (bs : Data) : (s.modWrite n e a bs).kept = s.kept := by
  unfold State.modWrite; (repeat' split) <;> (try dsimp only) <;> (try simp only [kept_ite]) <;> (repeat' split) <;> simp

@[simp] theorem State.stores_kept (s : State) (n e : Nat) (ws : List (Nat × Data)) : (s.stores n e ws).kept = s.kept := by
  unfold State.stores; (repeat' split) <;> (try dsimp only) <;> (try simp only [kept_ite]) <;> (repeat' split) <;> simp

@[simp] theorem State.ran_kept (s : State) (n e : Nat) (r : ThreadRun) : (s.ran n e r).kept = s.kept := by
  unfold State.ran; (repeat' split) <;> (try dsimp only) <;> (try simp only [kept_ite]) <;> (repeat' split) <;> simp

@[simp] theorem State.modTable_kept (s : State) (id : Nat) (g : HaloTable → HaloTable) : (s.modTable id g).kept = s.kept := by
  unfold State.modTable; (repeat' split) <;> (try dsimp only) <;> (try simp only [kept_ite]) <;> (repeat' split) <;> simp

@[simp] theorem State.replica_kept (s : State) (t : HaloTable) : (s.replica t).2.kept = s.kept := by
  unfold State.replica; (repeat' split) <;> (try dsimp only) <;> (try simp only [kept_ite]) <;> (repeat' split) <;> simp

@[simp] theorem State.search_kept (s : State) (t : HaloTable) (key : BitVec 128) : (s.search t key).2.kept = s.kept := by
  unfold State.search; (repeat' split) <;> (try dsimp only) <;> (try simp only [kept_ite]) <;> (repeat' split) <;> simp

@[simp] theorem State.modThread_kept (s : State) (tid : Nat) (g : Thread → Thread) : (s.modThread tid g).kept = s.kept := by
  unfold State.modThread; (repeat' split) <;> (try dsimp only) <;> (try simp only [kept_ite]) <;> (repeat' split) <;> simp

@[simp] theorem State.modInst_kept (s : State) (id : Nat) (g : Inst → Inst) : (s.modInst id g).kept = s.kept := by
  unfold State.modInst; (repeat' split) <;> (try dsimp only) <;> (try simp only [kept_ite]) <;> (repeat' split) <;> simp

@[simp] theorem State.freeThread_kept (s : State) (tid : Nat) : (s.freeThread tid).kept = s.kept := by
  unfold State.freeThread; (repeat' split) <;> (try dsimp only) <;> (try simp only [kept_ite]) <;> (repeat' split) <;> simp

theorem State.spawn_kept {s : State} {t : Thread} {x : Nat × State} (h : s.spawn t = some x) : x.2.kept = s.kept := by
  unfold State.spawn at h
  split at h
  · cases h
  · cases h; simp

@[simp] theorem State.discard_kept (s : State) (src : Nat) : (s.discard src).kept = s.kept := by
  unfold State.discard; (repeat' split) <;> (try dsimp only) <;> (try simp only [kept_ite]) <;> (repeat' split) <;> simp

theorem State.deliver_kept {s : State} {tid slot : Nat} {k : Token} {u : State} (h : (s.deliver tid slot k) = some u) : u.kept = s.kept := by
  unfold State.deliver at h; (try dsimp only at h); (repeat' split at h) <;> first | (cases h; done) | (cases h; simp)

@[simp] theorem State.produce_kept (s : State) (tid slot : Nat) (k : Token) : (s.produce tid slot k).kept = s.kept := by
  unfold State.produce
  split
  · next h => exact State.deliver_kept h
  · rfl

@[simp] theorem State.cancel_kept (s : State) (tid : Nat) : (s.cancel tid).kept = s.kept := by
  unfold State.cancel; (repeat' split) <;> (try dsimp only) <;> (try simp only [kept_ite]) <;> (repeat' split) <;> simp

@[simp] theorem State.endInst_kept (s : State) (id : Nat) (st : Status) (code len : Nat) : (s.endInst id st code len).kept = s.kept := by
  unfold State.endInst; (repeat' split) <;> (try dsimp only) <;> (try simp only [kept_ite]) <;> (repeat' split) <;> simp

@[simp] theorem State.idleCheck_kept (s : State) (id : Nat) : (s.idleCheck id).kept = s.kept := by
  unfold State.idleCheck; (repeat' split) <;> (try dsimp only) <;> (try simp only [kept_ite]) <;> (repeat' split) <;> simp

@[simp] theorem State.stopInst_kept (s : State) (id : Nat) (st : Status) : (s.stopInst id st).kept = s.kept := by
  unfold State.stopInst; (repeat' split) <;> (try dsimp only) <;> (try simp only [kept_ite]) <;> (repeat' split) <;> simp

@[simp] theorem State.putLoop_kept (i : Inst) (ps : List Put) :
    ∀ (s : State) (w : List Nat), (s.putLoop i ps w).kept = s.kept := by
  induction ps with
  | nil => intro s w; rfl
  | cons p ps ih =>
    intro s w
    unfold State.putLoop
    split
    · rw [ih]
    · rw [ih]; simp
@[simp] theorem State.runPuts_kept (s : State) : (s.runPuts).kept = s.kept := by
  unfold State.runPuts
  exact foldl_kept (fun s x => by split <;> simp) _ _

@[simp] theorem State.sqRecord_kept (s : State) (n e record tid slot tag : Nat) (o : SqOutcome) : (s.sqRecord n e record tid slot tag o).kept = s.kept := by
  unfold State.sqRecord; (repeat' split) <;> (try dsimp only) <;> (try simp only [kept_ite]) <;> (repeat' split) <;> simp

@[simp] theorem State.sqRefill_kept (s : State) : (s.sqRefill).kept = s.kept := by
  unfold State.sqRefill; (repeat' split) <;> (try dsimp only) <;> (try simp only [kept_ite]) <;> (repeat' split) <;> simp

@[simp] theorem State.spill_kept (s : State) (engine : Nat) : (s.spill engine).kept = s.kept := by
  unfold State.spill; (repeat' split) <;> (try dsimp only) <;> (try simp only [kept_ite]) <;> (repeat' split) <;> simp

@[simp] theorem State.sqWrite_kept (s : State) (j : SqJob) (r : SqDone) : (s.sqWrite j r).kept = s.kept := by
  unfold State.sqWrite; (repeat' split) <;> (try dsimp only) <;> (try simp only [kept_ite]) <;> (repeat' split) <;> simp

@[simp] theorem State.sqEnd_kept (s : State) (j : SqJob) (pipe usedTime : Nat) : (s.sqEnd j pipe usedTime).kept = s.kept := by
  unfold State.sqEnd; (repeat' split) <;> (try dsimp only) <;> (try simp only [kept_ite]) <;> (repeat' split) <;> simp

@[simp] theorem State.openVal_kept (s : State) : (s.openVal).2.kept = s.kept := rfl

@[simp] theorem State.setLater_kept (s : State) (id target value : Nat) : (s.setLater id target value).kept = s.kept := by
  unfold State.setLater; (repeat' split) <;> (try dsimp only) <;> (try simp only [kept_ite]) <;> (repeat' split) <;> simp

@[simp] theorem State.stopPair_kept (s : State) (n qid : Nat) (st : Status) : (s.stopPair n qid st).kept = s.kept := by
  unfold State.stopPair; (repeat' split) <;> (try dsimp only) <;> (try simp only [kept_ite]) <;> (repeat' split) <;> simp

@[simp] theorem State.fetchOne_kept (s : State) (p : Pair) (e : SqEntry) : (s.fetchOne p e).kept = s.kept := by
  unfold State.fetchOne; (repeat' split) <;> (try dsimp only) <;> (try simp only [kept_ite]) <;> (repeat' split) <;> simp

@[simp] theorem State.checked_kept {s : State} {n qid cid opc : Nat} {bufs : List BufEntry} {go : Cmd → Ns → State}
    (h : ∀ c n, (go c n).kept = s.kept) : (s.checked n qid cid opc bufs go).kept = s.kept := by
  unfold State.checked
  (repeat' split) <;> simp [h]

@[simp] theorem State.mirrorOut_kept (s : State) (n : Ns) (c : Cmd) : (s.mirrorOut n c).kept = s.kept := by
  unfold State.mirrorOut; (repeat' split) <;> (try dsimp only) <;> (try simp only [kept_ite]) <;> (repeat' split) <;> simp

@[simp] theorem State.expire_kept (s : State) (c : Cmd) : (s.expire c).kept = s.kept := by
  unfold State.expire; (repeat' split) <;> (try dsimp only) <;> (try simp only [kept_ite]) <;> (repeat' split) <;> simp

@[simp] theorem State.dropUnstarted_kept (s : State) (n qid : Nat) : (s.dropUnstarted n qid).kept = s.kept := by
  unfold State.dropUnstarted; (repeat' split) <;> (try dsimp only) <;> (try simp only [kept_ite]) <;> (repeat' split) <;> simp

@[simp] theorem State.moveClaim_kept (s : State) (res opcode fn : Nat) : (s.moveClaim res opcode fn).kept = s.kept := by
  unfold State.moveClaim; (repeat' split) <;> (try dsimp only) <;> (try simp only [kept_ite]) <;> (repeat' split) <;> simp

@[simp] theorem State.tableReply_kept (s : State) (t : HaloTable) : (s.tableReply t).kept = s.kept := by
  unfold State.tableReply; (repeat' split) <;> (try dsimp only) <;> (try simp only [kept_ite]) <;> (repeat' split) <;> simp

@[simp] theorem State.stepTable_kept (s : State) (t : HaloTable) : (s.stepTable t).kept = s.kept := by
  unfold State.stepTable; (repeat' split) <;> (try dsimp only) <;> (try simp only [kept_ite]) <;> (repeat' split) <;> simp

@[simp] theorem State.settleTable_kept (s : State) (id : Nat) : (s.settleTable id).kept = s.kept := by
  unfold State.settleTable; (repeat' split) <;> (try dsimp only) <;> (try simp only [kept_ite]) <;> (repeat' split) <;> simp

@[simp] theorem State.beginSteps_kept (s : State) (id : Nat) (steps : List HaloStep) (reply : Nat × Nat × Nat × List Nat) (g : HaloTable → HaloTable) : (s.beginSteps id steps reply g).kept = s.kept := by
  unfold State.beginSteps; (repeat' split) <;> (try dsimp only) <;> (try simp only [kept_ite]) <;> (repeat' split) <;> simp

@[simp] theorem State.classify_kept (s : State) (key : BitVec 128) : (s.classify key).2.2.kept = s.kept := by
  unfold State.classify
  dsimp only
  (repeat' split) <;> simp

theorem State.dataAlloc_kept {s : State} {n inst len align : Nat} {x : Nat × State} (h : (s.dataAlloc n inst len align) = some x) : x.2.kept = s.kept := by
  unfold State.dataAlloc at h; (try dsimp only at h); (repeat' split at h) <;> first | (cases h; done) | (cases h; simp)

@[simp] theorem State.placeStack_kept (s : State) (m : Module) : (s.placeStack m).2.kept = s.kept := by
  unfold State.placeStack; (repeat' split) <;> (try dsimp only) <;> (try simp only [kept_ite]) <;> (repeat' split) <;> simp

@[simp] theorem State.zeroStatic_kept (s : State) (m : Module) (es : List Nat) : (s.zeroStatic m es).kept = s.kept := by
  unfold State.zeroStatic; (repeat' split) <;> (try dsimp only) <;> (try simp only [kept_ite]) <;> (repeat' split) <;> simp

@[simp] theorem State.placeArg_kept (s : State) (i : Inst) : (s.placeArg i).2.kept = s.kept := by
  unfold State.placeArg
  cases hd : s.dataAlloc i.fn i.id i.blk.argLen 1 with
  | none => rfl
  | some x => exact State.dataAlloc_kept hd

@[simp] theorem State.readied_kept (s : State) (i : Inst) (m : Module) (es : List Nat) (a : Nat) (arg : Data) : (s.readied i m es a arg).kept = s.kept := by
  unfold State.readied; (repeat' split) <;> (try dsimp only) <;> (try simp only [kept_ite]) <;> (repeat' split) <;> simp

theorem State.started_kept {s : State} {i : Inst} {es : List Nat} {arg : Nat} {z : Option (Nat × State)}
    (h : ∀ x, z = some x → x.2.kept = s.kept) : (s.started i es arg z).kept = s.kept := by
  cases z with
  | none => rfl
  | some x => exact (State.modInst_kept _ _ _).trans (h x rfl)

@[simp] theorem State.startInst_kept (s : State) (i : Inst) (m : Module) (es : List Nat) (arg : Data) :
    (s.startInst i m es arg).kept = s.kept := by
  unfold State.startInst
  split
  · rfl
  · exact State.started_kept fun x h => (State.spawn_kept h).trans (by simp)

@[simp] theorem State.dropRevoked_kept (s : State) : (s.dropRevoked).kept = s.kept := by
  unfold State.dropRevoked; (repeat' split) <;> (try dsimp only) <;> (try simp only [kept_ite]) <;> (repeat' split) <;> simp

@[simp] theorem State.countEngine_kept (s : State) (e : Nat) (g : EngCount → EngCount) : (s.countEngine e g).kept = s.kept := by
  unfold State.countEngine; (repeat' split) <;> (try dsimp only) <;> (try simp only [kept_ite]) <;> (repeat' split) <;> simp

@[simp] theorem State.enterThread_kept (s : State) (e : Nat) (t : Thread) : (s.enterThread e t).kept = s.kept := by
  unfold State.enterThread; (repeat' split) <;> (try dsimp only) <;> (try simp only [kept_ite]) <;> (repeat' split) <;> simp

@[simp] theorem State.leaveEngine_kept (s : State) (e n : Nat) : (s.leaveEngine e n).kept = s.kept := by
  unfold State.leaveEngine; (repeat' split) <;> (try dsimp only) <;> (try simp only [kept_ite]) <;> (repeat' split) <;> simp

@[simp] theorem State.exitThread_kept (s : State) (e : Nat) (t : Thread) : (s.exitThread e t).kept = s.kept := by
  unfold State.exitThread; (repeat' split) <;> (try dsimp only) <;> (try simp only [kept_ite]) <;> (repeat' split) <;> simp

@[simp] theorem State.keepFault_kept (s : State) (r : FaultRec) : (s.keepFault r).kept = s.kept := by
  unfold State.keepFault; (repeat' split) <;> (try dsimp only) <;> (try simp only [kept_ite]) <;> (repeat' split) <;> simp

@[simp] theorem State.faultThread_kept (s : State) (e : Nat) (t : Thread) (st : Status) (mcause mepc mtval : Nat) : (s.faultThread e t st mcause mepc mtval).kept = s.kept := by
  unfold State.faultThread; (repeat' split) <;> (try dsimp only) <;> (try simp only [kept_ite]) <;> (repeat' split) <;> simp

@[simp] theorem State.openFault_kept (s : State) (e : Nat) (t : Thread) (st : Status) : (s.openFault e t st).kept = s.kept := by
  unfold State.openFault; (repeat' split) <;> (try dsimp only) <;> (try simp only [kept_ite]) <;> (repeat' split) <;> simp

@[simp] theorem State.rearm_kept (s : State) (e : Nat) (t : Thread) (a0 : Nat) : (s.rearm e t a0).kept = s.kept := by
  unfold State.rearm; (repeat' split) <;> (try dsimp only) <;> (try simp only [kept_ite]) <;> (repeat' split) <;> simp

@[simp] theorem State.setResult_kept (s : State) (e : Nat) (st : Status) (v : Nat) : (s.setResult e st v).kept = s.kept := by
  unfold State.setResult; (repeat' split) <;> (try dsimp only) <;> (try simp only [kept_ite]) <;> (repeat' split) <;> simp

@[simp] theorem State.retryTokens_kept (src : Nat) (xs : List Stalled) :
    ∀ (s : State) (b : List Nat), (s.retryTokens src xs b).kept = s.kept := by
  induction xs with
  | nil => intro s b; rfl
  | cons x xs ih =>
    intro s b
    unfold State.retryTokens
    dsimp only
    split
    · rw [ih]
    · split
      · rw [ih]
      · next h =>
        rw [ih]
        split <;> simpa using State.deliver_kept h
@[simp] theorem State.fireDelays_kept (s : State) (p : Delay → Bool) (time : Nat) (st : Status) : (s.fireDelays p time st).kept = s.kept := by
  unfold State.fireDelays; (repeat' split) <;> (try dsimp only) <;> (try simp only [kept_ite]) <;> (repeat' split) <;> simp

@[simp] theorem State.chunkTo_kept (s : State) (i : Inst) (n : Ns) (m : Module) (j len ov : Nat) :
    (s.chunkTo i n m j len ov).kept = s.kept := by
  unfold State.chunkTo
  extract_lets e size starts least a bytes mask c
  split
  · rfl
  · next h => simpa [a] using State.spawn_kept h

@[simp] theorem State.service_kept {s : State} {e k : Nat} {args : List Nat} {run : ThreadRun}
    {go : State → Thread → Inst → Module → State} (h : ∀ a t i m, (go a t i m).kept = a.kept) :
    (s.service e k args run go).kept = s.kept := by
  unfold State.service
  dsimp only
  (repeat' split) <;> simp [h]

@[simp] theorem State.searchKeys_kept (s : State) (n e table results : Nat) (keys : List (BitVec 128)) :
    (s.searchKeys n e table results keys).2.kept = s.kept :=
  foldl_kept₂ (fun x a => by dsimp only; split <;> simp) _ _

@[simp] theorem State.modRec_kept (s : State) (p rid : Nat) (g : LinkRec → LinkRec) : (s.modRec p rid g).kept = s.kept := by
  unfold State.modRec; (repeat' split) <;> (try dsimp only) <;> (try simp only [kept_ite]) <;> (repeat' split) <;> simp

@[simp] theorem State.rejectRec_kept (s : State) (p : Nat) (r : LinkRec) (st : Status) : (s.rejectRec p r st).kept = s.kept := by
  unfold State.rejectRec; (repeat' split) <;> (try dsimp only) <;> (try simp only [kept_ite]) <;> (repeat' split) <;> simp

@[simp] theorem State.linkGo_kept (s : State) (p : Nat) (n : Ns) (r : LinkRec) (h : RecHeader) (w : BitVec 32) (plan : List (Nat × Nat)) : (s.linkGo p n r h w plan).kept = s.kept := by
  unfold State.linkGo; (repeat' split) <;> (try dsimp only) <;> (try simp only [kept_ite]) <;> (repeat' split) <;> simp

@[simp] theorem State.mirrorGo_kept (s : State) (p : Nat) (r : LinkRec) : (s.mirrorGo p r).kept = s.kept := by
  unfold State.mirrorGo; (repeat' split) <;> (try dsimp only) <;> (try simp only [kept_ite]) <;> (repeat' split) <;> simp

@[simp] theorem State.admitTickets_kept (s : State) : (s.admitTickets).kept = s.kept := by
  unfold State.admitTickets; (repeat' split) <;> (try dsimp only) <;> (try simp only [kept_ite]) <;> (repeat' split) <;> simp

@[simp] theorem State.classHost_kept (s : State) (c : Cmd) (n : Ns) (h : RecHeader) : (s.classHost c n h).kept = s.kept := by
  unfold State.classHost; (repeat' split) <;> (try dsimp only) <;> (try simp only [kept_ite]) <;> (repeat' split) <;> simp

@[simp] theorem State.classLink_kept (s : State) (p : Nat) (x : LinkRec) (n : Ns) (h : RecHeader) : (s.classLink p x n h).kept = s.kept := by
  unfold State.classLink; (repeat' split) <;> (try dsimp only) <;> (try simp only [kept_ite]) <;> (repeat' split) <;> simp

@[simp] theorem State.openLog_kept (s : State) (fn : Nat) (st : Status) : (s.openLog fn st).kept = s.kept := by
  unfold State.openLog; (repeat' split) <;> (try dsimp only) <;> (try simp only [kept_ite]) <;> (repeat' split) <;> simp

@[simp] theorem State.holdHolder_kept (s : State) (h : Nat) : (s.holdHolder h).kept = s.kept := by
  unfold State.holdHolder; (repeat' split) <;> (try dsimp only) <;> (try simp only [kept_ite]) <;> (repeat' split) <;> simp

end Sys2Proof.Machine
end

