-- ==== Sys2Proof/Laws/KeptMedia.lean ====
section
/-!
SUPPORT. What the operations of FlashOps, Media, Redundancy, Horizon leave alone: one lemma per operation.
-/

namespace Sys2Proof.Machine

open Sys2Proof


@[simp] theorem State.landItem_kept (s : State) (it : Item) (a n : Nat) (xs : List Nat) : (s.landItem it a n xs).kept = s.kept := by
  unfold State.landItem; (repeat' split) <;> (try dsimp only) <;> (try simp only [kept_ite]) <;> (repeat' split) <;> simp

theorem State.addMoves_kept {s : State} {ms : List Move} {u : State} (h : (s.addMoves ms) = some u) : u.kept = s.kept := by
  unfold State.addMoves at h; (try dsimp only at h); (repeat' split at h) <;> first | (cases h; done) | (cases h; simp)

theorem State.moveExtent_kept {s : State} {a nsid ek : Nat} {x : Nat × State} (h : s.moveExtent a nsid ek = some x) :
    x.2.kept = s.kept := by
  unfold State.moveExtent at h
  dsimp only at h
  split at h
  · cases h
  · obtain ⟨r, hr, h⟩ := Option.bind_eq_some_iff.1 h
    obtain ⟨u, hu, rfl⟩ := Option.map_eq_some_iff.1 h
    exact (State.addMoves_kept hu).trans (State.takeRun_kept _ _ _ _ _ hr)

theorem State.moveOne_kept {s : State} {a : Nat} {c : Codeword} {x : Nat × State} (h : s.moveOne a c = some x) :
    x.2.kept = s.kept := by
  unfold State.moveOne at h
  split at h
  · cases h
  · obtain ⟨r, hr, h⟩ := Option.bind_eq_some_iff.1 h
    obtain ⟨u, hu, rfl⟩ := Option.map_eq_some_iff.1 h
    exact (State.addMoves_kept hu).trans (State.takeRun_kept _ _ _ _ _ hr)

@[simp] theorem State.moveAll_kept (is : List MoveItem) : ∀ (s : State) (a : Nat), (s.moveAll a is).kept = s.kept := by
  induction is with
  | nil => intro s a; rfl
  | cons i is ih =>
    intro s a
    unfold State.moveAll
    split
    · next h =>
      rw [ih]
      cases i
      · exact State.moveOne_kept h
      · exact State.moveExtent_kept h
    · rw [ih]

@[simp] theorem State.moveLive_kept (s : State) (must : Bool) (p : Nat → Bool) (target : Nat) :
    (s.moveLive must p target).kept = s.kept := by
  unfold State.moveLive
  split
  · next h => rw [State.moveAll_kept, State.withSuper_kept h]
  · rfl

@[simp] theorem State.ownTarget_kept (s : State) : (s.ownTarget).2.kept = s.kept := by
  unfold State.ownTarget; (repeat' split) <;> (try dsimp only) <;> (try simp only [kept_ite]) <;> (repeat' split) <;> simp

@[simp] theorem State.rewrite_kept (s : State) (p : Nat → Bool) : (s.rewrite p).kept = s.kept := by
  unfold State.rewrite
  dsimp only
  split
  · rfl
  · split
    · next h => rw [State.moveAll_kept, State.withSuper_kept h]; simp
    · rfl

@[simp] theorem State.markRefresh_kept (s : State) (blk : Nat) : (s.markRefresh blk).kept = s.kept := by
  unfold State.markRefresh; (repeat' split) <;> (try dsimp only) <;> (try simp only [kept_ite]) <;> (repeat' split) <;> simp

@[simp] theorem State.reportLoss_kept (s : State) (st : Status) (nsid key n : Nat) : (s.reportLoss st nsid key n).kept = s.kept := by
  unfold State.reportLoss; (repeat' split) <;> (try dsimp only) <;> (try simp only [kept_ite]) <;> (repeat' split) <;> simp

@[simp] theorem State.loseCell_kept (s : State) (c : Codeword) : (s.loseCell c).kept = s.kept := by
  unfold State.loseCell; (repeat' split) <;> (try dsimp only) <;> (try simp only [kept_ite]) <;> (repeat' split) <;> simp

@[simp] theorem State.loseInternal_kept (s : State) (st : Status) (c : Codeword) : (s.loseInternal st c).kept = s.kept := by
  unfold State.loseInternal; (repeat' split) <;> (try dsimp only) <;> (try simp only [kept_ite]) <;> (repeat' split) <;> simp

@[simp] theorem State.readDone_kept (s : State) (a : Nat) : (s.readDone a).kept = s.kept := by
  unfold State.readDone; (repeat' split) <;> (try dsimp only) <;> (try simp only [kept_ite]) <;> (repeat' split) <;> simp

@[simp] theorem State.readLost_kept (s : State) (a : Nat) : (s.readLost a).kept = s.kept := by
  unfold State.readLost
  exact foldl_kept (fun s x => by split <;> simp) _ _

@[simp] theorem State.countReads_kept (s : State) (blk n : Nat) : (s.countReads blk n).kept = s.kept := by
  unfold State.countReads; (repeat' split) <;> (try dsimp only) <;> (try simp only [kept_ite]) <;> (repeat' split) <;> simp

@[simp] theorem State.countRead_kept (s : State) (blk : Nat) : (s.countRead blk).kept = s.kept := by
  unfold State.countRead; (repeat' split) <;> (try dsimp only) <;> (try simp only [kept_ite]) <;> (repeat' split) <;> simp

theorem State.suspendErase_kept {s : State} {a : Nat} {u : State} (h : (s.suspendErase a) = some u) : u.kept = s.kept := by
  unfold State.suspendErase at h; (try dsimp only at h); (repeat' split at h) <;> first | (cases h; done) | (cases h; simp)

@[simp] theorem State.suspendProgram_kept (s : State) (a : Nat) : (s.suspendProgram a).kept = s.kept := by
  unfold State.suspendProgram; (repeat' split) <;> (try dsimp only) <;> (try simp only [kept_ite]) <;> (repeat' split) <;> simp

theorem State.landingFits_kept {s : State} {n i a : Nat} {x : Item × List Nat × State} (h : s.landingFits n i a = some x) :
    x.2.2.kept = s.kept := by
  unfold State.landingFits at h
  split at h
  · cases h
  · split at h
    · next h1 =>
      split at h
      · cases h
      · obtain ⟨r, hr, rfl⟩ := Option.map_eq_some_iff.1 h
        exact (State.takeRun_kept _ _ _ _ _ hr).trans (State.withSuper_kept h1)
    · cases h

@[simp] theorem State.untake_kept (s : State) (as : List Nat) : (s.untake as).kept = s.kept := by
  unfold State.untake; (repeat' split) <;> (try dsimp only) <;> (try simp only [kept_ite]) <;> (repeat' split) <;> simp

@[simp] theorem State.programFailed_kept (s : State) (a : Nat) : (s.programFailed a).kept = s.kept := by
  unfold State.programFailed; (repeat' split) <;> (try dsimp only) <;> (try simp only [kept_ite]) <;> (repeat' split) <;> simp

@[simp] theorem State.loadDone_kept (s : State) (k : Nat × Nat × Nat) : (s.loadDone k).kept = s.kept := by
  unfold State.loadDone; (repeat' split) <;> (try dsimp only) <;> (try simp only [kept_ite]) <;> (repeat' split) <;> simp

theorem State.programMap_kept {s : State} {a : Nat} {d : Data} {x : List Nat × State} (h : s.programMap a d = some x) :
    x.2.kept = s.kept := by
  unfold State.programMap at h
  split at h
  · cases h
  · next h1 =>
    obtain ⟨r, hr, rfl⟩ := Option.map_eq_some_iff.1 h
    exact (State.putSys_kept ..).trans ((State.takeRun_kept _ _ _ _ _ hr).trans (State.withSuper_kept h1))

@[simp] theorem State.programHead_kept (s : State) (m : Move) (a : Nat) : (s.programHead m a).kept = s.kept := by
  unfold State.programHead; (repeat' split) <;> (try dsimp only) <;> (try simp only [kept_ite]) <;> (repeat' split) <;> simp

@[simp] theorem State.programCopy_kept (s : State) (m : Move) (xs : List Nat) : (s.programCopy m xs).kept = s.kept := by
  unfold State.programCopy; (repeat' split) <;> (try dsimp only) <;> (try simp only [kept_ite]) <;> (repeat' split) <;> simp

@[simp] theorem State.freeParity_kept (s : State) (sb : Nat) : (s.freeParity sb).kept = s.kept := by
  unfold State.freeParity; (repeat' split) <;> (try dsimp only) <;> (try simp only [kept_ite]) <;> (repeat' split) <;> simp

@[simp] theorem State.renewCell_kept (s : State) (c : Codeword) : (s.renewCell c).kept = s.kept := by
  unfold State.renewCell; (repeat' split) <;> (try dsimp only) <;> (try simp only [kept_ite]) <;> (repeat' split) <;> simp

@[simp] theorem State.countFailing_kept (s : State) (a : Nat) : (s.countFailing a).kept = s.kept := by
  unfold State.countFailing; (repeat' split) <;> (try dsimp only) <;> (try simp only [kept_ite]) <;> (repeat' split) <;> simp

@[simp] theorem State.decoded_kept (s : State) (c : Codeword) (l corrected : Nat) : (s.decoded c l corrected).kept = s.kept := by
  unfold State.decoded; (repeat' split) <;> (try dsimp only) <;> (try simp only [kept_ite]) <;> (repeat' split) <;> simp

@[simp] theorem State.uncorrectable_kept (s : State) (c : Codeword) : (s.uncorrectable c).kept = s.kept := by
  unfold State.uncorrectable; (repeat' split) <;> (try dsimp only) <;> (try simp only [kept_ite]) <;> (repeat' split) <;> simp

@[simp] theorem State.readTemp_kept (s : State) (x : Nat × Int) : (s.readTemp x).kept = s.kept := by
  unfold State.readTemp; (repeat' split) <;> (try dsimp only) <;> (try simp only [kept_ite]) <;> (repeat' split) <;> simp

@[simp] theorem State.flashSlots_kept (s : State) : (s.flashSlots).kept = s.kept := by
  unfold State.flashSlots; (repeat' split) <;> (try dsimp only) <;> (try simp only [kept_ite]) <;> (repeat' split) <;> simp

@[simp] theorem State.mendStripes_kept (s : State) (q : Stripe → Bool) : (s.mendStripes q).kept = s.kept := by
  unfold State.mendStripes; (repeat' split) <;> (try dsimp only) <;> (try simp only [kept_ite]) <;> (repeat' split) <;> simp

theorem State.copyUnits_kept {s u : State} {key target : Nat} (h : s.copyUnits key target = some u) : u.kept = s.kept := by
  unfold State.copyUnits at h
  dsimp only at h
  split at h
  · obtain ⟨c, -, h⟩ := Option.bind_eq_some_iff.1 h
    split at h
    · cases h
    · obtain ⟨x, hx, h⟩ := Option.bind_eq_some_iff.1 h
      exact (State.addMoves_kept h).trans (State.takeRun_kept _ _ _ _ _ hx)
  · cases h

@[simp] theorem State.lateFault_kept (s : State) : (s.lateFault).kept = s.kept := by
  unfold State.lateFault; (repeat' split) <;> (try dsimp only) <;> (try simp only [kept_ite]) <;> (repeat' split) <;> simp

@[simp] theorem State.sealLateAt_kept (s : State) (e : Epoch) : (s.sealLateAt e).kept = s.kept := by
  unfold State.sealLateAt; (repeat' split) <;> (try dsimp only) <;> (try simp only [kept_ite]) <;> (repeat' split) <;> simp

@[simp] theorem State.ringLateAt_kept (s : State) (n : Nat) : (s.ringLateAt n).kept = s.kept := by
  unfold State.ringLateAt; (repeat' split) <;> (try dsimp only) <;> (try simp only [kept_ite]) <;> (repeat' split) <;> simp

@[simp] theorem State.countSlow_kept (s : State) (g : Nat) : (s.countSlow g).kept = s.kept := by
  unfold State.countSlow; (repeat' split) <;> (try dsimp only) <;> (try simp only [kept_ite]) <;> (repeat' split) <;> simp

@[simp] theorem State.fwSealed_kept (s : State) (n : Nat) : (s.fwSealed n).kept = s.kept := by
  unfold State.fwSealed; (repeat' split) <;> (try dsimp only) <;> (try simp only [kept_ite]) <;> (repeat' split) <;> simp

@[simp] theorem State.sealNow_kept (s : State) (e : Epoch) : (s.sealNow e).kept = s.kept := by
  unfold State.sealNow; (repeat' split) <;> (try dsimp only) <;> (try simp only [kept_ite]) <;> (repeat' split) <;> simp

@[simp] theorem State.openWindow_kept (s : State) : (s.openWindow).kept = s.kept := by
  unfold State.openWindow; (repeat' split) <;> (try dsimp only) <;> (try simp only [kept_ite]) <;> (repeat' split) <;> simp

@[simp] theorem State.beginHold_kept (s : State) : (s.beginHold).kept = s.kept := by
  unfold State.beginHold; (repeat' split) <;> (try dsimp only) <;> (try simp only [kept_ite]) <;> (repeat' split) <;> simp

@[simp] theorem State.modTickIn_kept (s : State) (g : TickIn → TickIn) : (s.modTickIn g).kept = s.kept := by
  unfold State.modTickIn; (repeat' split) <;> (try dsimp only) <;> (try simp only [kept_ite]) <;> (repeat' split) <;> simp

@[simp] theorem State.lockTickIn_kept (s : State) : (s.lockTickIn).kept = s.kept := by
  unfold State.lockTickIn; (repeat' split) <;> (try dsimp only) <;> (try simp only [kept_ite]) <;> (repeat' split) <;> simp

@[simp] theorem State.recordEngines_kept (s : State) : s.recordEngines.kept = s.kept :=
  (State.modAnv_kept ..).trans (foldl_kept (fun a e => by simp) _ _)

@[simp] theorem State.passTime_kept (s : State) (stretchNs : Nat) : (s.passTime stretchNs).kept = s.kept := by
  unfold State.passTime; (repeat' split) <;> (try dsimp only) <;> (try simp only [kept_ite]) <;> (repeat' split) <;> simp

@[simp] theorem State.applyOne_kept (s : State) (c : Nat × Nat × Nat × Nat) : (s.applyOne c).kept = s.kept := by
  unfold State.applyOne; (repeat' split) <;> (try dsimp only) <;> (try simp only [kept_ite]) <;> (repeat' split) <;> simp

@[simp] theorem State.applyChange_kept (s : State) (n : Nat) : (s.applyChange n).kept = s.kept := by
  unfold State.applyChange; (repeat' split) <;> (try dsimp only) <;> (try simp only [kept_ite]) <;> (repeat' split) <;> simp

@[simp] theorem State.applyParams_kept (s : State) (n : Nat) : (s.applyParams n).kept = s.kept := by
  unfold State.applyParams; (repeat' split) <;> (try dsimp only) <;> (try simp only [kept_ite]) <;> (repeat' split) <;> simp

@[simp] theorem State.dropTimers_kept (s : State) : (s.dropTimers).kept = s.kept := by
  unfold State.dropTimers; (repeat' split) <;> (try dsimp only) <;> (try simp only [kept_ite]) <;> (repeat' split) <;> simp

@[simp] theorem State.liftHold_kept (s : State) : (s.liftHold).kept = s.kept := by
  unfold State.liftHold; (repeat' split) <;> (try dsimp only) <;> (try simp only [kept_ite]) <;> (repeat' split) <;> simp

@[simp] theorem State.reportMode_kept (s : State) : (s.reportMode).kept = s.kept := by
  unfold State.reportMode; (repeat' split) <;> (try dsimp only) <;> (try simp only [kept_ite]) <;> (repeat' split) <;> simp

@[simp] theorem State.powerBoundary_kept (s : State) : (s.powerBoundary).kept = s.kept := by
  unfold State.powerBoundary
  dsimp only
  split
  · cases s.pw.entryLong <;> simp [foldl_kept (fun a p => State.portDown_kept a p)]
  · split
    · split
      · cases s.pw.replyTo <;> simp only [Option.elim, State.stage_kept] <;> split <;> simp
      · rfl
    · rfl

@[simp] theorem State.retireIntents_kept (s : State) : (s.retireIntents).kept = s.kept := by
  unfold State.retireIntents; (repeat' split) <;> (try dsimp only) <;> (try simp only [kept_ite]) <;> (repeat' split) <;> simp

@[simp] theorem State.mediaTick_kept (s : State) : (s.mediaTick).kept = s.kept := by
  unfold State.mediaTick; (repeat' split) <;> (try dsimp only) <;> (try simp only [kept_ite]) <;> (repeat' split) <;> simp

@[simp] theorem State.mediaCounts_kept (s : State) : (s.mediaCounts).kept = s.kept := by
  unfold State.mediaCounts; (repeat' split) <;> (try dsimp only) <;> (try simp only [kept_ite]) <;> (repeat' split) <;> simp

@[simp] theorem State.retrainStep_kept (s : State) : (s.retrainStep).kept = s.kept := by
  unfold State.retrainStep; (repeat' split) <;> (try dsimp only) <;> (try simp only [kept_ite]) <;> (repeat' split) <;> simp

@[simp] theorem State.enablePorts_kept (s : State) : (s.enablePorts).kept = s.kept := by
  unfold State.enablePorts; (repeat' split) <;> (try dsimp only) <;> (try simp only [kept_ite]) <;> (repeat' split) <;> simp

@[simp] theorem State.sendMarks_kept (s : State) : (s.sendMarks).kept = s.kept := by
  unfold State.sendMarks; (repeat' split) <;> (try dsimp only) <;> (try simp only [kept_ite]) <;> (repeat' split) <;> simp

@[simp] theorem State.grantMirror_kept (s : State) : (s.grantMirror).kept = s.kept := by
  unfold State.grantMirror
  exact foldl_kept (fun s x => by split <;> simp) _ _

@[simp] theorem State.groupBoundary_kept (s : State) : (s.groupBoundary).kept = s.kept := by
  unfold State.groupBoundary
  extract_lets s1 s2
  have h1 : s1.kept = s.kept := by
    simp only [s1]
    split
    · split <;> simp
    · rfl
  have h2 : s2.kept = s1.kept := by
    simp only [s2]
    split <;> simp
  clear_value s1 s2
  simp [h1, h2]

@[simp] theorem State.dissolve_kept (s : State) : (s.dissolve).kept = s.kept := by
  unfold State.dissolve; (repeat' split) <;> (try dsimp only) <;> (try simp only [kept_ite]) <;> (repeat' split) <;> simp

@[simp] theorem State.holdTick_kept (s : State) : (s.holdTick).kept = s.kept := by
  unfold State.holdTick; (repeat' split) <;> (try dsimp only) <;> (try simp only [kept_ite]) <;> (repeat' split) <;> simp

@[simp] theorem State.tickOut_kept (s : State) : (s.tickOut).kept = s.kept := by
  unfold State.tickOut; (repeat' split) <;> (try dsimp only) <;> (try simp only [kept_ite]) <;> (repeat' split) <;> simp

@[simp] theorem State.overrun_kept (s : State) : (s.overrun).kept = s.kept := by
  unfold State.overrun; (repeat' split) <;> (try dsimp only) <;> (try simp only [kept_ite]) <;> (repeat' split) <;> simp

@[simp] theorem State.turnTick_kept (s : State) (stretchNs : Nat) : (s.turnTick stretchNs).kept = s.kept := by
  unfold State.turnTick; (repeat' split) <;> (try dsimp only) <;> (try simp only [kept_ite]) <;> (repeat' split) <;> simp

end Sys2Proof.Machine
end

