-- ==== Sys2Proof/Laws/KeptRest.lean ====
section
/-!
SUPPORT. What the operations of Zelim, Group, Registers, Functions, Namespaces, FirmwareLog leave alone: one lemma per operation.
-/

namespace Sys2Proof.Machine

open Sys2Proof


@[simp] theorem State.received_kept (s : State) (p : Nat) : (s.received p).kept = s.kept := by
  unfold State.received; (repeat' split) <;> (try dsimp only) <;> (try simp only [kept_ite]) <;> (repeat' split) <;> simp

@[simp] theorem State.enterStep_kept (s : State) (p n : Nat) : (s.enterStep p n).kept = s.kept := by
  unfold State.enterStep; (repeat' split) <;> (try dsimp only) <;> (try simp only [kept_ite]) <;> (repeat' split) <;> simp

@[simp] theorem State.beginAuth_kept (s : State) (p : Nat) : (s.beginAuth p).kept = s.kept := by
  unfold State.beginAuth; (repeat' split) <;> (try dsimp only) <;> (try simp only [kept_ite]) <;> (repeat' split) <;> simp

@[simp] theorem State.askJoin_kept (s : State) (p : Nat) : (s.askJoin p).kept = s.kept := by
  unfold State.askJoin; (repeat' split) <;> (try dsimp only) <;> (try simp only [kept_ite]) <;> (repeat' split) <;> simp

@[simp] theorem State.portReady_kept (s : State) (p : Nat) : (s.portReady p).kept = s.kept := by
  unfold State.portReady; (repeat' split) <;> (try dsimp only) <;> (try simp only [kept_ite]) <;> (repeat' split) <;> simp

@[simp] theorem State.authStep_kept {s : State} {p : Nat} {sigOk : Bool} {anchor : Nat} {go : State → State}
    (h : ∀ x, (go x).kept = x.kept) : (s.authStep p sigOk anchor go).kept = s.kept := by
  unfold State.authStep
  (repeat' split) <;> simp [h]

@[simp] theorem State.openViolation_kept (s : State) (p : Nat) : (s.openViolation p).kept = s.kept := by
  unfold State.openViolation; (repeat' split) <;> (try dsimp only) <;> (try simp only [kept_ite]) <;> (repeat' split) <;> simp

@[simp] theorem State.onFrame_kept {s : State} {p : Nat} {f : Frame} {bytes : Nat} {go : State → State}
    (h : ∀ x, (go x).kept = x.kept) : (s.onFrame p f bytes go).kept = s.kept := by
  unfold State.onFrame
  extract_lets x
  (repeat' split) <;> simp [h]

@[simp] theorem State.onPort_kept {s : State} {p : Nat} {go : State → State}
    (h : ∀ x, (go x).kept = x.kept) : (s.onPort p go).kept = s.kept := by
  unfold State.onPort
  (repeat' split) <;> simp [h]

@[simp] theorem State.resend_kept (s : State) (p seq : Nat) : (s.resend p seq).kept = s.kept := by
  unfold State.resend; (repeat' split) <;> (try dsimp only) <;> (try simp only [kept_ite]) <;> (repeat' split) <;> simp

@[simp] theorem State.relay_kept (s : State) (p : Nat) (f : Frame) : (s.relay p f).kept = s.kept := by
  unfold State.relay; (repeat' split) <;> (try dsimp only) <;> (try simp only [kept_ite]) <;> (repeat' split) <;> simp

@[simp] theorem State.pausePeer_kept (s : State) (p : Nat) : (s.pausePeer p).kept = s.kept := by
  unfold State.pausePeer; (repeat' split) <;> (try dsimp only) <;> (try simp only [kept_ite]) <;> (repeat' split) <;> simp

@[simp] theorem State.setPartial_kept (s : State) (p src rid : Nat) (r : Option LinkRec) : (s.setPartial p src rid r).kept = s.kept := by
  unfold State.setPartial; (repeat' split) <;> (try dsimp only) <;> (try simp only [kept_ite]) <;> (repeat' split) <;> simp

@[simp] theorem State.refuseRec_kept (s : State) (p : Nat) (r : LinkRec) (fin : Bool) (st : Status) : (s.refuseRec p r fin st).kept = s.kept := by
  unfold State.refuseRec; (repeat' split) <;> (try dsimp only) <;> (try simp only [kept_ite]) <;> (repeat' split) <;> simp

@[simp] theorem State.moreData_kept (s : State) (p : Nat) (r : LinkRec) (fin : Bool) : (s.moreData p r fin).kept = s.kept := by
  unfold State.moreData; (repeat' split) <;> (try dsimp only) <;> (try simp only [kept_ite]) <;> (repeat' split) <;> simp

@[simp] theorem State.firstData_kept (s : State) (p : Nat) (r : LinkRec) (fin : Bool) : (s.firstData p r fin).kept = s.kept := by
  unfold State.firstData; (repeat' split) <;> (try dsimp only) <;> (try simp only [kept_ite]) <;> (repeat' split) <;> simp

@[simp] theorem State.takeData_kept (s : State) (p : Nat) (f : Frame) (bytes : Data) : (s.takeData p f bytes).kept = s.kept := by
  unfold State.takeData; (repeat' split) <;> (try dsimp only) <;> (try simp only [kept_ite]) <;> (repeat' split) <;> simp

@[simp] theorem State.nakMirror_kept (s : State) (m : MirrorRec) (st : Status) : (s.nakMirror m st).kept = s.kept := by
  unfold State.nakMirror; (repeat' split) <;> (try dsimp only) <;> (try simp only [kept_ite]) <;> (repeat' split) <;> simp

@[simp] theorem State.nakCreate_kept (s : State) : (s.nakCreate).kept = s.kept := by
  unfold State.nakCreate; (repeat' split) <;> (try dsimp only) <;> (try simp only [kept_ite]) <;> (repeat' split) <;> simp

@[simp] theorem State.lateReplica_kept (s : State) (node : Nat) : (s.lateReplica node).kept = s.kept := by
  unfold State.lateReplica; (repeat' split) <;> (try dsimp only) <;> (try simp only [kept_ite]) <;> (repeat' split) <;> simp

@[simp] theorem State.nakRoute_kept (s : State) (node : Nat) (st : Status) : (s.nakRoute node st).kept = s.kept := by
  unfold State.nakRoute; (repeat' split) <;> (try dsimp only) <;> (try simp only [kept_ite]) <;> (repeat' split) <;> simp

@[simp] theorem State.createHeld_kept (s : State) : (s.createHeld).kept = s.kept := by
  unfold State.createHeld; (repeat' split) <;> (try dsimp only) <;> (try simp only [kept_ite]) <;> (repeat' split) <;> simp

@[simp] theorem State.groupViolation_kept (s : State) (p : Nat) : (s.groupViolation p).kept = s.kept := by
  unfold State.groupViolation; (repeat' split) <;> (try dsimp only) <;> (try simp only [kept_ite]) <;> (repeat' split) <;> simp

@[simp] theorem State.countVoter_kept (s : State) (node lock : Nat) : (s.countVoter node lock).kept = s.kept := by
  unfold State.countVoter; (repeat' split) <;> (try dsimp only) <;> (try simp only [kept_ite]) <;> (repeat' split) <;> simp

@[simp] theorem State.retree_kept (s : State) : (s.retree).kept = s.kept := by
  unfold State.retree
  split
  · cases hopOf s.zl.master s.cablesNow s.node <;> rfl
  · rfl

@[simp] theorem State.adopt_kept (s : State) (gen effective master : Nat) (ring : Ring) (rclk : Nat) : (s.adopt gen effective master ring rclk).kept = s.kept := by
  unfold State.adopt; (repeat' split) <;> (try dsimp only) <;> (try simp only [kept_ite]) <;> (repeat' split) <;> simp

@[simp] theorem State.dropCables_kept (s : State) (src : Nat) (nodes : List Nat) : (s.dropCables src nodes).kept = s.kept := by
  unfold State.dropCables; (repeat' split) <;> (try dsimp only) <;> (try simp only [kept_ite]) <;> (repeat' split) <;> simp

@[simp] theorem State.refuseJoin_kept (s : State) (node : Nat) (st : Status) : (s.refuseJoin node st).kept = s.kept := by
  unfold State.refuseJoin; (repeat' split) <;> (try dsimp only) <;> (try simp only [kept_ite]) <;> (repeat' split) <;> simp

@[simp] theorem State.offerJoin_kept (s : State) (j : Join) : (s.offerJoin j).kept = s.kept := by
  unfold State.offerJoin; (repeat' split) <;> (try dsimp only) <;> (try simp only [kept_ite]) <;> (repeat' split) <;> simp

@[simp] theorem State.reformRequest_kept (s : State) (j : Join) : (s.reformRequest j).kept = s.kept := by
  unfold State.reformRequest; (repeat' split) <;> (try dsimp only) <;> (try simp only [kept_ite]) <;> (repeat' split) <;> simp

@[simp] theorem State.learnCables_kept (s : State) (node : Nat) (cables : List Cable) : (s.learnCables node cables).kept = s.kept := by
  unfold State.learnCables; (repeat' split) <;> (try dsimp only) <;> (try simp only [kept_ite]) <;> (repeat' split) <;> simp

@[simp] theorem State.acceptJoin_kept (s : State) (j : Join) : (s.acceptJoin j).kept = s.kept := by
  unfold State.acceptJoin; (repeat' split) <;> (try dsimp only) <;> (try simp only [kept_ite]) <;> (repeat' split) <;> simp

@[simp] theorem State.endJoin_kept (s : State) (st : Status) : (s.endJoin st).kept = s.kept := by
  unfold State.endJoin; (repeat' split) <;> (try dsimp only) <;> (try simp only [kept_ite]) <;> (repeat' split) <;> simp

@[simp] theorem State.renumber_kept (s : State) (n : Nat) : (s.renumber n).kept = s.kept := by
  unfold State.renumber; (repeat' split) <;> (try dsimp only) <;> (try simp only [kept_ite]) <;> (repeat' split) <;> simp

@[simp] theorem State.joinNow_kept (s : State) : (s.joinNow).kept = s.kept := by
  unfold State.joinNow; (repeat' split) <;> (try dsimp only) <;> (try simp only [kept_ite]) <;> (repeat' split) <;> simp

@[simp] theorem State.missMark_kept (s : State) : (s.missMark).kept = s.kept := by
  unfold State.missMark; (repeat' split) <;> (try dsimp only) <;> (try simp only [kept_ite]) <;> (repeat' split) <;> simp

@[simp] theorem State.hitMark_kept (s : State) (intervalNs : Nat) : (s.hitMark intervalNs).kept = s.kept := by
  unfold State.hitMark; (repeat' split) <;> (try dsimp only) <;> (try simp only [kept_ite]) <;> (repeat' split) <;> simp

@[simp] theorem State.acceptMark_kept (s : State) (errNs : Int) (intervalNs : Nat) : (s.acceptMark errNs intervalNs).kept = s.kept := by
  unfold State.acceptMark; (repeat' split) <;> (try dsimp only) <;> (try simp only [kept_ite]) <;> (repeat' split) <;> simp

@[simp] theorem State.leaveGroup_kept (s : State) : (s.leaveGroup).kept = s.kept := by
  unfold State.leaveGroup; (repeat' split) <;> (try dsimp only) <;> (try simp only [kept_ite]) <;> (repeat' split) <;> simp

@[simp] theorem State.unmask_kept (s : State) (n v : Nat) : (s.unmask n v).kept = s.kept := by
  unfold State.unmask; (repeat' split) <;> (try dsimp only) <;> (try simp only [kept_ite]) <;> (repeat' split) <;> simp

@[simp] theorem State.writeVec_kept (s : State) (n v field width value : Nat) : (s.writeVec n v field width value).kept = s.kept := by
  unfold State.writeVec; (repeat' split) <;> (try dsimp only) <;> (try simp only [kept_ite]) <;> (repeat' split) <;> simp

@[simp] theorem State.writeMsix_kept (s : State) (n o width value : Nat) : (s.writeMsix n o width value).kept = s.kept := by
  unfold State.writeMsix; (repeat' split) <;> (try dsimp only) <;> (try simp only [kept_ite]) <;> (repeat' split) <;> simp

theorem updAt_length {α : Type} (l : List α) (i : Nat) (f : α → α) : (updAt l i f).length = l.length := by
  unfold updAt
  split <;> simp

@[simp] theorem State.writeTail_kept (s : State) (i o width value : Nat) : (s.writeTail i o width value).kept = s.kept := by
  simp [State.kept, State.writeTail, updAt_length]

@[simp] theorem State.writeOverflow_kept (s : State) (n : Nat) : (s.writeOverflow n).kept = s.kept := by
  unfold State.writeOverflow; (repeat' split) <;> (try dsimp only) <;> (try simp only [kept_ite]) <;> (repeat' split) <;> simp

@[simp] theorem State.modDg_kept (s : State) (i : Nat) (g : DgCtx → DgCtx) : (s.modDg i g).kept = s.kept := by
  simp [State.kept, State.modDg, updAt_length]

@[simp] theorem State.onDg_kept {s : State} {n i : Nat} {go : DgCtx → State}
    (h : ∀ c, (go c).kept = s.kept) : (s.onDg n i go).kept = s.kept := by
  unfold State.onDg
  (repeat' split) <;> simp [h]

@[simp] theorem State.tunnelReset_kept (s : State) : (s.tunnelReset).kept = s.kept := by
  unfold State.tunnelReset; (repeat' split) <;> (try dsimp only) <;> (try simp only [kept_ite]) <;> (repeat' split) <;> simp

@[simp] theorem State.resetFn_kept (s : State) (n : Nat) (opcode : Option Nat) : (s.resetFn n opcode).kept = s.kept := by
  unfold State.resetFn; (repeat' split) <;> (try dsimp only) <;> (try simp only [kept_ite]) <;> (repeat' split) <;> simp

theorem State.freezeNs_kept {s u : State} {n : Ns} (h : s.freezeNs n = some u) : u.kept = s.kept := by
  unfold State.freezeNs at h
  dsimp only at h
  split at h
  · cases h
  · split at h <;> cases h <;> simp

@[simp] theorem State.startHoldoff_kept (s : State) : (s.startHoldoff).kept = s.kept := by
  unfold State.startHoldoff; (repeat' split) <;> (try dsimp only) <;> (try simp only [kept_ite]) <;> (repeat' split) <;> simp


theorem foldl_kept₁ {α β : Type} {f : State × β → α → State × β} (h : ∀ x a, (f x a).1.kept = x.1.kept) (l : List α) :
    ∀ x : State × β, (l.foldl f x).1.kept = x.1.kept := by
  induction l with
  | nil => intro x; rfl
  | cons a l ih => intro x; rw [List.foldl_cons, ih, h]

@[simp] theorem State.shockOne_kept (x : State × Bool) (n : Ns) : (State.shockOne x n).1.kept = x.1.kept := by
  unfold State.shockOne
  split
  · next h => exact State.freezeNs_kept h
  · simp

@[simp] theorem State.shockOneAt_kept (n : Nat) (x : State × Bool) (v : Ns) :
    (State.shockOneAt n x v).1.kept = x.1.kept := by
  unfold State.shockOneAt
  dsimp only
  split
  · simp
  · split <;> simp

@[simp] theorem State.shockTick_kept (s : State) : s.shockTick.kept = s.kept := by
  unfold State.shockTick
  dsimp only
  split
  · simpa using foldl_kept₁ State.shockOne_kept _ _
  · exact foldl_kept₁ State.shockOne_kept _ _

@[simp] theorem State.shockDrain_kept (s : State) : s.shockDrain.kept = s.kept := by
  unfold State.shockDrain
  split
  · rfl
  · exact foldl_kept₁ (State.shockOneAt_kept _) _ _

@[simp] theorem State.verifyFails_kept (s : State) (nsid k : Nat) (x : Slot) (st : Status) : (s.verifyFails nsid k x st).kept = s.kept := by
  unfold State.verifyFails; (repeat' split) <;> (try dsimp only) <;> (try simp only [kept_ite]) <;> (repeat' split) <;> simp

@[simp] theorem State.portsDown_kept (s : State) : (s.portsDown).kept = s.kept := by
  unfold State.portsDown; (repeat' split) <;> (try dsimp only) <;> (try simp only [kept_ite]) <;> (repeat' split) <;> simp

end Sys2Proof.Machine
end

