-- ==== Sys2Proof/Laws/Mailbox.lean ====
section
/-!
SUPPORT. What the one operation behind every mailbox command does: at a request's turn it runs the command's own part,
and a request that fails R401 is only answered.
-/

namespace Sys2Proof.Machine

open Sys2Proof

/-- The first function that a number picks, after a change of the functions it picks that keeps their numbers. -/
theorem find_updIf {g : Fn → Fn} {n : Nat} (hg : ∀ f, (g f).num = f.num) (l : List Fn) :
    (updIf (fun f => f.num == n) g l).find? (fun f => f.num == n) = (l.find? (fun f => f.num == n)).map g := by
  induction l with
  | nil => rfl
  | cons f l ih =>
    change List.find? _ ((if (f.num == n) = true then g f else f) :: updIf (fun f => f.num == n) g l) = _
    by_cases h : (f.num == n) = true <;> simp only [h, if_true, List.find?_cons, hg, ih, Bool.false_eq_true, if_false]
    rfl

/-- Function `n` after a change of function `n` that keeps its number. -/
theorem fn?_modFn {s : State} {n : Nat} {g : Fn → Fn} (hg : ∀ f, (g f).num = f.num) :
    (s.modFn n g).fn? n = (s.fn? n).map g := find_updIf hg s.fns

/-- At its turn a request is served. -/
theorem mbRun_next {s : State} {m : MbMeta} {n : Nat} {r : MbReq} (h : s.next m n r) (body : State → MbResult) :
    s.mbRun m n r body = s.serve m n r body := by
  obtain ⟨hl, hr⟩ := h
  unfold State.mbRun
  cases hf : s.fn? n with
  | none => simp [State.mbReady, hf] at hr
  | some f =>
    have hs : f.mb.state = 1 := by
      simp only [State.mbReady, hf, Bool.and_eq_true, beq_iff_eq] at hr
      exact hr.1.1.1
    simp [hl, hr, hs]

/-- In a mailbox that is not BUSY the message is accepted; it waits while firmware does not run or another request is
first. -/
theorem mbRun_accept {s : State} {m : MbMeta} {n : Nat} {r : MbReq} {f : Fn} (hf : s.fn? n = some f)
    (hl : s.fnLive n = true) (hs : f.mb.state ≠ 1)
    (hw : s.fwRuns = false ∨ (s.recs.goOrder ≠ [] ∧ s.recs.goOrder.head? ≠ some n)) (body : State → MbResult) :
    s.mbRun m n r body =
      s.accept n m.opcode r (Mem.putBytes f.mb.area 0 ((requestBytes m.opcode r).take (areaSize n))) := by
  unfold State.mbRun
  simp only [hf, hl, hs, if_false, not_true_eq_false]
  refine if_neg fun hc => ?_
  have hr : ∀ a, (s.accept n m.opcode r a).fwRuns = s.fwRuns := fun _ => rfl
  have hg : ∀ a, (s.accept n m.opcode r a).recs.goOrder = s.recs.goOrder ++ [n] := fun _ => rfl
  unfold State.mbReady at hc
  split at hc
  · simp only [hr, hg, Bool.and_eq_true, beq_iff_eq] at hc
    rcases hw with hw | ⟨hne, hh⟩
    · simp [hw] at hc
    · rw [List.head?_append_of_ne_nil _ hne] at hc
      exact hh hc.1.2
  · simp at hc

/-- A BUSY mailbox that holds another request ignores the message and counts it. -/
theorem mbRun_busy {s : State} {m : MbMeta} {n : Nat} {r : MbReq} {f : Fn} (hf : s.fn? n = some f)
    (hl : s.fnLive n = true) (hs : f.mb.state = 1) (hr : f.mb.request ≠ some (m.opcode, r)) (body : State → MbResult) :
    s.mbRun m n r body = s.violate n := by
  unfold State.mbRun
  simp [hf, hl, hs, State.mbReady, hr]

/-- At its turn a request that R401 passes runs its own part on the state in which it is taken. -/
theorem mbRun_turn {s : State} {m : MbMeta} {n : Nat} {r : MbReq} (h : s.turn m n r) (body : State → MbResult) :
    s.mbRun m n r body = (s.taken n).finish m n r body := by
  rw [mbRun_next h.1]
  simp [State.serve, h.2]

/-- A request that a check of R401 refuses is answered with the status of that check, and nothing else happens. -/
theorem mbRun_refused {s : State} {m : MbMeta} {n : Nat} {r : MbReq} {st : Status} (h : s.next m n r)
    (hc : (s.taken n).mbCheck m n r = some st) (body : State → MbResult) :
    s.mbRun m n r body = (s.taken n).stage n m.opcode r.tag st [] none := by
  rw [mbRun_next h]
  simp [State.serve, hc]

/-- A basic command's own part, done. -/
theorem finish_basic {s : State} {m : MbMeta} {n : Nat} {r : MbReq} {body : State → MbResult} {v : List Nat} {t : State}
    (h : body s = .basic v t) : s.finish m n r body = t.answer m n r v := by
  simp [State.finish, h, State.answer]

/-- A persistent change, recorded. -/
theorem finish_persist {s : State} {m : MbMeta} {n : Nat} {r : MbReq} {body : State → MbResult} {v : List Nat} {t : State}
    (h : body s = .persist v t) : s.finish m n r body = t.answerSealed m n r v s.hz.epoch := by
  simp [State.finish, h, State.answerSealed]

/-- A long command, begun. -/
theorem finish_long {s : State} {m : MbMeta} {n : Nat} {r : MbReq} {body : State → MbResult} {t : State}
    (h : body s = .long t) : s.finish m n r body = t.answerLong m n r s.recs.nextLong := by
  simp [State.finish, h, State.answerLong]

/-- A command whose reply follows a later event. -/
theorem finish_later {s : State} {m : MbMeta} {n : Nat} {r : MbReq} {body : State → MbResult} {t : State}
    (h : body s = .later t) : s.finish m n r body = t := by
  simp [State.finish, h]

/-- A command that its own rules refuse. -/
theorem finish_refuse {s : State} {m : MbMeta} {n : Nat} {r : MbReq} {body : State → MbResult} {st : Status}
    {v : List Nat} (h : body s = .refuse st v) : s.finish m n r body = s.stage n m.opcode r.tag st v none := by
  simp [State.finish, h]

/-- A long command's own part while fewer than eight are open. -/
theorem long_free {s : State} {m : MbMeta} {n : Nat} (h : s.longsOpen n < 8) (go : State → State) :
    s.long m n go = .long (go (s.startLong n m.opcode)) := by
  simp [State.long, Nat.not_le.mpr h]

end Sys2Proof.Machine
end

