-- ==== Sys2Proof/Laws/Memory.lean ====
section
/-!
SUPPORT. What the operations on cells of memory do (R265): each keeps the canonical form, a write is read back, and every
other address reads as before.
-/

namespace Sys2Proof.Machine

open Sys2Proof

/-- The cells of bytes from an address on lie in their span. -/
theorem cellsOf_mem : ∀ {bs : Data} {a : Nat} {c : Host.Cell}, c ∈ cellsOf a bs →
    a ≤ c.1 ∧ c.1 < a + bs.length ∧ c.2 = bs.getD (c.1 - a) 0 ∧ c.2 ≠ 0
  | [], _, _, h => by cases h
  | b :: bs, a, c, h => by
    have tail : c ∈ cellsOf (a + 1) bs → _ := fun h => by
      obtain ⟨h1, h2, h3, h4⟩ := cellsOf_mem h
      refine (⟨by omega, by simp only [List.length_cons]; omega, ?_, h4⟩ : a ≤ c.1 ∧ c.1 < a + (b :: bs).length ∧
        c.2 = (b :: bs).getD (c.1 - a) 0 ∧ c.2 ≠ 0)
      have : c.1 - a = c.1 - (a + 1) + 1 := by omega
      simpa [this] using h3
    unfold cellsOf at h
    split at h
    · exact tail h
    · next hb =>
      rcases List.mem_cons.1 h with rfl | h
      · exact ⟨by omega, by simp, by simp, hb⟩
      · exact tail h

theorem cellsOf_ok : ∀ (bs : Data) (a : Nat), memOk (cellsOf a bs)
  | [], _ => ⟨List.Pairwise.nil, fun _ h => by cases h⟩
  | b :: bs, a => by
    refine ⟨?_, fun c h => (cellsOf_mem h).2.2.2⟩
    unfold cellsOf
    split
    · exact (cellsOf_ok bs _).1
    · exact List.Pairwise.cons (fun c h => by have := (cellsOf_mem h).1; dsimp only; omega) (cellsOf_ok bs _).1

/-- Bytes written keep the canonical form. -/
theorem memWrite_ok {m : List Host.Cell} (h : memOk m) (a : Nat) (bs : Data) : memOk (memWrite m a bs) := by
  refine ⟨?_, fun c hc => ?_⟩
  · unfold memWrite
    refine List.pairwise_append.2 ⟨List.pairwise_append.2 ⟨h.1.filter _, (cellsOf_ok bs a).1, ?_⟩, h.1.filter _, ?_⟩
    · intro x hx y hy
      have hx := of_decide_eq_true (List.mem_filter.1 hx).2
      have := (cellsOf_mem hy).1
      omega
    · intro x hx y hy
      have hy := of_decide_eq_true (List.mem_filter.1 hy).2
      rcases List.mem_append.1 hx with hx | hx
      · have := of_decide_eq_true (List.mem_filter.1 hx).2
        omega
      · have := (cellsOf_mem hx).2.1
        omega
  · unfold memWrite at hc
    rcases List.mem_append.1 hc with hc | hc
    · rcases List.mem_append.1 hc with hc | hc
      · exact h.2 c (List.mem_of_mem_filter hc)
      · exact (cellsOf_mem hc).2.2.2
    · exact h.2 c (List.mem_of_mem_filter hc)

/-- Zeros written keep the canonical form. -/
theorem memZero_ok {m : List Host.Cell} (h : memOk m) (a n : Nat) : memOk (memZero m a n) :=
  ⟨h.1.filter _, fun c hc => h.2 c (List.mem_of_mem_filter hc)⟩

/-- Where no cell has the address, it reads 0. -/
theorem byteAt_absent {m : List Host.Cell} {k : Nat} (h : ∀ c ∈ m, c.1 ≠ k) : byteAt m k = 0 := by
  unfold byteAt
  rw [List.find?_eq_none.2 (by simpa using h)]
  rfl

/-- What a canonical memory lists is what it reads. -/
theorem byteAt_mem {m : List Host.Cell} (h : memOk m) {c : Host.Cell} (hc : c ∈ m) : byteAt m c.1 = c.2 := by
  induction m with
  | nil => cases hc
  | cons x m ih =>
    unfold byteAt
    rcases List.mem_cons.1 hc with rfl | hc
    · simp
    · have hlt := (List.pairwise_cons.1 h.1).1 c hc
      have hne : (x.1 == c.1) = false := by simp; omega
      rw [List.find?_cons, hne]
      exact ih ⟨(List.pairwise_cons.1 h.1).2, fun y hy => h.2 y (List.mem_cons_of_mem _ hy)⟩ hc

/-- Two memories that list the same cells at an address read the same there. -/
theorem byteAt_congr {m w : List Host.Cell} (hm : memOk m) (hw : memOk w) {k : Nat}
    (h : ∀ b, (k, b) ∈ m ↔ (k, b) ∈ w) : byteAt m k = byteAt w k := by
  by_cases hx : ∃ c ∈ m, c.1 = k
  · obtain ⟨⟨x, b⟩, hc, rfl⟩ := hx
    rw [byteAt_mem hm hc, byteAt_mem hw ((h b).1 hc)]
  · have hx' : ∀ c ∈ m, c.1 ≠ k := fun c hc e => hx ⟨c, hc, e⟩
    refine (byteAt_absent hx').trans (byteAt_absent fun c hc e => ?_).symm
    obtain ⟨x, b⟩ := c
    subst e
    exact hx ⟨(x, b), (h b).2 hc, rfl⟩

/-- An address outside the span of a write reads as before. -/
theorem byteAt_memWrite_other {m : List Host.Cell} (h : memOk m) {a k : Nat} {bs : Data} (hk : k < a ∨ a + bs.length ≤ k) :
    byteAt (memWrite m a bs) k = byteAt m k := by
  refine byteAt_congr (memWrite_ok h a bs) h fun b => ?_
  have hn : (k, b) ∉ cellsOf a bs := fun hc => by
    have := cellsOf_mem hc
    dsimp only at this
    omega
  simp only [memWrite, List.mem_append, List.mem_filter, decide_eq_true_eq, hn, or_false]
  constructor
  · rintro (⟨h, -⟩ | ⟨h, -⟩) <;> exact h
  · intro hb
    rcases hk with hk | hk
    · exact .inl ⟨hb, hk⟩
    · exact .inr ⟨hb, hk⟩

/-- A byte that is not 0 is among the cells of the bytes it is one of. -/
theorem cellsOf_get : ∀ {bs : Data} {a i : Nat}, i < bs.length → bs.getD i 0 ≠ 0 → (a + i, bs.getD i 0) ∈ cellsOf a bs
  | b :: bs, a, i, hi, h0 => by
    unfold cellsOf
    cases i with
    | zero =>
      split
      · next hb => exact absurd (by simpa using hb) h0
      · simp
    | succ i =>
      have := cellsOf_get (a := a + 1) (i := i) (by simpa using hi) (by simpa using h0)
      rw [show a + 1 + i = a + (i + 1) by omega] at this
      split
      · simpa using this
      · exact List.mem_cons_of_mem _ (by simpa using this)

/-- What was written is read back. -/
theorem byteAt_memWrite {m : List Host.Cell} (h : memOk m) {a i : Nat} {bs : Data} (hi : i < bs.length) :
    byteAt (memWrite m a bs) (a + i) = bs.getD i 0 := by
  by_cases h0 : bs.getD i 0 = 0
  · rw [h0]
    refine byteAt_absent fun c hc e => ?_
    simp only [memWrite, List.mem_append, List.mem_filter, decide_eq_true_eq] at hc
    rcases hc with (⟨-, hc⟩ | hc) | ⟨-, hc⟩
    · omega
    · obtain ⟨-, -, hv, hz⟩ := cellsOf_mem hc
      rw [e, show a + i - a = i by omega] at hv
      exact hz (hv.trans h0)
    · omega
  · have hc : (a + i, bs.getD i 0) ∈ memWrite m a bs :=
      List.mem_append_left _ (List.mem_append_right _ (cellsOf_get hi h0))
    exact byteAt_mem (memWrite_ok h a bs) hc

/-- The zeroed span reads 0, every other address as before. -/
theorem byteAt_memZero {m : List Host.Cell} (h : memOk m) (a n k : Nat) :
    byteAt (memZero m a n) k = if a ≤ k ∧ k < a + n then 0 else byteAt m k := by
  split
  · next hk =>
    refine byteAt_absent fun c hc e => ?_
    have := (List.mem_filter.1 hc).2
    simp only [Bool.or_eq_true, decide_eq_true_eq] at this
    omega
  · next hk =>
    refine byteAt_congr (memZero_ok h a n) h fun b => ?_
    simp only [memZero, List.mem_filter, Bool.or_eq_true, decide_eq_true_eq]
    exact ⟨fun x => x.1, fun x => ⟨x, by omega⟩⟩

end Sys2Proof.Machine
end

