-- ==== Sys2Proof/Laws/Sound.lean ====
section
/-!
SUPPORT. What every command keeps: the queue, the fuses, canonical message areas and 16 digest contexts. The
operations that do write an area, or drop and add functions, are the ones below; all others keep everything (KeptOps
to KeptRest).
-/

namespace Sys2Proof.Machine

open Sys2Proof

/-! ### Message areas (R398) -/

/-- A canonical form from a higher address on is one from a lower address on. -/
theorem Mem.wfFrom_mono {lo hi : Nat} (h : lo ≤ hi) : ∀ m, Mem.wfFrom hi m = true → Mem.wfFrom lo m = true
  | [], _ => rfl
  | (a, b) :: m, hm => by
    simp only [Mem.wfFrom, Bool.and_eq_true, decide_eq_true_eq] at hm ⊢
    exact ⟨⟨Nat.le_trans h hm.1.1, hm.1.2⟩, hm.2⟩

/-- A byte written at or above `lo` keeps the canonical form from `lo` on. -/
theorem Mem.put_wfFrom {a : Nat} {b : Byte} :
    ∀ {m : List Host.Cell} {lo : Nat}, lo ≤ a → Mem.wfFrom lo m = true → Mem.wfFrom lo (Mem.put m a b) = true
  | [], lo, h, _ => by
    unfold Mem.put
    split
    · rfl
    · next hb =>
      simp only [Mem.wfFrom, Bool.and_eq_true, decide_eq_true_eq, and_true]
      exact ⟨h, hb⟩
  | (x, v) :: m, lo, h, hm => by
    have hm' := hm
    simp only [Mem.wfFrom, Bool.and_eq_true, decide_eq_true_eq] at hm
    obtain ⟨⟨hx, hv⟩, hr⟩ := hm
    unfold Mem.put
    split
    · next hax =>
      split
      · exact hm'
      · next hb => simp only [Mem.wfFrom, Bool.and_eq_true, decide_eq_true_eq]; exact ⟨⟨h, hb⟩, ⟨⟨hax, hv⟩, hr⟩⟩
    · split
      · next hax =>
        subst hax
        split
        · exact Mem.wfFrom_mono (by omega) m hr
        · next hb => simp only [Mem.wfFrom, Bool.and_eq_true, decide_eq_true_eq]; exact ⟨⟨h, hb⟩, hr⟩
      · simp only [Mem.wfFrom, Bool.and_eq_true, decide_eq_true_eq]
        exact ⟨⟨hx, hv⟩, Mem.put_wfFrom (by omega) hr⟩

/-- Bytes written keep the canonical form. -/
theorem Mem.putBytes_wf : ∀ (bs : Data) (m : List Host.Cell) (a : Nat), Mem.wf m = true → Mem.wf (Mem.putBytes m a bs) = true
  | [], _, _, h => h
  | _ :: bs, m, a, h => Mem.putBytes_wf bs _ _ (Mem.put_wfFrom (Nat.zero_le a) h)

/-- A byte that was written is read back. -/
theorem Mem.read_put_same (a : Nat) (b : Byte) : ∀ {m : List Host.Cell} {lo : Nat}, Mem.wfFrom lo m = true →
    Mem.read (Mem.put m a b) a = b
  | [], _, _ => by
    unfold Mem.put
    split
    · next h => simp [Mem.read, h]
    · simp [Mem.read]
  | (x, v) :: m, lo, hm => by
    simp only [Mem.wfFrom, Bool.and_eq_true, decide_eq_true_eq] at hm
    have low : ∀ {m : List Host.Cell} {lo : Nat}, a < lo → Mem.wfFrom lo m = true → m.find? (fun c => c.1 == a) = none := by
      intro m
      induction m with
      | nil => intros; rfl
      | cons c m ih =>
        intro lo hlt h
        simp only [Mem.wfFrom, Bool.and_eq_true, decide_eq_true_eq] at h
        have : (c.1 == a) = false := by simp; omega
        simp only [List.find?_cons, this]
        exact ih (by omega : a < c.1 + 1) h.2
    unfold Mem.put
    split
    · next hax =>
      split
      · next hb =>
        have : (x == a) = false := by simp; omega
        simp [Mem.read, List.find?_cons, this, low (by omega : a < x + 1) hm.2, hb]
      · simp [Mem.read]
    · split
      · next hax =>
        subst hax
        split
        · next hb => simp [Mem.read, low (by omega : a < a + 1) hm.2, hb]
        · simp [Mem.read]
      · next h1 h2 =>
        have : (x == a) = false := by simp; omega
        simpa [Mem.read, List.find?_cons, this] using Mem.read_put_same a b hm.2

/-- A byte written leaves every other address as it reads. -/
theorem Mem.read_put_other {a k : Nat} (b : Byte) (h : k ≠ a) : ∀ m : List Host.Cell, Mem.read (Mem.put m a b) k = Mem.read m k
  | [] => by
    unfold Mem.put
    split
    · rfl
    · simp [Mem.read, Ne.symm h]
  | (x, v) :: m => by
    unfold Mem.put
    split
    · split
      · rfl
      · simp [Mem.read, Ne.symm h]
    · split
      · next hax =>
        subst hax
        split
        · simp [Mem.read, Ne.symm h]
        · simp [Mem.read, Ne.symm h]
      · by_cases hx : x = k
        · simp [Mem.read, hx]
        · simpa [Mem.read, hx] using Mem.read_put_other b h m

/-! ### What every command keeps -/

/-- `t` holds the queue of `s`, no fuse of `s` went back, and a good state stayed good. -/
def State.sound (s t : State) : Prop :=
  t.pending = s.pending ∧ s.fw.svn ≤ t.fw.svn ∧ (s.fw.debugDisabled = true → t.fw.debugDisabled = true) ∧
    (∀ k : Nat, s.fw.revoked[k]? = some true → t.fw.revoked[k]? = some true) ∧ (s.good → t.good)

theorem State.sound_refl (s : State) : s.sound s := ⟨rfl, Nat.le_refl _, id, fun _ => id, id⟩

theorem State.sound.trans {s t u : State} (h : s.sound t) (k : t.sound u) : s.sound u :=
  ⟨k.1.trans h.1, Nat.le_trans h.2.1 k.2.1, fun x => k.2.2.1 (h.2.2.1 x), fun i x => k.2.2.2.1 i (h.2.2.2.1 i x),
    fun x => k.2.2.2.2 (h.2.2.2.2 x)⟩

/-- The areas, where two states have the same ones. -/
theorem State.areasOk_iff (s : State) : s.areasOk ↔ ∀ m ∈ s.fns.map (fun f => f.mb.area), Mem.wf m = true := by
  simp [State.areasOk]

/-- A state that keeps what `kept` reads is sound. -/
theorem State.sound_of_kept {s t : State} (h : t.kept = s.kept) : s.sound t := by
  simp only [State.kept, Prod.mk.injEq] at h
  obtain ⟨h1, h2, h3, h4, h5, h6, h7⟩ := h
  refine ⟨h1, Nat.le_of_eq h4.symm, fun x => h5.trans x, fun k x => by rw [h3]; exact x, fun x => ⟨?_, ?_⟩⟩
  · rw [State.areasOk_iff, h2, ← State.areasOk_iff]; exact x.1
  · exact h6.trans x.2

/-- A change of one function is sound where it keeps the area canonical. -/
theorem State.sound_modFn {s : State} {n : Nat} {g : Fn → Fn}
    (h : ∀ f, Mem.wf f.mb.area = true → Mem.wf (g f).mb.area = true) : s.sound (s.modFn n g) := by
  refine ⟨rfl, Nat.le_refl _, id, fun _ => id, fun x => ⟨fun f hf => ?_, x.2⟩⟩
  simp only [State.modFn, updIf, List.mem_map] at hf
  obtain ⟨y, hy, rfl⟩ := hf
  split
  · exact h y (x.1 y hy)
  · exact x.1 y hy

/-- Other functions in place of those there are: sound where every area is canonical. -/
theorem State.sound_fns {s : State} {fs : List Fn} (h : ∀ f ∈ fs, f ∈ s.fns ∨ Mem.wf f.mb.area = true) :
    s.sound { s with fns := fs } :=
  ⟨rfl, Nat.le_refl _, id, fun _ => id, fun x => ⟨fun f hf => (h f hf).elim (x.1 f) id, x.2⟩⟩

/-- A function that is new has an empty area. -/
@[simp] theorem Fn.fresh_area (n : Nat) (st : FnState) (g : Grant) : (Fn.fresh n st g).mb.area = [] := rfl

theorem State.accept_sound {s : State} {n opcode : Nat} {r : MbReq} {area : List Host.Cell}
    (h : s.good → Mem.wf area = true) : s.sound (s.accept n opcode r area) := by
  refine ⟨rfl, Nat.le_refl _, id, fun _ => id, fun x => ⟨fun f hf => ?_, x.2⟩⟩
  simp only [State.accept, State.modRecs, State.modFn, updIf, List.mem_map] at hf
  obtain ⟨y, hy, rfl⟩ := hf
  split
  · exact h x
  · exact x.1 y hy

theorem State.clearFn_sound (s : State) (n : Nat) (st : FnState) (g : Grant) : s.sound (s.clearFn n st g) := by
  unfold State.clearFn
  extract_lets s1 s2
  have h : s2.kept = s.kept := by simp [s2, s1]
  exact (State.sound_of_kept h).trans (State.sound_modFn fun f _ => rfl)

theorem State.dropFn_sound (s : State) (n : Nat) : s.sound (s.dropFn n) := by
  unfold State.dropFn
  extract_lets mem s1 s2 s3 s4
  have h : s4.kept = s.kept := by simp [s4, s3, s2, s1]
  exact (State.sound_of_kept h).trans (State.sound_modFn fun f _ => rfl)

theorem State.completeFn_sound (s : State) (n : Nat) : s.sound (s.completeFn n) := by
  unfold State.completeFn
  split
  · exact s.sound_refl
  · next f _ =>
    extract_lets s1 s2
    have h : s.sound s2 := by
      refine State.sound.trans (s.clearFn_sound n .active f.grant) ?_
      simp only [s2]
      split
      · exact State.dropFn_sound _ _
      · exact State.sound_refl _
    clear_value s2
    exact h.trans (State.sound_of_kept (foldl_kept (fun _ _ => by simp) _ _))

theorem State.restart_sound (s : State) (powerOn : Bool) : s.sound (s.restart powerOn) :=
  ⟨rfl, Nat.le_refl _, id, fun _ => id, fun _ => ⟨fun f hf => by
    simp only [State.restart, List.mem_singleton] at hf
    subst hf
    rfl, rfl⟩⟩

theorem State.bootRom_sound (s : State) : s.sound s.bootRom := by
  unfold State.bootRom
  split
  · refine State.sound_of_kept (State.modFw_kept ?_ ?_ ?_) <;> intro f <;> split <;> rfl
  · exact State.sound_fns fun f hf => by cases hf

theorem State.resetNow_sound (s : State) : s.sound s.resetNow := by
  refine (s.restart_sound false).trans (State.sound.trans ?_ (State.bootRom_sound _))
  split
  · exact State.sound_of_kept (State.nsRestored_kept _)
  · exact State.sound_refl _

theorem State.resetStopped_sound (s : State) : s.sound s.resetStopped :=
  (State.sound_of_kept s.abortCreated_kept).trans (State.resetNow_sound _)

theorem State.afterDrain_sound (s : State) : s.sound s.afterDrain := by
  unfold State.afterDrain
  split
  · exact (State.sound_of_kept (by simp)).trans (State.restart_sound _ _)
  · split
    · exact s.resetStopped_sound
    · exact s.sound_refl

theorem State.deliverReply_sound (s : State) (n : Nat) (r : Reply) : s.sound (s.deliverReply n r) := by
  unfold State.deliverReply
  refine State.sound.trans (State.sound_modFn fun f h => ?_) (State.sound_of_kept (State.msix_kept _ _ _))
  exact Mem.putBytes_wf _ _ _ h

theorem State.writeBar0_sound (s : State) (n o width value : Nat) : s.sound (s.writeBar0 n o width value) := by
  unfold State.writeBar0
  (repeat' split) <;>
    first
    | exact State.sound_modFn fun _ h => Mem.putBytes_wf _ _ _ h
    | exact State.sound_of_kept (by simp)

/-! ### Mailbox commands -/

/-- How a command's own part ends keeps what a command keeps. -/
def MbResult.sound (s : State) : MbResult → Prop
  | .refuse _ _ => True
  | .basic _ t => s.sound t
  | .persist _ t => s.sound t
  | .long t => s.sound t
  | .later t => s.sound t

theorem State.long_sound {s : State} {m : MbMeta} {n : Nat} {go : State → State} (h : ∀ t : State, t.sound (go t)) :
    (s.long m n go).sound s := by
  unfold State.long
  split
  · trivial
  · exact (State.sound_of_kept (t := s.startLong n m.opcode) (by simp)).trans (h _)

theorem State.finish_sound {s : State} {m : MbMeta} {n : Nat} {r : MbReq} {body : State → MbResult}
    (h : (body s).sound s) : s.sound (s.finish m n r body) := by
  unfold State.finish
  revert h
  cases body s <;> intro h
  · exact State.sound_of_kept (by simp)
  all_goals exact State.sound.trans h (State.sound_of_kept (by simp))

theorem State.serve_sound {s : State} {m : MbMeta} {n : Nat} {r : MbReq} {body : State → MbResult}
    (h : ∀ t, (body t).sound t) : s.sound (s.serve m n r body) := by
  unfold State.serve
  extract_lets s1
  have h1 : s.sound s1 := State.sound_of_kept (by simp [s1])
  split
  · exact h1.trans (State.sound_of_kept (by simp))
  · exact h1.trans (State.finish_sound (h _))

/-- A mailbox command is sound where its own part is. -/
theorem State.mbRun_sound {s : State} {m : MbMeta} {n : Nat} {r : MbReq} {body : State → MbResult}
    (h : ∀ t, (body t).sound t) : s.sound (s.mbRun m n r body) := by
  unfold State.mbRun
  split
  · exact s.sound_refl
  · next f hf =>
    have ha : s.sound (s.accept n m.opcode r
        (Mem.putBytes f.mb.area 0 ((requestBytes m.opcode r).take (areaSize n)))) :=
      State.accept_sound fun x => Mem.putBytes_wf _ _ _ (x.1 f (List.mem_of_find?_eq_some hf))
    extract_lets s1
    split
    · split
      · exact State.serve_sound h
      · exact State.sound_of_kept (by simp)
    · split
      · split
        · exact State.serve_sound h
        · split
          · exact s.sound_refl
          · exact State.sound_of_kept (by simp)
      · split
        · exact State.sound.trans ha (State.serve_sound h)
        · exact ha

end Sys2Proof.Machine
end

