-- ==== Sys2Proof/WellFormed.lean ====
section
/-!
DEFINITION. Which commands are well formed: every operand lies in the range of the field that
carries it. A command that is not well formed stands for no access or event of the spec.
-/

namespace Sys2Proof

/-- A function number (R350). -/
def Wf.fn (n : Nat) : Bool := decide (n < 256)
/-- A Zelim port, Z0 to Z2. -/
def Wf.port (n : Nat) : Bool := decide (n < 3)
/-- A digest context (R249). -/
def Wf.ctx (n : Nat) : Bool := decide (n < 16)
/-- An Anvil or Squall engine (R9). -/
def Wf.engine (n : Nat) : Bool := decide (n < 64)
/-- A pipe of a Squall engine: 0 compress, 1 decompress (R226). -/
def Wf.pipe (n : Nat) : Bool := decide (n < 2)
/-- A global die index (R17). -/
def Wf.die (n : Nat) : Bool := decide (n < 256)
/-- A flash channel (R9). -/
def Wf.channel (n : Nat) : Bool := decide (n < 16)
/-- A local queue number: at most 256 pairs (R353, R365). -/
def Wf.qid (n : Nat) : Bool := decide (n < 256)
/-- A command identifier (R372). -/
def Wf.cid (n : Nat) : Bool := decide (n < 65536)
/-- A Halo table ID (R221). -/
def Wf.table (n : Nat) : Bool := decide (n < 256)
/-- A namespace ID field (R73). -/
def Wf.nsid (n : Nat) : Bool := decide (n < 4294967296)
/-- A 32-bit field. -/
def Wf.word (n : Nat) : Bool := decide (n < 4294967296)
/-- A 64-bit field. -/
def Wf.dword (n : Nat) : Bool := decide (n < 18446744073709551616)
/-- A stream number (R78). -/
def Wf.stream (n : Nat) : Bool := decide (n < 4096)
/-- A node ID (R313). -/
def Wf.node (n : Nat) : Bool := decide (n < 65536)
/-- A group tick number: 48 bits (R68). -/
def Wf.gtick (n : Nat) : Bool := decide (n < 281474976710656)
/-- A DG_CTL.ALG value (R455). -/
def Wf.alg (n : Nat) : Bool := decide (n < 16)
/-- A DG_CTL.TAIL_BYTES value (R455). -/
def Wf.tail (n : Nat) : Bool := decide (n < 8)
/-- An image slot (R95). -/
def Wf.imgSlot (n : Nat) : Bool := decide (n < 4)
/-- A request as the message area holds one (R398, R399). -/
def Wf.req (r : MbReq) : Bool :=
  decide (r.len < 65536) && decide (r.tag < 65536) && decide (r.hdrRsv < 2 ^ 80) &&
    decide (r.payload < 2 ^ (8 * r.len))
/-- A submission entry whose fields fit R373. -/
def Wf.entry (e : SqEntry) : Bool :=
  decide (e.opc < 256) && decide (e.flags < 256) && Wf.cid e.cid && Wf.nsid e.nsid &&
    Wf.dword e.addr && Wf.word e.len && decide (e.stream < 65536) && decide (e.timeout < 65536) &&
    Wf.dword e.dptr && Wf.dword e.mptr && decide (e.lcount < 65536) && decide (e.rsv < 2 ^ 176)
/-- A record header whose fields fit R79. -/
def Wf.header (h : RecHeader) : Bool :=
  Wf.word h.declLen && decide (h.stream < 65536) && decide (h.rtype < 256) &&
    decide (h.rflags < 256) && Wf.dword h.epoch && Wf.word h.tag && decide (h.srcNode < 65536) &&
    decide (h.rsv < 65536) && Wf.word h.payCrc && Wf.word h.hdrCrc
/-- A buffer list entry whose fields fit R374. -/
def Wf.buf (b : BufEntry) : Bool := Wf.dword b.addr && Wf.word b.len && Wf.word b.rsv
/-- Protection information whose fields fit R195. -/
def Wf.pi (p : PiField) : Bool := Wf.dword p.guard && Wf.word p.app && Wf.dword p.ref
/-- An exec block whose fields fit R284. -/
def Wf.execBlock (b : ExecBlock) : Bool :=
  decide (b.module < 65536) && decide (b.engines < 65536) && Wf.dword b.argAddr &&
    Wf.dword b.resultAddr && Wf.word b.resultLen
/-- A channel's report: CH0 to CH15, at most 16 dies, each at chip enable 0 to 7 and LUN 0 to 3 (R133). -/
def Wf.report (r : ChannelReport) : Bool :=
  Wf.channel r.ch && decide (r.dies.length ≤ 16) && r.dies.all fun d => decide (d.ce < 8) && decide (d.lun < 4)
/-- What an engine ran: 32 registers of each file, and an address in each pc (R263). -/
def Wf.run (r : ThreadRun) : Bool :=
  r.x.length == 32 && r.f.length == 32 && r.v.length == 32 && Wf.dword r.pc && r.stores.all fun x => Wf.dword x.1
/-- A thread of an engine, and what it ran. -/
def Wf.caller (c : Caller) : Bool := Wf.engine c.engine && Wf.run c.run
/-- A file of at most 4 GiB, its length a 32-bit field of the command that names it. -/
def Wf.bytes (b : Data) : Bool := Wf.word b.length
/-- A firmware file (R413). -/
def Wf.fwFile (f : FwFile) : Bool := Wf.bytes f.bytes
/-- A cable between two ports (R315). -/
def Wf.cable (c : Cable) : Bool := Wf.node c.node && Wf.port c.port && Wf.node c.peer
/-- A member of a membership (R304). -/
def Wf.member (m : Member) : Bool := Wf.node m.node
/-- What a read was fetching. -/
def Wf.dma : DmaTarget → Bool
  | .command f q c => Wf.fn f && Wf.qid q && Wf.cid c
  | .entry f q => Wf.fn f && Wf.qid q
/-- A frame whose fields fit R303. -/
def Wf.frame (f : Frame) : Bool :=
  decide (f.typ < 256) && decide (f.len < 65536) && Wf.node f.src && Wf.node f.dst
/-- The namespace fields fit R73. -/
def Wf.ns (n : NsFields) : Bool := Wf.nsid n.nsid && decide (n.cls < 256) && Wf.dword n.capacity
/-- A reference to a waiting command or record. -/
def Wf.ref : CmdRef → Bool
  | .host f q c => Wf.fn f && Wf.qid q && Wf.cid c
  | .link p _ => Wf.port p

/-- Every operand of the command fits the field that carries it. -/
def Instr.wf : Instr → Bool
  | .resetNRelease _ => true
  | .channelBringup reports => reports.all Wf.report
  | .recovery _ => true
  | .thermalSensorSample _ => true
  | .supplyInhibit _ => true
  | .tickInEdge _ _ => true
  | .tickBoundary _ => true
  | .sealInstant _ => true
  | .lateEpochSeal _ => true
  | .landingProgramDone _ _ _ => true
  | .landingProgramFail _ _ _ => true
  | .classificationResult r => Wf.ref r
  | .segmentCompressDone nsid stream _ _ _ => Wf.nsid nsid && Wf.stream stream
  | .sqSubmissionFetch fn entries => Wf.fn fn && entries.all Wf.entry
  | .dataFetchDone fn qid cid _ pi => Wf.fn fn && Wf.qid qid && Wf.cid cid && pi.all Wf.pi
  | .dmaReadError t => Wf.dma t
  | .completionWriteRelease fn => Wf.fn fn
  | .msixCoalesceExpiry fn qid => Wf.fn fn && Wf.qid qid
  | .queueDeleteDone fn qid => Wf.fn fn && Wf.qid qid
  | .read fn qid cid bufs => Wf.fn fn && Wf.qid qid && Wf.cid cid && bufs.all Wf.buf
  | .write fn qid cid bufs => Wf.fn fn && Wf.qid qid && Wf.cid cid && bufs.all Wf.buf
  | .append fn qid cid hdr bufs => Wf.fn fn && Wf.qid qid && Wf.cid cid && Wf.header hdr && bufs.all Wf.buf
  | .discard fn qid cid => Wf.fn fn && Wf.qid qid && Wf.cid cid
  | .flush fn qid cid => Wf.fn fn && Wf.qid qid && Wf.cid cid
  | .exec fn qid cid blk => Wf.fn fn && Wf.qid qid && Wf.cid cid && Wf.execBlock blk
  | .sqTailDoorbellWrite fn qid value => Wf.fn fn && Wf.qid qid && Wf.dword value
  | .cqHeadDoorbellWrite fn qid value => Wf.fn fn && Wf.qid qid && Wf.dword value
  | .go fn => Wf.fn fn
  | .mailboxReply fn => Wf.fn fn
  | .ctrlReset key => Wf.dword key
  | .intStatusW1c fn bits => Wf.fn fn && Wf.dword bits
  | .intEvqHeadWrite fn value => Wf.fn fn && Wf.dword value
  | .claim fn ctx => Wf.fn fn && Wf.ctx ctx
  | .release fn ctx => Wf.fn fn && Wf.ctx ctx
  | .start fn ctx alg => Wf.fn fn && Wf.ctx ctx && Wf.alg alg
  | .final fn ctx tailBytes => Wf.fn fn && Wf.ctx ctx && Wf.tail tailBytes
  | .dgDataWrite fn ctx _ value => Wf.fn fn && Wf.ctx ctx && Wf.dword value
  | .dgBlockDone ctx => Wf.ctx ctx
  | .dgDigestDone ctx => Wf.ctx ctx
  | .dgResultRead fn ctx => Wf.fn fn && Wf.ctx ctx
  | .splitReadLatch fn _ => Wf.fn fn
  | .recordLatchRead fn _ => Wf.fn fn
  | .registerWrite fn _ _ value => Wf.fn fn && Wf.dword value
  | .flr fn => Wf.fn fn
  | .fnResetComplete fn => Wf.fn fn
  | .fnMemoryZeroingDone fn => Wf.fn fn
  | .busMasterEnableClear fn => Wf.fn fn
  | .busMasterEnableSet fn => Wf.fn fn
  | .d3hotEntry fn => Wf.fn fn
  | .d3hotExit fn => Wf.fn fn
  | .usb4LinkTrained _ _ => true
  | .laneBondRetry _ => true
  | .fwRestartDone _ => true
  | .segmentLoadDone nsid _ _ => Wf.nsid nsid
  | .segmentWriteback _ => true
  | .fold _ => true
  | .gcCollect _ _ => true
  | .consolidation nsid _ _ => Wf.nsid nsid
  | .directoryCheckpoint _ => true
  | .moveProgramDone _ => true
  | .moveProgramFail _ => true
  | .blockErase _ => true
  | .eraseDone _ => true
  | .eraseFail _ => true
  | .decodeResult _ _ nsid _ key _ _ => Wf.nsid nsid && Wf.dword key
  | .ladderStep _ _ => true
  | .dieTempRead _ => true
  | .recalibration die _ _ _ => Wf.die die
  | .interfaceRetrain ch _ _ => Wf.channel ch
  | .verifyScan _ _ _ _ => true
  | .verifyScanEnd _ => true
  | .patrolInterval _ _ => true
  | .dieReadyTimeout die => Wf.die die
  | .parityRowEccError _ _ => true
  | .rebuildWalk _ _ _ => true
  | .resyncFull _ _ => true
  | .stripeCheck _ _ => true
  | .reshapeCopy key _ => Wf.dword key
  | .haloUpdateStep table => Wf.table table
  | .haloCompactDone table => Wf.table table
  | .sqJobStart engine pipe => Wf.engine engine && Wf.pipe pipe
  | .sqJobComplete engine pipe _ => Wf.engine engine && Wf.pipe pipe
  | .threadDispatch engine => Wf.engine engine
  | .threadReturn c _ => Wf.caller c
  | .moduleFault c _ _ _ => Wf.caller c
  | .activationLimit c => Wf.caller c
  | .tokenDeliver _ => true
  | .delayListFire _ => true
  | .instanceStart a => Wf.fn a.fn
  | .chunkDeliver _ => true
  | .instanceEnd _ => true
  | .thSpawn c _ _ _ _ _ => Wf.caller c
  | .thSend c _ slot value => Wf.caller c && Wf.word slot && Wf.dword value
  | .thDelay c _ slot _ => Wf.caller c && Wf.word slot
  | .thCancel c _ => Wf.caller c
  | .haloSearch c table _ _ _ slot => Wf.caller c && Wf.table table && Wf.word slot
  | .sqSubmit c _ _ _ slot => Wf.caller c && Wf.word slot
  | .hostPut engine _ _ _ _ slot run => Wf.engine engine && Wf.word slot && Wf.run run
  | .chunkRelease c _ => Wf.caller c
  | .memAlloc c _ _ => Wf.caller c
  | .memFree c _ => Wf.caller c
  | .instDone c _ _ => Wf.caller c
  | .modLog c _ _ => Wf.caller c
  | .holdupSample _ => true
  | .holdupLoadSample _ _ => true
  | .fwDownloadDone img => Wf.fwFile img
  | .imageVerifyDone nsid slot => Wf.nsid nsid && Wf.imgSlot slot
  | .devIdentify fn req => Wf.fn fn && Wf.req req
  | .devCertRead fn req => Wf.fn fn && Wf.req req
  | .paramSet fn req => Wf.fn fn && Wf.req req
  | .paramGet fn req => Wf.fn fn && Wf.req req
  | .devResources fn req => Wf.fn fn && Wf.req req
  | .devShockConfigure fn req => Wf.fn fn && Wf.req req
  | .devTickoutConfigure fn req => Wf.fn fn && Wf.req req
  | .devLongResult fn req => Wf.fn fn && Wf.req req
  | .fnCreate fn req => Wf.fn fn && Wf.req req
  | .fnDestroy fn req => Wf.fn fn && Wf.req req
  | .fnReset fn req => Wf.fn fn && Wf.req req
  | .fnInfo fn req => Wf.fn fn && Wf.req req
  | .fnPool fn req => Wf.fn fn && Wf.req req
  | .fnHostConfigure fn req => Wf.fn fn && Wf.req req
  | .fnPf0Grant fn req => Wf.fn fn && Wf.req req
  | .fnLinkStatus fn req => Wf.fn fn && Wf.req req
  | .fnQueueCreate fn req => Wf.fn fn && Wf.req req
  | .fnQueueDelete fn req => Wf.fn fn && Wf.req req
  | .fnQueueStatus fn req => Wf.fn fn && Wf.req req
  | .fnCmdAbort fn req => Wf.fn fn && Wf.req req
  | .fnQueueTimer fn req => Wf.fn fn && Wf.req req
  | .fnEventConfigure fn req => Wf.fn fn && Wf.req req
  | .nsCreate fn req => Wf.fn fn && Wf.req req
  | .nsDelete fn req => Wf.fn fn && Wf.req req
  | .nsAttach fn req => Wf.fn fn && Wf.req req
  | .nsDetach fn req => Wf.fn fn && Wf.req req
  | .nsInfo fn req => Wf.fn fn && Wf.req req
  | .nsStreamOpen fn req => Wf.fn fn && Wf.req req
  | .nsStreamClose fn req => Wf.fn fn && Wf.req req
  | .nsRetentionLengthen fn req => Wf.fn fn && Wf.req req
  | .nsRclockSet fn req => Wf.fn fn && Wf.req req
  | .nsChainAnchor fn req => Wf.fn fn && Wf.req req
  | .nsRnsTrim fn req => Wf.fn fn && Wf.req req
  | .nsFreeze fn req => Wf.fn fn && Wf.req req
  | .nsUnfreeze fn req => Wf.fn fn && Wf.req req
  | .nsImageOpen fn req => Wf.fn fn && Wf.req req
  | .nsImageVerify fn req => Wf.fn fn && Wf.req req
  | .nsImageActivate fn req => Wf.fn fn && Wf.req req
  | .nsImageRollback fn req => Wf.fn fn && Wf.req req
  | .nsImageErase fn req => Wf.fn fn && Wf.req req
  | .hzConfigure fn req => Wf.fn fn && Wf.req req
  | .hzStatus fn req => Wf.fn fn && Wf.req req
  | .hzPlanRead fn req => Wf.fn fn && Wf.req req
  | .hzRingRelease fn req => Wf.fn fn && Wf.req req
  | .ftStatus fn req => Wf.fn fn && Wf.req req
  | .ftProfile fn req => Wf.fn fn && Wf.req req
  | .ftLostList fn req => Wf.fn fn && Wf.req req
  | .mediaStatus fn req => Wf.fn fn && Wf.req req
  | .mediaHealth fn req => Wf.fn fn && Wf.req req
  | .mediaOffsetsRead fn req => Wf.fn fn && Wf.req req
  | .mediaProfileList fn req => Wf.fn fn && Wf.req req
  | .mediaPatrol fn req => Wf.fn fn && Wf.req req
  | .mediaCare fn req => Wf.fn fn && Wf.req req
  | .rdPoolForm fn req => Wf.fn fn && Wf.req req
  | .rdStatus fn req => Wf.fn fn && Wf.req req
  | .rdReshape fn req => Wf.fn fn && Wf.req req
  | .rdReshapeCancel fn req => Wf.fn fn && Wf.req req
  | .rdProfile fn req => Wf.fn fn && Wf.req req
  | .rdMemberFail fn req => Wf.fn fn && Wf.req req
  | .haloTableCreate fn req => Wf.fn fn && Wf.req req
  | .haloTableDestroy fn req => Wf.fn fn && Wf.req req
  | .haloTableInsert fn req => Wf.fn fn && Wf.req req
  | .haloTableDelete fn req => Wf.fn fn && Wf.req req
  | .haloTableModify fn req => Wf.fn fn && Wf.req req
  | .haloTableRead fn req => Wf.fn fn && Wf.req req
  | .haloTableCompact fn req => Wf.fn fn && Wf.req req
  | .haloTableSearch fn req => Wf.fn fn && Wf.req req
  | .haloStatus fn req => Wf.fn fn && Wf.req req
  | .sqProfile fn req => Wf.fn fn && Wf.req req
  | .sqStatus fn req => Wf.fn fn && Wf.req req
  | .modKeyEnroll fn req => Wf.fn fn && Wf.req req
  | .modKeyRevoke fn req => Wf.fn fn && Wf.req req
  | .modLoad fn req => Wf.fn fn && Wf.req req
  | .modUnload fn req => Wf.fn fn && Wf.req req
  | .modList fn req => Wf.fn fn && Wf.req req
  | .anvConfigure fn req => Wf.fn fn && Wf.req req
  | .anvProfile fn req => Wf.fn fn && Wf.req req
  | .anvStatus fn req => Wf.fn fn && Wf.req req
  | .anvStats fn req => Wf.fn fn && Wf.req req
  | .anvFaultRead fn req => Wf.fn fn && Wf.req req
  | .zlPortConfigure fn req => Wf.fn fn && Wf.req req
  | .zlPortStatus fn req => Wf.fn fn && Wf.req req
  | .zlNodeSet fn req => Wf.fn fn && Wf.req req
  | .zlTrustEnroll fn req => Wf.fn fn && Wf.req req
  | .zlTrustRevoke fn req => Wf.fn fn && Wf.req req
  | .zlPeerAdmit fn req => Wf.fn fn && Wf.req req
  | .zlGroupForm fn req => Wf.fn fn && Wf.req req
  | .zlGroupJoin fn req => Wf.fn fn && Wf.req req
  | .zlGroupLeave fn req => Wf.fn fn && Wf.req req
  | .zlGroupStatus fn req => Wf.fn fn && Wf.req req
  | .zlMemberAdmit fn req => Wf.fn fn && Wf.req req
  | .zlRouteSet fn req => Wf.fn fn && Wf.req req
  | .zlRouteClear fn req => Wf.fn fn && Wf.req req
  | .zlMirrorBreak fn req => Wf.fn fn && Wf.req req
  | .zlFenceClear fn req => Wf.fn fn && Wf.req req
  | .pwStateSet fn req => Wf.fn fn && Wf.req req
  | .pwStatus fn req => Wf.fn fn && Wf.req req
  | .pwHoldupMeasure fn req => Wf.fn fn && Wf.req req
  | .fwStatus fn req => Wf.fn fn && Wf.req req
  | .fwDownload fn req => Wf.fn fn && Wf.req req
  | .fwActivate fn req => Wf.fn fn && Wf.req req
  | .fwCommit fn req => Wf.fn fn && Wf.req req
  | .fwDebugChallenge fn req => Wf.fn fn && Wf.req req
  | .fwDebugUnlock fn req => Wf.fn fn && Wf.req req
  | .fwDebugDisable fn req => Wf.fn fn && Wf.req req
  | .fwKeyRevoke fn req => Wf.fn fn && Wf.req req
  | .logRead fn req => Wf.fn fn && Wf.req req
  | .logStatus fn req => Wf.fn fn && Wf.req req
  | .telSampleConfigure fn req => Wf.fn fn && Wf.req req
  | .vfEnableSet _ => true
  | .moduleLoadDone fn _ file => Wf.fn fn && Wf.bytes file.bytes
  | .intentEntryConfirmed seq => Wf.dword seq
  | .telSample _ => true
  | .zlSignalDetect port => Wf.port port
  | .zlPortBringupStep port _ => Wf.port port
  | .zlPortRestartTimer port => Wf.port port
  | .zlBlockLockLoss port => Wf.port port
  | .laneMarginReport port _ _ _ => Wf.port port
  | .discover port node _ _ => Wf.port port && Wf.node node
  | .delay port _ => Wf.port port
  | .hello port _ _ => Wf.port port
  | .reply port _ _ _ _ => Wf.port port
  | .finish port _ _ => Wf.port port
  | .done port => Wf.port port
  | .authTimeout port => Wf.port port
  | .data port f _ => Wf.port port && Wf.frame f
  | .frameRelay port f => Wf.port port && Wf.frame f
  | .nak port f => Wf.port port && Wf.frame f
  | .retrans port seq => Wf.port port && Wf.dword seq
  | .zlRetransmitTimeout port => Wf.port port
  | .pause port gtick => Wf.port port && Wf.gtick gtick
  | .credit port gtick _ => Wf.port port && Wf.gtick gtick
  | .sealReady port node gtick _ _ => Wf.port port && Wf.node node && Wf.gtick gtick
  | .sealCommit port gtick _ => Wf.port port && Wf.gtick gtick
  | .membership port _ _ _ ring _ => Wf.port port && ring.members.all Wf.member && ring.cables.all Wf.cable
  | .joinRequest port node _ _ cables _ => Wf.port port && Wf.node node && cables.all Wf.cable
  | .joinOffer port _ _ _ _ _ => Wf.port port
  | .joinAccept port node => Wf.port port && Wf.node node
  | .joinRefuse port _ => Wf.port port
  | .memberLost port _ => Wf.port port
  | .tickMark port _ _ _ _ => Wf.port port
  | .mirrorCreate port node ns _ => Wf.port port && Wf.node node && Wf.ns ns
  | .mirrorHeld port _ => Wf.port port
  | .mirrorAdmit port _ gtick => Wf.port port && Wf.gtick gtick
  | .mirrorCopyDone nsid => Wf.nsid nsid
  | .fenceBackoffEnd port => Wf.port port
  | .violationQuietTimer port => Wf.port port
  | .emptyAckFrameTimer port => Wf.port port
  | .unknownFrameType port f => Wf.port port && Wf.frame f
  | .powerOnReset => true
  | .sutasFirmwareRunning => true
  | .heldExit => true
  | .pwrfailAssert => true
  | .drainEnd => true
  | .pwrfailDeassert => true
  | .pwrfailHighTimerExpiry => true
  | .thermalTrip => true
  | .supplyInhibitRelease => true
  | .tickInWindowEnd => true
  | .tickInRelockTimeout => true
  | .shockInTrigger => true
  | .shockInHoldoffEnd => true
  | .cutPoint => true
  | .hzSealLate => true
  | .epochUnsealedN6 => true
  | .voteWindowEnd => true
  | .admission => true
  | .commandTimeoutScan => true
  | .ctrlResetSealsDone => true
  | .vfEnableClear => true
  | .usb4LinkDownTimeout => true
  | .tunnelledLinkReset => true
  | .watchdogExpiry => true
  | .rebuildWalkEnd => true
  | .reshapeCopyDone => true
  | .joinLockDeadline => true
  | .joinTickReached => true
  | .markWindowEnd => true
  | .holdupChargeTimeout => true
  | .p3Quiesced => true
  | .p4CheckpointSealed => true
  | .fwPreparationDone => true
  | .fwPreparationTimeout => true
  | .fwReady => true
  | .fwReadyTimeout => true
  | .fwHoldTimeout => true
  | .debugNonceExpiry => true
  | .ringSealDeadline => true
  | .tickOutPulseEnd => true
  | .usb4LinkLoss => true

end Sys2Proof
end

