-- ==== Sys2Proof/Tests/Slice0.lean ====
section
/-!
SUPPORT. Tests: a command that each operand check refuses, worked examples of the spec, and for every obligation with
hypotheses one theorem `witness_<Name>` that meets the hypotheses of each of its clauses. A witness is a conjunction of
Booleans, one for each set of hypotheses: the values of the obligation's variables, then the hypotheses themselves. A
hypothesis `e = some x` stands as `e.any fun x => …`: there is such an x, and it meets the rest.
-/

namespace Sys2Proof.Tests

open Sys2Proof Sys2Proof.Machine

set_option Elab.async false
set_option linter.unusedVariables false

/-! ### States -/

/-- An epoch with nothing in it. -/
def tEp (n : Nat) (closed : Bool) : Epoch :=
  { Epoch.fresh n with closed := closed }

/-- A device in P0 that accepts epoch 9: epochs 7 and 8 are closed, epoch 6 is sealed. -/
def tRun : State := { State.reset with
  store := { Store.reset with sealed := 6, highWater := 20, ringMark := 6 }
  hz := { Horizon.stopped Store.reset with
    st := .running, ticking := true, epoch := 9, sealed := 6, ringMark := 6, uptimeUs := 9000
    epochs := [tEp 7 true, tEp 8 true, tEp 9 false], credits := [⟨0, 524288, 524288, 0, false⟩] }
  fns := [{ Fn.fresh 0 .active Grant.pf0Default with bme := true }]
  link := { Link.reset Store.reset with gen := 4, trained := 1 }
  fw := { Firmware.reset with romDone := true }
  pw := { Power.reset with
    st := .p0, resetN := true, bringupDone := true, recovered := true, pwrSafe := false } }

/-- A request with tag 7 of the payload `p`. -/
def tReq (m : MbMeta) (p : Nat) : MbReq := ⟨0, m.len, 7, p⟩

/-- A mailbox with the request `r` of opcode `op` accepted. -/
def tBusy (op : Nat) (r : MbReq) : Mailbox := { Mailbox.reset with state := 1, request := some (op, r) }

/-- The state with PF0's request (`m`, payload `p`) accepted and next in order. -/
def tAsk (s : State) (m : MbMeta) (p : Nat) : State :=
  { s with
    fns := updIf (fun f => f.num == 0) (fun f => { f with mb := tBusy m.opcode (tReq m p) }) s.fns
    recs := { s.recs with goOrder := [0] } }

/-- A namespace of class `cls` without data; the fields that a class needs are set. -/
def tNs (nsid cls : Nat) : Ns :=
  ⟨⟨nsid, cls, 0, 0, 0, 1024, if cls = 2 then 1 else 0, 0, if cls = 1 then 10 else 0, 0⟩, .online, 1, [], [], 0, 0, 0, [],
    if cls = 3 then [Slot.empty, Slot.empty, Slot.empty] else [], false, false, [], 0⟩

def tSlot (x : SlotState) : Slot := { Slot.empty with st := x }

/-- A block namespace, an SNS, an RNS and an INS. -/
def tBlk : Ns := tNs 1 0

def tSns : Ns := tNs 2 1

def tRns : Ns := tNs 3 2

def tIns : Ns := { tNs 4 3 with slots := [tSlot .staging, tSlot .verified, tSlot .active, tSlot .previous] }

def tProfile : FlashProfile := { noProfile with
  id := 1, revision := 1, valid := true, matchVal := [1, 2], matchMask := [255, 255], toggle := true, maxRate := 2400, planes := 2
  blocksPerDie := 512, pagesPerBlock := 64, pageMain := 16384, pageSpare := 2048, parityBytes := 480, hardLimit := 400
  dacMv := 10, thrQlc := List.replicate 15 100, thrSlc := 100, retry := [List.replicate 15 1], tempCoef := List.replicate 15 0
  trSlc := 25, trQlc := 60, trSingle := 30, tprogSlc := 100, tprogQlc := 1000, tbers := 3000, suspProg := 4, suspErase := 4
  peSlc := 3000, peQlc := 3000, readDisturb := 100000, verifyLimit := 50, verifyTolerance := 2, retiredPct := 10 }

def tChan (ch : Nat) : Channel := ⟨ch, true, 0, [(0, 0), (1, 0)], 2400, tProfile, false, [], 25, 0, 0, .none, 0⟩

/-- Four members, k0 = 2; streams 5 (SNS) and 6 (RNS) are open. -/
def tPool : Pool := ⟨true, [(0, .online), (1, .online), (2, .online), (3, .online)], 2, [], 60⟩

def tNss : State := { tRun with
  store := { tRun.store with
    nss := [tBlk, tSns, tRns, tIns], pool := { tPool with cd := 3000 }
    streams := [⟨5, 2, true, true, 0⟩, ⟨6, 3, true, false, 0⟩] }
  flash := { Flash.reset with channels := [tChan 0, tChan 1, tChan 2, tChan 3], trained := true, wpAsserted := false } }

def tLong : State := { tNss with
  recs := { tNss.recs with longs := [⟨1, 0, 0x0508, some St.ok, [3], false⟩, ⟨2, 0, 0x0508, none, [], false⟩], nextLong := 3 } }

def tPair : Pair := { Pair.fresh 0 1 4 16 0 0 0 0 with sqTail := 3 }

def tEntry : HaloEntry := ⟨1, 10, 5, 0xFF, 7, true, 3, []⟩

def tTable : HaloTable := ⟨9, 0, false, 1, 1, 64, 3, [tEntry], 2, false, [], 0, 0, 0, 0, none⟩

def tHalo : State := { tLong with halo := { Halo.reset with tables := [tTable] }, q := { tLong.q with pairs := [tPair] } }

def tHaloT (t : HaloTable) : State := { tHalo with halo := { Halo.reset with tables := [t] } }

def tClaim : State := { tRun with store := { tRun.store with claims := [⟨0x10, 0x0401, 0⟩] } }

def tAtt : State := { tNss with ns := { NsVol.reset with attachments := [⟨1, 0, 3, 0, none⟩] } }

def tSns64 : Ns := { tSns with regions := (List.range 64).map fun i => (100 * i + 1000, 100 * i + 1001) }

def tFull : State := { tNss with store := { tNss.store with nss := [tBlk, tSns64, tRns, tIns] } }

def tIns0 : Ns := tNs 4 3

def tEmpty : State := { tNss with store := { tNss.store with nss := [tBlk, tSns, tRns, tIns0] } }

def tPopd : State := { tNss with
  store := { tNss.store with nss := [], pool := .none }
  flash := { tNss.flash with wear := [(4, 9)] } }

def tResh : State := { tNss with store := { tNss.store with reshape := ⟨.copying, 1, 0x12, 1, 0⟩ } }

def tKeys : State := { tRun with store := { tRun.store with modKeys := [(3, ⟨77, 1⟩)], trust := [(7, ⟨88, 1⟩)] } }

def tVf : State := { tHalo with
  link := { tHalo.link with vfEnable := true, numVfs := 63 }
  fns := tHalo.fns ++ [{ Fn.fresh 1 .active { Grant.pf0Default with qpairs := 1 } with bme := true }] }

def tE (opc cid : Nat) : SqEntry := ⟨opc, 0, cid, 1, 0, 1, 0, 0, 0, 0, 0, 0⟩

def tCmd (seq qid opc cid : Nat) : Cmd := Cmd.fresh 0 qid seq 9 (tE opc cid)

def tCmds : State := { tVf with q := { tVf.q with cmds := [tCmd 0 1 2 5, tCmd 1 1 1 6], nextSeq := 2 } }

def tModFile : ModuleFile :=
  ⟨1, 1, 3, 20, 7, 0x100000000, 0x100000100, 4096, 0, 4, 65536, 0, [], 0⟩

def tGrantE : Grant := { Grant.pf0Default with engines := 15, mem := 4, scan := 100000, squall := 10 }

def tAnv : State := { tVf with
  store := { tVf.store with modKeys := [(3, ⟨77, 3⟩)] }
  fns := updIf (fun f => f.num == 0) (fun f => { f with grant := tGrantE }) tVf.fns
  recs := { tVf.recs with longs := [⟨1, 0, 0x0A03, none, [], false⟩], nextLong := 2 }
  anv := { Anvil.reset with modules := [⟨0, 1, tModFile, false⟩] } }

def tPort : Port := { Port.reset with st := .up, lanesUp := 4, peer := 2, peerCert := 99, auth := .authed, scope := some 0, rxSeq := 10, txSeq := 20 }

def tZl : State := { tNss with
  store := { tNss.store with node := 1, ports := [⟨4, false, false, true, 100⟩, .default, .default] }
  zl := { tNss.zl with ports := [tPort, .reset, .reset] } }

def tGrp (g : GroupState) : State := { tZl with
  zl := { tZl.zl with group := g, gen := 3, effective := 2, master := 1, members := [⟨1, 5⟩, ⟨2, 5⟩], offset := 1 } }

def tJoinW : State := { tGrp .master with zl := { (tGrp .master).zl with joins := [⟨4, 0, 0, 0, 0, 0, true, false, 0, 0⟩] } }

def tRte : Route := ⟨2, 5, 2, 9, 0, [], 0, 0⟩

def tRtes : State := { tZl with zl := { tZl.zl with routes := (List.range 64).map fun i => { tRte with stream := 6 + i } } }

def tDg (x : DgState) (o : Nat) : State := { tVf with dg := tVf.dg.set 15 { DgCtx.free with owner := o, st := x, alg := 1, msg := [1, 2], msgLen := 2, tail := 0x0807060504030201 } }

def tDgB (n f : Nat) : State := { tVf with dg := tVf.dg.set 15 { DgCtx.free with st := .active, alg := 1, full := f, msgLen := n } }

def tSamp : State := { tRun with store := { tRun.store with claims := [⟨2, 0x0E03, 0⟩] }, fns := updIf (fun f => f.num == 0) (fun f => { f with latches := [(0x0600, 9)] }) tRun.fns }

def tArea : State := { tVf with fns := updIf (fun f => f.num == 0) (fun f => { f with mb := { f.mb with area := Mem.putBytes [] 0 (requestBytes 0x0402 (tReq Mb.hzStatus 0)) }, evq := { f.evq with base := 4096, entries := 64, tail := 3 }, intStatus := 7 }) tVf.fns }

def tRep (a : Option Nat) : State := { tVf with fns := updIf (fun f => f.num == 0) (fun f => { f with mb := { f.mb with state := 1, reply := some ⟨0x0402, 7, St.ok, [1,2], a⟩ } }) tVf.fns }

def tResetting (x : FnState) : State := { tDg .active 1 with fns := updIf (fun f => f.num == 1) (fun f => { f with st := x, reset := ⟨true, 0, [], some 8, 0⟩, viol := 3, intStatus := 5 }) tVf.fns }

def tEpR (n : Nat) : Epoch := { tEp n true with intentSeq := some 5, intentOk := true, fx := [.unmap 1 0 1] }

/-- The seal window of tick 9, with epoch 7 ready to be sealed. -/
def tWin : State := { tNss with hz := { tNss.hz with phase := .sealWindow, elapsedNs := 875000, epochs := [tEpR 7, tEpR 8, tEp 9 true] } }

def tLateE : State := { tNss with hz := { tNss.hz with st := .late, lateCount := 1, epochs := [{ tEpR 7 with isLate := true }, tEpR 8, tEp 9 false] } }

def tSlack : State := { tNss with
  hz := { tNss.hz with phase := .slack, sealed := 7, ringMark := 7, epochs := [tEpR 8, tEp 9 true] }
  recs := { tNss.recs with pendParams := [(10, ⟨0x0220, 0, 32⟩), (11, ⟨0x0221, 0, 5⟩)] } }

/-- A member whose epoch 6 waits for its ring seal in tick 9. -/
def tRing : State := { tGrp .member with
  hz := { tNss.hz with phase := .sealWindow, ringMark := 5, epochs := [{ tEpR 6 with isSealed := true }, tEpR 7, tEpR 8, tEp 9 true] } }

def tN6 : State := { tNss with hz := { tNss.hz with phase := .slack, st := .late, epochs := [tEp 3 true, tEp 4 true, tEp 5 true, tEp 6 true, tEp 7 true, tEp 8 true, tEp 9 true] } }

def tTick (x : TickIn) (src : Nat) : State := { tRun with hz := { tRun.hz with source := src, tickIn := x } }

def tTi : TickIn := { TickIn.reset with watching := true, hits := 3 }

def tShock : State := { tNss with store := { tNss.store with claims := [⟨0x10, 0x0106, 0⟩] } }

def tVer : Slot := ⟨.verifyPending, 4096, 7, 5, 1, 0⟩

def tVerS : State := { tNss with
  store := { tNss.store with nss := [tBlk, tSns, tRns, { tIns with slots := [tVer, tSlot .active, Slot.empty] }] }
  recs := { tNss.recs with longs := [⟨1, 0, 0x030F, none, [], false⟩] } }

def tQ (p : Pair) : State := { tVf with q := { tVf.q with pairs := [p, { Pair.fresh 1 2 5 64 0 0 0 0 with sqTail := 1 }] } }

def tCq : CqEntry := ⟨0, St.ok, 0, 5, true⟩

def tTimed : Cmd := { tCmd 0 1 2 5 with e := { tE 2 5 with timeout := 3 }, tick := 6, stage := .waiting, left := 1 }

def tAttd : State := { tCmds with ns := { NsVol.reset with attachments := [⟨1, 0, 31, 0, none⟩, ⟨2, 0, 31, 0, none⟩, ⟨3, 0, 29, 0, none⟩, ⟨4, 0, 27, 0, none⟩] } }

def tWith (c : Cmd) : State := { tAttd with q := { tAttd.q with cmds := [c] } }

def tE2 (opc nsid addr len stream dptr : Nat) : SqEntry := ⟨opc, 0, 5, nsid, addr, len, stream, 0, dptr, 0, 0, 0⟩

def tC (e : SqEntry) : Cmd := Cmd.fresh 0 1 0 9 e

def tHdr (len : Nat) : RecHeader := recStored ⟨len, 5, 0, 0, 0, 0, 0, 0, 0, 0⟩ true 0 0

def tExecBlk : ExecBlock := ⟨1, 2, 20, 1, 2, 1, 0, 4096, 0, 64, 0x10000, 0x20000, 4096, 0⟩

def tAnvC (c : Cmd) : State := { tAnv with ns := tAttd.ns, q := { tAttd.q with cmds := [c] } }

def tWr (st : Stage) : Cmd := { tC (tE2 2 1 1023 1 0 4096) with stage := st, left := 1 }

def tAp : Cmd := { tC (tE2 3 2 0 64 0 4096) with stage := .needClass, hdr := some (tHdr 32), left := 64 }

def tLr : LinkRec := ⟨3, 2, 2, 5, recBytes (tHdr 4) ++ [1, 2, 3, 4], some (tHdr 4), none, false, true, false, none⟩

def tLrS : State := { tZl with zl := { tZl.zl with ports := [{ tPort with recs := [tLr] }, .reset, .reset] } }

/-- One full ingest segment of stream 5 in window 0: a record of 65,536 bytes in all. -/
def tSegS (lvl : Nat) : State := { tNss with
  halo := { Halo.reset with segs := [⟨2, 5, 0, lvl, 9⟩] }
  hz := { tNss.hz with epochs := [tEp 7 true, tEp 8 true, { tEp 9 false with
    fx := [.record ⟨2, 5, 0, { tHdr 65504 with srcNode := 1 }, List.replicate 65504 0, 9, true, lvl⟩, .item ⟨2, [(5242880, [])], none, 1, none, false, none⟩, .stored 2 5 65536] }] } }

def tAdm (c : Cmd) : State := { tAttd with q := { tAttd.q with cmds := [c] } }

def tBlks (sb : Nat) (st : BlockState) (qlc erasing : Bool) : List Block :=
  (List.range 4).flatMap fun c => (List.range 2).map fun d => ⟨mkAddr c d sb 0, st, qlc, 0, false, 0, 9, 0, false, 0, erasing, [0, 1, 2, 3], 0, 0, 0, 0⟩

def tCell (a key : Nat) : Codeword := ⟨a, 1, 1, 0, key, 3, [1, 2], [(key, [1, 2])], none, a⟩

def tA (sb cw : Nat) : Nat := mkAddr 0 0 sb cw

/-- Super-blocks 1 to 3 are open (landing, QLC, map area), 5 is full landing, 6 full QLC, 7 awaits its erase, 8 is being erased. -/
def tFl : State := { tNss with
  store := { tNss.store with map := [⟨1, 7, .flash (tA 5 0)⟩, ⟨1, 8, .flash (tA 6 0)⟩] }
  flash := { tNss.flash with
    blocks := tBlks 1 .openLanding false false ++ tBlks 2 .openQlc true false ++ tBlks 3 .map false false ++
      tBlks 5 .fullLanding false false ++ (tBlks 6 .fullQlc true false).map (fun b => { b with refresh := true }) ++
      tBlks 7 .eraseWait false false ++ tBlks 8 .eraseWait true false
    parity := [⟨1, 0, false, [], 9, [], []⟩, ⟨2, 1, false, [], 9, [], []⟩, ⟨3, 2, false, [], 9, [], []⟩,
      ⟨5, 0, true, [⟨0, [0], []⟩], 9, [], []⟩]
    cells := [tCell (tA 5 0) 7, tCell (tA 6 0) 8, tCell (tA 8 0) 9], allow := 8, lMin := 2 } }

/-- The blocks of super-block 8 are being erased. -/
def tEra : State := { tFl with flash := { tFl.flash with
  blocks := updIf (fun b => superOf b.blk == 8) (fun b => { b with erasing := true }) tFl.flash.blocks } }

def tLand : State := { tFl with hz := { tFl.hz with
  epochs := [{ tEpR 7 with fx := [.item ⟨1, [(9, [3])], none, 1, none, false, none⟩, .item ⟨1, [(10, [3])], none, 1, none, false, none⟩] }, tEp 8 true, tEp 9 false] } }

def tMov : State := { tFl with flash := { tFl.flash with moves := [⟨1, 7, tA 5 0, tA 2 0, false, none, [tA 2 0], 6, false, false, 0⟩] } }

/-- The extent of stream 5 has four units, all of them hot. -/
def tExt : Extent := ⟨2, 83886080, some 0, [tA 6 1, tA 6 2, tA 6 3, tA 6 4], [], [0, 1, 2, 3], 9⟩

def tCons : State := { tFl with store := { tFl.store with
  streams := [⟨5, 2, false, true, 16384⟩, ⟨6, 3, true, false, 0⟩], extents := [tExt], params := [⟨0x0513, 0, 4⟩]
  map := tFl.store.map ++ (List.range 4).map fun i => ⟨2, 21474836480 + i, .flash (tA 5 (i + 1))⟩ } }

def tDirt : State := { tFl with flash := { tFl.flash with segs := [⟨1, 0, 0, true, some 5, [], none⟩], dirEnts := [(1, 0, 0, 0), (1, 0, 1, 0)] } }

def tLad (l : Nat) : State := { tFl with flash := { tFl.flash with ladders := [⟨tA 5 0, l, false⟩] } }

def tBin : Bin := { Bin.fresh 0 0 0 with offsets := [0], tCal := 25, epoch := 5, wanted := true, sweepT := 25 }

def tDies : State := { tFl with flash := { tFl.flash with
  bins := [tBin]
  channels := [{ tChan 0 with action := .sweep 0 0 0, senses := 9 }, { tChan 1 with training := 1, trainFails := 2, action := .interface },
    { tChan 2 with training := 1, action := .interface }, tChan 3]
  parity := tFl.flash.parity ++ [⟨9, 0, true, [], 9, [], []⟩] } }

def tReb : State := { tFl with
  store := { tFl.store with pool := { tPool with members := [(0, .rebuilding), (1, .online), (2, .online), (3, .online)] } } }

def tWalked : State := { tReb with flash := { tReb.flash with walking := true, walked := [5, 6, 8], cells := [tCell (tA 5 0) 7], resyncLeft := [4, 5] } }

def tShape : State := { tFl with store := { tFl.store with reshape := ⟨.copying, 1, 0x12, 1, 0⟩ } }

/-- A stream extent waits for its copy into the new layout. -/
def tShapeS : State := { tCons with store := { tCons.store with reshape := ⟨.copying, 2, 0x12, 1, 0⟩ } }

def tStrp : State := { tFl with flash := { tFl.flash with
  stripes := [⟨5, 0, 0, 2, 4, 0x22, 3, [tA 5 0, mkAddr 1 0 5 0, mkAddr 2 0 5 0, mkAddr 3 0 5 0], [tA 5 0, mkAddr 1 0 5 0], true, false⟩] } }

def tShaped : State := { tShape with store := { tShape.store with map := [⟨1, 7, .flash (tA 5 0)⟩, ⟨1 + 0x8000, 7, .flash (tA 6 0)⟩] } }

def tBoot : State := { State.reset with pw := { Power.reset with record1 := some ⟨1, 9000, 60000, 5000, 2000, 900⟩ } }

def tHeld : State := { tNss with
  hz := Horizon.stopped tNss.store
  pw := { tNss.pw with st := .held, recovered := true, holdup := { Holdup.reset with ok := true } } }

def tDrain : State := { tNss with
  hz := { tNss.hz with st := .draining, ticking := false, epochs := [tEpR 7] }
  pw := { tNss.pw with st := .draining, pwrfailLow := true } }

def tHu (p : HoldupPhase) (l : List Nat) : State := { tHeld with
  pw := { tHeld.pw with
    recovered := false, record1 := some ⟨1, 9000, 60000, 5000, 2000, 900⟩
    holdup := { Holdup.reset with phase := p, samples := l, vStart := 1000 } } }

def tTh (tid : Nat) (st : ThState) (k : Nat) : Thread :=
  ⟨tid, 1, 0, 0x100000000, 3, 5, k, none, 0, 0, [none, none, none, none], st, tid, false, none, false⟩

def tExecCmd : Cmd := { tC (tE2 6 1 0 64 0 4096) with stage := .execing, inst := 1 }

def tInst (x : InstState) : Inst :=
  { Inst.fresh 1 0 1 5 1 { tExecBlk with chunkBufs := 4 } with st := x, engines := if x = .waitEngines then [] else [0, 1], argAddr := 0x200000000 }

def tJobD : SqDesc := ⟨2, 0, 0, 2, 0, 0, 0x200000000, 4096, 4096, 0x200010000, 0, 0, 0, 0, 0, 0⟩

def tJob : SqJob := ⟨0, 1, 0, tJobD, 0, 6, 1, none, false⟩

/-- Instance 1 of function 0 runs: thread 5 on engine 0, thread 6 waits for two tokens, thread 7 is ready. -/
def tRunI : State := { tAnvC tExecCmd with
  hz := { tAnv.hz with credits := [⟨0, 524288, 524288, 524288, false⟩] }
  anv := { tAnv.anv with
    insts := [tInst .running], nextInst := 2
    threads := [tTh 5 .running 0, tTh 6 .waiting 2, tTh 7 .ready 1], running := [(0, 5)]
    delays := [⟨6, 1, 500⟩], mem := [(0, 1, 0x200000000, 64), (0, 1, 0x200010000, 4096)] }
  halo := { Halo.reset with tables := [tTable, { tTable with id := 8, owner := 1 }] } }

def tStart : State := { tRunI with anv := { tAnv.anv with insts := [tInst .waitEngines], nextInst := 2 } }

/-- What a thread ran before its call or its end: nothing that changes memory. -/
def tRunR : ThreadRun := ⟨0x100000004, List.replicate 32 0, List.replicate 32 0, List.replicate 32 0, 0, 0, 0, 0, 0, none, []⟩

def tImg : FwImage := ⟨true, true, 99, 1, true, 5, 9, 1, 1, true, []⟩

def tRevoke (l : List Bool) (k : Nat) : State :=
  { tAsk tRun Mb.fwKeyRevoke k with fw := { tRun.fw with committed := 0, slots := [⟨.valid, tImg⟩], revoked := l } }

def tApc : Cmd := { tAp with stage := .needData, word := some 0, hdr := some { tHdr 32 with rflags := 1, payCrc := 5 } }

def tWw : Cmd := { tWr .waiting with bytes := List.replicate 4096 5 }

def tDd : Cmd := { tWr .waiting with e := tE2 4 1 0 1024 0 0, left := 1024 }

def tWi : Cmd := { tWr .waiting with e := tE2 2 4 2048 1 0 4096 }

def tRw : Cmd := { tWr .waiting with e := tE2 1 1 1023 1 0 4096 }

def tAw : Cmd := { tAp with stage := .waiting, word := some 0, bytes := List.replicate 64 5 }

def tEw : Cmd := { tExecCmd with stage := .waiting }

def tMod : Sys2Proof.Machine.Module := ⟨0, 1, tModFile, false⟩

def tStep (l : List HaloStep) : State := { tAsk tHalo Mb.haloTableInsert 0 with halo := { tHalo.halo with tables := [{ tTable with steps := l, reply := some (0, 0x0703, 7, [2, 11, 0]) }, { tTable with id := 8 }] } }

def tSqR : SqReport := ⟨[1, 2, 3], 4096, 50⟩

def tSq (j : SqJob) : State := { tRunI with sq := { Squall.reset with jobs := [j, { j with engine := none, inst := 1 }], time := [(0, 100), (1, 100)] } }

def tStepP (n peer : Nat) : State := { tZl with zl := { tZl.zl with ports := [{ Port.reset with st := .step n, peer := peer, fails := 1, backoff := 4 }, .reset, .reset] } }

def tStP (x : PortState) : State := { tZl with zl := { tZl.zl with ports := [{ Port.reset with st := x, lanesUp := 2, unacked := [(3, ⟨0, 2, 65535, 0, 1⟩)] }, .reset, .reset] } }

def tEn (s : State) : State := { s with store := { s.store with ports := [⟨4, true, false, true, 100⟩, .default, .default] } }

def tAu (i : Bool) (a : AuthState) (t : Bool) : State := { tZl with
  store := { tZl.store with trust := if t then [(7, ⟨88, 1⟩)] else [] }
  zl := { tZl.zl with ports := [{ Port.reset with st := .step 7, peer := 9, peerCert := 5, fails := 1, backoff := 4, initiator := i, auth := a, scope := some 1 }, .reset, .reset] } }

def tLm (l : Nat) : State := { tZl with zl := { tZl.zl with ports := [{ tPort with lanesUp := l, margins := [(1, 4, 4, 2)] }, .reset, .reset] } }

def tMem2 : State := { tGrp .member with zl := { (tGrp .member).zl with master := 2 } }

def tLose : State := { tGrp .master with zl := { (tGrp .master).zl with members := [⟨1, 5⟩, ⟨2, 5⟩, ⟨3, 5⟩] } }

def tFr (dst seq len : Nat) (ok : Bool) : Frame := ⟨0x10, 1, len, 2, dst, seq, 0, 3, 5 * 4294967296 + 3, ok⟩

def tGg : State := tGrp .member

def tRel : State := { tZl with zl := { tZl.zl with ports := [tPort, { tPort with peer := 5 }, .reset], cables := [⟨5, 0, 1, 10⟩] } }

def tQf : NsFields := ⟨9, 2, 0, 0, 0, 1024, 1, 0, 0, 0⟩

def tLrP (b : Data) : LinkRec := ⟨3, 2, 3, 5, recBytes (tHdr 4) ++ b, some (tHdr 4), none, false, false, false, none⟩

def tRec (l : List LinkRec) : State := { tZl with zl := { tZl.zl with ports := [{ tPort with recs := l }, .reset, .reset] } }

def tMr : LinkRec := { tLrP [1, 2, 3, 4] with mirror := true, complete := true, word := some 1 }

def tMg : State := { tGg with zl := { tGg.zl with ports := [{ tPort with recs := [tMr] }, .reset, .reset] } }

def tG (g : GroupState) : State := tGrp g

def tJj (g : GroupState) : State := { tGrp g with zl := { (tGrp g).zl with joinAt := 0, joinLong := 1 } }

def tMs : List Member := [⟨1, 5⟩, ⟨3, 5⟩]

def tHa (b : Bool) : State := { tG .master with zl := { (tG .master).zl with hostAdmit := b } }

def tJl (l : LockState) : State := { tJj .joining with zl := { (tJj .joining).zl with lock := l, joinAt := 20, joinOffset := 5, tickPort := 0 } }

def tLk (g : GroupState) (l : LockState) (m : Nat) : State := { tG g with zl := { (tG g).zl with lock := l, tickPort := 0, misses := m } }

def tFw : State := { tNss with fw := { tNss.fw with keyHashes := [98, 99, 97, 96], revoked := [false, false, true, false], svn := 5, download := some (1, 1), longId := 2 }, recs := { tNss.recs with longs := [⟨1, 0, 0x0C01, none, [], false⟩, ⟨2, 0, 0x0C02, none, [], false⟩] } }

def tFp (p : FwPhase) (h : Bool) : State := { tFw with fw := { tFw.fw with phase := p, holding := h, target := 1, slots := [⟨.valid, tImg⟩, ⟨.valid, tImg⟩] } }

def tDescB : Data := [2, 0, 0, 2, 0, 0, 0, 0] ++ bytesLE 8 0x200000000 ++ bytesLE 4 64 ++ bytesLE 4 64 ++ bytesLE 8 0x200010000 ++ List.replicate 32 0

def tRunD : ThreadRun := { tRunR with stores := [(0x200000000, tDescB)] }

def tChunkI : Inst := { tInst .running with chunks := [⟨0, 9, 0, 64, 0, 0⟩] }

def tChunkS : State := { tRunI with anv := { tRunI.anv with insts := [tChunkI] } }

def tFen : State := { tRunI with fns := updIf (fun f => f.num == 0) (fun f => { f with st := .resetting }) tRunI.fns }

/-! ### Ill-formed commands: one for each check of WellFormed -/

theorem test_wf_fn : (Instr.go 256).wf = false := by decide
theorem test_wf_port : (Instr.zlSignalDetect 3).wf = false := by decide
theorem test_wf_ctx : (Instr.dgBlockDone 16).wf = false := by decide
theorem test_wf_engine : (Instr.threadDispatch 64).wf = false := by decide
theorem test_wf_pipe : (Instr.sqJobStart 63 2).wf = false := by decide
theorem test_wf_die : (Instr.dieReadyTimeout 256).wf = false := by decide
theorem test_wf_channel : (Instr.interfaceRetrain 16 true 0).wf = false := by decide
theorem test_wf_qid : (Instr.queueDeleteDone 0 256).wf = false := by decide
theorem test_wf_cid : (Instr.flush 0 0 65536).wf = false := by decide
theorem test_wf_table : (Instr.haloUpdateStep 256).wf = false := by decide
theorem test_wf_nsid : (Instr.imageVerifyDone 4294967296 0).wf = false := by decide
theorem test_wf_imgSlot : (Instr.imageVerifyDone 1 4).wf = false := by decide
theorem test_wf_word : (Instr.thDelay ⟨0, tRunR⟩ 0 4294967296 0).wf = false := by decide
theorem test_wf_dword : (Instr.ctrlReset 18446744073709551616).wf = false := by decide
theorem test_wf_stream : Wf.stream 4096 = false := by decide
theorem test_wf_node : (Instr.joinAccept 0 65536).wf = false := by decide
theorem test_wf_gtick : (Instr.pause 0 281474976710656).wf = false := by decide
theorem test_wf_alg : (Instr.start 0 0 16).wf = false := by decide
theorem test_wf_tail : (Instr.final 0 0 8).wf = false := by decide
theorem test_wf_req : (Instr.hzStatus 0 ⟨0, 1, 0, 256⟩).wf = false := by decide
theorem test_wf_entry : (Instr.sqSubmissionFetch 0 [⟨256, 0, 0, 0, 0, 0, 0, 0, 0, 0, 0, 0⟩]).wf = false := by decide
theorem test_wf_header : (Instr.append 0 0 0 ⟨0, 65536, 0, 0, 0, 0, 0, 0, 0, 0⟩ []).wf = false := by decide
theorem test_wf_buf : (Instr.read 0 0 0 [⟨0, 4294967296, 0⟩]).wf = false := by decide
theorem test_wf_pi : (Instr.dataFetchDone 0 0 0 [] [⟨0, 4294967296, 0⟩]).wf = false := by decide
theorem test_wf_execBlock : (Instr.exec 0 0 0 ⟨65536, 0, 0, 0, 0, 0, 0, 0, 0, 0, 0, 0, 0, 0⟩).wf = false := by decide
theorem test_wf_frame : (Instr.nak 0 ⟨256, 0, 0, 0, 0, 0, 0, 0, 0, true⟩).wf = false := by decide
theorem test_wf_ns : (Instr.mirrorCreate 0 0 ⟨0, 256, 0, 0, 0, 0, 0, 0, 0, 0⟩ 0).wf = false := by decide
theorem test_wf_report : (Instr.channelBringup [⟨0, 0, 0, [⟨8, 0, [], []⟩]⟩]).wf = false := by decide
theorem test_wf_run : (Instr.threadReturn ⟨0, { tRunR with x := [] }⟩ 0).wf = false := by decide
theorem test_wf_cable : (Instr.joinRequest 0 0 0 ⟨0, 0⟩ [⟨0, 3, 0, 0⟩] 0).wf = false := by decide
theorem test_wf_member : (Instr.membership 0 0 0 0 ⟨[⟨65536, 0⟩], []⟩ 0).wf = false := by decide
theorem test_wf_dma : (Instr.dmaReadError (.entry 256 0)).wf = false := by decide
theorem test_wf_ref : (Instr.classificationResult (.host 0 256 0)).wf = false := by decide

/-! ### Worked examples of the spec -/

/-- spec/00_scope.md, the worked example of parameters: a media reserve share of 12 % is no step of 5 from 10. -/
theorem test_paramSet_step :
    (match exec (.paramSet 0 (tReq Mb.paramSet (0x0411 + 2 ^ 64 * 12))) (tAsk tRun Mb.paramSet (0x0411 + 2 ^ 64 * 12)) with
    | .next t => decide ((t.fn? 0).map (fun f => f.mb.reply.map (fun r => r.status)) = some (some St.mbRange)) &&
        decide (t.recs.pendParams = tRun.recs.pendParams)
    | _ => false) = true := by decide +kernel

/-- The same example: a period field of 41 is refused, and 1,000 µs stay in force. -/
theorem test_hzConfigure_range :
    (match exec (.hzConfigure 0 (tReq Mb.hzConfigure (41 + 65536))) (tAsk tRun Mb.hzConfigure (41 + 65536)) with
    | .next t => decide ((t.fn? 0).map (fun f => f.mb.reply.map (fun r => r.status)) = some (some St.mbRange)) &&
        decide (250 * t.hz.period = 1000)
    | _ => false) = true := by decide +kernel

/-- spec/16_register_map.md, the worked example: a read of the low half of HZ_SEALED latches its high half. -/
theorem test_latch_sealed :
    (match exec (.splitReadLatch 0 0x0410) { tRun with hz := { tRun.hz with sealed := 0x1FFFFFFFF } } with
    | .next t => decide ((t.fn? 0).map (fun f => f.latches) = some [(0x0410, 1)])
    | _ => false) = true := by decide +kernel

/-- spec/02_horizon_ticks_epochs.md, the worked example: 3,906 granules at 1,000 µs. -/
theorem test_writeCapacity : writeCapacity 4 = 3906 := by decide

/-- The 2 Tbit profile of the worked example of spec/15_power_reset_holdup.md. -/
def tBig : FlashProfile := { tProfile with
  planes := 2, pageMain := 16384, tprogSlc := 160, tprogQlc := 2400, tbers := 5000, suspErase := 1 }

theorem test_drainCap_sixteen : drainCap tBig 112 = 4172 := by decide
theorem test_drainCap_eight : drainCap tBig 48 = 1788 := by decide

/-- The hold-up of the same example: 1,083 mV in 650 µs from 36.0 V; 1,200 µF, 580 mJ, 520 mJ. -/
theorem test_holdup_figures :
    (let h := holdupFigures { Holdup.reset with vStart := 36000 } ⟨1, 12000, 65000, 2000, 1, 90⟩ 650 1083;
      (h.c, h.eU, h.eReq)) = (1200, 580, 520) := by decide +kernel

/-- CRC-32C of the nine bytes "123456789": the published check value of the CRC that the spec names. -/
theorem test_crc32c : crc32c [0x31, 0x32, 0x33, 0x34, 0x35, 0x36, 0x37, 0x38, 0x39] = 0xE3069283 := by decide +kernel

/-- The worked example of R177 (spec/06_member_redundancy.md): D1 and D3 of one byte column are lost. -/
theorem test_solve_two :
    parityP [[0x3A], [0x5C], [0x07], [0xE1]] = [0x80] ∧ parityQ [[0x3A], [0x5C], [0x07], [0xE1]] = [0xC5] ∧
      solveStripe true [some [0x3A], none, some [0x07], none] (some [0x80]) (some [0xC5]) =
        some [[0x3A], [0x5C], [0x07], [0xE1]] := by decide +kernel

/-! ### The hypotheses of the obligations are met -/

theorem witness_FailedCheckAnswersOnly :
    (let i : Instr := .devIdentify 0 ⟨1,0,7,0⟩; let m : MbMeta := Mb.devIdentify; let n : Nat := 0;
      let r : MbReq := ⟨1,0,7,0⟩;
      let s : State := { tRun with fns := updIf (fun f => f.num == 0) (fun f => { f with mb := tBusy 0x0101 ⟨1,0,7,0⟩ }) tRun.fns, recs := { tRun.recs with goOrder := [0] } };
      ((s.taken n).mbCheck m n r).any fun _st => decide (mbRow i = some (m, n, r) ∧ s.next m n r)) = true := by
  decide +kernel

theorem witness_GoAccepts :
    (let i : Instr := .hzStatus 0 (tReq Mb.hzStatus 0); let m : MbMeta := Mb.hzStatus; let n : Nat := 0;
      let r : MbReq := tReq Mb.hzStatus 0; let s : State := State.reset;
      (s.fn? n).any fun f => decide (mbRow i = some (m, n, r) ∧ s.fnLive n = true ∧ f.mb.state ≠ 1 ∧
      (s.fwRuns = false ∨ s.recs.goOrder ≠ [] ∧ s.recs.goOrder.head? ≠ some n))) = true ∧
    (let i : Instr := .hzStatus 0 (tReq Mb.hzStatus 0); let m : MbMeta := Mb.hzStatus; let n : Nat := 0;
      let r : MbReq := tReq Mb.hzStatus 0; let s : State := tAsk tRun Mb.hzConfigure 0;
      (s.fn? n).any fun f => decide (mbRow i = some (m, n, r) ∧ s.fnLive n = true ∧ f.mb.state = 1 ∧
      f.mb.request ≠ some (m.opcode, r))) = true := by
  decide +kernel

theorem witness_StatusReadsAnswer :
    (let s : State := tAsk tRun Mb.hzStatus 0; let n : Nat := 0; let r : MbReq := tReq Mb.hzStatus 0;
      let i : Instr := Instr.hzStatus 0 (tReq Mb.hzStatus 0); let m : MbMeta := Mb.hzStatus;
      decide (mbRow i = some (m, n, r) ∧ m ∈ statusReads ∧ s.turn m n r)) = true ∧
    (let s : State := tAsk tRun Mb.fnLinkStatus 0; let n : Nat := 0; let r : MbReq := tReq Mb.fnLinkStatus 0;
      decide (s.turn Mb.fnLinkStatus n r)) = true ∧
    (let s : State := tAsk tRun Mb.sqStatus 0; let n : Nat := 0; let r : MbReq := tReq Mb.sqStatus 0;
      decide (s.turn Mb.sqStatus n r)) = true ∧
    (let s : State := tAsk tRun Mb.anvStats 0x40; let n : Nat := 0; let r : MbReq := tReq Mb.anvStats 0x40;
      decide (s.turn Mb.anvStats n r ∧ (n = 0 ∨ (s.grantOf n).engineList.contains (fld r 0 6) = true))) = true := by
  decide +kernel

theorem witness_ObjectReadsAnswer :
    (let s : State := tAsk tRun Mb.paramGet 0x0320; let n : Nat := 0; let r : MbReq := tReq Mb.paramGet 0x0320;
      let t := s.taken n; ((t.paramCheck n r).toOption).any fun p => decide (s.turn Mb.paramGet n r ∧
      t.paramCheck n r = Except.ok p)) = true ∧
    (let s : State := tAsk tLong Mb.devLongResult 1; let n : Nat := 0; let r : MbReq := tReq Mb.devLongResult 1;
      (List.find? (fun l => l.fn == n && l.id == fld r 0 32) s.recs.longs).any fun l => l.status.any fun _st => decide (s.turn Mb.devLongResult n r)) = true ∧
    (let s : State := tAsk tLong Mb.devLongResult 2; let n : Nat := 0; let r : MbReq := tReq Mb.devLongResult 2;
      (List.find? (fun l => l.fn == n && l.id == fld r 0 32) s.recs.longs).any fun l => decide (s.turn Mb.devLongResult n r ∧
      l.status = none)) = true ∧
    (let s : State := tAsk tLong Mb.devLongResult 3; let n : Nat := 0; let r : MbReq := tReq Mb.devLongResult 3;
      decide (s.turn Mb.devLongResult n r ∧
      (List.find? (fun l => l.fn == n && l.id == fld r 0 32) s.recs.longs = none))) = true ∧
    (let s : State := tAsk tLong Mb.fnInfo 0; let n : Nat := 0; let r : MbReq := tReq Mb.fnInfo 0;
      (s.fn? (fld r 0 16)).any fun _f => decide (s.turn Mb.fnInfo n r ∧ fld r 0 16 ≤ s.maxFn)) = true ∧
    (let s : State := tAsk tLong Mb.fnInfo 1; let n : Nat := 0; let r : MbReq := tReq Mb.fnInfo 1;
      decide (s.turn Mb.fnInfo n r ∧ fld r 0 16 ≤ s.maxFn ∧ s.fn? (fld r 0 16) = none)) = true ∧
    (let s : State := tAsk tLong Mb.fnInfo 64; let n : Nat := 0; let r : MbReq := tReq Mb.fnInfo 64;
      decide (s.turn Mb.fnInfo n r ∧ s.maxFn < fld r 0 16)) = true ∧
    (let s : State := tAsk tHalo Mb.fnQueueStatus 1; let n : Nat := 0; let r : MbReq := tReq Mb.fnQueueStatus 1;
      let t := s.taken n;
      (t.targetFn n (fld r 16 16)).any fun k => (s.pair? k (fld r 0 16)).any fun _p => decide (s.turn Mb.fnQueueStatus n r)) = true ∧
    (let s : State := tAsk tLong Mb.nsInfo 3; let n : Nat := 0; let r : MbReq := tReq Mb.nsInfo 3;
      let t := s.taken n; ((t.nsArg n (fld r 0 32)).getRight?).any fun x => decide (s.turn Mb.nsInfo n r ∧ t.nsArg n (fld r 0 32) = Sum.inr x)) = true ∧
    (let s : State := tAsk tLong Mb.nsChainAnchor 3; let n : Nat := 0; let r : MbReq := tReq Mb.nsChainAnchor 3;
      let t := s.taken n; ((t.nsArg n (fld r 0 32)).getRight?).any fun x => decide (s.turn Mb.nsChainAnchor n r ∧
      t.nsArg n (fld r 0 32) = Sum.inr x ∧ x.isRns = true ∧ s.keyUsable = true)) = true ∧
    (let s : State := tAsk tHalo Mb.haloTableRead ((9 + 2^32)); let n : Nat := 0;
      let r : MbReq := tReq Mb.haloTableRead ((9 + 2^32)); let t := s.taken n;
      (t.tableFor n (fld r 0 8) true).any fun x => (List.find? (fun e => e.valid && (if bitAt r.payload 8 = true then e.slot else e.id) == fld r 32 32) x.entries).any fun _e => decide (s.turn Mb.haloTableRead n r)) = true ∧
    (let s : State := tAsk tHalo Mb.haloTableSearch ((9 + 2^128 * 5)); let n : Nat := 0;
      let r : MbReq := tReq Mb.haloTableSearch ((9 + 2^128 * 5)); let t := s.taken n;
      (t.tableFor n (fld r 0 8) false).any fun _x => decide (s.turn Mb.haloTableSearch n r)) = true ∧
    (let s : State := tAsk tRun Mb.logRead ((2^32)); let n : Nat := 0; let r : MbReq := tReq Mb.logRead ((2^32));
      decide (s.turn Mb.logRead n r)) = true := by
  decide +kernel

theorem witness_SettingsRecorded :
    (let s : State := tAsk tRun Mb.paramSet ((0x0320 + 2^64 * 1000)); let n : Nat := 0;
      let r : MbReq := tReq Mb.paramSet ((0x0320 + 2^64 * 1000)); let t := s.taken n;
      ((t.paramCheck n r).toOption).any fun p => decide (s.turn Mb.paramSet n r ∧ t.paramCheck n r = Except.ok p ∧
      p.ok (fldB r 8 8) = true ∧ t.paramRefusal p.id (fldB r 8 8) = none ∧ p.persist = true)) = true ∧
    (let s : State := tAsk tRun Mb.paramSet ((0x0220 + 2^64 * 32)); let n : Nat := 0;
      let r : MbReq := tReq Mb.paramSet ((0x0220 + 2^64 * 32)); let t := s.taken n;
      ((t.paramCheck n r).toOption).any fun p => decide (s.turn Mb.paramSet n r ∧ t.paramCheck n r = Except.ok p ∧
      p.ok (fldB r 8 8) = true ∧ t.paramRefusal p.id (fldB r 8 8) = none ∧ p.persist = false)) = true ∧
    (let s : State := tAsk tRun Mb.devShockConfigure 0; let n : Nat := 0;
      let r : MbReq := tReq Mb.devShockConfigure 0; decide (s.turn Mb.devShockConfigure n r ∧ fld r 0 1 = 0)) = true ∧
    (let s : State := tAsk tRun Mb.devShockConfigure 1; let n : Nat := 0;
      let r : MbReq := tReq Mb.devShockConfigure 1; let t := s.taken n; decide (s.turn Mb.devShockConfigure n r ∧
      fld r 0 1 = 1 ∧ t.conflict 16 262 = none)) = true ∧
    (let s : State := tAsk tClaim Mb.devShockConfigure 1; let n : Nat := 0;
      let r : MbReq := tReq Mb.devShockConfigure 1; let t := s.taken n;
      (t.conflict 16 262).any fun _v => decide (s.turn Mb.devShockConfigure n r ∧ fld r 0 1 = 1)) = true ∧
    (let s : State := tAsk tClaim Mb.devTickoutConfigure ((2 + 2^16 * 100)); let n : Nat := 0;
      let r : MbReq := tReq Mb.devTickoutConfigure ((2 + 2^16 * 100)); let t := s.taken n;
      decide (s.turn Mb.devTickoutConfigure n r ∧ (fld r 0 2 ≠ 0 → t.conflict (fld r 0 2) 263 = none))) = true ∧
    (let s : State := tAsk tRun Mb.fnHostConfigure ((1 + 8 * 2)); let n : Nat := 0;
      let r : MbReq := tReq Mb.fnHostConfigure ((1 + 8 * 2)); let t := s.taken n;
      decide (s.turn Mb.fnHostConfigure n r ∧
      (sumBy (fun x => x.read) t.grants ≤ readCapacity t.accepted.period (fld r 3 3)))) = true ∧
    (let s : State := tAsk tRun Mb.fnPf0Grant ((2^16 + 2^32 + 2^48 * 4096)); let n : Nat := 0;
      let r : MbReq := tReq Mb.fnPf0Grant ((2^16 + 2^32 + 2^48 * 4096)); let t := s.taken n;
      decide (s.turn Mb.fnPf0Grant n r ∧
      t.accepted.creditsFit t.accepted.period t.accepted.linkFloor [grantOfReq r] t.accepted.portCredit = true)) = true ∧
    (let s : State := tAsk tClaim Mb.fnQueueTimer 3; let n : Nat := 0; let r : MbReq := tReq Mb.fnQueueTimer 3;
      let t := s.taken n; decide (s.turn Mb.fnQueueTimer n r ∧
      (fld r 0 2 ≠ 0 → t.conflict (fld r 0 2) 525 = none))) = true ∧
    (let s : State := tAsk tClaim Mb.telSampleConfigure ((2 + 2^16 * 25)); let n : Nat := 0;
      let r : MbReq := tReq Mb.telSampleConfigure ((2 + 2^16 * 25)); let t := s.taken n;
      decide (s.turn Mb.telSampleConfigure n r ∧ (fld r 0 2 ≠ 0 → t.conflict (fld r 0 2) 3587 = none))) = true ∧
    (let s : State := tAsk tClaim Mb.anvConfigure 2; let n : Nat := 0; let r : MbReq := tReq Mb.anvConfigure 2;
      let t := s.taken n; decide (s.turn Mb.anvConfigure n r ∧
      (fld r 0 2 ≠ 0 → t.conflict (fld r 0 2) 2566 = none))) = true ∧
    (let s : State := tAsk ({ tRun with store := { tRun.store with claims := [⟨2, 0x0401, 0⟩] } }) Mb.anvConfigure 2;
      let n : Nat := 0; let r : MbReq := tReq Mb.anvConfigure 2; let t := s.taken n;
      let v : List Nat := [2, 0x0401, 0, 0]; decide (s.turn Mb.anvConfigure n r ∧ fld r 0 2 ≠ 0 ∧
      t.conflict (fld r 0 2) 2566 = some v)) = true := by
  decide +kernel

theorem witness_NamespaceChangesRecorded :
    (let s : State := tAsk tNss Mb.nsCreate ((2^64 * 16)); let n : Nat := 0;
      let r : MbReq := tReq Mb.nsCreate ((2^64 * 16)); let t := s.taken n; decide (s.turn Mb.nsCreate n r ∧
      t.nsCreateCheck (nsFieldsOf r) = none ∧ bitAt (nsFieldsOf r).flags 2 = false)) = true ∧
    (let s : State := tAsk ((tGrp .member)) Mb.nsCreate ((2^32 * 2 + 2^40 * 5 + 2^64 * 16 + 2^128 + 2^160 * 2));
      let n : Nat := 0; let r : MbReq := tReq Mb.nsCreate ((2^32 * 2 + 2^40 * 5 + 2^64 * 16 + 2^128 + 2^160 * 2));
      let t := s.taken n; decide (s.turn Mb.nsCreate n r ∧ t.nsCreateCheck (nsFieldsOf r) = none ∧
      bitAt (nsFieldsOf r).flags 2 = true)) = true ∧
    (let s : State := tAsk tNss Mb.nsDelete 1; let n : Nat := 0; let r : MbReq := tReq Mb.nsDelete 1;
      let t := s.taken n; ((t.nsArg n (fld r 0 32)).getRight?).any fun x => decide (s.turn Mb.nsDelete n r ∧
      t.nsArg n (fld r 0 32) = Sum.inr x ∧ t.anyAttached x.f.nsid = false ∧
      (x.isRns = true → t.retained x none = false) ∧ x.st ≠ NsState.offlineRing ∧ x.isReplica = false)) = true ∧
    (let s : State := tAsk tNss Mb.nsAttach ((2 + 2^48 * 31)); let n : Nat := 0;
      let r : MbReq := tReq Mb.nsAttach ((2 + 2^48 * 31)); let t := s.taken n;
      ((t.nsArg n (fld r 0 32)).getRight?).any fun x => decide (s.turn Mb.nsAttach n r ∧
      t.nsArg n (fld r 0 32) = Sum.inr x ∧ fld r 32 16 ≤ t.maxFn ∧ t.fnExists (fld r 32 16) = true ∧
      fld r 48 5 &&& rightsOf x.f.cls = fld r 48 5)) = true ∧
    (let s : State := tAsk tAtt Mb.nsDetach 1; let n : Nat := 0; let r : MbReq := tReq Mb.nsDetach 1;
      let t := s.taken n; ((t.nsArg n (fld r 0 32)).getRight?).any fun x => decide (s.turn Mb.nsDetach n r ∧
      t.nsArg n (fld r 0 32) = Sum.inr x ∧ fld r 32 16 ≤ t.maxFn ∧ t.fnExists (fld r 32 16) = true ∧
      t.attachAccepted x.f.nsid (fld r 32 16) = true)) = true ∧
    (let s : State := tAsk tAtt Mb.nsStreamOpen ((2 + 2^32 * 4095)); let n : Nat := 0;
      let r : MbReq := tReq Mb.nsStreamOpen ((2 + 2^32 * 4095)); let t := s.taken n;
      ((t.nsArg n (fld r 0 32)).getRight?).any fun x => decide (s.turn Mb.nsStreamOpen n r ∧
      t.nsArg n (fld r 0 32) = Sum.inr x ∧ x.isStream = true ∧ (∀ (y : Machine.Stream),
      t.streamAccepted (fld r 32 12) = some y → y.nsid = x.f.nsid))) = true ∧
    (let s : State := tAsk tAtt Mb.nsStreamClose ((2 + 2^32 * 5)); let n : Nat := 0;
      let r : MbReq := tReq Mb.nsStreamClose ((2 + 2^32 * 5)); let t := s.taken n;
      ((t.nsArg n (fld r 0 32)).getRight?).any fun x => (t.streamAccepted (fld r 32 12)).any fun y => decide (s.turn Mb.nsStreamClose n r ∧
      t.nsArg n (fld r 0 32) = Sum.inr x ∧ x.isStream = true ∧ y.nsid = x.f.nsid ∧ y.isOpen = true)) = true ∧
    (let s : State := tAsk tAtt Mb.nsRetentionLengthen ((3 + 2^32 * 36500)); let n : Nat := 0;
      let r : MbReq := tReq Mb.nsRetentionLengthen ((3 + 2^32 * 36500)); let t := s.taken n;
      ((t.nsArg n (fld r 0 32)).getRight?).any fun x => decide (s.turn Mb.nsRetentionLengthen n r ∧
      t.nsArg n (fld r 0 32) = Sum.inr x ∧ x.isRns = true ∧ x.isReplica = false)) = true ∧
    (let s : State := tAsk tAtt Mb.nsRclockSet 100; let n : Nat := 0; let r : MbReq := tReq Mb.nsRclockSet 100;
      decide (s.turn Mb.nsRclockSet n r ∧ s.zl.group ≠ GroupState.member ∧ s.zl.group ≠ GroupState.master)) = true := by
  decide +kernel

theorem witness_ImagesAndRegionsRecorded :
    (let s : State := tAsk tNss Mb.nsFreeze 2; let n : Nat := 0; let r : MbReq := tReq Mb.nsFreeze 2;
      let x : Ns := tSns; let t := s.taken n;
      decide (t.nsArg n (fld r 0 32) = Sum.inr x) && (t.freezeNs x).any fun _u => decide (s.turn Mb.nsFreeze n r ∧
      x.isSns = true ∧ x.f.freezeS ≠ 0)) = true ∧
    (let s : State := tAsk tFull Mb.nsFreeze 2; let n : Nat := 0; let r : MbReq := tReq Mb.nsFreeze 2;
      let x : Ns := tSns64; let t := s.taken n; let e := s.hz.epoch; decide (t.nsArg n (fld r 0 32) = Sum.inr x ∧
      s.turn Mb.nsFreeze n r ∧ x.isSns = true ∧ x.f.freezeS ≠ 0 ∧
      64 < (t.regionsWith x.f.nsid (freezeSpan x.f.freezeS t.periodUs e)).length)) = true ∧
    (let s : State := tAsk tFull Mb.nsUnfreeze ((2 + 2^64 * 1000)); let n : Nat := 0;
      let r : MbReq := tReq Mb.nsUnfreeze ((2 + 2^64 * 1000)); let x : Ns := tSns64; let t := s.taken n;
      decide (t.nsArg n (fld r 0 32) = Sum.inr x ∧ s.turn Mb.nsUnfreeze n r)) = true ∧
    (let s : State := tAsk tEmpty Mb.nsImageOpen ((4 + 2^33)); let n : Nat := 0;
      let r : MbReq := tReq Mb.nsImageOpen ((4 + 2^33)); let x : Ns := tIns0; let t := s.taken n;
      let k := fld r 32 2;
      decide (t.nsArg n (fld r 0 32) = Sum.inr x) && ((t.slotsAccepted x)[k]?).any fun y => decide (s.turn Mb.nsImageOpen n r ∧
      x.isIns = true ∧ y.st = SlotState.empty)) = true ∧
    (let s : State := tAsk tNss Mb.nsImageVerify ((4 + 2^64 * 4194304)); let n : Nat := 0;
      let r : MbReq := tReq Mb.nsImageVerify ((4 + 2^64 * 4194304)); let x : Ns := tIns; let t := s.taken n;
      let k := fld r 32 2;
      decide (t.nsArg n (fld r 0 32) = Sum.inr x) && ((t.slotsAccepted x)[k]?).any fun y => decide (s.turn Mb.nsImageVerify n r ∧
      x.isIns = true ∧ fld r 64 64 ≤ x.f.capacity * 4096 ∧ y.st = SlotState.staging ∧ s.longsOpen n < 8)) = true ∧
    (let s : State := tAsk tNss Mb.nsImageActivate ((4 + 2^32)); let n : Nat := 0;
      let r : MbReq := tReq Mb.nsImageActivate ((4 + 2^32)); let x : Ns := tIns; let t := s.taken n;
      let k := fld r 32 2;
      decide (t.nsArg n (fld r 0 32) = Sum.inr x) && ((t.slotsAccepted x)[k]?).any fun y => decide (s.turn Mb.nsImageActivate n r ∧
      x.isIns = true ∧ y.st = SlotState.verified)) = true ∧
    (let s : State := tAsk tNss Mb.nsImageRollback 4; let n : Nat := 0; let r : MbReq := tReq Mb.nsImageRollback 4;
      let x : Ns := tIns; let t := s.taken n;
      decide (t.nsArg n (fld r 0 32) = Sum.inr x) && ((t.slotsAccepted x)[List.findIdx (fun z => z.st == SlotState.previous) (t.slotsAccepted x)]?).any fun _y => decide (s.turn Mb.nsImageRollback n r ∧
      x.isIns = true)) = true ∧
    (let s : State := tAsk tNss Mb.nsImageErase ((4 + 2^33)); let n : Nat := 0;
      let r : MbReq := tReq Mb.nsImageErase ((4 + 2^33)); let x : Ns := tIns; let t := s.taken n;
      let k := fld r 32 2;
      decide (t.nsArg n (fld r 0 32) = Sum.inr x) && ((t.slotsAccepted x)[k]?).any fun _y => decide (s.turn Mb.nsImageErase n r ∧
      x.isIns = true)) = true ∧
    (let s : State := tAsk tNss Mb.nsRnsTrim ((3 + 2^64 * 5)); let n : Nat := 0;
      let r : MbReq := tReq Mb.nsRnsTrim ((3 + 2^64 * 5)); let x : Ns := tRns; let t := s.taken n;
      decide (t.nsArg n (fld r 0 32) = Sum.inr x ∧ s.turn Mb.nsRnsTrim n r ∧ x.isRns = true ∧ x.isReplica = false ∧
      s.longsOpen n < 8)) = true := by
  decide +kernel

theorem witness_MediaSettingsRecorded :
    (let s : State := tAsk tRun Mb.hzConfigure ((40 + 2^16 * 4)); let n : Nat := 0;
      let r : MbReq := tReq Mb.hzConfigure ((40 + 2^16 * 4)); let t := s.taken n; decide (s.turn Mb.hzConfigure n r ∧
      t.hzRefusal (fld r 0 8) (fld r 8 8) (fld r 16 8) = none)) = true ∧
    (let s : State := tAsk ({ tRun with zl := { tRun.zl with group := .reforming } }) Mb.hzRingRelease 0;
      let n : Nat := 0; let r : MbReq := tReq Mb.hzRingRelease 0; decide (s.turn Mb.hzRingRelease n r ∧
      (s.zl.group = GroupState.reforming ∨ s.zl.group = GroupState.isolated))) = true ∧
    (let s : State := tAsk tRun Mb.ftProfile ((7 + 2^8 * 2)); let n : Nat := 0;
      let r : MbReq := tReq Mb.ftProfile ((7 + 2^8 * 2)); let t := s.taken n; decide (s.turn Mb.ftProfile n r ∧
      fld r 0 8 ≤ t.accepted.op)) = true ∧
    (let s : State := tAsk tRun Mb.mediaCare 2; let n : Nat := 0; let r : MbReq := tReq Mb.mediaCare 2;
      decide (s.turn Mb.mediaCare n r)) = true ∧
    (let s : State := tAsk tRun Mb.rdProfile 1; let n : Nat := 0; let r : MbReq := tReq Mb.rdProfile 1;
      decide (s.turn Mb.rdProfile n r)) = true ∧
    (let s : State := tAsk tRun Mb.mediaPatrol 0; let n : Nat := 0; let r : MbReq := tReq Mb.mediaPatrol 0;
      decide (s.turn Mb.mediaPatrol n r ∧ s.longsOpen n < 8)) = true ∧
    (let s : State := tAsk tNss Mb.rdMemberFail 3; let n : Nat := 0; let r : MbReq := tReq Mb.rdMemberFail 3;
      decide (s.turn Mb.rdMemberFail n r ∧ s.store.pool.formed = true ∧
      ((s.store.pool.members.any fun x => x.1 == fld r 0 4) = true))) = true ∧
    (let s : State := tAsk tNss Mb.rdMemberFail 3; let m : Nat := 0;
      decide (((s.store.pool.members.any fun x => x.1 == m && x.2 == MemberState.online) = true) ∧
      s.flash.lostMembers.contains m = false)) = true ∧
    (let s : State := tAsk tPopd Mb.rdPoolForm ((15 + 2^16 * 2)); let n : Nat := 0;
      let r : MbReq := tReq Mb.rdPoolForm ((15 + 2^16 * 2)); let t := s.taken n; decide (s.turn Mb.rdPoolForm n r ∧
      t.nsFieldsAccepted = [] ∧ 2 ≤ fld r 16 4 ∧ fld r 16 4 + 2 ≤ (maskMembers (fld r 0 16)).length ∧
      t.badPopulation (maskMembers (fld r 0 16)) = false ∧
      (sumBy (fun x => x.write) t.grants + t.accepted.portCredit ≤ t.drainCapOf (maskMembers (fld r 0 16))) ∧
      s.longsOpen n < 8)) = true ∧
    (let s : State := tAsk tNss Mb.rdReshape ((1 + 2^32 * 0x12)); let n : Nat := 0;
      let r : MbReq := tReq Mb.rdReshape ((1 + 2^32 * 0x12)); let t := s.taken n;
      (s.store.ns? (fld r 0 32)).any fun x => decide (s.turn Mb.rdReshape n r ∧
      s.store.pool.codeOk (fld r 32 8) = true ∧ x.isRns = false ∧ t.store.pool.consumes (have __src := x.f;
      { nsid := __src.nsid, cls := __src.cls, flags := __src.flags, pi := __src.pi, redun := fld r 32 8, capacity := __src.capacity, retainDays := __src.retainDays, mirrorNode := __src.mirrorNode, freezeS := __src.freezeS, rsv := __src.rsv }) ≤ t.freeSpace t.accepted.op ∧
      t.reshaping = false ∧ s.longsOpen n < 8)) = true ∧
    (let s : State := tAsk tResh Mb.rdReshapeCancel 1; let n : Nat := 0; let r : MbReq := tReq Mb.rdReshapeCancel 1;
      decide (s.turn Mb.rdReshapeCancel n r ∧ s.store.reshape.st ≠ ReshapeState.none ∧
      s.store.reshape.nsid = fld r 0 32)) = true := by
  decide +kernel

theorem witness_KeysAndPortsRecorded :
    (let s : State := tAsk tKeys Mb.modKeyEnroll 3; let n : Nat := 0; let r : MbReq := tReq Mb.modKeyEnroll 3;
      decide (s.turn Mb.modKeyEnroll n r)) = true ∧
    (let s : State := tAsk tKeys Mb.modKeyRevoke 3; let n : Nat := 0; let r : MbReq := tReq Mb.modKeyRevoke 3;
      let t := s.taken n; decide (s.turn Mb.modKeyRevoke n r ∧
      ((t.accepted.modKeys.any fun x => x.1 == fld r 0 8) = true))) = true ∧
    (let s : State := tAsk tKeys Mb.zlPortConfigure ((2 + 4 * 4 + 2^7 + 2^32 * 100)); let n : Nat := 0;
      let r : MbReq := tReq Mb.zlPortConfigure ((2 + 4 * 4 + 2^7 + 2^32 * 100)); let t := s.taken n;
      let c := { lanes := fld r 2 3, lr := fld r 5 1 == 1, fec := fld r 6 1 == 1, enable := fld r 7 1 == 1, credit := fld r 32 32 };
      decide (s.turn Mb.zlPortConfigure n r ∧ 1 ≤ c.lanes ∧ c.lanes ≤ 4 ∧ (c.lr && c.fec) = false ∧
      c.credit ≤ portBudget c t.accepted.period ∧
      (sumBy (fun x => x.write) t.grants + (t.accepted.portCredit - (t.accepted.ports.getD (fld r 0 2) PortCfg.default).credit) + c.credit ≤ t.accepted.writeCap t.accepted.period))) = true ∧
    (let s : State := tAsk tKeys Mb.zlNodeSet 65534; let n : Nat := 0; let r : MbReq := tReq Mb.zlNodeSet 65534;
      decide (s.turn Mb.zlNodeSet n r)) = true ∧
    (let s : State := tAsk tKeys Mb.zlTrustEnroll ((6 + 2^8)); let n : Nat := 0;
      let r : MbReq := tReq Mb.zlTrustEnroll ((6 + 2^8)); decide (s.turn Mb.zlTrustEnroll n r)) = true ∧
    (let s : State := tAsk tKeys Mb.zlTrustRevoke 7; let n : Nat := 0; let r : MbReq := tReq Mb.zlTrustRevoke 7;
      let t := s.taken n; decide (s.turn Mb.zlTrustRevoke n r ∧
      ((t.accepted.trust.any fun x => x.1 == fldB r 0 1) = true))) = true := by
  decide +kernel

theorem witness_FunctionCommandsActAtOnce :
    (let s : State := tAsk tVf Mb.fnCreate ((63 + 2^16 + 2^32 + 2^48)); let n : Nat := 0;
      let r : MbReq := tReq Mb.fnCreate ((63 + 2^16 + 2^32 + 2^48)); let t := s.taken n;
      decide (s.turn Mb.fnCreate n r ∧ t.createRefusal r = none)) = true ∧
    (let s : State := tAsk tVf Mb.fnDestroy 1; let n : Nat := 0; let r : MbReq := tReq Mb.fnDestroy 1;
      let t := s.taken n; decide (s.turn Mb.fnDestroy n r ∧ t.fnExists (fld r 0 16) = true ∧ fld r 0 16 ≠ 0)) = true ∧
    (let s : State := tAsk tVf Mb.fnDestroy 255; let n : Nat := 0; let r : MbReq := tReq Mb.fnDestroy 255;
      let t := s.taken n; decide (s.turn Mb.fnDestroy n r ∧ t.fnExists (fld r 0 16) = false)) = true ∧
    (let s : State := tAsk tVf Mb.fnReset 1; let n : Nat := 0; let r : MbReq := tReq Mb.fnReset 1;
      decide (s.turn Mb.fnReset n r)) = true ∧
    (let s : State := tAsk tVf Mb.fnQueueCreate ((15 + 2^16 * 4096 + 2^32 * 15)); let n : Nat := 0;
      let r : MbReq := tReq Mb.fnQueueCreate ((15 + 2^16 * 4096 + 2^32 * 15)); let t := s.taken n;
      decide (s.turn Mb.fnQueueCreate n r ∧ fld r 0 16 < (t.grantOf n).qpairs ∧ t.pair? n (fld r 0 16) = none ∧
      pow2In (fld r 16 16) 16 4096 = true ∧ fld r 32 16 < (t.grantOf n).vectors ∧ fld r 48 16 = 0 ∧ fldB r 24 8 = 0 ∧
      fldB r 8 8 % 4096 = 0 ∧ fldB r 16 8 % 4096 = 0 ∧ t.dmaOk n (fldB r 8 8) (64 * fld r 16 16) = true ∧
      t.dmaOk n (fldB r 16 8) (16 * fld r 16 16) = true)) = true ∧
    (let s : State := tAsk tVf Mb.fnQueueDelete 1; let n : Nat := 0; let r : MbReq := tReq Mb.fnQueueDelete 1;
      let t := s.taken n; (t.pair? n (fld r 0 16)).any fun p => decide (s.turn Mb.fnQueueDelete n r ∧
      p.st ≠ PairState.deleting ∧ s.longsOpen n < 8)) = true ∧
    (let s : State := tAsk tVf Mb.fnCmdAbort ((1 + 2^16 * 5)); let n : Nat := 0;
      let r : MbReq := tReq Mb.fnCmdAbort ((1 + 2^16 * 5)); let t := s.taken n;
      (t.targetFn n (fld r 32 16)).any fun k => (t.pair? k (fld r 0 16)).any fun _p => decide (s.turn Mb.fnCmdAbort n r ∧
      t.cmd? k (fld r 0 16) (fld r 16 16) = none)) = true ∧
    (let s : State := tAsk tCmds Mb.fnCmdAbort ((1 + 2^16 * 5)); let n : Nat := 0;
      let r : MbReq := tReq Mb.fnCmdAbort ((1 + 2^16 * 5)); let t := s.taken n;
      (t.targetFn n (fld r 32 16)).any fun k => (t.pair? k (fld r 0 16)).any fun _p => decide (s.turn Mb.fnCmdAbort n r) && (t.cmd? k (fld r 0 16) (fld r 16 16)).any fun c => decide (c.e.opc ≠ opExec ∧ c.unstarted = true)) = true ∧
    (let s : State := tAsk ({ tCmds with q := { tCmds.q with cmds := [{ tCmd 0 1 2 5 with stage := .waiting, done := 1 }] } }) Mb.fnCmdAbort ((1 + 2^16 * 5));
      let n : Nat := 0; let r : MbReq := tReq Mb.fnCmdAbort ((1 + 2^16 * 5)); let t := s.taken n;
      (t.targetFn n (fld r 32 16)).any fun k => (t.pair? k (fld r 0 16)).any fun _p => decide (s.turn Mb.fnCmdAbort n r) && (t.cmd? k (fld r 0 16) (fld r 16 16)).any fun c => decide (c.e.opc ≠ opExec ∧ c.unstarted = false)) = true ∧
    (let s : State := tAsk tRunI Mb.fnCmdAbort ((1 + 2^16 * 5)); let n : Nat := 0;
      let r : MbReq := tReq Mb.fnCmdAbort ((1 + 2^16 * 5)); let t := s.taken n;
      (t.targetFn n (fld r 32 16)).any fun k => (t.pair? k (fld r 0 16)).any fun _p => decide (s.turn Mb.fnCmdAbort n r) && (t.cmd? k (fld r 0 16) (fld r 16 16)).any fun c => decide (c.e.opc = opExec ∧ c.stage = Stage.execing ∧
      (t.execState c = some InstState.running ∨ t.execState c = some InstState.starting))) = true ∧
    (let s : State := tAsk tStart Mb.fnCmdAbort ((1 + 2^16 * 5)); let n : Nat := 0;
      let r : MbReq := tReq Mb.fnCmdAbort ((1 + 2^16 * 5)); let t := s.taken n;
      (t.targetFn n (fld r 32 16)).any fun k => (t.pair? k (fld r 0 16)).any fun _p => decide (s.turn Mb.fnCmdAbort n r) && (t.cmd? k (fld r 0 16) (fld r 16 16)).any fun c => decide (c.e.opc = opExec ∧ c.stage = Stage.execing ∧
      t.execState c = some InstState.waitEngines)) = true ∧
    (let s : State := tAsk ({ tRunI with anv := { tRunI.anv with insts := [tInst .ending] } }) Mb.fnCmdAbort ((1 + 2^16 * 5));
      let n : Nat := 0; let r : MbReq := tReq Mb.fnCmdAbort ((1 + 2^16 * 5)); let t := s.taken n;
      (t.targetFn n (fld r 32 16)).any fun k => (t.pair? k (fld r 0 16)).any fun _p => decide (s.turn Mb.fnCmdAbort n r) && (t.cmd? k (fld r 0 16) (fld r 16 16)).any fun c => decide (c.e.opc = opExec ∧ c.stage = Stage.execing ∧
      t.execState c = some InstState.ending)) = true ∧
    (let s : State := tAsk tCmds Mb.fnEventConfigure ((4096 + 2^64 * 4096)); let n : Nat := 0;
      let r : MbReq := tReq Mb.fnEventConfigure ((4096 + 2^64 * 4096)); let t := s.taken n;
      decide (s.turn Mb.fnEventConfigure n r ∧ pow2In (fld r 64 16) 64 4096 = true ∧ fldB r 0 8 % 4096 = 0 ∧
      fld r 80 48 = 0 ∧ t.dmaOk n (fldB r 0 8) (16 * fld r 64 16) = true)) = true := by
  decide +kernel

theorem witness_HaloTableCommands :
    (let s : State := tAsk tHalo Mb.haloTableCreate ((7 + 2^8)); let n : Nat := 0;
      let r : MbReq := tReq Mb.haloTableCreate ((7 + 2^8)); let t := s.taken n;
      decide (s.turn Mb.haloTableCreate n r ∧ t.halo.tables.length < 256 ∧ (bitAt r.payload 11 = true → n = 0 ∧
      t.classTable = none ∧ wordOk (BitVec.ofNat 32 (fld r 32 32)) = true) ∧
      fld r 0 8 * fld r 8 3 ≤ t.banksFree n)) = true ∧
    (let s : State := tAsk tHalo Mb.haloTableDestroy 9; let n : Nat := 0;
      let r : MbReq := tReq Mb.haloTableDestroy 9; let t := s.taken n;
      (t.tableFor n (fld r 0 8) true).any fun _x => decide (s.turn Mb.haloTableDestroy n r)) = true ∧
    (let s : State := tAsk tHalo Mb.haloTableDelete ((9 + 2^32)); let n : Nat := 0;
      let r : MbReq := tReq Mb.haloTableDelete ((9 + 2^32)); let t := s.taken n; let u := t.settleTable (fld r 0 8);
      (u.tableFor n (fld r 0 8) false).any fun x => (List.find? (fun e => e.id == fld r 32 32) x.entries).any fun _e => decide (s.turn Mb.haloTableDelete n r ∧
      x.compacting = false)) = true ∧
    (let s : State := tAsk tHalo Mb.haloTableModify ((2^256 * 9 + 2^264 * 7 + 2^288 * 1)); let n : Nat := 0;
      let r : MbReq := tReq Mb.haloTableModify ((2^256 * 9 + 2^264 * 7 + 2^288 * 1)); let t := s.taken n;
      let u := t.settleTable (fldB r 32 1);
      (u.tableFor n (fldB r 32 1) false).any fun x => (List.find? (fun e => e.id == fldB r 36 4) x.entries).any fun e => decide (s.turn Mb.haloTableModify n r ∧
      x.compacting = false ∧ u.entryCheck x (reqValue r) (reqMask r) (reqWord r) = none ∧
      e.prio = fldB r 33 1)) = true ∧
    (let s : State := tAsk tHalo Mb.haloTableInsert ((2^256 * 9 + 2^264 * 7 + 2^272)); let n : Nat := 0;
      let r : MbReq := tReq Mb.haloTableInsert ((2^256 * 9 + 2^264 * 7 + 2^272)); let t := s.taken n;
      let u := t.settleTable (fldB r 32 1);
      (u.tableFor n (fldB r 32 1) false).any fun x => (x.place (fldB r 33 1) (fld r 272 2) (fldB r 36 4)).any fun i => decide (s.turn Mb.haloTableInsert n r ∧
      x.compacting = false ∧ u.entryCheck x (reqValue r) (reqMask r) (reqWord r) = none ∧
      (fld r 272 2 = 2 → Option.all (fun e => e.prio == fldB r 33 1) x.entries[i]? = true)) && (let lo : Nat := 9;
      let hi : Nat := 10; decide (x.room i = Room.free lo hi))) = true ∧
    (let s : State := tAsk (tHaloT { tTable with entries := [{ tEntry with slot := 0 }] }) Mb.haloTableInsert ((2^256 * 9 + 2^264 * 7 + 2^272));
      let n : Nat := 0; let r : MbReq := tReq Mb.haloTableInsert ((2^256 * 9 + 2^264 * 7 + 2^272));
      let t := s.taken n; let u := t.settleTable (fldB r 32 1);
      (u.tableFor n (fldB r 32 1) false).any fun x => (x.place (fldB r 33 1) (fld r 272 2) (fldB r 36 4)).any fun i => decide (s.turn Mb.haloTableInsert n r ∧
      x.compacting = false ∧ u.entryCheck x (reqValue r) (reqMask r) (reqWord r) = none ∧
      (fld r 272 2 = 2 → Option.all (fun e => e.prio == fldB r 33 1) x.entries[i]? = true)) && (let slot : Nat := 0;
      let ms : List (Nat × Nat) := [(0, 1)]; decide (x.room i = Room.moves slot ms ∧
      ms.length ≤ u.param 1809 0))) = true ∧
    (let s : State := tAsk ({ tHaloT { tTable with entries := [{ tEntry with slot := 0 }] } with store := { tHalo.store with params := [⟨0x0711, 0, 0⟩] } }) Mb.haloTableInsert ((2^256 * 9 + 2^264 * 7 + 2^272));
      let n : Nat := 0; let r : MbReq := tReq Mb.haloTableInsert ((2^256 * 9 + 2^264 * 7 + 2^272));
      let t := s.taken n; let u := t.settleTable (fldB r 32 1);
      (u.tableFor n (fldB r 32 1) false).any fun x => (x.place (fldB r 33 1) (fld r 272 2) (fldB r 36 4)).any fun i => decide (s.turn Mb.haloTableInsert n r ∧
      x.compacting = false ∧ u.entryCheck x (reqValue r) (reqMask r) (reqWord r) = none ∧
      (fld r 272 2 = 2 → Option.all (fun e => e.prio == fldB r 33 1) x.entries[i]? = true)) && (let slot : Nat := 0;
      let ms : List (Nat × Nat) := [(0, 1)]; decide (x.room i = Room.moves slot ms ∧
      u.param 1809 0 < ms.length))) = true ∧
    (let s : State := tAsk (tHaloT { tTable with banks := 0, entries := [] }) Mb.haloTableInsert ((2^256 * 9 + 2^264 * 7 + 2^272));
      let n : Nat := 0; let r : MbReq := tReq Mb.haloTableInsert ((2^256 * 9 + 2^264 * 7 + 2^272));
      let t := s.taken n; let u := t.settleTable (fldB r 32 1);
      (u.tableFor n (fldB r 32 1) false).any fun x => (x.place (fldB r 33 1) (fld r 272 2) (fldB r 36 4)).any fun i => decide (s.turn Mb.haloTableInsert n r ∧
      x.compacting = false ∧ u.entryCheck x (reqValue r) (reqMask r) (reqWord r) = none ∧
      (fld r 272 2 = 2 → Option.all (fun e => e.prio == fldB r 33 1) x.entries[i]? = true) ∧
      x.room i = Room.full)) = true ∧
    (let s : State := tAsk tHalo Mb.haloTableCompact 9; let n : Nat := 0;
      let r : MbReq := tReq Mb.haloTableCompact 9; let t := s.taken n; let u := t.settleTable (fld r 0 8);
      (u.tableFor n (fld r 0 8) true).any fun x => decide (s.turn Mb.haloTableCompact n r ∧ x.compacting = false ∧
      u.longsOpen n < 8)) = true := by
  decide +kernel

theorem witness_ModulesAndProfiles :
    (let s : State := tAsk tAnv Mb.sqProfile 12; let n : Nat := 0; let r : MbReq := tReq Mb.sqProfile 12;
      let t := s.taken n; let k := if fld r 8 8 = 0 then n else fld r 8 8; decide (s.turn Mb.sqProfile n r ∧
      t.fnExists k = true)) = true ∧
    (let s : State := tAsk tAnv Mb.anvProfile 2; let n : Nat := 0; let r : MbReq := tReq Mb.anvProfile 2;
      let t := s.taken n; let k := if fld r 8 8 = 0 then n else fld r 8 8; decide (s.turn Mb.anvProfile n r ∧
      t.fnExists k = true)) = true ∧
    (let s : State := tAsk tAnv Mb.modLoad ((2^64 * 100)); let n : Nat := 0;
      let r : MbReq := tReq Mb.modLoad ((2^64 * 100)); let t := s.taken n; decide (s.turn Mb.modLoad n r ∧
      t.dmaOk n (fldB r 0 8) (fld r 64 32) = true ∧ s.longsOpen n < 8)) = true ∧
    (let s : State := tAsk tAnv Mb.modUnload 1; let n : Nat := 0; let r : MbReq := tReq Mb.modUnload 1;
      let t := s.taken n; (t.module? n (fld r 0 16)).any fun _m => decide (s.turn Mb.modUnload n r ∧
      ((s.anv.insts.any fun i => i.fn == n && i.handle == fld r 0 16) = false))) = true ∧
    (let s : State := tAnv; let n : Nat := 0; let id : Nat := 1;
      decide (((s.recs.longs.any fun l => l.id == id && l.fn == n && l.opcode == 2563 && l.status == none) = true) ∧
      s.fnExists n = true)) = true := by
  decide +kernel

theorem witness_GroupCommands :
    (let s : State := tAsk ({ tZl with zl := { tZl.zl with ports := [{ tPort with st := .down }, .reset, .reset] } }) Mb.zlPeerAdmit ((2^32 * 99));
      let n : Nat := 0; let r : MbReq := tReq Mb.zlPeerAdmit ((2^32 * 99)); decide (s.turn Mb.zlPeerAdmit n r ∧
      (s.port (fld r 0 2)).peerCert = fldB r 4 16 ∧ fldB r 4 16 ≠ 0 ∧ s.portUp (fld r 0 2) = false)) = true ∧
    (let s : State := tAsk tZl Mb.zlGroupForm 1; let n : Nat := 0; let r : MbReq := tReq Mb.zlGroupForm 1;
      decide (s.turn Mb.zlGroupForm n r ∧ s.node ≠ 0 ∧ s.zl.group = GroupState.solo ∧ s.longsOpen n < 8)) = true ∧
    (let s : State := tAsk tZl Mb.zlGroupJoin 1; let n : Nat := 0; let r : MbReq := tReq Mb.zlGroupJoin 1;
      let t := s.taken n; decide (s.turn Mb.zlGroupJoin n r ∧ s.node ≠ 0 ∧ t.grouped = false ∧ t.joiner = false ∧
      s.longsOpen n < 8)) = true ∧
    (let s : State := tAsk ((tGrp .member)) Mb.zlGroupLeave 0; let n : Nat := 0;
      let r : MbReq := tReq Mb.zlGroupLeave 0; decide (s.turn Mb.zlGroupLeave n r ∧ (s.zl.group = GroupState.member ∨
      s.zl.group = GroupState.reforming ∧ s.zl.master ≠ s.node))) = true ∧
    (let s : State := tAsk ({ tGrp .master with zl := { (tGrp .master).zl with members := [⟨1, 5⟩] } }) Mb.zlGroupLeave 0;
      let n : Nat := 0; let r : MbReq := tReq Mb.zlGroupLeave 0; decide (s.turn Mb.zlGroupLeave n r ∧
      s.zl.group = GroupState.master ∧ ((s.zl.members.any fun m => m.node != s.node) = false))) = true ∧
    (let s : State := tAsk tJoinW Mb.zlMemberAdmit ((4 + 2^16)); let n : Nat := 0;
      let r : MbReq := tReq Mb.zlMemberAdmit ((4 + 2^16));
      (List.find? (fun j => j.node == fld r 0 16 && j.waitingHost) s.zl.joins).any fun _j => decide (s.turn Mb.zlMemberAdmit n r ∧
      s.zl.group = GroupState.master)) = true ∧
    (let s : State := tAsk tZl Mb.zlRouteSet ((2 + 2^32 * 5 + 2^48 * 2 + 2^64 * 9)); let n : Nat := 0;
      let r : MbReq := tReq Mb.zlRouteSet ((2 + 2^32 * 5 + 2^48 * 2 + 2^64 * 9)); let t := s.taken n;
      (s.store.ns? (fldB r 0 4)).any fun x => decide (s.turn Mb.zlRouteSet n r ∧ x.isStream = true ∧
      t.streamBound (fldB r 0 4) (fldB r 4 2) = true)) = true ∧
    (let s : State := tAsk tRtes Mb.zlRouteClear ((2 + 2^32 * 5)); let n : Nat := 0;
      let r : MbReq := tReq Mb.zlRouteClear ((2 + 2^32 * 5)); decide (s.turn Mb.zlRouteClear n r)) = true ∧
    (let s : State := tAsk tZl Mb.zlMirrorBreak 3; let n : Nat := 0; let r : MbReq := tReq Mb.zlMirrorBreak 3;
      (s.store.ns? (fld r 0 32)).any fun x => decide (s.turn Mb.zlMirrorBreak n r ∧
      (x.mirror && x.replica) = false)) = true ∧
    (let s : State := tAsk tZl Mb.zlFenceClear 2; let n : Nat := 0; let r : MbReq := tReq Mb.zlFenceClear 2;
      decide (s.turn Mb.zlFenceClear n r)) = true := by
  decide +kernel

theorem witness_PowerAndFirmwareCommands :
    (let s : State := tAsk tRun Mb.pwStateSet 0; let n : Nat := 0; let r : MbReq := tReq Mb.pwStateSet 0;
      let t := s.taken n; decide (s.turn Mb.pwStateSet n r ∧ t.pstateRefusal (pstateOf (fld r 0 3)) = none)) = true ∧
    (let s : State := tAsk tRun Mb.pwHoldupMeasure 0; let n : Nat := 0; let r : MbReq := tReq Mb.pwHoldupMeasure 0;
      decide (s.turn Mb.pwHoldupMeasure n r ∧ s.pw.holdup.phase = HoldupPhase.idle ∧ s.pw.entry ≠ PowerEntry.toP3 ∧
      s.pw.entry ≠ PowerEntry.toP4 ∧ s.longsOpen n < 8 ∧ bitAt r.payload 0 = false)) = true ∧
    (let s : State := tAsk tRun Mb.pwHoldupMeasure 0xddcbaaf8000000000000000000000000000000000000000000000000000000000000005a00007530000007d00000fde800002ee000000000000000015055444800000001;
      let n : Nat := 0;
      let r : MbReq := tReq Mb.pwHoldupMeasure 0xddcbaaf8000000000000000000000000000000000000000000000000000000000000005a00007530000007d00000fde800002ee000000000000000015055444800000001;
      decide (s.turn Mb.pwHoldupMeasure n r ∧ s.pw.holdup.phase = HoldupPhase.idle ∧ s.pw.entry ≠ PowerEntry.toP3 ∧
      s.pw.entry ≠ PowerEntry.toP4 ∧
      s.longsOpen n < 8) && (let x : BoardRecord := (⟨0, 12000, 65000, 2000, 30000, 90⟩ : BoardRecord);
      decide (recordOf r = some x))) = true ∧
    (let s : State := tAsk tRun Mb.pwHoldupMeasure 1; let n : Nat := 0; let r : MbReq := tReq Mb.pwHoldupMeasure 1;
      decide (s.next Mb.pwHoldupMeasure n r ∧ n = 0 ∧ s.pw.st ≠ PState.halted ∧ s.fw.recovery = false ∧
      r.hdrRsv = 0 ∧ r.len = 68 ∧ fld r 1 31 = 0 ∧ bitAt r.payload 0 = true ∧ recordOf r = none)) = true ∧
    (let s : State := tAsk ({ tRun with pw := { tRun.pw with holdup := { tRun.pw.holdup with phase := .settling } } }) Mb.pwHoldupMeasure 0;
      let n : Nat := 0; let r : MbReq := tReq Mb.pwHoldupMeasure 0; decide (s.turn Mb.pwHoldupMeasure n r ∧
      s.pw.holdup.phase ≠ HoldupPhase.idle)) = true ∧
    (let s : State := tAsk tRun Mb.fwDownload 0; let n : Nat := 0; let r : MbReq := tReq Mb.fwDownload 0;
      decide (s.turn Mb.fwDownload n r ∧ s.fwInProgress = false ∧ s.fw.recovery = false ∧ s.fw.isCommitted = true ∧
      s.longsOpen n < 8)) = true ∧
    (let s : State := tAsk ({ tRun with fw := { tRun.fw with recovery := true } }) Mb.fwDownload 0; let n : Nat := 0;
      let r : MbReq := tReq Mb.fwDownload 0; decide (s.turn Mb.fwDownload n r ∧ s.fwInProgress = false ∧
      s.fw.recovery = true ∧ s.longsOpen n < 8)) = true ∧
    (let s : State := tAsk tRun Mb.fwActivate 2; let n : Nat := 0; let r : MbReq := tReq Mb.fwActivate 2;
      decide (s.turn Mb.fwActivate n r ∧ s.fwInProgress = false ∧ (s.fw.slot (fld r 0 1)).st = FwSlotState.valid ∧
      fld r 1 1 = 1 ∧ s.longsOpen n < 8)) = true ∧
    (let s : State := tAsk tRun Mb.fwActivate 0; let n : Nat := 0; let r : MbReq := tReq Mb.fwActivate 0;
      decide (s.turn Mb.fwActivate n r ∧ s.fwInProgress = false ∧ (s.fw.slot (fld r 0 1)).st = FwSlotState.valid ∧
      fld r 1 1 = 0 ∧ s.fw.needsReset (fld r 0 1) = false ∧ s.longsOpen n < 8)) = true ∧
    (let s : State := tAsk tRun Mb.fwCommit 0; let n : Nat := 0; let r : MbReq := tReq Mb.fwCommit 0;
      decide (s.turn Mb.fwCommit n r)) = true ∧
    (let s : State := tAsk tRun Mb.fwDebugChallenge 0; let n : Nat := 0; let r : MbReq := tReq Mb.fwDebugChallenge 0;
      decide (s.turn Mb.fwDebugChallenge n r ∧ s.fw.debug ≠ DebugState.disabled)) = true ∧
    (let s : State := tAsk tRun Mb.fwDebugUnlock 0; let n : Nat := 0; let r : MbReq := tReq Mb.fwDebugUnlock 0;
      decide (s.turn Mb.fwDebugUnlock n r ∧ s.fw.debug ≠ DebugState.disabled)) = true ∧
    (let s : State := tAsk tRun Mb.fwDebugDisable 1146048069; let n : Nat := 0;
      let r : MbReq := tReq Mb.fwDebugDisable 1146048069; decide (s.turn Mb.fwDebugDisable n r)) = true := by
  decide +kernel

theorem witness_DigestContexts :
    (let s : State := tRun; let n : Nat := 0; let i : Nat := 0; (s.dg[i]?).any fun c => decide (s.fnLive n = true ∧ c.st = DgState.free)) = true ∧
    (let s : State := tDg .active 0; let n : Nat := 0; let i : Nat := 15;
      (s.dg[i]?).any fun c => decide (s.fnLive n = true ∧ c.st ≠ DgState.free ∧ c.owner = n) && (let a : Nat := 1;
      decide (1 ≤ a ∧ a ≤ 5))) = true ∧
    (let s : State := tDg .active 0; let n : Nat := 0; let i : Nat := 15;
      (s.dg[i]?).any fun c => decide (s.fnLive n = true ∧ c.st ≠ DgState.free ∧ c.owner = n) && (let a : Nat := 0;
      decide ((a = 0 ∨ 5 < a)))) = true ∧
    (let s : State := tDg .active 0; let n : Nat := 0; let i : Nat := 15;
      (s.dg[i]?).any fun c => decide (s.fnLive n = true ∧ c.st ≠ DgState.free ∧ c.owner = n) && (let w : Nat := 4;
      decide ((w = 4 ∨ w = 8) ∧ c.st = DgState.active ∧ c.full < 2 ∧ c.msgLen + w < 2 ^ 61))) = true ∧
    (let s : State := tDg .active 0; let n : Nat := 1; let i : Nat := 15;
      (s.dg[i]?).any fun c => decide (s.fnLive n = true ∧ c.st ≠ DgState.free ∧ c.owner ≠ n)) = true ∧
    (let s : State := tDg .idle 0; let n : Nat := 0; let i : Nat := 15;
      (s.dg[i]?).any fun c => decide (s.fnLive n = true ∧ c.st ≠ DgState.free ∧ c.owner = n) && (let w : Nat := 4;
      decide ((w = 4 ∨ w = 8) ∧ (c.st = DgState.idle ∨ c.st = DgState.finalising ∨ c.st = DgState.done)))) = true ∧
    (let s : State := tDg .error 0; let n : Nat := 0; let i : Nat := 15;
      (s.dg[i]?).any fun c => decide (s.fnLive n = true ∧ c.st ≠ DgState.free ∧ c.owner = n) && (let w : Nat := 4;
      decide ((w = 4 ∨ w = 8) ∧ c.st = DgState.error))) = true ∧
    (let s : State := tDg .finalising 0; let i : Nat := 15;
      (s.dg[i]?).any fun c => decide (c.st = DgState.finalising)) = true ∧
    (let s : State := tDgB (2^61 - 8) 0; let n : Nat := 0; let i : Nat := 15;
      (s.dg[i]?).any fun c => decide (s.fnLive n = true ∧ c.st ≠ DgState.free ∧ c.owner = n) && (let w : Nat := 8;
      decide ((w = 4 ∨ w = 8) ∧ c.st = DgState.active ∧ c.full < 2 ∧ 2 ^ 61 ≤ c.msgLen + w))) = true ∧
    (let s : State := tDgB 56 2; let n : Nat := 0; let i : Nat := 15;
      (s.dg[i]?).any fun c => decide (s.fnLive n = true ∧ c.st ≠ DgState.free ∧ c.owner = n) && (let w : Nat := 4;
      decide ((w = 4 ∨ w = 8) ∧ c.st = DgState.active ∧ 2 ≤ c.full))) = true := by
  decide +kernel

theorem witness_DigestResultRead :
    (let s : State := tDg .active 0; let n : Nat := 0; let i : Nat := 15; let j : Nat := 7;
      (s.dg[i]?).any fun c => decide (s.fnLive n = true ∧ i < 16 ∧ j < 8 ∧ c.owner = n ∧ (c.st = DgState.active ∨
      c.st = DgState.finalising ∨ c.st = DgState.idle ∨ c.st = DgState.error))) = true ∧
    (let s : State := { tRun with dg := tRun.dg.set 15 { DgCtx.free with st := .done, alg := 1, done := true, result := (List.range 64).map fun i => BitVec.ofNat 8 i } }; let n : Nat := 0;
      let i : Nat := 15; let j : Nat := 7; (s.dg[i]?).any fun c => decide (s.fnLive n = true ∧ i < 16 ∧ j < 8 ∧
      c.owner = n ∧ c.st = DgState.done)) = true := by
  decide +kernel

theorem witness_RegisterReadsLatch :
    (let s : State := tSamp; let n : Nat := 0; let o : Nat := 0x0600;
      (s.fn? n).any fun _f => decide (s.badAccess n o = true ∧ o < 2 ^ 32)) = true ∧
    (let s : State := tSamp; let n : Nat := 0;
      (s.fn? n).any fun _f => decide (((s.inForce.claims.any fun c => c.opcode == 3587) = true))) = true ∧
    (let s : State := tSamp; let n : Nat := 0; let o : Nat := 0x0000;
      (s.fn? n).any fun _f => decide (s.badAccess n o = false ∧ o < 2 ^ 32 ∧ (regsAll.contains o = true ∨
      regsPf0.contains o = true))) = true ∧
    (let s : State := tSamp; let n : Nat := 0; let o : Nat := 0x0000;
      (s.fn? n).any fun _f => decide (s.badAccess n (o + 4) = false ∧ o + 4 < 2 ^ 32 ∧ (regsAll.contains o = true ∨
      regsPf0.contains o = true))) = true ∧
    (let s : State := tSamp; let n : Nat := 0; let o : Nat := 0x2100;
      (s.fn? n).any fun _f => decide (s.fnLive n = true ∧ o = 8448)) = true ∧
    (let s : State := tSamp; let n : Nat := 0; let o : Nat := 0x2200;
      (s.fn? n).any fun _f => decide (s.fnLive n = true ∧ n = 0 ∧ o = 8704)) = true ∧
    (let s : State := tSamp; let n : Nat := 0; let o : Nat := 0x2240;
      (s.fn? n).any fun _f => decide (s.fnLive n = true ∧ n = 0 ∧ o = 8768)) = true := by
  decide +kernel

theorem witness_RegisterWrites :
    (let s : State := tDg .active 0; let n : Nat := 0; let o : Nat := 0x0818 + 0x80 * 15;
      (s.fn? n).any fun _f => decide (s.fnLive n = true) && (let i : Nat := 15;
      (s.dg[i]?).any fun c => decide (i < 16 ∧ c.st ≠ DgState.free ∧ c.owner = n ∧ o = 2072 + 128 * i))) = true ∧
    (let s : State := tDg .active 0; let n : Nat := 0; let o : Nat := 0x0818 + 0x80 * 15;
      (s.fn? n).any fun _f => decide (s.fnLive n = true) && (let w : Nat := 0;
      decide (alignedAccess (o % 2 ^ 32) w = false))) = true ∧
    (let s : State := tDg .active 0; let n : Nat := 0; let o : Nat := 0x1000;
      (s.fn? n).any fun _f => decide (s.fnLive n = true) && (let w : Nat := 4; decide ((w = 4 ∨ w = 8) ∧ o % w = 0 ∧
      4096 ≤ o ∧ o < 4096 + areaSize n))) = true ∧
    (let s : State := tAsk tRun Mb.hzStatus 0; let n : Nat := 0; let v : Nat := 3;
      (s.fn? n).any fun _f => decide (s.fnLive n = true ∧ bitAt v 0 = true)) = true ∧
    (let s : State := tAsk tRun Mb.hzStatus 0; let n : Nat := 0; let v : Nat := 3;
      (s.fn? n).any fun _f => decide (s.fnLive n = true) && (let i : Nat := 15; decide (i < 16 ∧
      dgMany v = true))) = true ∧
    (let s : State := tVf; let n : Nat := 1; let o : Nat := 0x1400;
      (s.fn? n).any fun _f => decide (s.fnLive n = true) && (let w : Nat := 4; decide ((w = 4 ∨ w = 8) ∧ o % w = 0 ∧
      o < 2 ^ 32 ∧ s.badAccess n o = true))) = true ∧
    (let s : State := tVf; let n : Nat := 1; let o : Nat := 0x0000;
      (s.fn? n).any fun _f => decide (s.fnLive n = true ∧ regsAll.contains o = true ∧ o ≠ 512 ∧ o ≠ 520 ∧ o ≠ 768 ∧
      o ≠ 8200)) = true := by
  decide +kernel

theorem witness_MailboxTransport :
    (let s : State := tArea; let n : Nat := 0;
      (s.fn? n).any fun f => decide (s.fnLive n = true) && (let q := requestOf f.mb.area (areaSize n);
      decide (f.mb.state ≠ 1 ∧ ((catalogue.any fun m => m.opcode == q.1) = true)))) = true ∧
    (let s : State := tArea; let n : Nat := 0; let v : Nat := 3; (s.fn? n).any fun f => decide (s.fnLive n = true ∧ v < f.evq.entries ∧
      (v + f.evq.entries - f.evq.head) % f.evq.entries ≤ f.evq.used ∧ f.evq.overflow = 0)) = true ∧
    (let s : State := tArea; let n : Nat := 0; let v : Nat := 4; (s.fn? n).any fun f => decide (s.fnLive n = true ∧ (f.evq.entries ≤ v ∨
      f.evq.used < (v + f.evq.entries - f.evq.head) % f.evq.entries))) = true ∧
    (let s : State := tVf; let n : Nat := 0;
      (s.fn? n).any fun f => decide (s.fnLive n = true) && (let q := requestOf f.mb.area (areaSize n);
      decide (f.mb.state ≠ 1 ∧ ((catalogue.any fun m => m.opcode == q.1) = false) ∧ s.pw.st ≠ PState.halted))) = true ∧
    (let s : State := tAsk tRun Mb.hzStatus 0; let n : Nat := 0; (s.fn? n).any fun f => decide (s.fnLive n = true ∧ f.mb.state = 1)) = true ∧
    (let s : State := tRep none; let n : Nat := 0;
      (s.fn? n).any fun f => decide (s.fnLive n = true) && f.mb.reply.any fun r => decide (s.fwRuns = true ∧ r.due s.hz.sealed = true)) = true ∧
    (let s : State := tRep (some 7); let n : Nat := 0;
      (s.fn? n).any fun f => decide (s.fnLive n = true) && f.mb.reply.any fun r => decide (r.due s.hz.sealed = false)) = true := by
  decide +kernel

theorem witness_LinkAndBusMaster :
    (let s : State := tVf; let g : Nat := 2; decide (2 ≤ g ∧ g ≤ s.param 528 0 ∧ s.inForce.linkFloor ≤ g)) = true ∧
    (let s : State := tVf; decide (s.link.gen ≠ 0)) = true ∧
    (let s : State := { tVf with store := { tVf.store with linkFloor := 4 } }; let g : Nat := 2; decide (2 ≤ g ∧
      g ≤ s.param 528 0 ∧ g < s.inForce.linkFloor)) = true ∧
    (let s : State := { tVf with link := { tVf.link with gen := 0, trained := 0 }, q := { tVf.q with held := [(1, .msix 1 0)] } };
      let n : Nat := 1; let w : HostWrite := HostWrite.msix 1 0; decide (s.q.held = [(n, w)] ∧
      s.dmaHeld n = true)) = true ∧
    (let s : State := { tVf with q := { tVf.q with held := [(1, .msix 1 0)] } }; let n : Nat := 1;
      let w : HostWrite := HostWrite.msix 1 0; decide (s.q.held = [(n, w)] ∧ s.dmaHeld n = false)) = true := by
  decide +kernel

theorem witness_FunctionResets :
    (let s : State := tCmds; decide (s.fnState 0 = FnState.active) && (let i : Instr := Instr.flr 0;
      decide ((i = Instr.flr 0 ∨ i = Instr.tunnelledLinkReset ∨ i = Instr.usb4LinkDownTimeout ∧
      s.link.recovering = true)))) = true ∧
    (let s : State := tCmds; let n : Nat := 0; (s.fn? n).any fun f => decide (s.resetDue f = false)) = true ∧
    (let s : State := tCmds; let n : Nat := 1; decide (n ≠ 0 ∧ s.fnState n = FnState.active)) = true ∧
    (let s : State := tCmds; let n : Nat := 2; decide (n ≠ 0 ∧ s.fnState n ≠ FnState.active)) = true ∧
    (let s : State := { tCmds with link := { tCmds.link with vfEnable := false, recovering := true } };
      let v : Nat := 0; decide (s.link.mode = 0 ∧ s.link.vfEnable = false ∧ v ≤ 63)) = true ∧
    (let s : State := tResetting .resetting; let n : Nat := 1;
      (s.fn? n).any fun f => decide (s.resetDue f = true)) = true ∧
    (let s : State := { tResetting .resetting with anv := { Anvil.reset with zeroing := [1] } }; let n : Nat := 1;
      decide (s.anv.zeroing.contains n = true)) = true := by
  decide +kernel

theorem witness_TickPhases :
    (let s : State := tWin; s.oldest.any fun e => let a : Nat := 0; decide (s.hz.ticking = true ∧
      s.hz.phase = Phase.sealWindow ∧ s.ready e = true ∧ s.ageOf e = 2 ∧ e.isLate = false ∧
      s.flash.inhibited = false ∧ a + 5000 ≤ s.periodNs)) = true ∧
    (let s : State := tLateE; s.sealing.any fun e => decide (s.hz.ticking = true ∧ s.hz.phase = Phase.accept ∧
      (e.isLate = true ∨ e.empty = false))) = true ∧
    (let s : State := tLateE; s.oldest.any fun e => decide (s.hz.ticking = true ∧ s.pw.restarting = false ∧
      s.ready e = true ∧ e.isLate = true ∧ s.flash.inhibited = false)) = true ∧
    (let s : State := tSlack; decide (s.hz.ticking = true ∧ s.hz.phase ≠ Phase.accept ∧ s.lateDue = none ∧
      s.ringDue = none ∧ s.unsealedDue = false ∧ s.hz.tickIn.switchDue = false)) = true ∧
    (let s : State := { tRun with hz := { tRun.hz with epochs := [tEp 9 false] } }; decide (s.hz.ticking = true ∧
      s.hz.phase = Phase.accept ∧ s.sealing = none)) = true ∧
    (let s : State := { tRun with store := { tRun.store with highWater := 50 } };
      s.sealing.any fun e => decide (s.hz.ticking = true ∧ s.hz.phase = Phase.accept ∧ e.isLate = false ∧
      s.flash.moves = [] ∧ s.programsNothing e s.joinMark = true)) = true := by
  decide +kernel

theorem witness_HorizonFaults :
    (let s : State := tRun; decide (s.hz.ticking = true ∧ (s.hz.st = HzState.running ∨ s.hz.st = HzState.late) ∧
      s.lateDue = none)) = true ∧
    (let s : State := tRun; decide (s.hz.ticking = true ∧ (s.hz.st = HzState.running ∨ s.hz.st = HzState.late) ∧
      s.ringDue = none)) = true ∧
    (let s : State := tWin; decide (s.hz.ticking = true ∧ (s.hz.st = HzState.running ∨
      s.hz.st = HzState.late)) && s.lateDue.any fun _e => true) = true ∧
    (let s : State := tRing; decide (s.hz.ticking = true ∧ (s.hz.st = HzState.running ∨
      s.hz.st = HzState.late)) && s.ringDue.any fun e => decide (s.hz.commitHeld < e.n)) = true ∧
    (let s : State := tRing; decide (s.hz.ticking = true ∧ (s.hz.st = HzState.running ∨
      s.hz.st = HzState.late)) && s.ringDue.any fun e => decide (s.hz.ringMark < e.n ∧ s.hz.phase ≠ Phase.accept)) = true := by
  decide +kernel

theorem witness_HaltedEntered :
    (let s : State := tN6; decide (s.hz.ticking = true ∧ s.unsealedDue = true)) = true := by
  decide +kernel

theorem witness_HaltedStops :
    (let m : MbMeta := Mb.hzStatus; decide (m ∈ catalogue ∧ m ≠ Mb.devIdentify ∧ m ≠ Mb.devCertRead ∧
      m ≠ Mb.logRead ∧ m ≠ Mb.logStatus)) = true := by
  decide +kernel

theorem witness_ClockAndShockInputs :
    (let s : State := tTick tTi 0; let err : Int := 3; let iv : Nat := 1005001; let t := s.hz.tickIn;
      decide (t.watching = true ∧ s.hz.ticking = true ∧ s.edgeOk err iv = false)) = true ∧
    (let s : State := tTick tTi 0;
      (List.find? (fun e => e.closed && !e.intentOk && !e.isSealed && (decide (e.n < s.hz.epoch) || s.pw.st == PState.draining)) s.hz.epochs).any fun _e => decide (s.programsRun = true ∧
      s.flash.inhibited = false)) = true ∧
    (let s : State := tTick tTi 0; let err : Int := 3; let iv : Nat := 1000100; let t := s.hz.tickIn;
      decide (t.watching = true ∧ s.hz.ticking = true ∧ s.edgeOk err iv = true ∧ t.locked = false)) = true ∧
    (let s : State := tTick { tTi with locked := true } 1; let t := s.hz.tickIn; decide (s.hz.ticking = true ∧
      s.hz.source = 1 ∧ t.locked = true ∧ t.misses < 2)) = true ∧
    (let s : State := tTick { tTi with locked := true, misses := 1 } 1; let err : Int := -2000;
      let iv : Nat := 1000100; let t := s.hz.tickIn; decide (t.watching = true ∧ s.hz.ticking = true ∧
      s.edgeOk err iv = true ∧ t.locked = true)) = true ∧
    (let s : State := tTick { tTi with locked := true, misses := 2, lastHit := true } 1; let t := s.hz.tickIn;
      decide (s.hz.ticking = true ∧ s.hz.source = 1 ∧ t.locked = true ∧ 2 ≤ t.misses)) = true ∧
    (let s : State := tTick { tTi with watchFrom := 0 } 1; let t := s.hz.tickIn; decide (s.hz.ticking = true ∧
      s.hz.source = 1 ∧ t.locked = false)) = true ∧
    (let s : State := { tTick tTi 0 with hz := { (tTick tTi 0).hz with epoch := 1024 } }; let t := s.hz.tickIn;
      decide (s.hz.ticking = true ∧ t.watching = true ∧ s.hz.source ≠ 1 ∧ t.watchFrom + 1024 ≤ s.hz.epoch)) = true ∧
    (let s : State := tShock; decide (((s.inForce.claims.any fun c => c.opcode == 262) = true) ∧ s.hz.st ≠ HzState.halted) && ((s.shockTargets).head?).any fun x => (s.freezeNs x).any fun _u => decide (s.hz.ticking = true ∧ s.ns.holdoff = false ∧
      s.shockTargets = [x] ∧ s.param 801 0 ≠ 0)) = true ∧
    (let s : State := { tShock with ns := { tShock.ns with holdoff := true } };
      decide (((s.inForce.claims.any fun c => c.opcode == 262) = true) ∧ s.hz.st ≠ HzState.halted ∧
      s.ns.holdoff = true)) = true ∧
    (let s : State := { tShock with hz := { tShock.hz with ticking := false, st := .stopped }, pw := { tShock.pw with st := .p4 } };
      decide (((s.inForce.claims.any fun c => c.opcode == 262) = true) ∧ s.hz.st ≠ HzState.halted ∧
      s.hz.ticking = false ∧ s.ns.holdoff = false ∧ (s.pw.st = PState.boot ∨ s.pw.st = PState.held ∨
      s.pw.st = PState.p4 ∨ s.pw.st = PState.stopped))) = true ∧
    (let s : State := { tShock with hz := { tShock.hz with ticking := false, st := .draining }, pw := { tShock.pw with st := .draining } };
      decide (((s.inForce.claims.any fun c => c.opcode == 262) = true) ∧ s.hz.st ≠ HzState.halted ∧
      s.hz.ticking = false ∧ s.ns.holdoff = false ∧ s.pw.st = PState.draining)) = true ∧
    (let s : State := tVerS; let i : Nat := 4; let k : Nat := 0;
      (s.store.ns? i).any fun n => (n.slots[k]?).any fun x => ((s.slotsAccepted n)[k]?).any fun y => decide (x.st = SlotState.verifyPending ∧
      y.st = SlotState.verifyPending ∧ s.hz.ticking = true ∧ s.slotLost n k x.len = false)) = true := by
  decide +kernel

theorem witness_Doorbells :
    (let s : State := tQ tPair; let n : Nat := 0; let q : Nat := 1; let v : Nat := 15;
      (s.pairLive n q).any fun p => decide (p.st = PairState.active ∧ v ≠ p.cqHead ∧ (p.depth ≤ v ∨
      p.cqUsed < (v + p.depth - p.cqHead) % p.depth))) = true ∧
    (let s : State := tQ tPair; let n : Nat := 0; let q : Nat := 1; let v : Nat := 16;
      (s.pairLive n q).any fun p => decide (p.st = PairState.active ∧ p.depth ≤ v ∧ v ≠ p.sqTail)) = true ∧
    (let s : State := tQ { tPair with cqTail := 3, entries := [tCq, tCq, tCq] }; let n : Nat := 0; let q : Nat := 1;
      let v : Nat := 3; (s.pairLive n q).any fun p => decide (p.st = PairState.active ∧ v ≠ p.cqHead ∧ v < p.depth ∧
      (v + p.depth - p.cqHead) % p.depth ≤ p.cqUsed)) = true ∧
    (let s : State := tQ tPair; let n : Nat := 0; let q : Nat := 2; decide (s.pairLive n q = none)) = true ∧
    (let s : State := tQ { tPair with st := .stopped }; let n : Nat := 0; let q : Nat := 1;
      (s.pairLive n q).any fun p => decide (p.st ≠ PairState.active)) = true := by
  decide +kernel

theorem witness_FetchAndEnds :
    (let s : State := tCmds; let n : Nat := 0;
      ((s.nextPair n (assoc s.q.rr n, 0)).map Prod.fst).any fun p => ((s.nextPair n (assoc s.q.rr n, 0)).map Prod.snd).any fun left => let e : SqEntry := tE 1 7; decide (s.fetches n = true ∧
      s.nextPair n (assoc s.q.rr n, 0) = some (p, left) ∧ s.hz.st ≠ HzState.halted ∧ s.cmd? p.fn p.qid e.cid = none ∧
      1 ≤ e.opc ∧ e.opc ≤ 6)) = true ∧
    (let s : State := tCmds; let n : Nat := 0;
      ((s.nextPair n (assoc s.q.rr n, 0)).map Prod.fst).any fun p => ((s.nextPair n (assoc s.q.rr n, 0)).map Prod.snd).any fun left => let e : SqEntry := tE 1 5; decide (s.fetches n = true ∧
      s.nextPair n (assoc s.q.rr n, 0) = some (p, left) ∧ s.hz.st ≠ HzState.halted ∧
      (s.cmd? p.fn p.qid e.cid).isSome = true)) = true ∧
    (let s : State := tCmds; let n : Nat := 0;
      ((s.nextPair n (assoc s.q.rr n, 0)).map Prod.fst).any fun p => ((s.nextPair n (assoc s.q.rr n, 0)).map Prod.snd).any fun left => let e : SqEntry := tE 0 7; decide (s.fetches n = true ∧
      s.nextPair n (assoc s.q.rr n, 0) = some (p, left) ∧ s.hz.st ≠ HzState.halted ∧ s.cmd? p.fn p.qid e.cid = none ∧
      (e.opc = 0 ∨ 6 < e.opc))) = true ∧
    (let s : State := tCmds; let n : Nat := 0; let q : Nat := 1; let c : Cmd := tCmd 0 1 2 5; let cid : Nat := 5;
      decide ((List.find? (fun c => c.fn == n && c.qid == q && c.e.cid == cid && (c.stage == Stage.fetched || (s.store.ns? c.e.nsid).elim (c.stage == Stage.needData) fun n => Cmd.toFetch n c)) s.q.cmds = some c) ∧
      c.done = 0)) = true ∧
    (let s : State := tCmds; let n : Nat := 0; let q : Nat := 1;
      (s.pair? n q).any fun p => decide (p.st = PairState.active)) = true ∧
    (let s : State := tCmds; decide ((List.filter (fun c => s.expired c) s.q.cmds = []))) = true ∧
    (let s : State := tCmds; let n : Nat := 0; decide (s.dmaHeld n = false)) = true ∧
    (let s : State := { tCmds with hz := { tCmds.hz with st := .halted, ticking := false }, pw := { tCmds.pw with st := .halted } };
      let n : Nat := 0;
      ((s.nextPair n (assoc s.q.rr n, 0)).map Prod.fst).any fun p => ((s.nextPair n (assoc s.q.rr n, 0)).map Prod.snd).any fun left => decide (s.fetches n = true ∧
      s.nextPair n (assoc s.q.rr n, 0) = some (p, left) ∧ s.hz.st = HzState.halted)) = true ∧
    (let s : State := { tWin with hz := { tWin.hz with phase := .slack }, q := { tCmds.q with cmds := [tTimed] } };
      ((List.filter (fun c => s.expired c) s.q.cmds).head?).any fun c => decide (s.timerOn = true ∧ s.hz.ticking = true ∧
      s.hz.phase = Phase.slack ∧ (List.filter (fun c => s.expired c) s.q.cmds = [c]) ∧ s.due c = false ∧ c.done = 0 ∧
      c.partLeft = true ∧ c.e.opc ≠ opExec)) = true ∧
    (let s : State := tQ { tPair with st := .deleting, coalescing := true, longId := 2 }; let n : Nat := 0;
      let q : Nat := 1; (s.pair? n q).any fun p => decide (p.st = PairState.deleting ∧ (∀ c ∈ s.q.cmds, ¬(c.fn = n ∧
      c.qid = q)) ∧ s.heldOf n q = 0)) = true ∧
    (let s : State := tQ { tPair with st := .deleting, coalescing := true, longId := 2 }; let n : Nat := 0;
      let q : Nat := 1; (s.pair? n q).any fun p => decide (p.coalescing = true)) = true ∧
    (let s : State := { tAttd with q := { tAttd.q with cmds := [{ tCmd 0 1 2 5 with e := tE2 2 1 0 2 0 4096, stage := .needData, done := 1, left := 1 }] } };
      let n : Nat := 0; let q : Nat := 1;
      let c : Cmd := { tCmd 0 1 2 5 with e := tE2 2 1 0 2 0 4096, stage := .needData, done := 1, left := 1 };
      let cid : Nat := 5;
      decide ((List.find? (fun c => c.fn == n && c.qid == q && c.e.cid == cid && (c.stage == Stage.fetched || (s.store.ns? c.e.nsid).elim (c.stage == Stage.needData) fun n => Cmd.toFetch n c)) s.q.cmds = some c) ∧
      c.done ≠ 0)) = true ∧
    (let s : State := { tQ tPair with link := { tRun.link with gen := 0 } }; let n : Nat := 1;
      decide (s.dmaHeld n = true)) = true := by
  decide +kernel

theorem witness_CommandChecks :
    (let s : State := tWith (tC (tE2 1 1 1023 1 0 4096)); let n : Nat := 0; let q : Nat := 1; let cid : Nat := 5;
      let bufs : List BufEntry := []; let c : Cmd := tC (tE2 1 1 1023 1 0 4096);
      ((s.checks c bufs).toOption).any fun x => decide (s.toCheck n q cid opRead = some c ∧
      s.checks c bufs = Except.ok x ∧ (x.isStream = true → s.streamBound x.f.nsid c.e.stream = true ∧
      c.e.addr + c.e.len ≤ s.streamEnd c.e.stream))) = true ∧
    (let s : State := tWith (tC (tE2 1 1 1024 1 0 4096)); let n : Nat := 0; let q : Nat := 1; let cid : Nat := 5;
      let bufs : List BufEntry := []; let c : Cmd := tC (tE2 1 1 1024 1 0 4096); let st : Status := St.cmdRange;
      let i : Bool × Nat := (true, opRead); decide (s.toCheck n q cid i.2 = some c ∧
      (s.checks c (if i.1 = true then bufs else []) = Except.error st) ∧ i = (true, opRead))) = true ∧
    (let s : State := tWith (tC (tE2 2 1 1024 1 0 4096)); let n : Nat := 0; let q : Nat := 1; let cid : Nat := 5;
      let bufs : List BufEntry := []; let c : Cmd := tC (tE2 2 1 1024 1 0 4096); let st : Status := St.cmdRange;
      let i : Bool × Nat := (true, opWrite); decide (s.toCheck n q cid i.2 = some c ∧
      (s.checks c (if i.1 = true then bufs else []) = Except.error st) ∧ i = (true, opWrite))) = true ∧
    (let s : State := tWith (tC (tE2 3 1 0 64 0 4096)); let n : Nat := 0; let q : Nat := 1; let cid : Nat := 5;
      let bufs : List BufEntry := []; let c : Cmd := tC (tE2 3 1 0 64 0 4096); let st : Status := St.cmdOpcode;
      let i : Bool × Nat := (true, opAppend); decide (s.toCheck n q cid i.2 = some c ∧
      (s.checks c (if i.1 = true then bufs else []) = Except.error st) ∧ i = (true, opAppend))) = true ∧
    (let s : State := tWith (tC (tE2 4 1 1024 1 0 0)); let n : Nat := 0; let q : Nat := 1; let cid : Nat := 5;
      let bufs : List BufEntry := []; let c : Cmd := tC (tE2 4 1 1024 1 0 0); let st : Status := St.cmdRange;
      let i : Bool × Nat := (false, opDiscard); decide (s.toCheck n q cid i.2 = some c ∧
      (s.checks c (if i.1 = true then bufs else []) = Except.error st) ∧ i = (false, opDiscard))) = true ∧
    (let s : State := tWith (tC (tE2 5 9 0 0 0 0)); let n : Nat := 0; let q : Nat := 1; let cid : Nat := 5;
      let bufs : List BufEntry := []; let c : Cmd := tC (tE2 5 9 0 0 0 0); let st : Status := St.nsNotAttached;
      let i : Bool × Nat := (false, opFlush); decide (s.toCheck n q cid i.2 = some c ∧
      (s.checks c (if i.1 = true then bufs else []) = Except.error st) ∧ i = (false, opFlush))) = true ∧
    (let s : State := tWith (tC (tE2 6 1 0 63 0 4096)); let n : Nat := 0; let q : Nat := 1; let cid : Nat := 5;
      let bufs : List BufEntry := []; let c : Cmd := tC (tE2 6 1 0 63 0 4096); let st : Status := St.cmdField;
      let i : Bool × Nat := (false, opExec); decide (s.toCheck n q cid i.2 = some c ∧
      (s.checks c (if i.1 = true then bufs else []) = Except.error st) ∧ i = (false, opExec))) = true ∧
    (let s : State := tWith (tC (tE2 2 1 1023 1 0 4096)); let n : Nat := 0; let q : Nat := 1; let cid : Nat := 5;
      let bufs : List BufEntry := []; let c : Cmd := tC (tE2 2 1 1023 1 0 4096);
      ((s.checks c bufs).toOption).any fun x => decide (s.toCheck n q cid opWrite = some c ∧
      s.checks c bufs = Except.ok x ∧ (x.isStream = true → s.streamWriteCheck x c.e = none))) = true ∧
    (let s : State := tWith (tC (tE2 4 1 0 1024 0 0)); let n : Nat := 0; let q : Nat := 1; let cid : Nat := 5;
      let c : Cmd := tC (tE2 4 1 0 1024 0 0);
      ((s.checks c []).toOption).any fun x => decide (s.toCheck n q cid opDiscard = some c ∧
      s.checks c [] = Except.ok x ∧ (x.isStream = true → s.streamWriteCheck x c.e = none))) = true ∧
    (let s : State := tWith (tC (tE2 5 1 0 0 0 0)); let n : Nat := 0; let q : Nat := 1; let cid : Nat := 5;
      let c : Cmd := tC (tE2 5 1 0 0 0 0);
      ((s.checks c []).toOption).any fun x => decide (s.toCheck n q cid opFlush = some c ∧
      s.checks c [] = Except.ok x)) = true ∧
    (let s : State := tWith (tC (tE2 3 2 0 64 0 4096)); let n : Nat := 0; let q : Nat := 1; let cid : Nat := 5;
      let bufs : List BufEntry := []; let c : Cmd := tC (tE2 3 2 0 64 0 4096);
      ((s.checks c bufs).toOption).any fun x => let h : RecHeader := tHdr 32; decide (s.toCheck n q cid opAppend = some c ∧
      s.checks c bufs = Except.ok x ∧ s.mirrorCheck x = none ∧
      s.recordCheck x h true c.e.len (s.grantOf n).write = none)) = true ∧
    (let s : State := tAnvC (tC (tE2 6 1 0 64 0 4096)); let n : Nat := 0; let q : Nat := 1; let cid : Nat := 5;
      let c : Cmd := tC (tE2 6 1 0 64 0 4096); ((s.checks c []).toOption).any fun x => let b : ExecBlock := tExecBlk; decide (s.toCheck n q cid opExec = some c ∧
      s.checks c [] = Except.ok x ∧ s.execWindow n (s.execBlock n b) = true ∧
      s.execCheck n x (s.execBlock n b) = none)) = true := by
  decide +kernel

theorem witness_IngestAndAdmission :
    (let s : State := tAdm (tWr .needData); let n : Nat := 0; let q : Nat := 1; let cid : Nat := 5;
      let c : Cmd := tWr .needData; let x : Ns := tBlk; let bytes : Data := List.replicate 4096 (5 : BitVec 8);
      let pi : List PiField := ([] : List PiField);
      decide ((List.find? (fun c => c.fn == n && c.qid == q && c.e.cid == cid) s.q.cmds = some c) ∧
      s.store.ns? c.e.nsid = some x ∧ Cmd.toFetch x c = true ∧ Cmd.fetchOk x c (List.length bytes) = true ∧
      (pi.length = if piLen x = 0 then 0 else List.length bytes / 4096) ∧
      s.ingressFits n (List.length bytes) (c.e.opc == opAppend) = true ∧ dataCheck x c bytes pi = none ∧
      (c.e.opc ≠ opAppend ∨ x.mirror = false))) = true ∧
    (let s : State := tAdm tApc; let n : Nat := 0; let q : Nat := 1; let cid : Nat := 5; let c : Cmd := tApc;
      let x : Ns := tSns; let bytes : Data := List.replicate 64 (5 : BitVec 8);
      let pi : List PiField := ([] : List PiField);
      decide ((List.find? (fun c => c.fn == n && c.qid == q && c.e.cid == cid) s.q.cmds = some c) ∧
      s.store.ns? c.e.nsid = some x ∧ Cmd.toFetch x c = true ∧ Cmd.fetchOk x c (List.length bytes) = true ∧
      (pi.length = if piLen x = 0 then 0 else List.length bytes / 4096) ∧
      s.ingressFits n (List.length bytes) (c.e.opc == opAppend) = true) && (dataCheck x c bytes pi).any fun _st => true) = true ∧
    (let s : State := tAdm tAp; let n : Nat := 0; let q : Nat := 1; let cid : Nat := 5; let c : Cmd := tAp;
      let x : Ns := tSns; let h : RecHeader := tHdr 32;
      decide ((List.find? (fun c => c.fn == n && c.qid == q && c.e.cid == cid && c.stage == Stage.needClass) s.q.cmds = some c) ∧
      s.store.ns? c.e.nsid = some x ∧ c.hdr = some h) && (let r := s.classify (classKey c.fn 0 x.f.nsid s.srcNode h);
      decide (r.2.2.ingestCheck x h r.1 = none))) = true ∧
    (let s : State := tLrS; let cid : Nat := 3; let p : Nat := 0; let y : LinkRec := tLr; let x : Ns := tSns;
      let h : RecHeader := tHdr 4; decide (s.linkRec? p cid = some y ∧ s.store.ns? y.nsid = some x ∧ y.hdr = some h ∧
      y.word = none ∧
      y.mirror = false) && (let r := s.classify (classKey 0 (p + 1) x.f.nsid h.srcNode { declLen := h.declLen, stream := y.stream, rtype := h.rtype, rflags := h.rflags, epoch := h.epoch, tag := h.tag, srcNode := h.srcNode, rsv := h.rsv, payCrc := h.payCrc, hdrCrc := h.hdrCrc });
      decide (r.2.2.ingestCheck x { declLen := h.declLen, stream := y.stream, rtype := h.rtype, rflags := h.rflags, epoch := h.epoch, tag := h.tag, srcNode := h.srcNode, rsv := h.rsv, payCrc := h.payCrc, hdrCrc := h.hdrCrc } r.1 = none ∧
      payCrcOk h y.bytes = true))) = true ∧
    (let s : State := tSegS 3; let i : Nat := 2; let st : Nat := 5; let w : Nat := 0; let len : Nat := 9000;
      decide (((s.halo.segs.any fun g => g.nsid == i && g.stream == st && g.window == w) = true) ∧
      (s.hz.phase = Phase.accept → (w + 1) * 65536 ≤ s.streamEnd st)) && (let us := s.segUnits i st w;
      let c := (96 + len + 4095) / 4096;
      let go := decide (s.segLevel i st us ≠ 0 ∧ c < us.length ∧ s.metaFits 0 us.length = true); decide (go))) = true ∧
    (let s : State := tSegS 3; let i : Nat := 2; let st : Nat := 5; let w : Nat := 0; let len : Nat := 65440;
      decide (((s.halo.segs.any fun g => g.nsid == i && g.stream == st && g.window == w) = true) ∧
      (s.hz.phase = Phase.accept → (w + 1) * 65536 ≤ s.streamEnd st)) && (let us := s.segUnits i st w;
      let c := (96 + len + 4095) / 4096;
      let go := decide (s.segLevel i st us ≠ 0 ∧ c < us.length ∧ s.metaFits 0 us.length = true);
      decide ((¬go)))) = true ∧
    (let s : State := State.reset; decide (s.admits = false)) = true ∧
    (let s : State := { tAdm (tWr .waiting) with ns := NsVol.reset }; let n : Nat := 0;
      let hs : List Nat := ([] : List Nat); let c : Cmd := tWr .waiting; let cs : List Cmd := ([] : List Cmd);
      let x : Ns := tBlk; decide (s.admits = true ∧
      (turnOrder (List.map (fun x => x.holder) s.hz.credits) s.hz.turn = n :: hs) ∧ n < 256 ∧
      (s.credit n).hold = false ∧ s.link.below = false ∧ s.fnState n = FnState.active ∧
      (List.filter (fun c => c.fn == n) s.q.cmds = c :: cs) ∧ c.stage = Stage.waiting ∧ c.ended = false ∧
      s.mustWait c = false ∧ s.store.ns? c.e.nsid = some x ∧ c.done = 0 ∧
      c.e.opc ≠ opFlush) && (s.accessCheck c).any fun _st => true) = true ∧
    (let s : State := tAdm tDd; let n : Nat := 0; let hs : List Nat := ([] : List Nat); let c : Cmd := tDd;
      let cs : List Cmd := ([] : List Cmd); let x : Ns := tBlk; decide (s.admits = true ∧
      (turnOrder (List.map (fun x => x.holder) s.hz.credits) s.hz.turn = n :: hs) ∧ n < 256 ∧
      (s.credit n).hold = false ∧ s.link.below = false ∧ s.fnState n = FnState.active ∧
      (List.filter (fun c => c.fn == n) s.q.cmds = c :: cs) ∧ c.stage = Stage.waiting ∧ c.ended = false ∧
      s.mustWait c = false ∧ s.store.ns? c.e.nsid = some x ∧ c.done = 0 ∧ s.accessCheck c = none ∧
      c.e.opc = opDiscard ∧ s.slotRefuses x c = false ∧ s.metaFits 0 (s.copies c.e.nsid) = true)) = true ∧
    (let s : State := tAdm tWi; let n : Nat := 0; let hs : List Nat := ([] : List Nat); let c : Cmd := tWi;
      let cs : List Cmd := ([] : List Cmd); let x : Ns := tIns; decide (s.admits = true ∧
      (turnOrder (List.map (fun x => x.holder) s.hz.credits) s.hz.turn = n :: hs) ∧ n < 256 ∧
      (s.credit n).hold = false ∧ s.link.below = false ∧ s.fnState n = FnState.active ∧
      (List.filter (fun c => c.fn == n) s.q.cmds = c :: cs) ∧ c.stage = Stage.waiting ∧ c.ended = false ∧
      s.mustWait c = false ∧ s.store.ns? c.e.nsid = some x ∧ c.done = 0 ∧ s.accessCheck c = none ∧
      (c.e.opc = opWrite ∨ c.e.opc = opDiscard) ∧ s.slotRefuses x c = true)) = true ∧
    (let s : State := tAdm tRw; let n : Nat := 0; let hs : List Nat := ([] : List Nat); let c : Cmd := tRw;
      let cs : List Cmd := ([] : List Cmd); let x : Ns := tBlk; decide (s.admits = true ∧
      (turnOrder (List.map (fun x => x.holder) s.hz.credits) s.hz.turn = n :: hs) ∧ n < 256 ∧
      (s.credit n).hold = false ∧ s.link.below = false ∧ s.fnState n = FnState.active ∧
      (List.filter (fun c => c.fn == n) s.q.cmds = c :: cs) ∧ c.stage = Stage.waiting ∧ c.ended = false ∧
      s.mustWait c = false ∧ s.store.ns? c.e.nsid = some x ∧ (c.done = 0 → s.accessCheck c = none) ∧
      c.e.opc = opRead ∧ (¬(x.isIns = true ∧ c.e.addr < x.f.capacity ∧ x.activeSlot = none ∧
      c.done = 0))) && (let k := if x.isBlock = true then min c.left ((s.credit c.fn).read / 4096) else min c.left (s.credit c.fn).read;
      decide (0 < k))) = true ∧
    (let s : State := tAdm tAw; let n : Nat := 0; let hs : List Nat := ([] : List Nat); let c : Cmd := tAw;
      let cs : List Cmd := ([] : List Cmd); let x : Ns := tSns; decide (s.admits = true ∧
      (turnOrder (List.map (fun x => x.holder) s.hz.credits) s.hz.turn = n :: hs) ∧ n < 256 ∧
      (s.credit n).hold = false ∧ s.link.below = false ∧ s.fnState n = FnState.active ∧
      (List.filter (fun c => c.fn == n) s.q.cmds = c :: cs) ∧ c.stage = Stage.waiting ∧ c.ended = false ∧
      s.mustWait c = false ∧ s.store.ns? c.e.nsid = some x) && (let h : RecHeader := tHdr 32;
      c.word.any fun w => let plan : List (Nat × Nat) := ([] : List (Nat × Nat)); decide (c.done = 0 ∧
      s.accessCheck c = none ∧ c.e.opc = opAppend ∧ c.hdr = some h ∧ s.streamOpen x.f.nsid h.stream = true ∧
      x.mirror = false ∧ s.routeFull x.f.nsid h.stream (32 + h.declLen) = false ∧
      (s.dropCmd c.seq).recGate c.fn x h.stream h.declLen w = RecGate.go plan))) = true ∧
    (let s : State := tAnvC tEw; let n : Nat := 0; let hs : List Nat := ([] : List Nat); let c : Cmd := tEw;
      let cs : List Cmd := ([] : List Cmd); let x : Ns := tBlk; decide (s.admits = true ∧
      (turnOrder (List.map (fun x => x.holder) s.hz.credits) s.hz.turn = n :: hs) ∧ n < 256 ∧
      (s.credit n).hold = false ∧ s.link.below = false ∧ s.fnState n = FnState.active ∧
      (List.filter (fun c => c.fn == n) s.q.cmds = c :: cs) ∧ c.stage = Stage.waiting ∧ c.ended = false ∧
      s.mustWait c = false ∧ s.store.ns? c.e.nsid = some x ∧ c.done = 0 ∧ s.accessCheck c = none ∧
      c.e.opc = opExec)) = true := by
  decide +kernel

theorem witness_ProgramsLand :
    (let s : State := tLand; let n : Nat := 7; let i : Nat := 0; let a : Nat := tA 1 0;
      (s.landingFits n i a).any fun _r => true) = true ∧
    (let s : State := tMov; let n : Nat := 7; let i : Nat := 1; let a : Nat := tA 2 0;
      decide (s.landingFits n i a = none)) = true ∧
    (let s : State := tMov; let a : Nat := tA 2 0;
      (List.find? (fun m => m.dst == a && !m.confirmed) s.flash.moves).any fun m => decide (s.programsRun = true ∧ s.flash.inhibited = false ∧
      s.intentKept m.epoch = true)) = true ∧
    (let s : State := tMov; let a : Nat := tA 2 0; decide (s.programsRun = true ∧
      ((s.flash.moves.any fun m => m.dst == a && !m.confirmed && s.intentKept m.epoch) = true))) = true := by
  decide +kernel

theorem witness_BlocksAndSegments :
    (let s : State := tFl; s.oldestLanding.any fun _sb => decide (s.movesRun = true)) = true ∧
    (let s : State := tFl; let b : Nat := tA 7 0; decide (s.reserveRuns = true ∧ s.hz.phase = Phase.accept ∧
      ((s.q.cmds.any fun c => c.toRead.any fun x => blockOf x.1 == b) = false) ∧ ((s.flash.blocks.any fun x => x.blk == b && x.st == BlockState.eraseWait && !x.erasing && decide (x.eraseFrom ≤ s.hz.epoch)) = true))) = true ∧
    (let s : State := tEra; let b : Nat := tA 8 0;
      (List.find? (fun x => x.blk == b && x.erasing) s.flash.blocks).any fun _x => true) = true ∧
    (let s : State := tEra; let b : Nat := tA 8 0;
      decide (((s.flash.blocks.any fun x => x.blk == b && x.erasing) = true))) = true ∧
    (let s : State := tFl; let b : Nat := tA 6 0;
      (List.find? (fun x => x.blk == b) s.flash.blocks).any fun x => decide (s.movesRun = true ∧ s.collectable x = true)) = true ∧
    (let s : State := tCons; let a : Nat := tA 2 0; let i : Nat := 2; let k : Nat := 83886080;
      (List.find? (fun x => x.nsid == i && x.key == k) (List.filter (fun x => x.run != [] && x.ovl.isSome) s.store.extents)).any fun x => (s.withSuper false (superOf a) 1).any fun u => (u.moveExtent a i k).any fun _r => decide (s.movesRun = true ∧ s.param 1299 0 ≤ x.hot.length)) = true ∧
    (let s : State := tDirt; let i : Nat := 1; let ty : Nat := 0; let k : Nat := 0;
      decide (((s.flash.dirEnts.any fun x => x.1 == i && x.2.1 == ty && x.2.2.1 == k) = true) ∧
      s.flash.segs.length < 524288)) = true ∧
    (let s : State := tDirt; let a : Nat := tA 3 0;
      s.oldestDirty.any fun g => (s.programMap a (s.store.segBytes g.nsid g.typ g.idx s.store.sealed)).any fun _r => decide (s.reserveRuns = true ∧
      g.whole = true)) = true ∧
    (let s : State := tDirt; let a : Nat := tA 3 0;
      (s.programMap a (s.store.checkpointBytes s.flash.dirEnts)).any fun _r => decide (s.reserveRuns = true ∧
      s.flash.ckpt = none)) = true := by
  decide +kernel

theorem witness_DecodeAndLadder :
    (let s : State := tFl; let a : Nat := tA 5 0; let it : Nat := 1; let c : Codeword := tCell (tA 5 0) 7;
      decide (s.cell? a = some c ∧ ((s.flash.ladders.any fun l => l.addr == a) = false) ∧ (s.suspendErase a).isSome = true) && (let l := (List.find? (fun b => b.blk == blockOf a) s.flash.blocks).elim 0 s.startLevel;
      decide (s.unreadable a = false ∧ it ≤ s.iterLimit l))) = true ∧
    (let s : State := tFl; let a : Nat := tA 5 0; let it : Nat := 1; let c : Codeword := tCell (tA 5 0) 7;
      decide (s.cell? a = some c ∧ ((s.flash.ladders.any fun l => l.addr == a) = false) ∧ (s.suspendErase a).isSome = true) && (let l := (List.find? (fun b => b.blk == blockOf a) s.flash.blocks).elim 0 s.startLevel;
      let cv : Bool := true; let i : Nat := 1; let u : Nat := 1; let key : Nat := 7; let ok : Bool := false;
      decide ((¬(cv = true ∧ s.unreadable a = false ∧ it ≤ s.iterLimit l ∧ i = c.nsid ∧ u = c.utype ∧ key = c.key ∧
      ok = true))))) = true ∧
    (let s : State := tLad 1; let a : Nat := tA 5 0; let it : Nat := 1; let c : Codeword := tCell (tA 5 0) 7;
      decide (s.cell? a = some c) && (List.find? (fun l => l.addr == a) s.flash.ladders).any fun l => decide (s.levelOpen c l.level it = true)) = true ∧
    (let s : State := tLad 1; let a : Nat := tA 5 0; let c : Codeword := tCell (tA 5 0) 7;
      decide (s.cell? a = some c) && (List.find? (fun l => l.addr == a) s.flash.ladders).any fun l => decide (l.level < 6)) = true ∧
    (let s : State := tLad 6; let a : Nat := tA 5 0; let c : Codeword := tCell (tA 5 0) 7;
      decide (s.cell? a = some c) && (List.find? (fun l => l.addr == a) s.flash.ladders).any fun l => decide (6 ≤ l.level)) = true := by
  decide +kernel

theorem witness_DiesAndScans :
    (let s : State := tDies; let g : Nat := 0; let m : Nat := 0; let b : Nat := 0; let best : Int := (2:Int);
      let x := s.bin (g, m, b);
      let mine := fun c => c.ch == g / 16 && c.action == FlashAction.sweep g m b && decide (5 ≤ c.senses);
      decide (s.hz.ticking = true ∧ s.flash.channels.any mine = true ∧ x.wanted = true ∧
      x.sweep.length < x.offsets.length ∧ (best - x.offsets.getD x.sweep.length 0).natAbs ≤ 2 ∧ -128 ≤ best ∧
      best ≤ 127)) = true ∧
    (let s : State := tDies; let g : Nat := 0; decide ((s.die g).failed = false)) = true ∧
    (let s : State := tDies; let sb : Nat := 5; let a : Nat := tA 5 0; let k : Nat := 50;
      (List.find? (fun p => p.sb == sb && p.pending) s.flash.parity).any fun p => (s.cell? a).any fun _c => (s.suspendErase a).any fun _u => decide (superOf a = sb ∧ p.scanned.contains a = false ∧
      s.unreadable a = false ∧ k ≤ s.profile.verifyLimit)) = true ∧
    (let s : State := tDies; let sb : Nat := 9;
      (List.find? (fun p => p.sb == sb && p.pending) s.flash.parity).any fun _p => decide ((∀ b ∈ s.flash.blocks, superOf b.blk = sb → b.st = BlockState.retired) ∧
      (∀ m ∈ s.flash.moves, superOf m.src ≠ sb) ∧ s.flash.resyncLeft.contains sb = false)) = true ∧
    (let s : State := tDies; decide ((s.flash.patrol ≠ [] ∨ s.flash.patrolNext ≤ s.hz.uptimeUs))) = true ∧
    (let s : State := tDies; let ch : Nat := 1;
      (List.find? (fun c => c.ch == ch && c.action == FlashAction.interface) s.flash.channels).any fun c => decide (2 ≤ c.trainFails ∧ ((s.store.pool.members.any fun x => x.1 == ch && x.2 == MemberState.online) = true) ∧
      s.flash.lostMembers.contains ch = false)) = true ∧
    (let s : State := tDies; let ch : Nat := 2;
      (List.find? (fun c => c.ch == ch && c.action == FlashAction.interface) s.flash.channels).any fun c => decide (c.trainFails < 2)) = true := by
  decide +kernel

theorem witness_RebuildAndReshape :
    (let s : State := tReb; let sb : Nat := 5; decide (s.rebuilding = true ∧ s.reserveRuns = true ∧
      s.flash.walked.contains sb = false ∧ s.supers.contains sb = true ∧
      ((s.supers.all fun x => s.flash.walked.contains x || s.walksBefore sb x) = true))) = true ∧
    (let s : State := tReb; decide (s.flash.walking = false)) = true ∧
    (let s : State := tWalked; decide (s.flash.walking = true ∧
      ((s.supers.all fun b => s.flash.walked.contains b) = true) ∧
      ((s.flash.moves.any fun m => s.stripeHurt m.src) = false))) = true ∧
    (let s : State := tWalked; let sb : Nat := 5; decide (s.reserveRuns = true ∧
      s.flash.resyncLeft.contains sb = true)) = true ∧
    (let s : State := tShape; let a : Nat := tA 2 0; let k : Nat := 7;
      (s.withSuper false (superOf a) 1).any fun u => let i := newLayout s.store.reshape.nsid;
      let whole := s.store.inExtents i && s.closedExtent (extentKey k) && (s.extentPlan i (extentKey k)).all fun x => s.resolve i x.1 == Hit.zero none;
      decide (s.store.reshape.st = ReshapeState.copying ∧ s.reserveRuns = true ∧ s.uncopied k = true ∧
      ((s.flash.moves.any fun m => m.nsid == i && m.key == k) = false) ∧
      whole = false) && (u.copyUnits k a).any fun _t => true) = true ∧
    (let s : State := tShaped; decide (s.store.reshape.st = ReshapeState.copying ∧ s.hz.ticking = true ∧
      s.reshapeLeft = [])) = true ∧
    (let s : State := tShapeS; let a : Nat := tA 2 0; let k : Nat := 21474836480;
      (s.withSuper false (superOf a) 1).any fun u => let i := newLayout s.store.reshape.nsid;
      let whole := s.store.inExtents i && s.closedExtent (extentKey k) && (s.extentPlan i (extentKey k)).all fun x => s.resolve i x.1 == Hit.zero none;
      decide (s.store.reshape.st = ReshapeState.copying ∧ s.reserveRuns = true ∧ s.uncopied k = true ∧
      ((s.flash.moves.any fun m => m.nsid == i && m.key == k) = false) ∧
      whole = true) && (u.moveExtent a i (extentKey k)).any fun _r => true) = true ∧
    (let s : State := tStrp; let sb : Nat := 5; decide (s.reserveRuns = true ∧ s.param 1553 0 ≠ 0 ∧
      ((s.flash.stripes.any fun p => p.sb == sb && p.closed) = true))) = true := by
  decide +kernel

theorem witness_ResetsKeepTheSealedState :
    (let s : State := tCmds; decide (s.pw.st ≠ PState.draining)) = true ∧
    (let s : State := tCmds; let k : Nat := 0xC4A4; decide ((k ≠ 50341 ∨ s.pw.st = PState.boot))) = true ∧
    (let s : State := tCmds; decide ((s.pw.st = PState.p0 ∨ s.pw.st = PState.p1 ∨ s.pw.st = PState.p2 ∨
      s.pw.st = PState.halted))) = true ∧
    (let s : State := tCmds; decide (s.pw.st ≠ PState.resetting)) = true ∧
    (let s : State := tDrain; decide (s.pw.st = PState.draining)) = true ∧
    (let s : State := { tDrain with hz := { tDrain.hz with epochs := [] }, pw := { tNss.pw with st := .resetting } };
      decide (s.pw.st = PState.resetting ∧ s.allSealed = true ∧ s.fw.otpOk = true ∧ s.hz.st ≠ HzState.halted)) = true ∧
    (let s : State := { tDrain with hz := { tDrain.hz with epochs := [], st := .halted }, pw := { tNss.pw with st := .resetting } };
      decide (s.pw.st = PState.resetting ∧ s.allSealed = true ∧ s.hz.st = HzState.halted)) = true := by
  decide +kernel

theorem witness_BootToTheFirstTick :
    (let s : State := tBoot; decide (s.pw.resetN = false ∧ s.pw.pwrfailLow = false ∧ s.pw.tripped = false ∧
      s.fw.otpOk = true) && s.fw.pick.any fun i => (s.fw.slots[i]?).any fun _sl => true) = true ∧
    (let s : State := { tBoot with fw := { tBoot.fw with slots := [⟨.valid, { shippedImage with svn := 0, sigOk := false }⟩, ⟨.empty, shippedImage⟩] } };
      decide (s.pw.resetN = false ∧ s.pw.pwrfailLow = false ∧ s.pw.tripped = false ∧ s.fw.otpOk = true ∧
      s.fw.pick = none)) = true ∧
    (let s : State := { tBoot with fw := { tBoot.fw with romDone := true }, pw := { tBoot.pw with resetN := true }, flash := { tBoot.flash with trained := true } };
      s.boardRecord.any fun _b => decide (s.pw.st = PState.boot ∧ s.fw.romDone = true ∧ s.pw.resetN = true ∧
      s.pw.pwrfailLow = false)) = true ∧
    (let s : State := { tBoot with fw := { tBoot.fw with romDone := true }, pw := { tBoot.pw with resetN := true }, flash := { tBoot.flash with trained := true } };
      decide ((s.pw.st = PState.boot ∨ s.pw.st = PState.held) ∧ s.pw.bringupDone = false ∧ s.pw.resetN = true ∧
      s.flash.trained = true)) = true ∧
    (let s : State := { tBoot with fw := { tBoot.fw with romDone := true, runImg := { shippedImage with profiles := [tProfile] } }, pw := { tBoot.pw with resetN := true } };
      decide ((s.pw.st = PState.boot ∨ s.pw.st = PState.held) ∧ s.pw.bringupDone = false ∧ s.pw.resetN = true ∧
      s.flash.trained = false)) = true ∧
    (let s : State := { tBoot with fw := { tBoot.fw with romDone := true, runImg := { shippedImage with profiles := [tProfile] } }, pw := { tBoot.pw with resetN := true } };
      let r : ChannelReport := (⟨0, 0, 2400, [⟨1, 0, [1, 2], []⟩, ⟨0, 0, [1, 2], [3]⟩]⟩ : ChannelReport);
      let ps := List.filter (fun x => x.valid) s.fw.runImg.profiles; let ds := sortOn (fun d => 4 * d.ce + d.lun) r.dies; decide (r.dies.length ≤ 16) && (ds.head?).any fun d => (profileOf ps d.id).any fun _p => true) = true ∧
    (let s : State := { tBoot with fw := { tBoot.fw with romDone := true, runImg := { shippedImage with profiles := [tProfile] } }, pw := { tBoot.pw with resetN := true } };
      let r : ChannelReport := (⟨1, 0, 2400, [⟨1, 0, [1, 3], []⟩, ⟨0, 0, [1, 2], [3]⟩]⟩ : ChannelReport);
      let ps := List.filter (fun x => x.valid) s.fw.runImg.profiles; decide (r.dies.length ≤ 16 ∧
      (∃ d ∈ r.dies, profileOf ps d.id = none) ∧ r.failed = 0)) = true ∧
    (let s : State := tHeld; decide (s.pw.st = PState.held ∧ s.pw.recovered = true ∧ s.pw.holdup.ok = true)) = true ∧
    (let s : State := { tHeld with pw := { tHeld.pw with recovered := false } }; decide (s.pw.st = PState.held ∧
      s.pw.bringupDone = true ∧ s.pw.recovered = false ∧ s.pw.pwrfailLow = false ∧ s.store.grouped = false)) = true ∧
    (let s : State := { tHeld with pw := { tHeld.pw with recovered := false } }; decide (s.pw.st = PState.held ∧
      (s.pw.recovered = false ∨ s.pw.holdup.ok = false))) = true := by
  decide +kernel

theorem witness_DrainAndTrip :
    (let s : State := tCmds; decide ((s.pw.st = PState.p0 ∨ s.pw.st = PState.p1 ∨ s.pw.st = PState.p2) ∧
      s.pw.tripped = false)) = true ∧
    (let s : State := tCmds; let m : Nat := 3; decide (s.flash.monitors.contains m = false)) = true ∧
    (let s : State := tCmds; decide (s.pw.st = PState.p0)) = true ∧
    (let s : State := { tCmds with pw := { tCmds.pw with st := .halted } }; decide (s.pw.st = PState.halted ∧
      s.pw.tripped = false)) = true ∧
    (let s : State := { tCmds with pw := { tCmds.pw with st := .p4 }, hz := { tCmds.hz with ticking := false } };
      decide ((s.pw.st = PState.p4 ∨ s.pw.st = PState.boot ∧ s.pw.resetN = true))) = true ∧
    (let s : State := tDrain; decide (s.pw.st = PState.draining ∧ s.drained = false ∧
      s.flash.inhibited = false)) = true ∧
    (let s : State := { tDrain with hz := { tDrain.hz with epochs := [] } }; decide (s.pw.st = PState.draining ∧
      (s.drained = true ∨ s.flash.inhibited = true) ∧ s.pw.heldPor = false ∧ s.pw.heldReset = false)) = true ∧
    (let s : State := { tDrain with pw := { tDrain.pw with highTimer := true } }; decide (s.pw.st = PState.draining ∧
      s.pw.highTimer = true)) = true ∧
    (let s : State := { tDrain with pw := { tDrain.pw with highTimer := true, st := .stopped } };
      decide (s.pw.st = PState.stopped ∧ s.pw.highTimer = true ∧ s.pw.tripped = false)) = true := by
  decide +kernel

theorem witness_HoldupMeasurement :
    (let s : State := tHu .settling [1000, 1000]; decide (s.pw.holdup.phase = HoldupPhase.settling ∧
      s.pw.holdup.samples.length < 9)) = true ∧
    (let s : State := tHu .settling (List.replicate 9 1000); let v : Nat := 1005;
      let w : List Nat := List.replicate 9 1000 ++ [1005]; decide (s.pw.holdup.phase = HoldupPhase.settling ∧
      s.pw.holdup.samples.length = 9 ∧ w = s.pw.holdup.samples ++ [v] ∧ settled w = true)) = true ∧
    (let s : State := tHu .loaded []; let v : Nat := 971; let us : Nat := 1999;
      decide (s.pw.holdup.phase = HoldupPhase.loaded ∧ 100 * (s.pw.holdup.vStart - v) < 3 * s.pw.holdup.vStart ∧
      us < 2000)) = true ∧
    (let s : State := tHu .loaded []; let v : Nat := 970; let us : Nat := 1999;
      s.boardRecord.any fun _r => decide (s.pw.holdup.phase = HoldupPhase.loaded ∧
      (3 * s.pw.holdup.vStart ≤ 100 * (s.pw.holdup.vStart - v) ∨ 2000 ≤ us))) = true := by
  decide +kernel

theorem witness_WatchdogAndEntries :
    (let s : State := tCmds; decide (s.pw.restarting = false ∧ s.pw.st ≠ PState.boot ∧
      s.pw.st ≠ PState.stopped)) = true ∧
    (let s : State := { tCmds with pw := { tCmds.pw with restarting := true, restartSealed := 6 } };
      decide (s.pw.restarting = true ∧ s.hz.sealed = s.pw.restartSealed)) = true ∧
    (let s : State := { tNss with hz := { tNss.hz with epochs := [] }, pw := { tNss.pw with entry := .toP4 } };
      decide (s.q.cmds = [] ∧ s.allSealed = true ∧ (s.pw.entry = PowerEntry.toP3 ∨
      s.pw.entry = PowerEntry.toP4))) = true ∧
    (let s : State := { tNss with hz := { tNss.hz with epochs := [] }, pw := { tNss.pw with entry := .toP4, quiesced := true } };
      decide (s.pw.entry = PowerEntry.toP4 ∧ s.pw.quiesced = true ∧ s.dirty = 0 ∧ s.flash.ckpt = none ∧
      s.allSealed = true)) = true := by
  decide +kernel

theorem witness_LostCodewordsRecovered :
    (let n : Nat := 2; let ds : List Data := [[0x3A, 1], [0x5C, 2], [0x07, 3], [0xE1, 4]]; decide (ds.length ≤ 14 ∧
      (∀ d ∈ ds, List.length d = n)) && (let x : Nat := 0; decide (x < ds.length))) = true ∧
    (let n : Nat := 2; let ds : List Data := [[0x3A, 1], [0x5C, 2], [0x07, 3], [0xE1, 4]]; decide (ds.length ≤ 14 ∧
      (∀ d ∈ ds, List.length d = n)) && (let x : Nat := 0; let y : Nat := 3; decide (x < y ∧ y < ds.length))) = true := by
  decide +kernel

theorem witness_HaloUpdates :
    (let s : State := tStep [.write { tEntry with slot := 11, id := 2 }, .validate 11]; let n : Nat := 9;
      (s.table? n).any fun t => ((t.steps).head?).any fun x => let xs : List HaloStep := (t.steps).tail;
      decide (t.steps = x :: xs)) = true ∧
    (let s : State := tStep [.write { tEntry with slot := 11, id := 2 }, .validate 11]; let n : Nat := 9;
      (s.table? n).any fun t => decide ((t.compacting = false ∨ t.steps ≠ []))) = true ∧
    (let s : State := tStep []; let n : Nat := 3; decide (s.table? n = none)) = true ∧
    (let s : State := { tHalo with halo := { tHalo.halo with tables := [{ tTable with compacting := true, longId := 2, moved := 4 }] } };
      let n : Nat := 9; (s.table? n).any fun t => decide (t.compacting = true ∧ t.steps = [])) = true ∧
    (let s : State := tStep [.write { tEntry with slot := 11, id := 2 }, .validate 11]; let n : Nat := 9;
      (s.table? n).any fun t => let e : HaloEntry := { tEntry with slot := 11, id := 2 };
      let x : HaloEntry := { tEntry with slot := 11, id := 2, valid := false };
      decide (x ∈ (t.apply (HaloStep.write e)).entries ∧ x.slot = e.slot)) = true ∧
    (let s : State := tStep [.write { tEntry with slot := 11, id := 2 }, .validate 11]; let n : Nat := 9;
      (s.table? n).any fun t => let e : HaloEntry := { tEntry with slot := 11, id := 2 };
      let x : HaloEntry := tEntry; decide (x ∈ t.entries ∧ x.slot ≠ e.slot)) = true ∧
    (let s : State := tStep [.write { tEntry with slot := 11, id := 2 }, .validate 11]; let n : Nat := 9;
      (s.table? n).any fun t => let a : Nat := 0; let x : HaloEntry := tEntry;
      decide (x ∈ (t.apply (HaloStep.invalidate a)).entries)) = true ∧
    (let s : State := tStep [.write { tEntry with slot := 11, id := 2 }, .validate 11]; let n : Nat := 9;
      (s.table? n).any fun t => let a : Nat := 0; let x : HaloEntry := tEntry; decide (x ∈ t.entries ∧
      x.slot ≠ a)) = true ∧
    (let s : State := tStep [.copy 10 12, .invalidate 10]; let n : Nat := 9;
      (s.table? n).any fun t => let a : Nat := 10; let b : Nat := 12; let e : HaloEntry := tEntry;
      decide ((List.find? (fun x => x.slot == a) t.entries = some e)) && (let x : HaloEntry := { tEntry with slot := 12, valid := false };
      decide (x ∈ (t.apply (HaloStep.copy a b)).entries ∧ x.slot = b))) = true ∧
    (let s : State := tStep [.copy 10 12, .invalidate 10]; let n : Nat := 9;
      (s.table? n).any fun t => let a : Nat := 10; let b : Nat := 12; let e : HaloEntry := tEntry;
      decide ((List.find? (fun x => x.slot == a) t.entries = some e)) && (let x : HaloEntry := tEntry;
      decide (x ∈ t.entries ∧ x.slot ≠ b))) = true ∧
    (let s : State := tStep [.copy 10 12, .invalidate 10]; let n : Nat := 9;
      (s.table? n).any fun t => let a : Nat := 10; let x : HaloEntry := tEntry;
      decide (x ∈ (t.apply (HaloStep.validate a)).entries ∧ x.slot = a)) = true := by
  decide +kernel

theorem witness_SquallJobs :
    (let s : State := tSq { tJob with engine := some 2 }; let e : Nat := 2; let p : Nat := 0; decide ((8 ≤ e ∨
      2 ≤ p ∨ (∃ j ∈ s.sq.jobs, j.engine = some e ∧ sqPipe j.desc = p) ∨ s.sqReady p = []))) = true ∧
    (let s : State := tSq { tJob with engine := some 2 }; let e : Nat := 2; let p : Nat := 1;
      (List.find? (fun j => j.engine == some e && sqPipe j.desc == p) s.sq.jobs).any fun j => decide (sqCompress j.desc = false)) = true ∧
    (let s : State := tSq { tJob with engine := some 2 }; let e : Nat := 2; let p : Nat := 1;
      let r : SqReport := tSqR;
      (List.find? (fun j => j.engine == some e && sqPipe j.desc == p) s.sq.jobs).any fun j => (s.sqRun j r).any fun _d => decide (j.stopping = false ∧ j.from_ < s.anv.engines.length)) = true ∧
    (let s : State := tSq tJob; let e : Nat := 7; let p : Nat := 1; decide (e < 8 ∧ p < 2 ∧
      (∀ j ∈ s.sq.jobs, ¬(j.engine = some e ∧ sqPipe j.desc = p)) ∧ s.sqReady p ≠ [])) = true ∧
    (let s : State := tSq { tJob with engine := some 2, stopping := true }; let e : Nat := 2; let p : Nat := 1;
      (List.find? (fun j => j.engine == some e && sqPipe j.desc == p) s.sq.jobs).any fun j => decide (j.stopping = true)) = true := by
  decide +kernel

theorem witness_ThreadsRunAndReturn :
    (let s : State := tRunI; let e : Nat := 0; decide (((s.anv.running.any fun r => r.1 == e) = true ∨ s.hz.st = HzState.halted ∨
      s.eligible e = []))) = true ∧
    (let a : Nat := 1 + 4 * 2; decide (faultCauses.contains a = false)) = true ∧
    (let s : State := tRunI; let e : Nat := 0; (s.runningOn e).any fun t => let a : Nat := 0; decide (s.fenced t.fn = false ∧
      s.callStalled e = false ∧ (t.cancelled = true ∨ s.fnState t.fn ≠ FnState.active ∨
      returnOk a (s.maxPrio t) = true ∧ bitsAt a 0 2 = 0))) = true ∧
    (let s : State := tRunI; let e : Nat := 0; let run : ThreadRun := tRunR;
      (s.runningOn e).any fun t => let a : Nat := 0; decide (s.fenced t.fn = false) && (let i : Inst := tInst .running;
      let b : Nat := 3; let c : Nat := 4; let st : Status := St.anvActivationLimit;
      let x : Instr := Instr.activationLimit ⟨0, tRunR⟩; decide (s.inst? t.inst = some i ∧
      (i.st = InstState.starting ∨ i.st = InstState.running) ∧
      (x = Instr.threadReturn { engine := e, run := run } a ∧ st = St.anvFault ∧ s.callStalled e = false ∧
      t.cancelled = false ∧ s.fnState t.fn = FnState.active ∧ returnOk a (s.maxPrio t) = false ∨
      x = Instr.moduleFault { engine := e, run := run } a b c ∧ st = St.anvFault ∧ s.callStalled e = false ∧
      faultCauses.contains a = true ∨ x = Instr.activationLimit { engine := e, run := run } ∧
      st = St.anvActivationLimit)))) = true ∧
    (let s : State := tRunI; let e : Nat := 0; (s.runningOn e).any fun t => let a : Nat := 1 + 4 * 2; decide (s.fenced t.fn = false ∧
      s.callStalled e = false ∧ t.cancelled = false ∧ s.fnState t.fn = FnState.active ∧
      returnOk a (s.maxPrio t) = true ∧ bitsAt a 0 2 = 1)) = true ∧
    (let s : State := tRunI; let e : Nat := 1; decide (((s.anv.running.any fun r => r.1 == e) = false) ∧ s.hz.st ≠ HzState.halted ∧
      s.eligible e ≠ [])) = true ∧
    (let s : State := tRunI; let e : Nat := 1; decide (s.runningOn e = none)) = true := by
  decide +kernel

theorem witness_TokensAndDelays :
    (let s : State := tRunI; let k : Nat := 500;
      ((s.anv.delays).head?).any fun d => (s.thread? d.tid).any fun t => decide (s.delayTimer = true ∧ s.hz.ticking = true ∧
      s.anv.delays = [d] ∧ d.wake ≤ k ∧ d.slot < 4 ∧ t.ops.length = 4 ∧ (t.st = ThState.running ∨
      d.slot < t.nslots) ∧ t.ops[d.slot]? = some none ∧
      s.tokensOut t.fn 5 < 512 * (s.grantOf t.fn).engineList.length ∧ s.readyFull t.fn t.cluster = false)) = true ∧
    (let s : State := { tRunI with anv := { tRunI.anv with stalled := [⟨some 0, 6, 1, ⟨9, St.ok, 4, some 0⟩⟩] } };
      let k : Nat := 4;
      ((s.anv.stalled).head?).any fun x => (s.deliver x.tid x.slot x.tok).any fun _v => decide (s.anv.stalled = [x] ∧ x.tok.source = k)) = true ∧
    (let s : State := { tRunI with store := { tRunI.store with claims := [] } }; decide ((s.delayTimer = false ∨
      s.hz.ticking = false))) = true := by
  decide +kernel

theorem witness_InstancesAndChunks :
    (let s : State := tStart; let n : Nat := 0;
      (s.waitingInst n).any fun i => (s.module? n i.handle).any fun _m => ((s.freeEngines n).head?).any fun e => let es : List Nat := (s.freeEngines n).tail;
      decide (s.anv.zeroing.contains n = false ∧ s.fnState n = FnState.active ∧
      s.freeEngines n = e :: es) && (let k := if i.blk.engines = 0 then (s.grantOf n).engineList.length else i.blk.engines;
      decide (1 ≤ k ∧ k ≤ es.length + 1 ∧ s.freeSlots e ≠ []))) = true ∧
    (let s : State := tStart; let n : Nat := 0; decide (s.inst? n = none)) = true ∧
    (let s : State := tStart; let n : Nat := 1; decide ((s.waitingInst n = none ∨ s.anv.zeroing.contains n = true ∨
      s.fnState n ≠ FnState.active))) = true ∧
    (let s : State := tStart; let n : Nat := 1; (s.inst? n).any fun i => decide ((i.st ≠ InstState.ending ∨
      i.puts ≠ []))) = true ∧
    (let s : State := { tStart with anv := { tStart.anv with insts := [{ tInst .waitEngines with blk := { tExecBlk with engines := 5 } }] } };
      let n : Nat := 0;
      (s.waitingInst n).any fun i => (s.module? n i.handle).any fun _m => ((s.freeEngines n).head?).any fun e => let es : List Nat := (s.freeEngines n).tail;
      decide (s.anv.zeroing.contains n = false ∧ s.fnState n = FnState.active ∧
      s.freeEngines n = e :: es) && (let k := if i.blk.engines = 0 then (s.grantOf n).engineList.length else i.blk.engines;
      decide (es.length + 1 < k))) = true ∧
    (let s : State := tRunI; let n : Nat := 1;
      (s.inst? n).any fun i => i.nextChunkEngine.any fun j => (s.module? i.fn i.handle).any fun m => (s.store.ns? i.nsid).any fun _d => decide (i.st = InstState.running ∧
      s.fnState i.fn = FnState.active) && (let e := i.engines.getD j 0;
      let len := min (chunkBytes i.blk) (i.blk.rangeLen - i.delivered);
      let ov := min (overlapBytes i.blk) (i.blk.rangeLen - i.delivered - len); decide (len ≠ 0 ∧
      len + ov ≤ (s.credit i.fn).scan ∧
      ((List.filter (fun t => t.inst == n) s.anv.threads).length < m.file.maxThreads) ∧
      s.readyFull i.fn (clusterOf e) = false ∧ s.freeSlots e ≠ []))) = true ∧
    (let s : State := { tRunI with hz := { tRunI.hz with credits := [⟨0, 0, 0, 4095, false⟩] } }; let n : Nat := 1;
      (s.inst? n).any fun i => i.nextChunkEngine.any fun _j => (s.module? i.fn i.handle).any fun _m => (s.store.ns? i.nsid).any fun _d => decide (i.st = InstState.running ∧
      s.fnState i.fn = FnState.active) && (let len := min (chunkBytes i.blk) (i.blk.rangeLen - i.delivered);
      let ov := min (overlapBytes i.blk) (i.blk.rangeLen - i.delivered - len);
      decide (((s.credit i.fn).scan < len + ov ∨ len = 0)))) = true ∧
    (let s : State := { tRunI with anv := { tRunI.anv with insts := [{ tInst .ending with status := St.anvFault, code := 7, resultLen := 9 }], threads := [] } };
      let n : Nat := 1;
      (s.inst? n).any fun i => (List.find? (fun c => c.inst == n && c.e.opc == opExec) s.q.cmds).any fun _c => decide (i.st = InstState.ending ∧
      i.puts = [] ∧ (∀ j ∈ s.sq.jobs, j.inst ≠ n) ∧ (∀ t ∈ s.anv.threads, t.inst ≠ n))) = true := by
  decide +kernel

theorem witness_ThreadServices :
    (let s : State := tRunI; let e : Nat := 0; let t : Thread := tTh 5 .running 0; let i : Inst := tInst .running;
      let m : Machine.Module := tMod; let a : Nat := 0x100000000; let c : Nat := 20; let d : Nat := 4;
      let f : Nat := 255; let run : ThreadRun := tRunR; decide (s.calls e t i m ∧ e < s.anv.engines.length ∧
      run.x.length = 32) && (let n := (List.filter (fun t => t.inst == i.id) s.anv.threads).length;
      let part := (if f = 255 then none else i.engines[f]?).getD e; decide (m.holds a 1 = true ∧ d ≤ 4 ∧ (f = 255 ∨
      f < i.engines.length) ∧ c ≤ m.file.maxPrio ∧ n < m.file.maxThreads ∧ s.freeSlots part ≠ []))) = true ∧
    (let s : State := tRunI; let e : Nat := 0; let t : Thread := tTh 5 .running 0; let i : Inst := tInst .running;
      let m : Machine.Module := tMod; let a : Nat := 0x100000000; let run : ThreadRun := tRunR;
      decide (s.calls e t i m ∧ e < s.anv.engines.length ∧ run.x.length = 32 ∧ s.delayTimer = true ∧
      s.threadOf i.id a = none)) = true ∧
    (let s : State := tRunI; let e : Nat := 0; let t : Thread := tTh 5 .running 0; let i : Inst := tInst .running;
      let m : Machine.Module := tMod; let run : ThreadRun := tRunR; decide (s.calls e t i m ∧
      e < s.anv.engines.length ∧ run.x.length = 32 ∧ s.fenced t.fn = false)) = true ∧
    (let s : State := tRunI; let e : Nat := 0; let t : Thread := tTh 5 .running 0; let i : Inst := tInst .running;
      let m : Machine.Module := tMod; let a : Nat := 0x100010000; let d : Nat := 0; let f : Nat := 1;
      let run : ThreadRun := tRunR; decide (s.calls e t i m ∧ e < s.anv.engines.length ∧ run.x.length = 32 ∧
      (m.holds a 1 = false ∨ 4 < d ∨ f ≠ 255 ∧ i.engines.length ≤ f))) = true ∧
    (let s : State := tRunI; let e : Nat := 0; let t : Thread := tTh 5 .running 0; let i : Inst := tInst .running;
      let m : Machine.Module := tMod; let a : Nat := 0x10000FFFF; let c : Nat := 21; let d : Nat := 0;
      let f : Nat := 1; let run : ThreadRun := tRunR; decide (s.calls e t i m ∧ e < s.anv.engines.length ∧
      run.x.length = 32 ∧ m.holds a 1 = true ∧ d ≤ 4 ∧ (f = 255 ∨ f < i.engines.length) ∧ m.file.maxPrio < c)) = true ∧
    (let s : State := { tRunI with anv := { tRunI.anv with threads := tRunI.anv.threads ++ [tTh 8 .waiting 1] } };
      let e : Nat := 0; let t : Thread := tTh 5 .running 0; let i : Inst := tInst .running;
      let m : Machine.Module := tMod; let a : Nat := 0x10000FFFF; let c : Nat := 20; let d : Nat := 0;
      let f : Nat := 1; let run : ThreadRun := tRunR; decide (s.calls e t i m ∧ e < s.anv.engines.length ∧
      run.x.length = 32) && (let n := (List.filter (fun t => t.inst == i.id) s.anv.threads).length;
      let part := (if f = 255 then none else i.engines[f]?).getD e; decide (m.holds a 1 = true ∧ d ≤ 4 ∧ (f = 255 ∨
      f < i.engines.length) ∧ c ≤ m.file.maxPrio ∧ (m.file.maxThreads ≤ n ∨ s.freeSlots part = [])))) = true ∧
    (let s : State := tRunI; let e : Nat := 0; let t : Thread := tTh 5 .running 0; let i : Inst := tInst .running;
      let m : Machine.Module := tMod; let a : Nat := 6; let b : Nat := 1; let run : ThreadRun := tRunR;
      decide (s.calls e t i m ∧ e < s.anv.engines.length ∧
      run.x.length = 32) && (s.threadOf i.id a).any fun x => decide (b < 4 ∧ (x.st = ThState.running ∨
      b < x.nslots) ∧ x.ops[b]? = some none ∧ s.tokensOut x.fn 4 < 256 * (s.grantOf x.fn).engineList.length ∧
      s.readyFull x.fn x.cluster = false)) = true ∧
    (let s : State := tRunI; let e : Nat := 0; let t : Thread := tTh 5 .running 0; let i : Inst := tInst .running;
      let m : Machine.Module := tMod; let a : Nat := 6; let b : Nat := 1; let run : ThreadRun := tRunR;
      decide (s.calls e t i m ∧ e < s.anv.engines.length ∧ run.x.length = 32 ∧ s.delayTimer = true ∧
      (s.threadOf i.id a).isSome = true ∧ b < 4)) = true ∧
    (let s : State := tRunI; let e : Nat := 0; let t : Thread := tTh 5 .running 0; let i : Inst := tInst .running;
      let m : Machine.Module := tMod; let a : Nat := 6; let run : ThreadRun := tRunR; decide (s.calls e t i m ∧
      e < s.anv.engines.length ∧
      run.x.length = 32) && (s.threadOf i.id a).any fun x => decide (x.st ≠ ThState.running)) = true ∧
    (let s : State := tRunI; let e : Nat := 0; let t : Thread := tTh 5 .running 0; let i : Inst := tInst .running;
      let m : Machine.Module := tMod; let a : Nat := 6; let b : Nat := 2; let run : ThreadRun := tRunR;
      decide (s.calls e t i m ∧ e < s.anv.engines.length ∧
      run.x.length = 32) && (s.threadOf i.id a).any fun x => decide ((4 ≤ b ∨ x.st ≠ ThState.running ∧
      x.nslots ≤ b))) = true ∧
    (let s : State := tRunI; let e : Nat := 0; let t : Thread := tTh 5 .running 0; let i : Inst := tInst .running;
      let m : Machine.Module := tMod; let a : Nat := 5; let run : ThreadRun := tRunR; decide (s.calls e t i m ∧
      e < s.anv.engines.length ∧
      run.x.length = 32) && (s.threadOf i.id a).any fun x => decide (x.st = ThState.running)) = true ∧
    (let s : State := { tRunI with store := { tRunI.store with claims := [] }, anv := { tRunI.anv with threads := [tTh 5 .running 0, { tTh 6 .waiting 2 with ops := [some ⟨1, St.ok, 2, some 0⟩, none, none, none] }] } };
      let e : Nat := 0; let t : Thread := tTh 5 .running 0; let i : Inst := tInst .running;
      let m : Machine.Module := tMod; let a : Nat := 6; let b : Nat := 0; let run : ThreadRun := tRunR;
      decide (s.calls e t i m ∧ e < s.anv.engines.length ∧
      run.x.length = 32) && (s.threadOf i.id a).any fun x => decide (b < 4 ∧ (x.st = ThState.running ∨
      b < x.nslots) ∧ ((x.ops[b]?.bind id).isSome = true ∨
      256 * (s.grantOf x.fn).engineList.length ≤ s.tokensOut x.fn 4))) = true ∧
    (let s : State := { tRunI with store := { tRunI.store with claims := [] }, anv := { tRunI.anv with threads := [tTh 5 .running 0, { tTh 6 .waiting 2 with ops := [some ⟨1, St.ok, 2, some 0⟩, none, none, none] }] } };
      let e : Nat := 0; let t : Thread := tTh 5 .running 0; let i : Inst := tInst .running;
      let m : Machine.Module := tMod; let run : ThreadRun := tRunR; decide (s.calls e t i m ∧
      e < s.anv.engines.length ∧ run.x.length = 32 ∧ s.delayTimer = false)) = true := by
  decide +kernel

theorem witness_PortBringUp :
    (let s : State := tEn (tStP .down); let p : Nat := 0; let x := s.port p; decide (x.st = PortState.down ∧
      (s.portCfg p).enable = true ∧ s.pw.st ≠ PState.p3)) = true ∧
    (let s : State := tEn (tStP .down); let p : Nat := 0; let x := s.port p;
      decide (x.st ≠ PortState.restartWait)) = true ∧
    (let s : State := tEn (tStP .down); let p : Nat := 0; let x := s.port p; decide (x.st ≠ PortState.up ∧
      (match x.st with | PortState.step _ => false | _ => true) = true)) = true ∧
    (let s : State := tEn (tStP .down); let p : Nat := 0; let x := s.port p; decide (x.st ≠ PortState.step 6 ∧
      s.portUp p = false)) = true ∧
    (let s : State := tEn (tStP .down); let p : Nat := 0; let x := s.port p; decide (x.st ≠ PortState.step 5 ∧
      s.portUp p = false)) = true ∧
    (let s : State := tEn (tStP .down); let p : Nat := 0; let x := s.port p; decide (x.st ≠ PortState.fenced)) = true ∧
    (let s : State := tStepP 2 0; let p : Nat := 0; let x := s.port p; decide ((x.st ≠ PortState.down ∨
      (s.portCfg p).enable = false ∨ s.pw.st = PState.p3))) = true ∧
    (let s : State := tStepP 2 0; let p : Nat := 0; let x := s.port p; let n : Nat := 2;
      decide (x.st = PortState.step n ∧ n ≠ 7 ∧ n ≠ 4 ∧ n ≠ 5 ∧ n ≠ 6)) = true ∧
    (let s : State := tStepP 4 0; let p : Nat := 0; let x := s.port p; let n : Nat := 4;
      decide (x.st = PortState.step n ∧ n ≠ 7 ∧ n = 4)) = true ∧
    (let s : State := tStepP 5 0; let p : Nat := 0; let x := s.port p; let n : Nat := 5;
      decide (x.st = PortState.step n ∧ n ≠ 7 ∧ n = 5)) = true ∧
    (let s : State := tStepP 5 0; let p : Nat := 0; let x := s.port p; decide ((x.st = PortState.step 5 ∨
      s.portUp p = true))) = true ∧
    (let s : State := tStepP 6 0; let p : Nat := 0; let x := s.port p; decide (x.st = PortState.step 6 ∧
      s.initiates p = false)) = true ∧
    (let s : State := tStepP 6 9; let p : Nat := 0; let x := s.port p; decide (x.st = PortState.step 6 ∧
      s.initiates p = true)) = true ∧
    (let s : State := tStepP 7 9; let p : Nat := 0; let x := s.port p; decide (x.st = PortState.step 7)) = true ∧
    (let s : State := tStP .restartWait; let p : Nat := 0; let x := s.port p;
      decide (x.st = PortState.restartWait)) = true ∧
    (let s : State := tStP .up; let p : Nat := 0; let x := s.port p; decide (x.st = PortState.up)) = true ∧
    (let s : State := tStP .fenced; let p : Nat := 0; let x := s.port p; decide (x.st = PortState.fenced)) = true ∧
    (let s : State := tZl; let p : Nat := 0; decide (s.portUp p = true)) = true := by
  decide +kernel

theorem witness_PeerAuthentication :
    (let s : State := tZl; let p : Nat := 0; let a : Nat := 100; let b : Nat := 100; let n : Nat := 1;
      let x := s.port p; decide (s.portUp p = true ∧ n < (s.portCfg p).lanes ∧
      (∀ m ∈ x.margins, m.1 = n → m.2.2.2 < 3) ∧
      (∀ r ∈ x.retrain, r.lane = n → r.full = false)) && (let tv := s.param 2832 p; let th := s.param 2833 p;
      decide (tv ≤ a ∧ th ≤ b))) = true ∧
    (let s : State := tAu false .none true; let p : Nat := 0; let x := s.port p; decide (x.st = PortState.step 7 ∧
      x.initiator = false ∧ x.auth = AuthState.none ∧ s.keyUsable = true)) = true ∧
    (let s : State := tAu false .none true; let p : Nat := 0; let n : Nat := 88; decide ((s.portUp p = false ∨
      (s.portCfg p).lanes ≤ n))) = true ∧
    (let s : State := { tAu false .none true with fw := { tZl.fw with debug := .unlocked } }; let p : Nat := 0;
      let x := s.port p; decide (x.st = PortState.step 7 ∧ s.keyUsable = false)) = true ∧
    (let s : State := tAu true .helloSeen true; let p : Nat := 0; let n : Nat := 88; let x := s.port p;
      decide (x.st = PortState.step 7) && (s.trusts p n).any fun _sc => decide (x.initiator = true ∧ x.auth = AuthState.helloSeen ∧
      s.keyUsable = true)) = true ∧
    (let s : State := tAu true .helloSeen true; let p : Nat := 0; let x := s.port p;
      decide (x.st = PortState.step 7 ∧ x.auth ≠ AuthState.none)) = true ∧
    (let s : State := tAu true .helloSeen true; let p : Nat := 0; let a : Nat := 3; let b : Nat := 4;
      let n : Nat := 88; let g : Bool := false; let x := s.port p; decide (x.st = PortState.step 7 ∧ (g = false ∨
      s.trusts p n = none)) && (let i : Instr := Instr.reply 0 3 4 false 88; decide ((i = Instr.reply p a b g n ∧
      x.initiator = true ∧ x.auth = AuthState.helloSeen ∧ s.keyUsable = true ∨ i = Instr.finish p g n ∧
      x.initiator = false ∧ x.auth = AuthState.replied)))) = true ∧
    (let s : State := tAu false .replied true; let p : Nat := 0; let n : Nat := 88; let x := s.port p;
      decide (x.st = PortState.step 7) && (s.trusts p n).any fun _sc => decide (x.initiator = false ∧
      x.auth = AuthState.replied)) = true ∧
    (let s : State := tAu true .finished true; let p : Nat := 0; let x := s.port p; decide (x.st = PortState.step 7 ∧
      x.initiator = true ∧ x.auth = AuthState.finished)) = true ∧
    (let s : State := tZl; let p : Nat := 0; let a : Nat := tZl.param 0x0B10 0 - 1;
      let b : Nat := tZl.param 0x0B11 0; let n : Nat := 1; let x := s.port p; decide (s.portUp p = true ∧
      n < (s.portCfg p).lanes ∧ (∀ m ∈ x.margins, m.1 = n → m.2.2.2 < 3) ∧
      (∀ r ∈ x.retrain, r.lane = n → r.full = false)) && (let tv := s.param 2832 p; let th := s.param 2833 p;
      decide ((a < tv ∨ b < th) ∧ tv ≤ 2 * a ∧ th ≤ 2 * b ∧ (∀ r ∈ x.retrain, r.lane ≠ n)))) = true ∧
    (let s : State := tLm 2; let p : Nat := 0; let a : Nat := 0; let b : Nat := 0; let n : Nat := 1;
      let x := s.port p; decide (s.portUp p = true ∧ n < (s.portCfg p).lanes ∧
      (∀ m ∈ x.margins, m.1 = n → m.2.2.2 < 3) ∧
      (∀ r ∈ x.retrain, r.lane = n → r.full = false)) && (let tv := s.param 2832 p; let th := s.param 2833 p;
      (List.find? (fun m => m.1 == n) x.margins).any fun m => decide (m.2.2.2 = 2 ∧ (2 * a < tv ∨
      2 * b < th)))) = true ∧
    (let s : State := tZl; let p : Nat := 0; let a : Nat := 100; let b : Nat := 100; let n : Nat := 1;
      let g : Bool := true; let x := s.port p;
      decide (x.st ≠ PortState.step 7) && (let i : Instr := Instr.hello 0 100 100;
      decide (i ∈ [Instr.hello p a b, Instr.reply p a b g n, Instr.finish p g n, Instr.done p, Instr.authTimeout p]))) = true := by
  decide +kernel

theorem witness_FramesOnAPort :
    (let s : State := tStepP 3 0; let f : Frame := tFr 1 11 2 true; decide ((f.dst = s.node ∨ f.dst = 65535))) = true ∧
    (let s : State := tStepP 3 0; let p : Nat := 0; decide (s.portUp p = false)) = true ∧
    (let s : State := tZl; let p : Nat := 0; let f : Frame := tFr 5 11 2 true; let st : Status := St.ok;
      let x := s.port p; decide (x.st = PortState.up) && (let good := s.modPort p fun x => have __src := x.ack f.ack; { st := __src.st, fails := __src.fails, lanesUp := __src.lanesUp, margins := __src.margins, retrain := __src.retrain, adapted := __src.adapted, dPort := __src.dPort, peer := __src.peer, peerCert := __src.peerCert, peerCaps := __src.peerCaps, auth := __src.auth, nonces := __src.nonces, initiator := __src.initiator, scope := __src.scope, trustSlot := __src.trustSlot, admitted := __src.admitted, txSeq := __src.txSeq, rxSeq := f.seq, acked := __src.acked, unacked := __src.unacked, ackDue := true, backoff := __src.backoff, violations := __src.violations, window := __src.window, windowAt := __src.windowAt, pausedTo := __src.pausedTo, sentPause := __src.sentPause, recs := __src.recs, mirrorCredit := __src.mirrorCredit, mirrorTick := __src.mirrorTick };
      decide (f.dst ≠ s.node ∧ f.dst ≠ 65535 ∧ frameOk f f.len = true ∧ f.tagOk = true ∧ f.seq = x.rxSeq + 1 ∧
      hopOf f.dst good.cablesNow s.node = none))) = true ∧
    (let s : State := tZl; let p : Nat := 0; let x := s.port p; decide (s.portUp p = true ∧ x.ackDue = false)) = true ∧
    (let s : State := tZl; let p : Nat := 0; let f : Frame := tFr 5 10 2 true; let bs : Data := [1, 2];
      let x := s.port p; decide (x.st = PortState.up) && (let y : Instr := Instr.data 0 (tFr 5 10 2 true) [1, 2];
      let n : Nat := 2; decide ((y = Instr.data p f bs ∧ n = List.length bs ∨ y = Instr.nak p f ∧ n = f.len ∨
      y = Instr.frameRelay p f ∧ n = f.len ∧ f.dst ≠ s.node ∧ f.dst ≠ 65535) ∧ frameOk f n = true ∧ f.tagOk = true ∧
      f.seq ≤ x.rxSeq))) = true ∧
    (let s : State := tZl; let p : Nat := 0; let f : Frame := tFr 5 11 2 false; let bs : Data := [1, 2];
      let x := s.port p; decide (x.st = PortState.up) && (let y : Instr := Instr.data 0 (tFr 5 11 2 false) [1, 2];
      let n : Nat := 2; decide ((y = Instr.data p f bs ∧ n = List.length bs ∨ y = Instr.nak p f ∧ n = f.len ∨
      y = Instr.frameRelay p f ∧ n = f.len ∧ f.dst ≠ s.node ∧ f.dst ≠ 65535) ∧ frameOk f n = true ∧
      (f.tagOk = false ∨ x.rxSeq + 1 < f.seq)))) = true ∧
    (let s : State := tZl; let p : Nat := 0; let f : Frame := tFr 5 11 9000 true; let bs : Data := [1, 2];
      let x := s.port p; decide (x.st = PortState.up) && (let y : Instr := Instr.data 0 (tFr 5 11 9000 true) [1, 2];
      let n : Nat := 2; decide ((y = Instr.data p f bs ∧ n = List.length bs ∨ y = Instr.nak p f ∧ n = f.len ∨
      y = Instr.frameRelay p f ∧ n = f.len ∧ f.dst ≠ s.node ∧ f.dst ≠ 65535) ∧ frameOk f n = false))) = true ∧
    (let s : State := tRel; let p : Nat := 0; let f : Frame := tFr 5 11 2 true; let st : Status := St.ok;
      let x := s.port p; decide (x.st = PortState.up) && (let good := s.modPort p fun x => have __src := x.ack f.ack; { st := __src.st, fails := __src.fails, lanesUp := __src.lanesUp, margins := __src.margins, retrain := __src.retrain, adapted := __src.adapted, dPort := __src.dPort, peer := __src.peer, peerCert := __src.peerCert, peerCaps := __src.peerCaps, auth := __src.auth, nonces := __src.nonces, initiator := __src.initiator, scope := __src.scope, trustSlot := __src.trustSlot, admitted := __src.admitted, txSeq := __src.txSeq, rxSeq := f.seq, acked := __src.acked, unacked := __src.unacked, ackDue := true, backoff := __src.backoff, violations := __src.violations, window := __src.window, windowAt := __src.windowAt, pausedTo := __src.pausedTo, sentPause := __src.sentPause, recs := __src.recs, mirrorCredit := __src.mirrorCredit, mirrorTick := __src.mirrorTick };
      decide (f.dst ≠ s.node ∧ f.dst ≠ 65535 ∧ frameOk f f.len = true ∧ f.tagOk = true ∧
      f.seq = x.rxSeq + 1) && (hopOf f.dst good.cablesNow s.node).any fun h => decide (h.port < 3 ∧ good.portUp h.port = true))) = true ∧
    (let s : State := { tZl with zl := { tZl.zl with ports := [{ tPort with ackDue := true, unacked := [(3, ⟨0, 2, 65535, 0, 1⟩)] }, .reset, .reset] } };
      let p : Nat := 0; let x := s.port p; decide (s.portUp p = true ∧ x.ackDue = true)) = true ∧
    (let s : State := tStepP 3 0; let p : Nat := 0; let a : Nat := 5; let b : Nat := 6; let c : Nat := 7;
      let f : Frame := tFr 1 11 2 true; let bs : Data := [1, 2]; let ms : List Member := [];
      let cs : List Cable := []; let ns : List Nat := []; let st : Status := St.ok; let q : NsFields := tQf;
      let x := s.port p;
      let group := [Instr.sealReady p a b c a, Instr.sealCommit p a b, Instr.membership p a b c { members := ms, cables := cs } a, Instr.memberLost p { src := a, nodes := ns }, Instr.joinRequest p a b { highWater := c, last := a } cs b, Instr.joinAccept p a, Instr.joinOffer p a b c a b, Instr.joinRefuse p st, Instr.mirrorCreate p a q b, Instr.mirrorHeld p a, Instr.mirrorAdmit p a b];
      let link := [Instr.data p f bs, Instr.nak p f, Instr.retrans p a, Instr.unknownFrameType p f, Instr.pause p a, Instr.credit p a b];
      decide ((match x.st with | PortState.step _ => true | _ => false) = true) && (let y : Instr := Instr.retrans 0 5;
      decide (y ∈ link ++ group))) = true ∧
    (let s : State := tStP .down; let p : Nat := 0; let a : Nat := 5; let b : Nat := 6; let c : Nat := 7;
      let f : Frame := tFr 1 11 2 true; let bs : Data := [1, 2]; let ms : List Member := [];
      let cs : List Cable := []; let ns : List Nat := []; let st : Status := St.ok; let q : NsFields := tQf;
      let x := s.port p;
      let group := [Instr.sealReady p a b c a, Instr.sealCommit p a b, Instr.membership p a b c { members := ms, cables := cs } a, Instr.memberLost p { src := a, nodes := ns }, Instr.joinRequest p a b { highWater := c, last := a } cs b, Instr.joinAccept p a, Instr.joinOffer p a b c a b, Instr.joinRefuse p st, Instr.mirrorCreate p a q b, Instr.mirrorHeld p a, Instr.mirrorAdmit p a b];
      let link := [Instr.data p f bs, Instr.nak p f, Instr.retrans p a, Instr.unknownFrameType p f, Instr.pause p a, Instr.credit p a b];
      decide ((match x.st with | PortState.step _ => false | _ => true) = true ∧
      x.st ≠ PortState.up) && (let y : Instr := Instr.retrans 0 5; decide (y ∈ link ++ group))) = true := by
  decide +kernel

theorem witness_RecordsAndMirrors :
    (let s : State := tZl; let p : Nat := 0; let f : Frame := { tFr 1 11 2 true with rid := 0 };
      let bs : Data := [1, 2]; decide ((s.port p).st = PortState.up ∧ frameOk f (List.length bs) = true ∧
      f.tagOk = true ∧ f.seq = (s.port p).rxSeq + 1 ∧ (f.dst = s.node ∨ f.dst = 65535) ∧ f.rid = 0)) = true ∧
    (let s : State := tZl; let p : Nat := 0; let b : Nat := 6; let q : NsFields := tQf;
      decide ((s.port p).st = PortState.up ∧ (s.inRing = false ∨ s.hz.ticking = false ∨
      s.refusesMirror q b = true))) = true ∧
    (let s : State := tZl; let p : Nat := 0; let a : Nat := 5; decide ((s.port p).st = PortState.up ∧ a ≠ 0)) = true ∧
    (let s : State := tZl; let p : Nat := 0; decide ((s.port p).st = PortState.up ∧ s.zl.creating = none)) = true ∧
    (let s : State := tZl; let p : Nat := 0; let a : Nat := 5; decide ((s.port p).st = PortState.up ∧
      (∀ r ∈ (s.port p).recs, ¬(r.rid = a ∧ r.complete = true ∧ r.mirror = true)))) = true ∧
    (let s : State := tZl; let p : Nat := 0; let a : Nat := 5; decide ((s.port p).st = PortState.up ∧
      (s.zl.copying.contains a = false ∨ s.hz.ticking = false))) = true ∧
    (let s : State := tRec [tLrP []]; let p : Nat := 0; let f : Frame := { tFr 1 11 2 true with flags := 0 };
      let bs : Data := [1, 2];
      decide ((s.port p).st = PortState.up) && (let good := s.modPort p fun x => have __src := x.ack f.ack; { st := __src.st, fails := __src.fails, lanesUp := __src.lanesUp, margins := __src.margins, retrain := __src.retrain, adapted := __src.adapted, dPort := __src.dPort, peer := __src.peer, peerCert := __src.peerCert, peerCaps := __src.peerCaps, auth := __src.auth, nonces := __src.nonces, initiator := __src.initiator, scope := __src.scope, trustSlot := __src.trustSlot, admitted := __src.admitted, txSeq := __src.txSeq, rxSeq := f.seq, acked := __src.acked, unacked := __src.unacked, ackDue := true, backoff := __src.backoff, violations := __src.violations, window := __src.window, windowAt := __src.windowAt, pausedTo := __src.pausedTo, sentPause := __src.sentPause, recs := __src.recs, mirrorCredit := __src.mirrorCredit, mirrorTick := __src.mirrorTick };
      decide (frameOk f (List.length bs) = true ∧ f.tagOk = true ∧ f.seq = (s.port p).rxSeq + 1 ∧ (f.dst = s.node ∨
      f.dst = 65535)) && ((good.port p).partial? f.src f.rid).any fun r => let h : RecHeader := tHdr 4; decide (f.rid ≠ 0 ∧
      r.hdr = some h ∧ bitAt f.flags 0 = false ∧ List.length r.bytes + List.length bs ≤ 32 + h.declLen))) = true ∧
    (let s : State := tRec [tLrP []]; let p : Nat := 0; let f : Frame := { tFr 1 11 2 true with flags := 0 };
      decide ((s.port p).st = PortState.up ∧ frameOk f f.len = true ∧ f.tagOk = true ∧ f.seq = (s.port p).rxSeq + 1 ∧
      (f.dst = s.node ∨ f.dst = 65535) ∧ BitVec.ofNat 16 (bitsAt f.arg 0 16) ≠ St.zlMirrorLate ∧ f.rid ≠ 0 ∧
      (∀ m ∈ s.zl.mirror, m.rid ≠ f.rid) ∧ (∀ r ∈ s.zl.routes, r.node ≠ f.src))) = true ∧
    (let s : State := tRec [tLrP []]; let p : Nat := 0; let f : Frame := tFr 1 11 5 true;
      let bs : Data := [1, 2, 3, 4, 5];
      decide ((s.port p).st = PortState.up) && (let good := s.modPort p fun x => have __src := x.ack f.ack; { st := __src.st, fails := __src.fails, lanesUp := __src.lanesUp, margins := __src.margins, retrain := __src.retrain, adapted := __src.adapted, dPort := __src.dPort, peer := __src.peer, peerCert := __src.peerCert, peerCaps := __src.peerCaps, auth := __src.auth, nonces := __src.nonces, initiator := __src.initiator, scope := __src.scope, trustSlot := __src.trustSlot, admitted := __src.admitted, txSeq := __src.txSeq, rxSeq := f.seq, acked := __src.acked, unacked := __src.unacked, ackDue := true, backoff := __src.backoff, violations := __src.violations, window := __src.window, windowAt := __src.windowAt, pausedTo := __src.pausedTo, sentPause := __src.sentPause, recs := __src.recs, mirrorCredit := __src.mirrorCredit, mirrorTick := __src.mirrorTick };
      decide (frameOk f (List.length bs) = true ∧ f.tagOk = true ∧ f.seq = (s.port p).rxSeq + 1 ∧ (f.dst = s.node ∨
      f.dst = 65535)) && ((good.port p).partial? f.src f.rid).any fun r => let h : RecHeader := tHdr 4; decide (f.rid ≠ 0 ∧
      r.hdr = some h ∧ 32 + h.declLen < List.length r.bytes + List.length bs))) = true ∧
    (let s : State := tZl; let p : Nat := 0;
      let f : Frame := { tFr 1 11 36 true with rid := 8, arg := 2 + 4294967296 * 5 };
      let bs : Data := recBytes (tHdr 4) ++ [1, 2, 3, 4];
      decide ((s.port p).st = PortState.up) && (let good := s.modPort p fun x => have __src := x.ack f.ack; { st := __src.st, fails := __src.fails, lanesUp := __src.lanesUp, margins := __src.margins, retrain := __src.retrain, adapted := __src.adapted, dPort := __src.dPort, peer := __src.peer, peerCert := __src.peerCert, peerCaps := __src.peerCaps, auth := __src.auth, nonces := __src.nonces, initiator := __src.initiator, scope := __src.scope, trustSlot := __src.trustSlot, admitted := __src.admitted, txSeq := __src.txSeq, rxSeq := f.seq, acked := __src.acked, unacked := __src.unacked, ackDue := true, backoff := __src.backoff, violations := __src.violations, window := __src.window, windowAt := __src.windowAt, pausedTo := __src.pausedTo, sentPause := __src.sentPause, recs := __src.recs, mirrorCredit := __src.mirrorCredit, mirrorTick := __src.mirrorTick };
      decide (frameOk f (List.length bs) = true ∧ f.tagOk = true ∧ f.seq = (s.port p).rxSeq + 1 ∧ (f.dst = s.node ∨
      f.dst = 65535)) && (let m := (good.store.ns? (bitsAt f.arg 0 32)).elim false fun n => n.mirror && n.replica && n.f.mirrorNode == f.src;
      let r := { rid := f.rid, src := f.src, nsid := bitsAt f.arg 0 32, stream := bitsAt f.arg 32 12, bytes := bs, hdr := none, word := none, matched := false, complete := false, mirror := m, ticket := none };
      let h := headerOf bs; decide (f.rid ≠ 0 ∧ (good.port p).partial? f.src f.rid = none ∧ bitAt f.flags 0 = true ∧
      List.length bs = 32 + h.declLen ∧ good.firstCheck r h = none ∧ good.lastCheck p { rid := r.rid, src := r.src, nsid := r.nsid, stream := r.stream, bytes := r.bytes, hdr := some h, word := r.word, matched := r.matched, complete := r.complete, mirror := r.mirror, ticket := r.ticket } h = none ∧
      good.portHeld p + List.length bs ≤ good.portShare p ∧
      good.ingressAll + List.length bs ≤ Config.ingressBytes)))) = true ∧
    (let s : State := tGg; let p : Nat := 0; let b : Nat := tGg.zl.offset;
      let q : NsFields := { tQf with nsid := 30 }; decide ((s.port p).st = PortState.up ∧ s.inRing = true ∧
      s.hz.ticking = true ∧ s.refusesMirror q b = false)) = true ∧
    (let s : State := { tGg with zl := { tGg.zl with creating := some (0, 7, tQf), copying := [3] } };
      let p : Nat := 0; let a : Nat := 3; decide ((s.port p).st = PortState.up ∧ s.zl.copying.contains a = true ∧
      s.hz.ticking = true)) = true ∧
    (let s : State := tMg; let p : Nat := 0; let a : Nat := 3; let b : Nat := tMg.gtickNow;
      decide ((s.port p).st = PortState.up) && (List.find? (fun r => r.rid == a && r.complete && r.mirror) (s.port p).recs).any fun _r => decide (b = s.gtickNow ∧ s.admits = true)) = true ∧
    (let s : State := tMg; let p : Nat := 0; let a : Nat := 3; let b : Nat := tMg.gtickNow - 1;
      decide ((s.port p).st = PortState.up) && (List.find? (fun r => r.rid == a && r.complete && r.mirror) (s.port p).recs).any fun _r => decide ((b < s.gtickNow ∨ b = s.gtickNow ∧
      s.admits = false))) = true ∧
    (let s : State := tMg; let p : Nat := 0; let a : Nat := 3; let b : Nat := tMg.gtickNow + 1;
      decide ((s.port p).st = PortState.up) && (List.find? (fun r => r.rid == a && r.complete && r.mirror) (s.port p).recs).any fun _r => decide (s.gtickNow < b)) = true ∧
    (let s : State := { tGg with store := {tGg.store with nss := tGg.store.nss }, zl := { tGg.zl with creating := some (0, 7, tQf), copying := [3] } };
      let p : Nat := 0; decide ((s.port p).st = PortState.up) && (let fn : Nat := 0; let tag : Nat := 7;
      let g : NsFields := tQf; decide (s.zl.creating = some (fn, tag, g)))) = true := by
  decide +kernel

theorem witness_SealVoteAndMembership :
    (let s : State := tG .master; let p : Nat := 0; let a : Nat := 2; let b : Nat := 2; let c : Nat := 3;
      decide ((s.port p).st = PortState.up ∧ s.zl.group = GroupState.master ∧ s.isMember a = true ∧
      s.genOk b c = true)) = true ∧
    (let s : State := tG .master; let p : Nat := 0; let a : Nat := 2; decide ((s.port p).st = PortState.up ∧
      (s.zl.group = GroupState.master ∨ s.zl.group = GroupState.member ∧ a ≤ s.zl.gen))) = true ∧
    (let s : State := tG .master; let p : Nat := 0; let a : Nat := 2; let ns : List Nat := [2];
      decide ((s.port p).st = PortState.up) && (let got := s.modPort p fun x => { st := x.st, fails := x.fails, lanesUp := x.lanesUp, margins := x.margins, retrain := x.retrain, adapted := x.adapted, dPort := x.dPort, peer := x.peer, peerCert := x.peerCert, peerCaps := x.peerCaps, auth := x.auth, nonces := x.nonces, initiator := x.initiator, scope := x.scope, trustSlot := x.trustSlot, admitted := x.admitted, txSeq := x.txSeq, rxSeq := x.rxSeq + 1, acked := x.acked, unacked := x.unacked, ackDue := true, backoff := x.backoff, violations := x.violations, window := x.window, windowAt := x.windowAt, pausedTo := x.pausedTo, sentPause := x.sentPause, recs := x.recs, mirrorCredit := x.mirrorCredit, mirrorTick := x.mirrorTick };
      let cut := got.dropCables a ns; let lost := cut.cutOff ns; decide (s.zl.group = GroupState.master ∧
      (∀ n ∈ lost, s.isMember n = false)))) = true ∧
    (let s : State := tG .master; let p : Nat := 0; let a : Nat := 2; let b : Nat := 2; let c : Nat := 4;
      decide ((s.port p).st = PortState.up ∧ s.zl.group = GroupState.master ∧ (s.isMember a = false ∨
      s.genOk b c = false))) = true ∧
    (let s : State := tG .member; let p : Nat := 0; let a : Nat := 2; let b : Nat := 3;
      decide ((s.port p).st = PortState.up ∧ s.zl.group = GroupState.member ∧ s.genOk a b = true)) = true ∧
    (let s : State := tG .member; let p : Nat := 0; let a : Nat := 2; let ns : List Nat := [2];
      decide ((s.port p).st = PortState.up) && (let got := s.modPort p fun x => { st := x.st, fails := x.fails, lanesUp := x.lanesUp, margins := x.margins, retrain := x.retrain, adapted := x.adapted, dPort := x.dPort, peer := x.peer, peerCert := x.peerCert, peerCaps := x.peerCaps, auth := x.auth, nonces := x.nonces, initiator := x.initiator, scope := x.scope, trustSlot := x.trustSlot, admitted := x.admitted, txSeq := x.txSeq, rxSeq := x.rxSeq + 1, acked := x.acked, unacked := x.unacked, ackDue := true, backoff := x.backoff, violations := x.violations, window := x.window, windowAt := x.windowAt, pausedTo := x.pausedTo, sentPause := x.sentPause, recs := x.recs, mirrorCredit := x.mirrorCredit, mirrorTick := x.mirrorTick };
      let cut := got.dropCables a ns; decide (s.zl.group = GroupState.member ∧
      (hopOf s.zl.master cut.cablesNow s.node).isSome = true))) = true ∧
    (let s : State := tG .member; let p : Nat := 0; let a : Nat := 2; let b : Nat := 2;
      decide ((s.port p).st = PortState.up ∧ s.zl.group = GroupState.member ∧ s.genOk a b = false)) = true ∧
    (let s : State := tG .member; let p : Nat := 0; let a : Nat := 4; let ms : List Member := tMs;
      decide ((s.port p).st = PortState.up) && (let me := ms.any fun m => m.node == s.node; decide ((s.zl.group = GroupState.member ∧
      s.zl.gen < a ∨ s.zl.group = GroupState.joining ∨ s.zl.group = GroupState.reforming) ∧ me = true))) = true ∧
    (let s : State := tG .member; let p : Nat := 0; let a : Nat := 4; let ms : List Member := [⟨3, 5⟩];
      decide ((s.port p).st = PortState.up) && (let me := ms.any fun m => m.node == s.node; decide (s.zl.group = GroupState.member ∧
      s.zl.gen < a ∧ me = false))) = true ∧
    (let s : State := tG .reforming; let p : Nat := 0; decide ((s.port p).st = PortState.up ∧
      s.zl.group = GroupState.reforming)) = true ∧
    (let s : State := tG .reforming; let p : Nat := 0; decide ((s.port p).st = PortState.up ∧
      s.zl.group ≠ GroupState.member ∧ s.zl.group ≠ GroupState.master)) = true ∧
    (let s : State := tG .joining; let p : Nat := 0; decide ((s.port p).st = PortState.up ∧
      (s.zl.group = GroupState.solo ∨ s.zl.group = GroupState.joining ∨ s.zl.group = GroupState.isolated))) = true ∧
    (let s : State := tG .joining; let p : Nat := 0; let ms : List Member := [⟨3, 5⟩];
      decide ((s.port p).st = PortState.up) && (let me := ms.any fun m => m.node == s.node; decide ((s.zl.group = GroupState.solo ∨
      s.zl.group = GroupState.joining ∧ me = false)))) = true ∧
    (let s : State := tLose; let p : Nat := 0; let a : Nat := 2; let ns : List Nat := [3];
      decide ((s.port p).st = PortState.up) && (let got := s.modPort p fun x => { st := x.st, fails := x.fails, lanesUp := x.lanesUp, margins := x.margins, retrain := x.retrain, adapted := x.adapted, dPort := x.dPort, peer := x.peer, peerCert := x.peerCert, peerCaps := x.peerCaps, auth := x.auth, nonces := x.nonces, initiator := x.initiator, scope := x.scope, trustSlot := x.trustSlot, admitted := x.admitted, txSeq := x.txSeq, rxSeq := x.rxSeq + 1, acked := x.acked, unacked := x.unacked, ackDue := true, backoff := x.backoff, violations := x.violations, window := x.window, windowAt := x.windowAt, pausedTo := x.pausedTo, sentPause := x.sentPause, recs := x.recs, mirrorCredit := x.mirrorCredit, mirrorTick := x.mirrorTick };
      let cut := got.dropCables a ns; let lost := cut.cutOff ns; decide (s.zl.group = GroupState.master ∧
      (∃ n ∈ lost, s.isMember n = true ∧ n ≠ s.node)))) = true ∧
    (let s : State := { tMem2 with zl := { tMem2.zl with master := 9 } }; let p : Nat := 0; let a : Nat := 2;
      let ns : List Nat := [2];
      decide ((s.port p).st = PortState.up) && (let got := s.modPort p fun x => { st := x.st, fails := x.fails, lanesUp := x.lanesUp, margins := x.margins, retrain := x.retrain, adapted := x.adapted, dPort := x.dPort, peer := x.peer, peerCert := x.peerCert, peerCaps := x.peerCaps, auth := x.auth, nonces := x.nonces, initiator := x.initiator, scope := x.scope, trustSlot := x.trustSlot, admitted := x.admitted, txSeq := x.txSeq, rxSeq := x.rxSeq + 1, acked := x.acked, unacked := x.unacked, ackDue := true, backoff := x.backoff, violations := x.violations, window := x.window, windowAt := x.windowAt, pausedTo := x.pausedTo, sentPause := x.sentPause, recs := x.recs, mirrorCredit := x.mirrorCredit, mirrorTick := x.mirrorTick };
      let cut := got.dropCables a ns; decide (s.zl.group = GroupState.member ∧
      hopOf s.zl.master cut.cablesNow s.node = none))) = true := by
  decide +kernel

theorem witness_JoinsAndTickLock :
    (let s : State := tHa true; let p : Nat := 0; let a : Nat := 7; let x := s.port p; decide (x.st = PortState.up ∧
      x.scope = some 0 ∧ s.zl.group = GroupState.master ∧ a ≠ 0 ∧ a ≠ 65535 ∧ s.isMember a = false ∧
      (∀ j ∈ s.zl.joins, j.node ≠ a))) = true ∧
    (let s : State := tHa true; let p : Nat := 0; let x := s.port p; decide (x.st = PortState.up ∧
      (s.joiner = false ∨ s.zl.joinAt ≠ 0))) = true ∧
    (let s : State := tHa true; let p : Nat := 0; let x := s.port p; decide (x.st = PortState.up ∧
      s.joiner = false)) = true ∧
    (let s : State := tHa true; decide ((s.joiner = false ∨ s.zl.joinAt = 0))) = true ∧
    (let s : State := tHa true; decide ((s.hz.ticking = false ∨ s.zl.joinAt = 0 ∨ s.freshEpoch = false ∨
      s.zl.joinAt + s.zl.joinOffset < s.hz.epoch))) = true ∧
    (let s : State := tHa true; decide ((s.zl.lock = LockState.none ∨ s.zl.marked = true ∨
      s.hz.ticking = false))) = true ∧
    (let s : State := tHa false; let p : Nat := 0; let a : Nat := 0; let x := s.port p; decide (x.st = PortState.up ∧
      x.scope = some 0 ∧ s.zl.group = GroupState.master ∧ (a = 0 ∨ s.isMember a = true ∨
      ∃ j ∈ s.zl.joins, j.node = a))) = true ∧
    (let s : State := { tHa false with zl := { (tHa false).zl with ports := [{ tPort with scope := some 1 }, .reset, .reset] } };
      let p : Nat := 0; let x := s.port p; decide (x.st = PortState.up ∧ x.scope ≠ some 0)) = true ∧
    (let s : State := { tHa false with zl := { (tHa false).zl with joins := [⟨7, 0, 5, 40, 12, 0, false, false, 0, 0⟩] } };
      let p : Nat := 0; let a : Nat := 7; let x := s.port p;
      decide (x.st = PortState.up) && (List.find? (fun j => j.node == a && !j.waitingHost && !j.accepted && j.gJ != 0) s.zl.joins).any fun _j => decide ((s.zl.group = GroupState.master ∨
      s.zl.group = GroupState.reforming))) = true ∧
    (let s : State := tJj .joining; let p : Nat := 0; let x := s.port p; decide (x.st = PortState.up ∧
      x.scope = some 0 ∧ s.zl.group ≠ GroupState.master ∧
      (s.zl.group = GroupState.reforming → s.zl.master ≠ s.node))) = true ∧
    (let s : State := tJj .joining; let p : Nat := 0; let x := s.port p; decide (x.st = PortState.up ∧
      s.joiner = true ∧ s.zl.joinAt = 0)) = true ∧
    (let s : State := tJl .locked; decide (s.joiner = true ∧ s.zl.joinAt ≠ 0 ∧ s.zl.lock = LockState.locked)) = true ∧
    (let s : State := tJl .locked; decide (s.hz.ticking = true ∧ s.zl.joinAt ≠ 0 ∧ s.freshEpoch = true ∧
      s.hz.epoch ≤ s.zl.joinAt + s.zl.joinOffset ∧ s.zl.group = GroupState.joining ∧ s.zl.lock = LockState.locked ∧
      s.isMember s.node = true)) = true ∧
    (let s : State := tJl .locked; let p : Nat := 0; let a : Nat := 40; let i : Int := 3;
      decide (s.hz.ticking = true ∧ s.zl.marked = false ∧ s.portUp p = true ∧ s.zl.tickPort = p ∧
      (s.zl.lock = LockState.locked ∨ s.zl.lock = LockState.flywheel) ∧ i.natAbs ≤ s.param 2838 0 ∧
      (s.inRing = false ∨ a = s.gtickNow))) = true ∧
    (let s : State := tJl .acquiring; decide (s.joiner = true ∧ s.zl.joinAt ≠ 0 ∧
      s.zl.lock ≠ LockState.locked)) = true ∧
    (let s : State := tLk .member .locked 0; let p : Nat := 0; let a : Nat := 77; let i : Int := -3;
      decide (s.hz.ticking = true ∧ s.zl.marked = false ∧ s.portUp p = true ∧ s.zl.tickPort = p ∧
      (s.zl.lock = LockState.locked ∨ s.zl.lock = LockState.flywheel) ∧ i.natAbs ≤ s.param 2838 0 ∧ s.inRing = true ∧
      a ≠ s.gtickNow ∧ s.zl.lock = LockState.locked)) = true ∧
    (let s : State := tLk .member .locked 0; let p : Nat := 0; let i : Int := 100000000;
      decide (s.hz.ticking = true ∧ s.zl.marked = false ∧ s.portUp p = true ∧ s.zl.tickPort = p ∧
      (s.zl.lock = LockState.locked ∨ s.zl.lock = LockState.flywheel) ∧ s.param 2838 0 < i.natAbs)) = true ∧
    (let s : State := tLk .member .flywheel 1; decide (s.hz.ticking = true ∧ s.zl.marked = false ∧
      s.zl.lock = LockState.flywheel ∧ s.zl.misses < 2)) = true ∧
    (let s : State := tLk .member .flywheel 2; decide (s.hz.ticking = true ∧ s.zl.marked = false ∧
      s.zl.lock = LockState.flywheel ∧ 2 ≤ s.zl.misses)) = true := by
  decide +kernel

theorem witness_FirmwareChanges :
    (let s : State := tNss; decide (s.fw.download = none)) = true ∧
    (let s : State := tNss; decide ((s.fw.phase ≠ FwPhase.preparing ∨ s.hz.ticking = false))) = true ∧
    (let s : State := tNss; decide (s.fw.phase ≠ FwPhase.preparing)) = true ∧
    (let s : State := tNss; decide ((match s.fw.phase with | FwPhase.handover _ => false | _ => true) = true)) = true ∧
    (let s : State := tNss; decide ((s.fw.holding = false ∨ s.fw.phase = FwPhase.idle))) = true ∧
    (let s : State := tFw;
      ((s.fw.download).map Prod.fst).any fun id => ((s.fw.download).map Prod.snd).any fun k => decide (s.fw.download = some (id, k))) = true ∧
    (let s : State := tFp .preparing false; decide (s.fw.phase = FwPhase.preparing ∧ s.hz.ticking = true)) = true ∧
    (let s : State := tFp (.handover 9) true; let a : Nat := 9; decide (s.fw.phase = FwPhase.handover a)) = true ∧
    (let s : State := tFp (.handover 9) true; decide (s.fw.holding = true ∧ s.fw.phase ≠ FwPhase.idle)) = true := by
  decide +kernel

theorem witness_StepRunsTheFrontCommand :
    (let s : State := { tNss with pending := [.fwReady, .fwHoldTimeout] };
      ((s.pending).head?).any fun c => let cs : List Instr := (s.pending).tail; decide (s.pending = c :: cs)) = true ∧
    (let nbits : Nat := 0; let w : Nat := 0; decide (decodeTableWord nbits w = none)) = true ∧
    (let s : State := tNss; decide (s.pending = [])) = true := by
  decide +kernel

theorem witness_DataServices :
    (let s : State := tRunI; let e : Nat := 0; let t : Thread := tTh 5 .running 0; let i : Inst := tInst .running;
      let m : Machine.Module := tMod; let b : Nat := 0x200000000; let c : Nat := 0; let d : Nat := 0x200010000;
      let g : Nat := 1; let run : ThreadRun := tRunR; decide (e < s.anv.engines.length ∧ run.x.length = 32 ∧
      s.calls e t i m ∧ (bitAt m.file.flags 0 = false ∨ c = 0 ∨ 256 < c ∨ s.readable_ m b (16 * c) = false ∨
      s.writable t.fn d (8 * c) = false ∨ 4 ≤ g))) = true ∧
    (let s : State := tRunI; let e : Nat := 0; let t : Thread := tTh 5 .running 0; let i : Inst := tInst .running;
      let m : Machine.Module := tMod; let a : Nat := 9; let b : Nat := 0x200000000; let d : Nat := 0x200010000;
      let run : ThreadRun := tRunR; decide (e < s.anv.engines.length ∧ run.x.length = 32 ∧ s.calls e t i m ∧
      (bitAt m.file.flags 1 = false ∨ s.readable_ m a 64 = false ∨ s.writable t.fn b 32 = false ∨ 4 ≤ d))) = true ∧
    (let s : State := tRunI; let e : Nat := 0; let t : Thread := tTh 5 .running 0; let i : Inst := tInst .running;
      let m : Machine.Module := tMod; let a : Nat := 9; let c : Nat := 0; let f : Nat := 6;
      let run : ThreadRun := tRunR; decide (e < s.anv.engines.length ∧ run.x.length = 32 ∧ s.calls e t i m ∧
      (bitAt m.file.flags 2 = false ∨ c = 0 ∨ 1048576 < c ∨ s.readable_ m a c = false ∨ 4 ≤ f))) = true ∧
    (let s : State := tRunI; let e : Nat := 0; let t : Thread := tTh 5 .running 0; let i : Inst := tInst .running;
      let m : Machine.Module := tMod; let a : Nat := 9; let run : ThreadRun := tRunR;
      decide (e < s.anv.engines.length ∧ run.x.length = 32 ∧ s.calls e t i m ∧ (∀ x ∈ i.chunks, ¬(x.engine = e ∧
      x.addr = a)))) = true ∧
    (let s : State := tRunI; let e : Nat := 0; let t : Thread := tTh 5 .running 0; let i : Inst := tInst .running;
      let m : Machine.Module := tMod; let b : Nat := 0x200000000; let run : ThreadRun := tRunR;
      decide (e < s.anv.engines.length ∧ run.x.length = 32 ∧ s.calls e t i m ∧
      (∀ j ∈ List.range 23, b ≠ 2 ^ j))) = true ∧
    (let s : State := tRunI; let e : Nat := 0; let t : Thread := tTh 5 .running 0; let i : Inst := tInst .running;
      let m : Machine.Module := tMod; let a : Nat := 9; let run : ThreadRun := tRunR;
      decide (e < s.anv.engines.length ∧ run.x.length = 32 ∧ s.calls e t i m ∧ (a = i.argAddr ∨
      ∀ x ∈ s.anv.mem, ¬(x.1 = t.fn ∧ x.2.1 = i.id ∧ x.2.2.1 = a)))) = true ∧
    (let s : State := tRunI; let e : Nat := 0; let t : Thread := tTh 5 .running 0; let i : Inst := tInst .running;
      let m : Machine.Module := tMod; let a : Nat := 9; let b : Nat := 0x200000000; let run : ThreadRun := tRunR;
      decide (e < s.anv.engines.length ∧ run.x.length = 32 ∧ s.calls e t i m ∧ (256 < b ∨
      s.readable_ m a b = false))) = true ∧
    (let s : State := tRunI; let e : Nat := 0; let t : Thread := tTh 5 .running 0; let i : Inst := tInst .running;
      let m : Machine.Module := tMod; let b : Nat := 0x200000000; let c : Nat := 1; let d : Nat := 0x200010000;
      let f : Nat := 77; let g : Nat := 1; let run : ThreadRun := tRunR; decide (e < s.anv.engines.length ∧
      run.x.length = 32 ∧ s.calls e t i m ∧ bitAt m.file.flags 0 = true ∧ 1 ≤ c ∧ c ≤ 256 ∧
      s.readable_ m b (16 * c) = true ∧ s.writable t.fn d (8 * c) = true ∧ g < 4 ∧ s.threadOf i.id f = none)) = true ∧
    (let s : State := tRunI; let e : Nat := 0; let t : Thread := tTh 5 .running 0; let i : Inst := tInst .running;
      let m : Machine.Module := tMod; let a : Nat := 77; let b : Nat := 0x200000000; let c : Nat := 1;
      let d : Nat := 0x200010000; let f : Nat := 6; let g : Nat := 3; let run : ThreadRun := tRunR;
      decide (e < s.anv.engines.length ∧ run.x.length = 32 ∧ s.calls e t i m ∧ bitAt m.file.flags 0 = true ∧ 1 ≤ c ∧
      c ≤ 256 ∧ s.readable_ m b (16 * c) = true ∧ s.writable t.fn d (8 * c) = true ∧ g < 4 ∧
      (s.threadOf i.id f).isSome = true ∧ s.table? a = none)) = true ∧
    (let s : State := tRunI; let e : Nat := 0; let t : Thread := tTh 5 .running 0; let i : Inst := tInst .running;
      let m : Machine.Module := tMod; let a : Nat := 8; let b : Nat := 0x200000000; let c : Nat := 1;
      let d : Nat := 0x200010000; let f : Nat := 6; let g : Nat := 1; let run : ThreadRun := tRunR;
      decide (e < s.anv.engines.length ∧ run.x.length = 32 ∧ s.calls e t i m ∧ bitAt m.file.flags 0 = true ∧ 1 ≤ c ∧
      c ≤ 256 ∧ s.readable_ m b (16 * c) = true ∧ s.writable t.fn d (8 * c) = true ∧ g < 4 ∧
      (s.threadOf i.id f).isSome = true) && (s.table? a).any fun x => decide (x.owner ≠ t.fn)) = true ∧
    (let s : State := tRunI; let e : Nat := 0; let t : Thread := tTh 5 .running 0; let i : Inst := tInst .running;
      let m : Machine.Module := tMod; let a : Nat := 9; let b : Nat := 0x200000000; let c : Nat := 1;
      let d : Nat := 0x200010000; let f : Nat := 6; let g : Nat := 1; let run : ThreadRun := tRunR;
      decide (e < s.anv.engines.length ∧ run.x.length = 32 ∧ s.calls e t i m ∧ bitAt m.file.flags 0 = true ∧ 1 ≤ c ∧
      c ≤ 256 ∧ s.readable_ m b (16 * c) = true ∧ s.writable t.fn d (8 * c) = true ∧ g < 4 ∧
      (s.threadOf i.id f).isSome = true) && (s.table? a).any fun x => decide (x.owner = t.fn)) = true ∧
    (let s : State := tRunI; let e : Nat := 0; let t : Thread := tTh 5 .running 0; let i : Inst := tInst .running;
      let m : Machine.Module := tMod; let a : Nat := 0x200000000; let b : Nat := 0x200010000; let c : Nat := 6;
      let d : Nat := 3; let run : ThreadRun := tRunR; decide (e < s.anv.engines.length ∧
      run.x.length = 32) && (let call := fun k args => s.ranWith t.fn e run (callRegs k args);
      decide (s.calls e t i m) && (let v := call 6 [a, b, c, d]; let q := sqDescOf (v.userRead m e a 64);
      decide (bitAt m.file.flags 1 = true ∧ s.readable_ m a 64 = true ∧ s.writable t.fn b 32 = true ∧ d < 4 ∧
      (s.threadOf i.id c).isSome = true) && (v.sqCheck t.fn e q).any fun _st => true))) = true ∧
    (let s : State := tRunI; let e : Nat := 0; let t : Thread := tTh 5 .running 0; let i : Inst := tInst .running;
      let m : Machine.Module := tMod; let a : Nat := 0x200000000; let b : Nat := 0x200010000; let c : Nat := 6;
      let d : Nat := 1; let run : ThreadRun := tRunD; decide (e < s.anv.engines.length ∧
      run.x.length = 32) && (let call := fun k args => s.ranWith t.fn e run (callRegs k args);
      decide (s.calls e t i m) && (let v := call 6 [a, b, c, d]; let q := sqDescOf (v.userRead m e a 64);
      decide (bitAt m.file.flags 1 = true ∧ s.readable_ m a 64 = true ∧ s.writable t.fn b 32 = true ∧ d < 4 ∧
      (s.threadOf i.id c).isSome = true ∧ v.sqCheck t.fn e q = none)))) = true ∧
    (let s : State := tRunI; let e : Nat := 0; let t : Thread := tTh 5 .running 0; let i : Inst := tInst .running;
      let m : Machine.Module := tMod; let a : Nat := 0x200000000; let b : Nat := 0; let run : ThreadRun := tRunR;
      decide (e < s.anv.engines.length ∧ run.x.length = 32 ∧ s.calls e t i m ∧ b ≤ 256 ∧
      s.readable_ m a b = true)) = true ∧
    (let s : State := tRunI; let e : Nat := 0; let t : Thread := tTh 5 .running 0; let i : Inst := tInst .running;
      let m : Machine.Module := tMod; let a : Nat := 0x200000000; let b : Nat := 4033; let c : Nat := 64;
      let d : Nat := 6; let f : Nat := 3; let run : ThreadRun := tRunR; decide (e < s.anv.engines.length ∧
      run.x.length = 32 ∧ s.calls e t i m ∧ bitAt m.file.flags 2 = true ∧ 1 ≤ c ∧ c ≤ 1048576 ∧
      s.readable_ m a c = true ∧ f < 4 ∧ (s.threadOf i.id d).isSome = true ∧ i.blk.resultLen < b + c)) = true ∧
    (let s : State := tRunI; let e : Nat := 0; let t : Thread := tTh 5 .running 0; let i : Inst := tInst .running;
      let m : Machine.Module := tMod; let a : Nat := 0x200000000; let b : Nat := 4032; let c : Nat := 64;
      let d : Nat := 6; let f : Nat := 3; let run : ThreadRun := tRunR; decide (e < s.anv.engines.length ∧
      run.x.length = 32 ∧ s.calls e t i m ∧ bitAt m.file.flags 2 = true ∧ 1 ≤ c ∧ c ≤ 1048576 ∧
      s.readable_ m a c = true ∧ f < 4 ∧ (s.threadOf i.id d).isSome = true ∧ b + c ≤ i.blk.resultLen)) = true ∧
    (let s : State := tChunkS; let e : Nat := 0; let t : Thread := tTh 5 .running 0; let i : Inst := tChunkI;
      let m : Machine.Module := tMod; let a : Nat := 9; let run : ThreadRun := tRunR;
      decide (e < s.anv.engines.length ∧ run.x.length = 32 ∧ s.calls e t i m ∧ (∃ x ∈ i.chunks, x.engine = e ∧
      x.addr = a))) = true ∧
    (let s : State := tRunI; let e : Nat := 0; let t : Thread := tTh 5 .running 0; let i : Inst := tInst .running;
      let m : Machine.Module := tMod; let a : Nat := 64; let b : Nat := 64; let run : ThreadRun := tRunR;
      decide (e < s.anv.engines.length ∧ run.x.length = 32 ∧ s.calls e t i m) && (let j : Nat := 6; decide (j < 23 ∧
      b = 2 ^ j ∧ s.dataUsed t.fn + a ≤ s.dataBytes t.fn ∧ (∃ x ∈ s.dataStarts t.fn b, x % b = 0 ∧
      s.dataFree t.fn x a = true)))) = true ∧
    (let s : State := tRunI; let e : Nat := 0; let t : Thread := tTh 5 .running 0; let i : Inst := tInst .running;
      let m : Machine.Module := tMod; let a : Nat := 268435456; let b : Nat := 4194304; let run : ThreadRun := tRunR;
      decide (e < s.anv.engines.length ∧ run.x.length = 32 ∧ s.calls e t i m) && (let j : Nat := 22; decide (j < 23 ∧
      b = 2 ^ j ∧ s.dataBytes t.fn < s.dataUsed t.fn + a))) = true ∧
    (let s : State := tRunI; let e : Nat := 0; let t : Thread := tTh 5 .running 0; let i : Inst := tInst .running;
      let m : Machine.Module := tMod; let a : Nat := 0x200010000; let run : ThreadRun := tRunR;
      decide (e < s.anv.engines.length ∧ run.x.length = 32 ∧ s.calls e t i m ∧ a ≠ i.argAddr ∧ (∃ x ∈ s.anv.mem,
      x.1 = t.fn ∧ x.2.1 = i.id ∧ x.2.2.1 = a))) = true ∧
    (let s : State := tFen; let e : Nat := 0; let t : Thread := tTh 5 .running 0; let a : Nat := 9;
      let b : Nat := 64; let c : Nat := 6; let d : Nat := 1; let f : Nat := 0; let g : Nat := 0;
      let run : ThreadRun := tRunR; decide (e < s.anv.engines.length ∧ run.x.length = 32 ∧ s.runningOn e = some t ∧
      s.callStalled e = false ∧
      s.fnState t.fn ≠ FnState.active) && (let x : Instr × Nat × List Nat := (Instr.thSpawn ⟨0, tRunR⟩ 9 64 6 1 0, 1, [9, 64, 6, 1, 0]);
      decide (x ∈ [(Instr.thSpawn { engine := e, run := run } a b c d f, 1, [a, b, c, d, f]), (Instr.thSend { engine := e, run := run } a b c, 2, [a, b, c]), (Instr.thDelay { engine := e, run := run } a b c, 3, [a, b, c]), (Instr.thCancel { engine := e, run := run } a, 4, [a]), (Instr.haloSearch { engine := e, run := run } a { addr := b, count := c } d f g, 5, [a, b, c, d, f, g]), (Instr.sqSubmit { engine := e, run := run } a b c d, 6, [a, b, c, d]), (Instr.hostPut e a b c d f run, 7, [a, b, c, d, f]), (Instr.chunkRelease { engine := e, run := run } a, 8, [a]), (Instr.memAlloc { engine := e, run := run } a b, 9, [a, b]), (Instr.memFree { engine := e, run := run } a, 10, [a]), (Instr.instDone { engine := e, run := run } a b, 11, [a, b]), (Instr.modLog { engine := e, run := run } a b, 12, [a, b])]))) = true ∧
    (let s : State := { tRunI with hz := { tRunI.hz with credits := [⟨0, 0, 0, 0, false⟩] } }; let e : Nat := 0;
      let i : Inst := tInst .running; let run : ThreadRun := tRunR; decide (e < s.anv.engines.length ∧
      run.x.length = 32) && (let p : Put := (⟨0, 6, 1, 0, List.replicate 10 1⟩ : Put);
      decide ((s.credit i.fn).read < List.length p.bytes))) = true := by
  decide +kernel


/-- Commands of every family that complete; the statement has no hypothesis but those of its clauses on fuses. -/
theorem witness_EveryCommandCompletes :
    let s : State := { State.reset with fw := { State.reset.fw with debugDisabled := true, revoked := [false, true] } }
    (∃ t, exec .debugNonceExpiry s = .next t) ∧ s.fw.debugDisabled = true ∧ s.fw.revoked[1]? = some true :=
  ⟨⟨_, rfl⟩, rfl, rfl⟩

/-- A good state and its next state. -/
theorem witness_GoodStateKept :
    tNss.good ∧ ∃ t, step tNss = .next t := ⟨by decide +kernel, _, rfl⟩

/-- The first clause of HaltedEntered: three late faults of either kind on a running horizon. -/
theorem witness_HaltedEntered_three :
    let a := tRun.sealLateAt (tEp 7 true)
    let b := a.ringLateAt 8
    tRun.hz.st = .running ∧ (tEp 7 true).ringLate = false ∧ (a.hz.epochs.any fun e => e.n == 8 && e.isLate) = false ∧
      (tEp 9 false).ringLate = false ∧ (b.sealLateAt (tEp 9 false)).hz.st = .halted := by
  decide +kernel

/-- The key of the COMMITTED image; the last key that is not revoked; a key that may be revoked, at the highest slot. -/
theorem witness_FirmwareKeyRevoked :
    (decide ((tRevoke [false, false, false, false] 1).turn Mb.fwKeyRevoke 0 (tReq Mb.fwKeyRevoke 1) ∧
      ((tRevoke [false, false, false, false] 1).fw.slot 0).img.keyIndex = fld (tReq Mb.fwKeyRevoke 1) 0 2)) = true ∧
    (decide ((tRevoke [true, true, true, false] 3).turn Mb.fwKeyRevoke 0 (tReq Mb.fwKeyRevoke 3) ∧
      ∀ i ∈ List.range 4, i ≠ 3 → (tRevoke [true, true, true, false] 3).fw.revoked[i]? ≠ some false)) = true ∧
    (decide ((tRevoke [false, false, false, false] 3).turn Mb.fwKeyRevoke 0 (tReq Mb.fwKeyRevoke 3) ∧
      ((tRevoke [false, false, false, false] 3).fw.slot 0).img.keyIndex ≠ fld (tReq Mb.fwKeyRevoke 3) 0 2 ∧
      (tRevoke [false, false, false, false] 3).fw.revoked[0]? = some false)) = true := by
  decide +kernel

/-- A write whose one unit is fetched, at the head of the first holder in turn. -/
theorem witness_IngestAndAdmission_write :
    let s := tAdm tWw
    let k := min (min (tWw.left / unitLen tBlk) (tWw.fetchedUnits tBlk)) ((s.credit 0).write / (4096 * s.copies tWw.e.nsid))
    s.admits = true ∧ turnOrder (s.hz.credits.map (·.holder)) s.hz.turn = 0 :: [] ∧ (s.credit 0).hold = false ∧
      s.link.below = false ∧ s.fnState 0 = .active ∧ (s.q.cmds.filter fun c => c.fn == 0) = tWw :: [] ∧
      tWw.stage = .waiting ∧ tWw.ended = false ∧ s.mustWait tWw = false ∧ s.store.ns? tWw.e.nsid = some tBlk ∧
      (tWw.done = 0 → s.accessCheck tWw = none) ∧ tWw.e.opc = opWrite ∧ s.slotRefuses tBlk tWw = false ∧ 0 < k ∧
      s.metaFits (piLen tBlk * k) (s.copies tWw.e.nsid) = true :=
  ⟨by decide +kernel, by decide +kernel, by decide +kernel, by decide +kernel, by decide +kernel, rfl, rfl, rfl,
    by decide +kernel, by decide +kernel, by decide +kernel, rfl, by decide +kernel, by decide +kernel, by decide +kernel⟩

end Sys2Proof.Tests
end

section
/-!
SUPPORT. What a register write to BAR0 does: the accesses that R347 counts, the windows that carry an action or RW
fields, and the statement RegisterWrites assembled from them.
-/

namespace Sys2Proof.Machine

open Sys2Proof

/-! ### Offsets of the BAR0 map -/

/-- Every register that all functions have stands below the digest windows or is one of the two telemetry registers
that follow the message area. -/
theorem offset_of_mem_regsAll {o : Nat} (h : regsAll.contains o = true) :
    o % 8 = 0 ∧ o ≠ 0x0108 ∧ (o < 0x0800 ∨ o = 0x2000 ∨ o = 0x2008) := by
  have hall : ∀ r ∈ regsAll, r % 8 = 0 ∧ r ≠ 0x0108 ∧ (r < 0x0800 ∨ r = 0x2000 ∨ r = 0x2008) := by decide
  exact hall o (List.contains_iff_mem.mp h)

theorem bar0Has_of_mem_regsAll {n o : Nat} (h : regsAll.contains o = true) : bar0Has n o = true := by
  have ho : o / 8 * 8 = o := Nat.div_mul_cancel (Nat.dvd_of_mod_eq_zero (offset_of_mem_regsAll h).1)
  simp only [bar0Has, ho, h, Bool.true_or]

theorem dgWindow_eq_false {o : Nat} (h : o < 0x0800 ∨ 0x1000 ≤ o) : dgWindow o = false := by
  simp only [dgWindow, Bool.and_eq_false_iff, decide_eq_false_iff_not]
  omega

theorem dgWindow_of_ctx {i r : Nat} (hi : i < 16) (hr : r < 0x80) : dgWindow (0x0800 + 0x80 * i + r) = true := by
  simp only [dgWindow, Bool.and_eq_true, decide_eq_true_eq]
  omega

theorem dgIndex_of_ctx {i r : Nat} (hr : r < 0x80) : dgIndex (0x0800 + 0x80 * i + r) = i := by
  unfold dgIndex
  omega

theorem mod_of_ctx {i r : Nat} (hr : r < 0x80) : (0x0800 + 0x80 * i + r) % 0x80 = r := by omega

theorem areaSize_le (n : Nat) : areaSize n ≤ 0x1000 := by
  unfold areaSize
  split <;> decide

/-! ### Accesses that R347 counts -/

theorem badAccess_eq_false {s : State} {n o : Nat} (hl : s.fnLive n = true) (hb : bar0Has n o = true)
    (hd : dgWindow o = true → s.foreignDg n (dgIndex o) = false) : s.badAccess n o = false := by
  cases hw : dgWindow o with
  | false => simp [State.badAccess, hl, hb, hw]
  | true => simp [State.badAccess, hl, hb, hw, hd hw]

theorem badAccess_reg {s : State} {n o : Nat} (hl : s.fnLive n = true) (h : regsAll.contains o = true) :
    s.badAccess n o = false := by
  obtain ⟨-, -, ho⟩ := offset_of_mem_regsAll h
  have hd : dgWindow o = false := dgWindow_eq_false (by omega)
  exact badAccess_eq_false hl (bar0Has_of_mem_regsAll h) (by simp [hd])

theorem badAccess_area {s : State} {n o : Nat} (hl : s.fnLive n = true) (h1 : 0x1000 ≤ o) (h2 : o < 0x1000 + areaSize n) :
    s.badAccess n o = false := by
  have hd : dgWindow o = false := dgWindow_eq_false (Or.inr h1)
  exact badAccess_eq_false hl (by simp [bar0Has, h1, h2]) (by simp [hd])

/-- The owner of a context reaches the first 0x28 bytes of its window. -/
theorem badAccess_ctx {s : State} {n i r : Nat} {c : DgCtx} (hl : s.fnLive n = true) (hc : s.dg[i]? = some c)
    (ho : c.owner = n) (hi : i < 16) (hr : r < 0x28) : s.badAccess n (0x0800 + 0x80 * i + r) = false := by
  have hr' : r < 0x80 := by omega
  refine badAccess_eq_false hl ?_ fun _ => ?_
  · simp [bar0Has, dgWindow_of_ctx hi hr', mod_of_ctx hr', hr]
  · simp [State.foreignDg, dgIndex_of_ctx hr', hc, ho]

/-! ### A register write down to BAR0 -/

theorem exec_registerWrite_unaligned {s : State} {n o w : Nat} (v : Nat) (h : alignedAccess (o % 2 ^ 32) w = false) :
    exec (.registerWrite n o w v) s = .next (s.violate n) := by
  change execRegisterWrite n o w v s = _
  exact if_pos h

theorem exec_registerWrite_bar0 {s : State} {n o w : Nat} (v : Nat) (hw : w = 4 ∨ w = 8) (ha : o % w = 0)
    (ho : o < 2 ^ 32) : exec (.registerWrite n o w v) s = s.writeReg n o w v := by
  change execRegisterWrite n o w v s = _
  have hal : alignedAccess o w = true := by simpa [alignedAccess, ha] using hw
  simp only [execRegisterWrite, Nat.mod_eq_of_lt ho, Nat.div_eq_of_lt ho, hal, Bool.true_eq_false, if_false, if_true]

theorem writeReg_bad {s : State} {n o : Nat} (w v : Nat) (h : s.badAccess n o = true) :
    s.writeReg n o w v = .next (s.violate n) := if_pos h

/-- Offset `o` carries no action: neither an action register nor DG_CTL nor DG_DATA of a context. -/
def noAction (o : Nat) : Prop :=
  o ≠ 0x0108 ∧ o ≠ 0x0200 ∧ o ≠ 0x0208 ∧ o ≠ 0x0300 ∧ (dgWindow o = true → 3 ≤ o % 0x80 / 8)

theorem writeReg_noAction {s : State} {n o : Nat} (w v : Nat) (hb : s.badAccess n o = false) (h : noAction o) :
    s.writeReg n o w v = .next (s.writeBar0 n o w v) := by
  obtain ⟨hreset, hint, hhead, hgo, hdg⟩ := h
  have hctl : ¬ (dgWindow o = true ∧ o % 0x80 = 0) := fun h => by have := hdg h.1; omega
  have hdata : ¬ (dgWindow o = true ∧ o % 0x80 / 8 = 2) := fun h => by have := hdg h.1; omega
  simp [State.writeReg, hb, hreset, hint, hhead, hgo, hctl, hdata]

/-- DG_CTL takes no write that sets more than one action, whoever owns the context (R456). -/
theorem writeReg_dgCtl_many {s : State} {n i v : Nat} (w : Nat) (hi : i < 16) (hv : dgMany v = true) :
    s.writeReg n (0x0800 + 0x80 * i) w v = .next (s.violate n) := by
  have hwin : dgWindow (0x0800 + 0x80 * i) = true := dgWindow_of_ctx hi (by decide : 0 < 0x80)
  have hmod : (0x0800 + 0x80 * i) % 0x80 = 0 := mod_of_ctx (by decide : 0 < 0x80)
  have hne : ∀ k < 0x0800, 0x0800 + 0x80 * i ≠ k := by omega
  cases hb : s.badAccess n (0x0800 + 0x80 * i) with
  | true => exact writeReg_bad w v hb
  | false => simp [State.writeReg, hb, hne, hwin, hmod, State.writeDgCtl, hv]

/-! ### RW fields of BAR0 -/

theorem writeBar0_tail {s : State} {n o w v : Nat} {f : Fn} {c : DgCtx} (hf : s.fn? n = some f)
    (hb : s.badAccess n o = false) (hd : dgWindow o = true) (ho : o % 0x80 / 8 = 3) (hc : s.dg[dgIndex o]? = some c)
    (hst : c.st ≠ .free) : s.writeBar0 n o w v = s.writeTail (dgIndex o) o w v := by
  simp [State.writeBar0, hb, hf, hd, ho, hc, hst]

theorem writeBar0_area {s : State} {n o : Nat} (w v : Nat) {f : Fn} (hf : s.fn? n = some f)
    (hb : s.badAccess n o = false) (h1 : 0x1000 ≤ o) (h2 : o < 0x2000) :
    s.writeBar0 n o w v = if f.mb.state = 1 then s.violate n else s.modFn n fun f => { f with mb := { f.mb with
      area := Mem.putBytes f.mb.area (o - 0x1000) (bytesLE w v) } } := by
  simp [State.writeBar0, hb, hf, dgWindow_eq_false (Or.inr h1), h1, h2]

theorem writeBar0_anvSel {s : State} {n : Nat} (w v : Nat) {f : Fn} (hf : s.fn? n = some f)
    (hb : s.badAccess n 0x2008 = false) :
    s.writeBar0 n 0x2008 w v = s.modFn n fun f => { f with anvSel := v % 64 } := by
  simp [State.writeBar0, hb, hf, dgWindow]

theorem writeBar0_readOnly {s : State} {n o : Nat} (w v : Nat) (hb : s.badAccess n o = false)
    (ho : o < 0x0800 ∨ 0x2000 ≤ o) (hsel : o ≠ 0x2008) : s.writeBar0 n o w v = s := by
  have hd : dgWindow o = false := dgWindow_eq_false (by omega)
  have harea : ¬ (0x1000 ≤ o ∧ o < 0x2000) := by omega
  unfold State.writeBar0
  rw [hb]
  cases s.fn? n <;> simp [hd, harea, hsel]

/-! ### Writes of the registers and windows -/

/-- A write inside DG_TAIL of an owned context: at its first byte or, for a half, at byte 4. -/
theorem exec_write_tail {s : State} {n i r w : Nat} (v : Nat) {f : Fn} {c : DgCtx} (hf : s.fn? n = some f)
    (hl : s.fnLive n = true) (hc : s.dg[i]? = some c) (hi : i < 16) (hst : c.st ≠ .free) (ho : c.owner = n)
    (hw : w = 4 ∨ w = 8) (hr : r < 8) (ha : r % w = 0) :
    exec (.registerWrite n (0x0818 + 0x80 * i + r) w v) s =
      .next { s with dg := s.dg.set i { c with
        tail := if w = 8 then v
          else if r = 0 then c.tail / 2 ^ 32 * 2 ^ 32 + v % 2 ^ 32
          else c.tail % 2 ^ 32 + v % 2 ^ 32 * 2 ^ 32 } } := by
  obtain ⟨o, hoff⟩ : ∃ o, o = 0x0800 + 0x80 * i + (0x18 + r) := ⟨_, rfl⟩
  have hr' : 0x18 + r < 0x28 := by omega
  have hwin : dgWindow o = true := hoff ▸ dgWindow_of_ctx hi (by omega)
  have hidx : dgIndex o = i := hoff ▸ dgIndex_of_ctx (by omega)
  have hmod : o % 0x80 / 8 = 3 := by omega
  have hlow : o % 8 = 0 ↔ r = 0 := by omega
  have hb : s.badAccess n o = false := hoff ▸ badAccess_ctx hl hc ho hi hr'
  have hal : o % w = 0 := by rcases hw with rfl | rfl <;> omega
  have hno : noAction o := ⟨by omega, by omega, by omega, by omega, fun _ => by omega⟩
  calc exec (.registerWrite n (0x0818 + 0x80 * i + r) w v) s
      = exec (.registerWrite n o w v) s := by rw [show 0x0818 + 0x80 * i + r = o by omega]
    _ = s.writeReg n o w v := exec_registerWrite_bar0 v hw hal (by omega)
    _ = .next (s.writeBar0 n o w v) := writeReg_noAction w v hb hno
    _ = .next (s.writeTail i o w v) := by rw [writeBar0_tail hf hb hwin hmod (hidx ▸ hc) hst, hidx]
    _ = _ := by simp only [State.writeTail, updAt, hc, hlow]

/-- A write of the message area is stored while the mailbox is not BUSY and counted while it is (R400). -/
theorem exec_write_area {s : State} {n o w : Nat} (v : Nat) {f : Fn} (hf : s.fn? n = some f) (hl : s.fnLive n = true)
    (hw : w = 4 ∨ w = 8) (ha : o % w = 0) (h1 : 0x1000 ≤ o) (h2 : o < 0x1000 + areaSize n) :
    exec (.registerWrite n o w v) s =
      if f.mb.state = 1 then .next (s.violate n) else .next (s.modFn n fun f => { f with mb := { f.mb with
        area := Mem.putBytes f.mb.area (o - 0x1000) (bytesLE w v) } }) := by
  have hend : o < 0x2000 := by have := areaSize_le n; omega
  have hb : s.badAccess n o = false := badAccess_area hl h1 h2
  have hno : noAction o := ⟨by omega, by omega, by omega, by omega, by simp [dgWindow_eq_false (Or.inr h1)]⟩
  rw [exec_registerWrite_bar0 v hw ha (by omega), writeReg_noAction w v hb hno, writeBar0_area w v hf hb h1 hend,
    apply_ite Host.Outcome.next]

/-- A 64-bit write of a register that every function has: its action or its RW fields. -/
theorem exec_write_reg {s : State} {n o : Nat} (v : Nat) (h : regsAll.contains o = true) :
    exec (.registerWrite n o 8 v) s = s.writeReg n o 8 v := by
  obtain ⟨hal, -, ho⟩ := offset_of_mem_regsAll h
  exact exec_registerWrite_bar0 v (Or.inr rfl) hal (by omega)

section Registers

variable {s : State} {n : Nat} (v : Nat) (hl : s.fnLive n = true)
include hl

theorem exec_write_anvSel {f : Fn} (hf : s.fn? n = some f) :
    exec (.registerWrite n 0x2008 8 v) s = .next (s.modFn n fun f => { f with anvSel := v % 64 }) := by
  have hb : s.badAccess n 0x2008 = false := badAccess_reg hl (by decide)
  have hno : noAction 0x2008 := ⟨by decide, by decide, by decide, by decide, by decide⟩
  rw [exec_write_reg v (by decide), writeReg_noAction 8 v hb hno, writeBar0_anvSel 8 v hf hb]

theorem exec_write_readOnly {o : Nat} (h : regsAll.contains o = true) (hint : o ≠ 0x0200) (hhead : o ≠ 0x0208)
    (hgo : o ≠ 0x0300) (hsel : o ≠ 0x2008) : exec (.registerWrite n o 8 v) s = .next s := by
  obtain ⟨-, hreset, ho⟩ := offset_of_mem_regsAll h
  have hb : s.badAccess n o = false := badAccess_reg hl h
  have hno : noAction o := ⟨hreset, hint, hhead, hgo, by simp [dgWindow_eq_false (o := o) (by omega)]⟩
  rw [exec_write_reg v h, writeReg_noAction 8 v hb hno, writeBar0_readOnly 8 v hb (by omega) hsel]

theorem exec_write_intStatus : exec (.registerWrite n 0x0200 8 v) s = exec (.intStatusW1c n (v % 8)) s := by
  have hb : s.badAccess n 0x0200 = false := badAccess_reg hl (by decide)
  change _ = execIntStatusW1c n (v % 8) s
  rw [exec_write_reg v (by decide)]
  simp [State.writeReg, hb]

theorem exec_write_evqHead : exec (.registerWrite n 0x0208 8 v) s = exec (.intEvqHeadWrite n (v % 65536)) s := by
  have hb : s.badAccess n 0x0208 = false := badAccess_reg hl (by decide)
  change _ = execIntEvqHeadWrite n (v % 65536) s
  rw [exec_write_reg v (by decide)]
  simp [State.writeReg, hb]

theorem exec_write_mbCtl (hv : bitAt v 0 = true) : exec (.registerWrite n 0x0300 8 v) s = exec (.go n) s := by
  have hb : s.badAccess n 0x0300 = false := badAccess_reg hl (by decide)
  change _ = execGo n s
  rw [exec_write_reg v (by decide)]
  simp [State.writeReg, hb, hv]

end Registers

theorem exec_write_dgCtl_many {s : State} {n i v : Nat} (hi : i < 16) (hv : dgMany v = true) :
    exec (.registerWrite n (0x0800 + 0x80 * i) 8 v) s = .next (s.violate n) := by
  rw [exec_registerWrite_bar0 v (Or.inr rfl) (by omega) (by omega), writeReg_dgCtl_many 8 hi hv]

/-- Settles O19: each clause is the write of one register, window or refused access (R4, R347, R400, R446, R456). -/
theorem registerWrites : Obligations.RegisterWrites := by
  intro s n o v f hf hl
  refine ⟨?tail, ?area, exec_write_anvSel v hl hf, exec_write_readOnly v hl, exec_write_intStatus v hl,
    exec_write_evqHead v hl, exec_write_mbCtl v hl, fun _ => exec_registerWrite_unaligned v, ?bad,
    fun _ => exec_write_dgCtl_many⟩
  case tail =>
    rintro i c hc hi hst ho rfl
    exact ⟨exec_write_tail (r := 0) v hf hl hc hi hst ho (Or.inr rfl) (by decide) rfl,
      exec_write_tail (r := 0) v hf hl hc hi hst ho (Or.inl rfl) (by decide) rfl,
      exec_write_tail (r := 4) v hf hl hc hi hst ho (Or.inl rfl) (by decide) rfl⟩
  case area => exact fun _ hw ha h1 h2 => exec_write_area v hf hl hw ha h1 h2
  case bad =>
    intro w hw ha ho hb
    rw [exec_registerWrite_bar0 v hw ha ho, writeReg_bad w v hb]

end Sys2Proof.Machine
end

section
/-!
SUPPORT. A mailbox command at its turn: the answer that each way to end gives, for every command at once.
-/

namespace Sys2Proof.Machine

open Sys2Proof

section AtTurn

variable {i : Instr} {m : MbMeta} {n : Nat} {r : MbReq} {s t : State} {v : List Nat} {body : State → MbResult}
  (hi : exec i s = .next (s.mbRun m n r body)) (h : s.turn m n r)
include hi h

theorem exec_turn : exec i s = .next ((s.taken n).finish m n r body) := by rw [hi, mbRun_turn h]

theorem exec_turn_basic (hb : body (s.taken n) = .basic v t) : exec i s = .next (t.answer m n r v) := by
  rw [exec_turn hi h, finish_basic hb]

theorem exec_turn_persist (hb : body (s.taken n) = .persist v t) :
    exec i s = .next (t.answerSealed m n r v s.hz.epoch) := by
  rw [exec_turn hi h, finish_persist hb, State.taken_hz]

theorem exec_turn_later (hb : body (s.taken n) = .later t) : exec i s = .next t := by
  rw [exec_turn hi h, finish_later hb]

theorem exec_turn_refuse {st : Status} (hb : body (s.taken n) = .refuse st v) :
    exec i s = .next ((s.taken n).stage n m.opcode r.tag st v none) := by
  rw [exec_turn hi h, finish_refuse hb]

/-- A long command begins while fewer than eight of its function are open (R403). -/
theorem exec_turn_long {go : State → State} (hl : s.longsOpen n < 8)
    (hb : body (s.taken n) = (s.taken n).long m n go) :
    exec i s = .next ((go ((s.taken n).startLong n m.opcode)).answerLong m n r s.recs.nextLong) := by
  rw [exec_turn hi h, finish_long (hb.trans (long_free (s := s.taken n) hl go))]
  rfl

end AtTurn

end Sys2Proof.Machine
end

section
/-!
SUPPORT. Changes of the device settings: the claim of a comparator, and the statement SettingsRecorded.
-/

namespace Sys2Proof.Machine

open Sys2Proof

/-- What a feature that asks for comparator `k` meets: nothing where it asks for none (R408). -/
theorem noConflict {s : State} {k op : Nat} (h : k ≠ 0 → s.conflict k op = none) :
    (if k = 0 then none else s.conflict k op) = none := by
  split
  · rfl
  · next hk => exact h hk

/-- A feature that moves to comparator `k` gives up the one it holds, and claims `k` where it asks for one (R408). -/
theorem moveClaim_eq (s : State) (k op n : Nat) :
    s.moveClaim k op n = s.record (.unclaim op :: if k = 0 then [] else [.claim k op n]) := rfl

/-- Settles O5: a setting within its rules is recorded with its reply after the seal, a volatile one waits for the
next tick, and a comparator that another feature holds refuses the claim (R27, R402, R406 to R408). -/
theorem settingsRecorded : Obligations.SettingsRecorded := by
  intro s n r
  dsimp only
  refine ⟨?persistent, ?volatile, ?shockOff, ?shockOn, ?shockHeld, ?tickout, ?host, ?grant, ?timer, ?sampling, ?anvil,
    ?anvilHeld⟩
  case persistent =>
    intro p h hp hok hrule hpersist
    exact exec_turn_persist rfl h (by simp [hp, hok, hrule, hpersist])
  case volatile =>
    intro p h hp hok hrule hpersist
    exact exec_turn_basic rfl h (by simp [hp, hok, hrule, hpersist])
  case shockOff =>
    intro h hoff
    exact exec_turn_persist rfl h (if_pos hoff)
  case shockOn =>
    intro h hon hfree
    exact exec_turn_persist rfl h (by simp [hon, hfree, moveClaim_eq])
  case shockHeld =>
    intro v h hon hheld
    exact exec_turn_refuse rfl h (by simp [hon, hheld])
  case tickout =>
    intro h hfree
    exact exec_turn_persist rfl h (by simp only [noConflict hfree, moveClaim_eq])
  case host =>
    intro h hfits
    exact exec_turn_persist rfl h (if_neg (Nat.not_lt.mpr hfits))
  case grant =>
    intro h hfits
    exact exec_turn_persist rfl h (if_neg (not_not_intro hfits))
  case timer =>
    intro h hfree
    exact exec_turn_persist rfl h (by simp only [noConflict hfree, moveClaim_eq])
  case sampling =>
    intro h hfree
    exact exec_turn_persist rfl h (by simp only [noConflict hfree, moveClaim_eq])
  case anvil =>
    intro h hfree
    exact exec_turn_persist rfl h (by simp only [noConflict hfree, moveClaim_eq])
  case anvilHeld =>
    intro v h hk hheld
    exact exec_turn_refuse rfl h (by simp only [if_neg hk, hheld])

end Sys2Proof.Machine
end

section
/-!
SUPPORT. Changes of namespaces: the checks against the NSID, and the statement NamespaceChangesRecorded.
-/

namespace Sys2Proof.Machine

open Sys2Proof

/-- A command runs on the namespace that R484 lets it name, where its class serves the command. -/
theorem onNs_serves {s : State} {fn nsid : Nat} {serves : Ns → Bool} {go : Ns → MbResult} {x : Ns}
    (hx : s.nsArg fn nsid = .inr x) (hs : serves x = true) : s.onNs fn nsid serves go = go x := by
  simp only [State.onNs, hx, hs, if_true]

/-- A function that R350 allows and that is created passes the check of a function number. -/
theorem fnNumber_ok {s : State} {k : Nat} (hk : k ≤ s.maxFn) (he : s.fnExists k = true) :
    ¬ (s.maxFn < k ∨ s.fnExists k = false) := by
  simp [Nat.not_lt.mpr hk, he]

/-- A stream number that no stream of another namespace has is not refused (R78). -/
theorem notElsewhere {o : Option Stream} {nsid : Nat} (h : ∀ y, o = some y → y.nsid = nsid) :
    (o.elim false fun y => y.nsid != nsid) = false := by
  cases o with
  | none => rfl
  | some y => simp [h y rfl]

/-- Settles O6: each change within its rules is recorded with its reply after the seal; a mirrored namespace is offered
first, a shorter retention and a clock set back are refused (R73 to R78, R86, R87, R331). -/
theorem namespaceChangesRecorded : Obligations.NamespaceChangesRecorded := by
  intro s n r
  dsimp only
  refine ⟨?create, ?offer, ?delete, ?attach, ?detach, ?streamOpen, ?streamClose, ?retention, ?clock⟩
  case create =>
    intro h hfree hmirror
    exact exec_turn_persist rfl h (by simp [hfree, hmirror])
  case offer =>
    intro h hfree hmirror
    exact exec_turn_later rfl h (by simp [hfree, hmirror])
  case delete =>
    intro x h hx hatt hret hring hreplica
    have hkept : ¬ (x.isRns = true ∧ (s.taken n).retained x none = true) := fun ⟨hrns, hin⟩ =>
      Bool.eq_false_iff.mp (hret hrns) hin
    refine exec_turn_persist rfl h ((onNs_serves hx rfl).trans ?_)
    simp [hatt, hkept, hring, hreplica]
  case attach =>
    intro x h hx hk he hrights
    refine exec_turn_persist rfl h ((onNs_serves hx rfl).trans ?_)
    rw [if_neg (fnNumber_ok hk he), if_neg (not_not_intro hrights)]
  case detach =>
    intro x h hx hk he hatt
    refine exec_turn_persist rfl h ((onNs_serves hx rfl).trans ?_)
    rw [if_neg (fnNumber_ok hk he), if_neg (by simp [hatt])]
  case streamOpen =>
    intro x h hx hstream hown
    refine exec_turn_persist rfl h ((onNs_serves hx hstream).trans ?_)
    rw [if_neg (Bool.eq_false_iff.mp (notElsewhere hown))]
  case streamClose =>
    intro x y h hx hstream hy hown hopen
    refine exec_turn_persist rfl h ((onNs_serves hx hstream).trans ?_)
    simp [hy, hown, hopen]
  case retention =>
    intro x h hx hrns hreplica
    split
    · next hshort =>
      refine exec_turn_refuse rfl h ((onNs_serves hx hrns).trans ?_)
      simp [hreplica, hshort]
    · next hlong =>
      refine exec_turn_persist rfl h ((onNs_serves hx hrns).trans ?_)
      simp [hreplica, hlong]
  case clock =>
    intro h hmember hmaster
    split
    · next hback => exact exec_turn_refuse rfl h (by simp [State.rclkNow, hmember, hback])
    · next hon => exact exec_turn_persist rfl h (by simp [State.rclkNow, hmember, hmaster, hon])

end Sys2Proof.Machine
end

section
/-!
SUPPORT. Modules and profiles: the handle of a module that is loaded, and the statement ModulesAndProfiles.
-/

namespace Sys2Proof.Machine

open Sys2Proof

/-- No module of function `n` holds handle `h`, and a handle may be `h` (R283). -/
def State.handleFree (s : State) (n h : Nat) : Bool :=
  decide (1 ≤ h) && decide (h ≤ 16) && (s.module? n h).isNone

/-- The handle under which the next module of function `n` is held. -/
def State.newHandle (s : State) (n : Nat) : Nat :=
  (s.choose (s.handleFree n) (((List.range 17).find? (s.handleFree n)).getD 1)).1

theorem handleFree_bounds {s : State} {n h : Nat} (hh : s.handleFree n h = true) : 1 ≤ h ∧ h ≤ 16 := by
  simp only [State.handleFree, Bool.and_eq_true, decide_eq_true_eq] at hh
  exact hh.1

/-- What holds of every number that `ok` admits and of the least holds of the number chosen. -/
theorem choose_cases {s : State} {ok : Nat → Bool} {least : Nat} {P : Nat → Prop} (hok : ∀ v, ok v = true → P v)
    (hl : P least) : P (s.choose ok least).1 := by
  unfold State.choose
  dsimp only
  split
  · next hv => exact hok _ hv
  · exact hl

theorem newHandle_bounds (s : State) (n : Nat) : 1 ≤ s.newHandle n ∧ s.newHandle n ≤ 16 := by
  refine choose_cases (P := fun h => 1 ≤ h ∧ h ≤ 16) (fun _ => handleFree_bounds) ?_
  cases hf : (List.range 17).find? (s.handleFree n) with
  | none => exact ⟨Nat.le_refl 1, by decide⟩
  | some h => exact handleFree_bounds (List.find?_some hf)

section LoadDone

variable {s : State} {n id : Nat} {x : ModFile}
  (hl : (s.recs.longs.any fun l => l.id == id && l.fn == n && l.opcode == 0x0A03 && l.status == none) = true)
include hl

/-- A file that fails a check of R283 ends its `mod.load` with the status of that check. -/
theorem exec_moduleLoadDone_refused {st : Status} (hc : s.loadCheck n x = some st) :
    exec (.moduleLoadDone n id x) s = .next (s.endLong id st []) := by
  change execModuleLoadDone n id x s = _
  simp only [execModuleLoadDone, hl, hc, if_true]

/-- A file that passes R283 is held under a new handle, which its `mod.load` reports. -/
theorem exec_moduleLoadDone_held (hf : s.fnExists n = true) (hc : s.loadCheck n x = none) :
    exec (.moduleLoadDone n id x) s = .next ((s.free.2.modAnv fun a => { a with
      modules := a.modules ++ [⟨n, s.newHandle n, moduleOf x.bytes, false⟩] }).endLong id St.ok [s.newHandle n]) := by
  change execModuleLoadDone n id x s = _
  simp only [execModuleLoadDone, hl, hc, hf, if_true, not_true_eq_false, if_false]
  rfl

end LoadDone

/-- Settles O12: profiles wait for the next tick, `mod.load` and `mod.unload` run by their rules, and the end of a load
holds the module under its new handle or reports the check that fails (R27, R245, R283, R290, R295). -/
theorem modulesAndProfiles : Obligations.ModulesAndProfiles := by
  intro s n r
  dsimp only
  refine ⟨?squall, ?anvil, ?load, ?unload, ?loadDone⟩
  case squall => exact fun h he => exec_turn_basic rfl h (if_neg (not_not_intro he))
  case anvil => exact fun h he => exec_turn_basic rfl h (if_neg (not_not_intro he))
  case load => exact fun h hdma hfew => exec_turn_long (go := fun u => u) rfl h hfew (if_neg (not_not_intro hdma))
  case unload =>
    intro m h hm hidle
    exact exec_turn_basic rfl h (by simp [hm, hidle])
  case loadDone =>
    intro id x hl hf
    refine ⟨s.newHandle n, (newHandle_bounds s n).1, (newHandle_bounds s n).2, ?_⟩
    cases hc : s.loadCheck n x with
    | none => exact exec_moduleLoadDone_held hl hf hc
    | some st => exact exec_moduleLoadDone_refused hl hc

end Sys2Proof.Machine
end

section
/-!
SUPPORT. The state after reset: the statement ResetState.
-/

namespace Sys2Proof.Machine

open Sys2Proof

/-- Settles O58: PF0 alone and idle, 16 free contexts, nothing stored and the settings as shipped (R28, R35, R36, R253,
R350, R353, R398). -/
theorem resetState : Obligations.ResetState := by
  refine ⟨⟨?areas, rfl⟩, rfl, rfl, ?contexts, rfl, rfl, rfl, rfl, rfl, rfl, rfl, by decide⟩
  case areas =>
    intro f hf
    rw [List.mem_singleton.mp (show f ∈ [Fn.fresh 0 .active Grant.pf0Default] from hf)]
    rfl
  case contexts =>
    intro c hc
    rw [List.eq_of_mem_replicate (show c ∈ List.replicate 16 DgCtx.free from hc)]
    exact ⟨rfl, rfl⟩

end Sys2Proof.Machine
end

section
/-!
SUPPORT. Settings of Horizon, flash translation, media and redundancy: the statement MediaSettingsRecorded.
-/

namespace Sys2Proof.Machine

open Sys2Proof

/-- The claim that `hz.configure` moves to: the TICK_IN ball for source 1, none for any other (R33, R408). -/
theorem moveClaim_source (s : State) (src op n : Nat) :
    s.moveClaim (if src = 1 then 0x10 else 0) op n =
      s.record (.unclaim op :: if src = 1 then [.claim 0x10 op n] else []) := by
  rw [moveClaim_eq]
  by_cases h : src = 1 <;> simp [h]

/-- A member that is ONLINE and not known to be lost fails: noted, with its event, and recorded (R178). -/
theorem failMember_online {s : State} {m : Nat}
    (ho : s.store.pool.members.any (fun x => x.1 == m && x.2 == .online) = true)
    (hl : s.flash.lostMembers.contains m = false) :
    s.failMember m = ((s.modFlash fun f => { f with
      lostMembers := f.lostMembers ++ [m]
      windowFails := if s.hz.phase = .sealWindow then f.windowFails ++ [m] else f.windowFails }).mediaEvent
        St.rdMemberFailed m).record [.memberFail m] := by
  unfold State.failMember
  rw [if_pos (by rw [ho, hl]; rfl)]

/-- Settles O8: each setting within its rules is recorded with its reply after the seal, a pool, a reshape and a patrol
begin a long command, and a reshape that runs is cancelled (R32, R33, R70, R131, R167 to R171, R191 to R193, R200). -/
theorem mediaSettingsRecorded : Obligations.MediaSettingsRecorded := by
  intro s n r
  dsimp only
  refine ⟨?configure, ?release, ?ftProfile, fun h => exec_turn_persist rfl h rfl, fun h => exec_turn_persist rfl h rfl,
    ?patrol, ?memberFail, fun _ => failMember_online, ?poolForm, ?reshape, ?cancel⟩
  case configure =>
    intro h hok
    exact exec_turn_persist rfl h (by simp only [hok, moveClaim_source]; rfl)
  case release =>
    intro h hg
    refine exec_turn_persist rfl h ?_
    rcases hg with hg | hg <;> simp only [State.taken_zl, hg]
  case ftProfile =>
    intro h hop
    exact exec_turn_persist rfl h (if_neg fun hc => Nat.not_lt.mpr hop hc.1)
  case patrol =>
    intro h hfew
    exact exec_turn_long (go := fun u => u.modFlash fun f => { f with patrol := f.patrol ++ [s.recs.nextLong] }) rfl h hfew rfl
  case memberFail =>
    intro h hpool hm
    exact exec_turn_persist rfl h (if_pos ⟨hpool, hm⟩)
  case poolForm =>
    intro h hns hk hw hpop hcap hfew
    refine exec_turn_long (go := fun u => u.record [.poolForm ⟨true, (maskMembers (fld r 0 16)).map fun m => (m, .online),
      fld r 16 4, [], (s.taken n).drainCapOf (maskMembers (fld r 0 16))⟩ (s.taken n).recs.nextLong]) rfl h hfew ?_
    simp [hns, hk, hw, hpop, Nat.not_lt.mpr hcap]
  case reshape =>
    intro x h hx hcode hrns hspace hidle hfew
    rw [State.taken_store] at hspace
    refine exec_turn_long (go := fun u => u.record [.reshapeStart x.f.nsid (fld r 32 8) n (s.taken n).recs.nextLong]) rfl h hfew ?_
    simp [hx, hcode, hrns, Nat.not_lt.mpr hspace, hidle]
  case cancel =>
    intro h hrun hid
    exact exec_turn_basic rfl h (if_neg (by simp [hrun, hid]))

end Sys2Proof.Machine
end

section
/-!
SUPPORT. Two readings of the state: without what an event reaches, and without all records, functions and queues. An
operation that only reports keeps them, and so every field that they show.
-/

namespace Sys2Proof.Machine

open Sys2Proof

/-- The state without what an event reaches: log, functions, and writes toward the host. -/
def State.sansEvents (s : State) : State :=
  { s with
    fns := []
    q := { s.q with issued := [], held := [] }
    recs := { s.recs with log := [], nextIdx := 0, perClass := [] } }

/-- The state without its records, functions and queues. -/
def State.silent (s : State) : State := { s with fns := [], q := .reset, recs := .reset }

theorem silent_of_sansEvents {s t : State} (h : t.sansEvents = s.sansEvents) : t.silent = s.silent :=
  (congrArg State.silent h :)

/-- States that read alike differ in records, functions and queues alone. -/
theorem eq_of_silent {s t : State} (h : t.silent = s.silent) : t = { s with recs := t.recs, fns := t.fns, q := t.q } := by
  cases s
  cases t
  simp only [State.silent, State.mk.injEq, true_and] at h ⊢
  exact h

section Fields

variable {s t : State} (h : t.silent = s.silent)
include h

theorem store_of_silent : t.store = s.store := (congrArg State.store h :)
theorem hz_of_silent : t.hz = s.hz := (congrArg State.hz h :)
theorem flash_of_silent : t.flash = s.flash := (congrArg State.flash h :)
theorem pw_of_silent : t.pw = s.pw := (congrArg State.pw h :)

end Fields

section EventFields

variable {s t : State} (h : t.sansEvents = s.sansEvents)
include h

theorem store_of_sansEvents : t.store = s.store := (congrArg State.store h :)
theorem hz_of_sansEvents : t.hz = s.hz := (congrArg State.hz h :)
theorem flash_of_sansEvents : t.flash = s.flash := (congrArg State.flash h :)
theorem sq_of_sansEvents : t.sq = s.sq := (congrArg State.sq h :)
theorem anv_of_sansEvents : t.anv = s.anv := (congrArg State.anv h :)
theorem zl_of_sansEvents : t.zl = s.zl := (congrArg State.zl h :)
theorem pw_of_sansEvents : t.pw = s.pw := (congrArg State.pw h :)
theorem cmds_of_sansEvents : t.q.cmds = s.q.cmds := (congrArg (·.q.cmds) h :)
theorem longs_of_sansEvents : t.recs.longs = s.recs.longs := (congrArg (·.recs.longs) h :)

end EventFields

/-! ### Events -/

@[simp] theorem State.modFn_sansEvents (s : State) (n : Nat) (g : Fn → Fn) : (s.modFn n g).sansEvents = s.sansEvents := rfl

theorem State.modRecs_sansEvents {s : State} {g : Records → Records}
    (h : ∀ r, ({ g r with log := [], nextIdx := 0, perClass := [] } : Records) =
      { r with log := [], nextIdx := 0, perClass := [] }) : (s.modRecs g).sansEvents = s.sansEvents := by
  simp only [State.sansEvents, State.modRecs, h]

@[simp] theorem State.log_sansEvents (s : State) (cls fn : Nat) (st : Status) (d : Nat) :
    (s.log cls fn st d).sansEvents = s.sansEvents := State.modRecs_sansEvents fun _ => rfl

@[simp] theorem State.hostWrite_sansEvents (s : State) (n : Nat) (w : HostWrite) :
    (s.hostWrite n w).sansEvents = s.sansEvents := by
  unfold State.hostWrite
  split <;> rfl

@[simp] theorem State.msix_sansEvents (s : State) (n v : Nat) : (s.msix n v).sansEvents = s.sansEvents := by
  unfold State.msix
  dsimp only
  split
  · split <;> simp
  · simp

@[simp] theorem State.ringEvent_sansEvents (s : State) (n cls : Nat) (st : Status) (d : Nat) :
    (s.ringEvent n cls st d).sansEvents = s.sansEvents := by
  unfold State.ringEvent
  split
  · rfl
  · split
    · rfl
    · split <;> simp

@[simp] theorem State.event_sansEvents (s : State) (cls fn : Nat) (l : List Nat) (st : Status) (d : Nat) :
    (s.event cls fn l st d).sansEvents = s.sansEvents := by
  unfold State.event
  rw [foldl_keeps State.sansEvents _ (fun a n => a.ringEvent_sansEvents n cls st d), State.log_sansEvents]

@[simp] theorem State.hzEvent_sansEvents (s : State) (st : Status) (e : Nat) :
    (s.hzEvent st e).sansEvents = s.sansEvents := State.event_sansEvents ..
@[simp] theorem State.mediaEvent_sansEvents (s : State) (st : Status) (u : Nat) :
    (s.mediaEvent st u).sansEvents = s.sansEvents := State.event_sansEvents ..
@[simp] theorem State.zlEvent_sansEvents (s : State) (st : Status) (p n : Nat) :
    (s.zlEvent st p n).sansEvents = s.sansEvents := State.event_sansEvents ..
@[simp] theorem State.nsEvent_sansEvents (s : State) (st : Status) (i l : Nat) :
    (s.nsEvent st i l).sansEvents = s.sansEvents := State.event_sansEvents ..

theorem nsEvents_sansEvents (st : Status) (l : List Nat) (s : State) :
    (l.foldl (fun a i => a.nsEvent st i 0) s).sansEvents = s.sansEvents :=
  foldl_keeps State.sansEvents _ (fun (a : State) (i : Nat) => a.nsEvent_sansEvents st i 0) l s

theorem State.modHz_sansEvents (s : State) (g : Horizon → Horizon) : (s.modHz g).sansEvents = s.sansEvents.modHz g := rfl
theorem State.modPw_sansEvents (s : State) (g : Power → Power) : (s.modPw g).sansEvents = s.sansEvents.modPw g := rfl

/-! ### Replies and long commands -/

@[simp] theorem State.stage_sansEvents (s : State) (n op tag : Nat) (st : Status) (vs : List Nat) (e : Option Nat) :
    (s.stage n op tag st vs e).sansEvents = s.sansEvents := rfl

@[simp] theorem State.laterReply_sansEvents (s : State) (n op tag : Nat) (vs : List Nat) :
    (s.laterReply n op tag vs).sansEvents = s.sansEvents := by
  unfold State.laterReply
  split <;> rfl

@[simp] theorem State.abortReply_sansEvents (s : State) (i : Inst) : (s.abortReply i).sansEvents = s.sansEvents := by
  unfold State.abortReply
  split
  · exact State.laterReply_sansEvents ..
  · rfl

@[simp] theorem State.haltReplies_sansEvents (s : State) : s.haltReplies.sansEvents = s.sansEvents := rfl

@[simp] theorem State.modRecs_silent (s : State) (g : Records → Records) : (s.modRecs g).silent = s.silent := rfl

@[simp] theorem State.modQ_silent (s : State) (g : Queues → Queues) : (s.modQ g).silent = s.silent := rfl

@[simp] theorem State.endLong_silent (s : State) (id : Nat) (st : Status) (vs : List Nat) :
    (s.endLong id st vs).silent = s.silent := by
  unfold State.endLong
  split
  · rfl
  · exact (silent_of_sansEvents (State.event_sansEvents ..) :)

@[simp] theorem State.endLong_cmds (s : State) (id : Nat) (st : Status) (vs : List Nat) :
    (s.endLong id st vs).q.cmds = s.q.cmds := by
  unfold State.endLong
  split
  · rfl
  · exact (cmds_of_sansEvents (State.event_sansEvents ..) :)

@[simp] theorem State.endLongs_silent (s : State) (st : Status) : (s.endLongs st).silent = s.silent :=
  foldl_keeps State.silent _ (fun (a : State) (l : LongCmd) => a.endLong_silent l.id st []) _ s

@[simp] theorem State.endLongs_cmds (s : State) (st : Status) : (s.endLongs st).q.cmds = s.q.cmds :=
  foldl_keeps (·.q.cmds) _ (fun (a : State) (l : LongCmd) => a.endLong_cmds l.id st []) _ s

/-! ### Commands -/

@[simp] theorem State.postCq_silent (s : State) (n qid cid : Nat) (st : Status) (r : Nat) :
    (s.postCq n qid cid st r).silent = s.silent := by
  unfold State.postCq
  split
  · rfl
  · split
    · rfl
    · exact (silent_of_sansEvents (State.hostWrite_sansEvents ..) :)

@[simp] theorem State.postCq_cmds (s : State) (n qid cid : Nat) (st : Status) (r : Nat) :
    (s.postCq n qid cid st r).q.cmds = s.q.cmds := by
  unfold State.postCq
  split
  · rfl
  · split
    · rfl
    · exact (cmds_of_sansEvents (State.hostWrite_sansEvents ..) :)

@[simp] theorem State.endCmd_silent (s : State) (c : Cmd) (st : Status) (r : Nat) :
    (s.endCmd c st r).silent = s.silent := State.postCq_silent ..

/-- A command that ends leaves the queue memory. -/
@[simp] theorem State.endCmd_cmds (s : State) (c : Cmd) (st : Status) (r : Nat) :
    (s.endCmd c st r).q.cmds = s.q.cmds.filter fun x => x.seq != c.seq := State.postCq_cmds ..

end Sys2Proof.Machine
end

section
/-!
SUPPORT. What the work of a group on commits and memberships leaves alone: one reading of the state, kept by every
operation that only sends frames, raises events, counts votes and records a membership.
-/

namespace Sys2Proof.Machine

open Sys2Proof

/-- What a fault raises in Horizon: HZ_FAULT_LAST and the counters of R60. -/
def Horizon.faults (h : Horizon) : Nat × Nat × Nat × Nat := (h.faultCode, h.faultEpoch, h.sealLate, h.ringLate)

/-- The state without what the work of a group changes: Zelim, commits and epochs of Horizon, free values, and what an
event reaches. -/
def State.sansGroup (s : State) : State :=
  { s.sansEvents with
    zl := .reset .reset
    hz := { s.hz with commitHeld := 0, pendingSealMark := 0, epochs := [] }
    freeCtr := 0 }

theorem sansGroup_of_sansEvents {s t : State} (h : t.sansEvents = s.sansEvents) : t.sansGroup = s.sansGroup :=
  (congrArg State.sansGroup h :)

/-- States that read alike differ in Zelim, Horizon, records, functions, queues and free values alone. -/
theorem eq_of_sansGroup {s t : State} (h : t.sansGroup = s.sansGroup) :
    t = { s with zl := t.zl, hz := t.hz, recs := t.recs, fns := t.fns, q := t.q, freeCtr := t.freeCtr } := by
  cases s
  cases t
  simp only [State.sansGroup, State.sansEvents, State.mk.injEq, true_and] at h ⊢
  tauto

section Fields

variable {s t : State} (h : t.sansGroup = s.sansGroup)
include h

theorem hzSt_of_sansGroup : t.hz.st = s.hz.st := (congrArg (·.hz.st) h :)
theorem lateCount_of_sansGroup : t.hz.lateCount = s.hz.lateCount := (congrArg (·.hz.lateCount) h :)
theorem faults_of_sansGroup : t.hz.faults = s.hz.faults := (congrArg (·.hz.faults) h :)

end Fields

@[simp] theorem State.modZl_sansGroup (s : State) (g : Zelim → Zelim) : (s.modZl g).sansGroup = s.sansGroup := rfl
@[simp] theorem State.modPort_sansGroup (s : State) (p : Nat) (g : Port → Port) :
    (s.modPort p g).sansGroup = s.sansGroup := rfl
@[simp] theorem State.modEpoch_sansGroup (s : State) (g : Epoch → Epoch) : (s.modEpoch g).sansGroup = s.sansGroup := rfl
@[simp] theorem State.record_sansGroup (s : State) (cs : List Ctrl) : (s.record cs).sansGroup = s.sansGroup := rfl

@[simp] theorem State.sendFrame_sansGroup (s : State) (p typ dst rid arg : Nat) :
    (s.sendFrame p typ dst rid arg).sansGroup = s.sansGroup := by
  rw [State.sendFrame_frame]
  rfl

@[simp] theorem State.sendTo_sansGroup (s : State) (typ dst rid arg : Nat) :
    (s.sendTo typ dst rid arg).sansGroup = s.sansGroup := State.sendFrame_sansGroup ..

@[simp] theorem State.sendMembers_sansGroup (s : State) (typ arg : Nat) :
    (s.sendMembers typ arg).sansGroup = s.sansGroup :=
  foldl_keeps State.sansGroup _ (fun (a : State) (n : Nat) => a.sendTo_sansGroup typ n 0 arg) _ s

@[simp] theorem State.zlOpenEvent_sansGroup (s : State) (p n : Nat) : (s.zlOpenEvent p n).sansGroup = s.sansGroup := by
  unfold State.zlOpenEvent
  rw [sansGroup_of_sansEvents (State.zlEvent_sansEvents ..)]
  rfl

@[simp] theorem State.commitTick_sansGroup (s : State) (g : Nat) : (s.commitTick g).sansGroup = s.sansGroup := by
  unfold State.commitTick
  rw [State.sendMembers_sansGroup]
  rfl

theorem commitLoop_sansGroup (k : Nat) (s : State) : (State.commitLoop k s).sansGroup = s.sansGroup := by
  induction k generalizing s with
  | zero => rfl
  | succ k ih =>
    unfold State.commitLoop
    split
    · rw [ih, State.commitTick_sansGroup]
    · rfl

@[simp] theorem State.tryCommit_sansGroup (s : State) : s.tryCommit.sansGroup = s.sansGroup := commitLoop_sansGroup ..

@[simp] theorem State.addVote_sansGroup (s : State) (g n : Nat) : (s.addVote g n).sansGroup = s.sansGroup := by
  unfold State.addVote
  split <;> rfl

@[simp] theorem State.takeCommit_sansGroup (s : State) : s.takeCommit.sansGroup = s.sansGroup := by
  unfold State.takeCommit
  dsimp only
  split <;> rfl

@[simp] theorem State.setMembers_sansGroup (s : State) (g e : Nat) (ms : List Member) :
    (s.setMembers g e ms).sansGroup = s.sansGroup := by
  simp only [State.setMembers, State.rebuildPaths, State.record_sansGroup, State.modZl_sansGroup]

@[simp] theorem State.removeMembers_sansGroup (s : State) (gone : List Nat) :
    (s.removeMembers gone).sansGroup = s.sansGroup := by
  unfold State.removeMembers
  dsimp only
  split
  · rfl
  · rw [State.tryCommit_sansGroup, State.sendMembers_sansGroup, foldl_keeps State.sansGroup _ (fun a n => by simp),
      State.setMembers_sansGroup]

@[simp] theorem State.countSlow_sansGroup (s : State) (g : Nat) : (s.countSlow g).sansGroup = s.sansGroup := by
  unfold State.countSlow
  rw [State.removeMembers_sansGroup]
  rfl

end Sys2Proof.Machine
end

section
/-!
SUPPORT. Entry to Halted: what each part of it ends and what it keeps, and the statement HaltedStops.
-/

namespace Sys2Proof.Machine

open Sys2Proof

/-! ### Fetched commands -/

/-- Ending the commands of a list leaves those whose number none of them has. -/
theorem cmds_foldl_endCmd (st : Status) (res : Cmd → Nat) (l : List Cmd) (s : State) :
    (l.foldl (fun a c => a.endCmd c st (res c)) s).q.cmds =
      s.q.cmds.filter fun x => l.all fun c => x.seq != c.seq := by
  induction l generalizing s with
  | nil => simp
  | cons c l ih => rw [List.foldl_cons, ih, State.endCmd_cmds, List.filter_filter]; simp [Bool.and_comm]

@[simp] theorem State.haltCmds_cmds (s : State) : s.haltCmds.q.cmds = [] := by
  unfold State.haltCmds
  rw [cmds_foldl_endCmd, List.filter_eq_nil_iff]
  intro x hx
  simpa using ⟨x, hx, rfl⟩

@[simp] theorem State.haltCmds_silent (s : State) : s.haltCmds.silent = s.silent :=
  foldl_keeps State.silent _ (fun (a : State) (c : Cmd) => a.endCmd_silent c St.halted (s.haltedResult c)) _ s

/-! ### Long commands -/

/-- A long command that is open after one has ended was open before, and is another. -/
theorem open_of_endLong {s : State} {id : Nat} {st : Status} {vs : List Nat} {l : LongCmd}
    (hl : l ∈ (s.endLong id st vs).recs.longs) (ho : l.status = none) : l ∈ s.recs.longs ∧ l.id ≠ id := by
  unfold State.endLong at hl
  split at hl
  · next hn =>
    refine ⟨hl, fun hid => ?_⟩
    simpa [hid, ho] using List.find?_eq_none.mp hn l hl
  · have hl' : l ∈ (updIf (fun x => x.id == id) (fun x => { x with status := some st, result := vs }) s.recs.longs) := by
      rw [longs_of_sansEvents (State.event_sansEvents ..)] at hl
      exact (List.mem_filter.mp hl).1
    obtain ⟨y, hy, rfl⟩ := List.mem_map.mp hl'
    by_cases hid : (y.id == id) = true
    · simp [hid] at ho
    · simp only [hid, Bool.false_eq_true, if_false]
      exact ⟨hy, by simpa using hid⟩

theorem open_of_foldl_endLong {st : Status} {l : LongCmd} (ls : List LongCmd) (s : State)
    (hl : l ∈ (ls.foldl (fun a x => a.endLong x.id st []) s).recs.longs) (ho : l.status = none) :
    l ∈ s.recs.longs ∧ ∀ x ∈ ls, l.id ≠ x.id := by
  induction ls generalizing s with
  | nil => exact ⟨hl, by simp⟩
  | cons x ls ih =>
    obtain ⟨hmem, hne⟩ := ih _ hl
    obtain ⟨hmem, hx⟩ := open_of_endLong hmem ho
    exact ⟨hmem, List.forall_mem_cons.mpr ⟨hx, hne⟩⟩

/-- No long command stays open once all have ended. -/
theorem endLongs_ended (s : State) (st : Status) : ∀ l ∈ (s.endLongs st).recs.longs, l.status ≠ none := by
  intro l hl ho
  obtain ⟨hmem, hne⟩ := open_of_foldl_endLong _ s hl ho
  exact hne l (List.mem_filter.mpr ⟨hmem, by simp [ho]⟩) rfl

/-! ### The parts of the entry -/

theorem State.abortActivation_hz (s : State) (st : Status) : (s.abortActivation st).hz = s.hz := by
  unfold State.abortActivation
  split
  · rfl
  · exact (hz_of_silent (State.endLong_silent ..) :)

theorem State.abortActivation_store (s : State) (st : Status) : (s.abortActivation st).store = s.store := by
  unfold State.abortActivation
  split
  · rfl
  · exact (store_of_silent (State.endLong_silent ..) :)

/-- The replies to aborts that find no exec any more change only functions. -/
theorem State.stopEngines_sansEvents (s : State) : s.stopEngines.sansEvents = ((s.modAnv fun a => { a with
    insts := [], threads := [], running := [], stalled := [], delays := [], counts := []
    engines := a.engines.map Engine.leave }).modSq fun q => { q with jobs := [] }).sansEvents :=
  foldl_keeps State.sansEvents _ State.abortReply_sansEvents _ _

/-- The state in which commands, waiting replies and long commands have ended. -/
def State.commandsEnded (s : State) : State :=
  (s.abortActivation St.fwActivateAborted).haltCmds.haltReplies.endLongs St.halted

/-- `commandsEnded` ends work alone: the durable state and Horizon are as before, no command is left, none is long and
open. -/
theorem commandsEnded_spec (s : State) : s.commandsEnded.store = s.store ∧ s.commandsEnded.hz = s.hz ∧
    s.commandsEnded.q.cmds = [] ∧ ∀ l ∈ s.commandsEnded.recs.longs, l.status ≠ none := by
  have hsil : s.commandsEnded.silent = (s.abortActivation St.fwActivateAborted).silent := by
    rw [State.commandsEnded, State.endLongs_silent, silent_of_sansEvents (State.haltReplies_sansEvents _),
      State.haltCmds_silent]
  refine ⟨?_, ?_, ?_, endLongs_ended _ _⟩
  · rw [store_of_silent hsil, State.abortActivation_store]
  · rw [hz_of_silent hsil, State.abortActivation_hz]
  · rw [State.commandsEnded, State.endLongs_cmds, cmds_of_sansEvents (State.haltReplies_sansEvents _),
      State.haltCmds_cmds]

/-- After the end of all work, entry to Halted discards what is not sealed, stops Horizon and sets the power state. -/
theorem State.enterHalted_sansEvents (s : State) : s.enterHalted.sansEvents =
    ((s.commandsEnded.stopEngines.discardUnsealed.modHz fun h => { h with st := .halted, ticking := false }).modPw
      fun p => { p with
        st := .halted, entry := .none, request := none, replyTo := none, fault := true }).sansEvents := by
  simp only [State.enterHalted, State.modPw_sansEvents, State.modHz_sansEvents, nsEvents_sansEvents,
    State.commandsEnded]

/-- Horizon in Halted: no tick runs, and only sealed epochs are left. -/
theorem State.enterHalted_hz (s : State) : s.enterHalted.hz =
    { s.hz with epochs := s.hz.epochs.filter (·.isSealed), st := .halted, ticking := false } := by
  rw [hz_of_sansEvents s.enterHalted_sansEvents]
  simp only [State.modPw_hz, State.modHz_hz, State.discardUnsealed, State.modNs_hz,
    hz_of_sansEvents (State.stopEngines_sansEvents _), State.modSq_hz, State.modAnv_hz, (commandsEnded_spec s).2.1]

/-- The commands that do not run in Halted (R64): all but four of R404. -/
theorem servedInHalted_eq_false {m : MbMeta} (hm : m ∈ catalogue) (h1 : m ≠ Mb.devIdentify) (h2 : m ≠ Mb.devCertRead)
    (h3 : m ≠ Mb.logRead) (h4 : m ≠ Mb.logStatus) : servedInHalted m.opcode = false := by
  have hall : ∀ m ∈ catalogue, m = Mb.devIdentify ∨ m = Mb.devCertRead ∨ m = Mb.logRead ∨ m = Mb.logStatus ∨
    servedInHalted m.opcode = false := by decide
  simpa [h1, h2, h3, h4] using hall m hm

/-- Settles O26: commands, engines and long commands have ended, nothing unsealed is left, the durable state stands, and
commands beside the four of R64 meet ST_HALTED (R64, R77, R401, R403). -/
theorem haltedStops : Obligations.HaltedStops := by
  intro s
  obtain ⟨hstore, -, hcmds, hlongs⟩ := commandsEnded_spec s
  have hstop := State.stopEngines_sansEvents s.commandsEnded
  have hs := s.enterHalted_sansEvents
  have hhz := s.enterHalted_hz
  have hpw : s.enterHalted.pw.st = .halted := by rw [pw_of_sansEvents hs, State.modPw_pw]
  refine ⟨?cmds, ?insts, ?threads, ?jobs, ?ticking, ?st, hpw, ?store, ?epochs, ?longs, ?ns, ?mailbox⟩
  case cmds => simp [cmds_of_sansEvents hs, State.discardUnsealed, cmds_of_sansEvents hstop, hcmds]
  case insts => simp [anv_of_sansEvents hs, State.discardUnsealed, anv_of_sansEvents hstop]
  case threads => simp [anv_of_sansEvents hs, State.discardUnsealed, anv_of_sansEvents hstop]
  case jobs => simp [sq_of_sansEvents hs, State.discardUnsealed, sq_of_sansEvents hstop]
  case ticking => rw [hhz]
  case st => rw [hhz]
  case store => simp [store_of_sansEvents hs, State.discardUnsealed, store_of_sansEvents hstop, hstore]
  case epochs =>
    intro e he
    rw [hhz] at he
    exact (List.mem_filter.mp he).2
  case longs =>
    simpa [longs_of_sansEvents hs, State.discardUnsealed, longs_of_sansEvents hstop] using hlongs
  case ns =>
    intro x
    rw [State.nsStateOf, hhz, if_pos rfl]
  case mailbox =>
    intro m n r hm h1 h2 h3 h4
    have hserved := servedInHalted_eq_false hm h1 h2 h3 h4
    rw [State.mbCheck, if_pos ⟨hpw, by simp [hserved]⟩]

end Sys2Proof.Machine
end

section
/-!
SUPPORT. Late epochs: what a late fault counts and what it raises, and the statements HorizonFaults and HaltedEntered.
-/

namespace Sys2Proof.Machine

open Sys2Proof

/-! ### The late count (R63, R65) -/

theorem lateFault_running {s : State} (h : s.hz.st = .running) :
    s.lateFault = s.modHz fun z => { z with st := .late, lateCount := 1 } := by
  simp only [State.lateFault, h]

theorem lateFault_late {s : State} (h : s.hz.st = .late) (hc : s.hz.lateCount < 2) :
    s.lateFault = s.modHz fun z => { z with lateCount := z.lateCount + 1 } := by
  simp only [State.lateFault, h, if_pos hc]

theorem lateFault_third {s : State} (h : s.hz.st = .late) (hc : 2 ≤ s.hz.lateCount) : s.lateFault = s.enterHalted := by
  simp only [State.lateFault, h, if_neg (Nat.not_lt.mpr hc)]

/-- A late fault counts and moves the Horizon state; it raises nothing by itself. -/
theorem lateFault_faults (s : State) : s.lateFault.hz.faults = s.hz.faults := by
  unfold State.lateFault
  split
  · rfl
  · split
    · rfl
    · rw [State.enterHalted_hz]; rfl
  · rfl

/-! ### The two faults of an epoch (R60) -/

/-- HZ_SEAL_LATE raised for epoch `n`, before it counts among the late ones. -/
def State.sealFault (s : State) (n : Nat) : State :=
  (s.modHz fun h => { h.fault 1 n with
    sealLate := sat32 (h.sealLate + 1)
    epochs := updIf (fun x => x.n == n) (fun x => { x with isLate := true }) h.epochs }).hzEvent St.hzSealLate n

/-- HZ_RING_SEAL_LATE raised for epoch `n`, before it counts among the late ones. -/
def State.ringFault (s : State) (n : Nat) : State :=
  (s.modHz fun h => { h.fault 3 n with
    ringLate := sat32 (h.ringLate + 1)
    epochs := updIf (fun x => x.n == n) (fun x => { x with ringLate := true }) h.epochs }).hzEvent St.hzRingSealLate n

/-- The second fault of an epoch counts no further late epoch (R63). -/
theorem sealLateAt_second {s : State} {e : Epoch} (h : e.ringLate = true) : s.sealLateAt e = s.sealFault e.n := by
  simp only [State.sealLateAt, State.sealFault, if_pos h]

theorem sealLateAt_first {s : State} {e : Epoch} (h : e.ringLate = false) :
    s.sealLateAt e = (s.sealFault e.n).lateFault := by
  simp [State.sealLateAt, State.sealFault, h]

theorem ringLateAt_first {s : State} {n : Nat} (h : (s.hz.epochs.any fun x => x.n == n && x.isLate) = false) :
    s.ringLateAt n = (s.ringFault n).lateFault := by
  simp [State.ringLateAt, State.ringFault, h]

theorem ringLateAt_faults (s : State) (n : Nat) :
    (s.ringLateAt n).hz.faults = (3, n, s.hz.sealLate, sat32 (s.hz.ringLate + 1)) := by
  unfold State.ringLateAt
  dsimp only
  split
  · simp [Horizon.faults, Horizon.fault]
  · rw [lateFault_faults]; simp [Horizon.faults, Horizon.fault]

/-- An epoch that no fault made late yet does so with HZ_RING_SEAL_LATE: RUNNING becomes LATE. -/
theorem ringLateAt_running {s : State} {n : Nat} (hr : s.hz.st = .running)
    (h : ∀ x ∈ s.hz.epochs, x.n = n → x.isLate = false) :
    (s.ringLateAt n).hz.st = .late ∧ (s.ringLateAt n).hz.lateCount = 1 := by
  have hany : (s.hz.epochs.any fun x => x.n == n && x.isLate) = false := by
    simpa [List.any_eq_false] using h
  rw [ringLateAt_first hany, lateFault_running (by simp [State.ringFault, Horizon.fault, hr])]
  exact ⟨rfl, rfl⟩

/-- HZ_SEAL_LATE sets HZ_FAULT_LAST and counts, whether the epoch was late before or not. -/
theorem sealLateAt_faults (s : State) (e : Epoch) :
    (s.sealLateAt e).hz.faults = (1, e.n, sat32 (s.hz.sealLate + 1), s.hz.ringLate) := by
  have hf : (s.sealFault e.n).hz.faults = (1, e.n, sat32 (s.hz.sealLate + 1), s.hz.ringLate) := by
    simp [State.sealFault, Horizon.faults, Horizon.fault]
  cases he : e.ringLate with
  | true => rw [sealLateAt_second he, hf]
  | false => rw [sealLateAt_first he, lateFault_faults, hf]

/-- In RUNNING an epoch is late from HZ_SEAL_LATE on; as the first of its two faults that makes the device LATE. -/
theorem sealLateAt_running {s : State} {e : Epoch} (hr : s.hz.st = .running) :
    (∀ x ∈ (s.sealLateAt e).hz.epochs, x.n = e.n → x.isLate = true) ∧
      (e.ringLate = false → (s.sealLateAt e).hz.st = .late ∧ (s.sealLateAt e).hz.lateCount = 1) ∧
      (e.ringLate = true → (s.sealLateAt e).hz.st = .running) := by
  have hst : (s.sealFault e.n).hz.st = .running := by simp [State.sealFault, Horizon.fault, hr]
  have hlate : ∀ x ∈ (s.sealFault e.n).hz.epochs, x.n = e.n → x.isLate = true := by
    simp only [State.sealFault, State.hzEvent_hz, State.modHz_hz, updIf, List.forall_mem_map]
    intro x _
    split
    · simp
    · next hx => intro h; exact absurd (beq_iff_eq.mpr h) hx
  cases he : e.ringLate with
  | true => rw [sealLateAt_second he]; exact ⟨hlate, by simp, fun _ => hst⟩
  | false => rw [sealLateAt_first he, lateFault_running hst]; exact ⟨hlate, fun _ => ⟨rfl, rfl⟩, by simp⟩

/-- What the master does at the end of a vote window moves neither faults nor the Horizon state (R321, R322). -/
theorem countSlow_takeCommit_hz (s : State) (g : Nat) : (s.countSlow g).takeCommit.hz.faults = s.hz.faults ∧
    (s.countSlow g).takeCommit.hz.st = s.hz.st ∧ (s.countSlow g).takeCommit.hz.lateCount = s.hz.lateCount := by
  have h := ((s.countSlow g).takeCommit_sansGroup).trans (s.countSlow_sansGroup g)
  exact ⟨faults_of_sansGroup h, hzSt_of_sansGroup h, lateCount_of_sansGroup h⟩

/-! ### The commands -/

/-- The end of the vote window without the commit: HZ_RING_SEAL_LATE, and the master's own work moves nothing of it. -/
theorem exec_voteWindowEnd_late {s : State} {e : Epoch} (ht : s.hz.ticking = true) (hd : s.ringDue = some e)
    (hc : s.hz.commitHeld < e.n) : ∃ t, exec .voteWindowEnd s = .next t ∧ t.hz.faults = (s.ringLateAt e.n).hz.faults ∧
      t.hz.st = (s.ringLateAt e.n).hz.st ∧ t.hz.lateCount = (s.ringLateAt e.n).hz.lateCount := by
  have hrun : ¬ (s.hz.ticking = false ∨ e.n ≤ s.hz.commitHeld) := by simp [ht, hc]
  have hexec : exec .voteWindowEnd s = .next (if (s.ringLateAt e.n).zl.group = .master
      then ((s.ringLateAt e.n).countSlow (e.n - (s.ringLateAt e.n).zl.offset)).takeCommit else s.ringLateAt e.n) := by
    change execVoteWindowEnd s = _
    simp only [execVoteWindowEnd, hd, if_neg hrun]
  refine ⟨_, hexec, ?_⟩
  split
  · exact countSlow_takeCommit_hz _ _
  · exact ⟨rfl, rfl, rfl⟩

theorem exec_ringSealDeadline_late {s : State} {e : Epoch} (ht : s.hz.ticking = true) (hd : s.ringDue = some e)
    (hm : s.hz.ringMark < e.n) (hp : s.hz.phase ≠ .accept) : exec .ringSealDeadline s = .next (s.ringLateAt e.n) := by
  have hrun : ¬ (s.hz.ticking = false ∨ e.n ≤ s.hz.ringMark ∨ s.hz.phase = .accept) := by simp [ht, hm, hp]
  change execRingSealDeadline s = _
  simp only [execRingSealDeadline, hd, if_neg hrun]

/-- Settles O24: each fault sets HZ_FAULT_LAST and its counter, and the first of an epoch makes a RUNNING device LATE
(R39, R46, R60, R65). -/
theorem horizonFaults : Obligations.HorizonFaults := by
  intro s ht _
  refine ⟨?sealLate, ?noSeal, ?vote, ?deadline, ?noRing⟩
  case sealLate =>
    intro e hd
    have hf := sealLateAt_faults s e
    simp only [Horizon.faults, Prod.mk.injEq] at hf
    obtain ⟨hcode, hepoch, hcount, -⟩ := hf
    have hexec : exec .hzSealLate s = .next (s.sealLateAt e) := by
      change execHzSealLate s = _
      simp only [execHzSealLate, hd, ht, if_true]
    exact ⟨_, hexec, hcode, hepoch, hcount, sealLateAt_running⟩
  case noSeal =>
    intro hd
    change execHzSealLate s = _
    simp only [execHzSealLate, hd]
  case vote =>
    intro e hd hc
    obtain ⟨t, hexec, hf, hst, hcount⟩ := exec_voteWindowEnd_late ht hd hc
    rw [ringLateAt_faults] at hf
    simp only [Horizon.faults, Prod.mk.injEq] at hf
    obtain ⟨hcode, hepoch, -, hlate⟩ := hf
    exact ⟨t, hexec, hcode, hepoch, hlate, fun hr hx => hst ▸ hcount ▸ ringLateAt_running hr hx⟩
  case deadline =>
    intro e hd hm hp
    have hf := ringLateAt_faults s e.n
    simp only [Horizon.faults, Prod.mk.injEq] at hf
    obtain ⟨hcode, hepoch, -, hlate⟩ := hf
    exact ⟨_, exec_ringSealDeadline_late ht hd hm hp, hcode, hepoch, hlate, ringLateAt_running⟩
  case noRing =>
    intro hd
    refine ⟨?_, ?_⟩
    · change execVoteWindowEnd s = _
      simp only [execVoteWindowEnd, hd]
    · change execRingSealDeadline s = _
      simp only [execRingSealDeadline, hd]

/-! ### Halted (R63) -/

/-- An epoch that becomes late by the first of its two faults counts once, from the Horizon state as it was. -/
theorem late_step {x y : State} (h : (∃ e : Epoch, e.ringLate = false ∧ y = x.sealLateAt e) ∨
    ∃ n, (x.hz.epochs.any fun e => e.n == n && e.isLate) = false ∧ y = x.ringLateAt n) :
    ∃ z : State, y = z.lateFault ∧ z.hz.st = x.hz.st ∧ z.hz.lateCount = x.hz.lateCount := by
  rcases h with ⟨e, he, rfl⟩ | ⟨n, hn, rfl⟩
  · exact ⟨x.sealFault e.n, sealLateAt_first he, by simp [State.sealFault, Horizon.fault]⟩
  · exact ⟨x.ringFault n, ringLateAt_first hn, by simp [State.ringFault, Horizon.fault]⟩

/-- HZ_PLAN_OVERRUN leaves the Horizon state as it is. -/
theorem overrun_st (s : State) : s.overrun.hz.st = s.hz.st := by
  unfold State.overrun
  dsimp only
  split
  · rfl
  · exact foldl_keeps (·.hz.st) _ (fun a e => by simp [Horizon.fault]) _ _

/-- Settles O25: the third late epoch in a row and an epoch unsealed at the end of N + 6 enter Halted; an overrun does
not (R63). -/
theorem haltedEntered : Obligations.HaltedEntered := by
  intro s
  refine ⟨?three, ?unsealed, overrun_st s⟩
  case three =>
    intro late a b c hr ha hb hc
    obtain ⟨x, rfl, hx, -⟩ := late_step ha
    rw [lateFault_running (hx.trans hr)] at hb
    obtain ⟨y, rfl, hy, hy1⟩ := late_step hb
    rw [lateFault_late hy (hy1.trans_lt Nat.one_lt_two)] at hc
    obtain ⟨z, rfl, hz, hz1⟩ := late_step hc
    rw [lateFault_third (hz.trans hy) (hz1.trans (congrArg (· + 1) hy1)).ge, State.enterHalted_hz]
  case unsealed =>
    intro ht hu
    exact ⟨s.enterHalted, if_pos ⟨ht, hu⟩, by rw [State.enterHalted_hz]⟩

end Sys2Proof.Machine
end

section
/-!
SUPPORT. The seal vote and memberships of a group: what a received frame finds, commits that only rise, and the statement
SealVoteAndMembership.
-/

namespace Sys2Proof.Machine

open Sys2Proof

/-! ### A frame on a port that is up (R305, R330) -/

theorem port_modPort {s : State} {p : Nat} (hp : p < s.zl.ports.length) (g : Port → Port) :
    (s.modPort p g).port p = g (s.port p) := by
  simp [State.modPort, State.port, updAt, List.getD_eq_getElem?_getD, hp]

/-- A port that the device does not have is down. -/
theorem lt_ports_of_up {s : State} {p : Nat} (h : (s.port p).st = .up) : p < s.zl.ports.length := by
  by_contra hp
  rw [State.port, List.getD_eq_default _ _ (Nat.not_lt.mp hp)] at h
  cases h

theorem onPort_up {s : State} {p : Nat} (h : (s.port p).st = .up) (go : State → State) :
    s.onPort p go = go (s.received p) := by
  simp only [State.onPort, h]

/-- A group frame from the wrong sender or with a wrong GEN is NAKed with its own SEQ and counted. -/
theorem received_groupViolation {s : State} {p : Nat} (h : (s.port p).st = .up) : (s.received p).groupViolation p =
    ((s.received p).sendNak p (s.port p).peer 0 ((s.port p).rxSeq + 1) St.zlFrame).violation p St.zlFrame := by
  have hport : (s.received p).port p = { s.port p with rxSeq := (s.port p).rxSeq + 1, ackDue := true } :=
    port_modPort (lt_ports_of_up h) _
  rw [State.groupViolation, hport]

/-! ### What is sent -/

/-- Zelim without its ports and what was sent. -/
def Zelim.sansFrames (z : Zelim) : Zelim := { z with ports := [], sent := [] }

/-- What a frame that is sent leaves alone: Zelim beside ports and frames, and Horizon. -/
def State.sansFrames (s : State) : Zelim × Horizon := (s.zl.sansFrames, s.hz)

@[simp] theorem State.received_sansFrames (s : State) (p : Nat) : (s.received p).sansFrames = s.sansFrames := rfl

@[simp] theorem State.sendFrame_sansFrames (s : State) (p typ dst rid arg : Nat) :
    (s.sendFrame p typ dst rid arg).sansFrames = s.sansFrames := by
  unfold State.sendFrame
  extract_lets x o
  clear_value o
  split <;> rfl

@[simp] theorem State.sendTo_sansFrames (s : State) (typ dst rid arg : Nat) :
    (s.sendTo typ dst rid arg).sansFrames = s.sansFrames := State.sendFrame_sansFrames ..

@[simp] theorem State.sendMembers_sansFrames (s : State) (typ arg : Nat) :
    (s.sendMembers typ arg).sansFrames = s.sansFrames :=
  foldl_keeps State.sansFrames _ (fun (a : State) (n : Nat) => a.sendTo_sansFrames typ n 0 arg) _ s

@[simp] theorem State.zlOpenEvent_sansFrames (s : State) (p n : Nat) : (s.zlOpenEvent p n).sansFrames = s.sansFrames := by
  simp only [State.sansFrames, State.zlOpenEvent, State.zlEvent_zl, State.zlEvent_hz, State.freeStatus, State.free]

section Fields

variable {s t : State} (h : t.sansFrames = s.sansFrames)
include h

theorem hz_of_sansFrames : t.hz = s.hz := congrArg Prod.snd h
theorem group_of_sansFrames : t.zl.group = s.zl.group := (congrArg (·.1.group) h :)
theorem gen_of_sansFrames : t.zl.gen = s.zl.gen := (congrArg (·.1.gen) h :)
theorem members_of_sansFrames : t.zl.members = s.zl.members := (congrArg (·.1.members) h :)
theorem committed_of_sansFrames : t.zl.committed = s.zl.committed := (congrArg (·.1.committed) h :)
theorem offset_of_sansFrames : t.zl.offset = s.zl.offset := (congrArg (·.1.offset) h :)
theorem joins_of_sansFrames : t.zl.joins = s.zl.joins := (congrArg (·.1.joins) h :)
theorem effective_of_sansFrames : t.zl.effective = s.zl.effective := (congrArg (·.1.effective) h :)

end Fields

/-! ### Commits (R321) -/

theorem commitTick_committed (s : State) (g : Nat) : (s.commitTick g).zl.committed = g :=
  committed_of_sansFrames (State.sendMembers_sansFrames _ _ _)

theorem commitTick_commitHeld (s : State) (g : Nat) :
    (s.commitTick g).hz.commitHeld = max s.hz.commitHeld (g + s.zl.offset) :=
  congrArg Horizon.commitHeld (hz_of_sansFrames (State.sendMembers_sansFrames _ _ _))

theorem commitTick_gen (s : State) (g : Nat) : (s.commitTick g).zl.gen = s.zl.gen :=
  (gen_of_sansFrames (State.sendMembers_sansFrames _ _ _) :)

theorem commitTick_members (s : State) (g : Nat) : (s.commitTick g).zl.members = s.zl.members :=
  (members_of_sansFrames (State.sendMembers_sansFrames _ _ _) :)

/-- `t` holds the membership of `s` and has committed no less. -/
def State.commitsOn (s t : State) : Prop :=
  s.zl.committed ≤ t.zl.committed ∧ s.hz.commitHeld ≤ t.hz.commitHeld ∧ t.zl.gen = s.zl.gen ∧ t.zl.members = s.zl.members

theorem State.commitsOn.refl (s : State) : s.commitsOn s := ⟨le_rfl, le_rfl, rfl, rfl⟩

theorem State.commitsOn.trans {s t u : State} (h : s.commitsOn t) (k : t.commitsOn u) : s.commitsOn u :=
  ⟨h.1.trans k.1, h.2.1.trans k.2.1, k.2.2.1.trans h.2.2.1, k.2.2.2.trans h.2.2.2⟩

theorem commitsOn_of_sansFrames {s t : State} (h : t.sansFrames = s.sansFrames) : s.commitsOn t :=
  ⟨(committed_of_sansFrames h).ge, (congrArg Horizon.commitHeld (hz_of_sansFrames h)).ge, gen_of_sansFrames h,
    members_of_sansFrames h⟩

theorem commitsOn_commitTick (s : State) : s.commitsOn (s.commitTick (s.zl.committed + 1)) :=
  ⟨by rw [commitTick_committed]; omega, by rw [commitTick_commitHeld]; exact le_max_left .., commitTick_gen .., commitTick_members ..⟩

theorem commitsOn_commitLoop (k : Nat) (s : State) : s.commitsOn (State.commitLoop k s) := by
  induction k generalizing s with
  | zero => exact .refl s
  | succ k ih =>
    unfold State.commitLoop
    split
    · exact (commitsOn_commitTick s).trans (ih _)
    · exact .refl s

/-- A master that holds every vote for the next group tick commits it. -/
theorem tryCommit_next {s : State} (hm : s.zl.group = .master) (hv : s.allVoted (s.zl.committed + 1) = true)
    (hne : s.zl.votes ≠ []) : s.zl.committed + 1 ≤ s.tryCommit.zl.committed ∧
      s.zl.committed + 1 + s.zl.offset ≤ s.tryCommit.hz.commitHeld := by
  obtain ⟨k, hk⟩ := Nat.exists_eq_succ_of_ne_zero (List.length_eq_zero_iff.not.mpr hne)
  have hstep : s.tryCommit = State.commitLoop k (s.commitTick (s.zl.committed + 1)) := by
    rw [State.tryCommit, hk, State.commitLoop, if_pos ⟨hm, hv⟩]
  obtain ⟨hc, hh, -, -⟩ := commitsOn_commitLoop k (s.commitTick (s.zl.committed + 1))
  rw [commitTick_committed] at hc
  rw [commitTick_commitHeld] at hh
  rw [hstep]
  exact ⟨hc, (le_max_right ..).trans hh⟩

theorem takeCommit_zl (s : State) : s.takeCommit.zl = s.zl := by
  unfold State.takeCommit
  dsimp only
  split <;> rfl

/-- The commit held becomes the mark of the next descriptor, and nothing else of Horizon changes. -/
theorem takeCommit_hz (s : State) : s.takeCommit.hz = { s.hz with pendingSealMark := s.takeCommit.hz.pendingSealMark } ∧
    s.hz.pendingSealMark ≤ s.takeCommit.hz.pendingSealMark := by
  unfold State.takeCommit
  dsimp only
  split
  · exact ⟨rfl, le_max_left ..⟩
  · exact ⟨rfl, le_rfl⟩

theorem takeCommit_frame (s : State) : s.takeCommit = { s with hz := s.takeCommit.hz } := by
  unfold State.takeCommit
  dsimp only
  split <;> rfl

/-! ### Members that go (R322) -/

/-- The members that a removal takes: those named, beside this device. -/
def State.goneMembers (s : State) (gone : List Nat) : List Nat :=
  (s.zl.members.map (·.node)).filter fun n => gone.contains n && n != s.node

theorem removeMembers_none {s : State} {gone : List Nat} (h : s.goneMembers gone = []) : s.removeMembers gone = s := by
  rw [State.removeMembers]
  exact if_pos (Or.inl (List.isEmpty_iff.mpr h))

/-- Members that go leave a membership of the next generation, over which commits go on. -/
theorem removeMembers_some {s : State} {gone : List Nat} (hm : s.zl.group = .master) (h : s.goneMembers gone ≠ []) :
    (s.setMembers (s.zl.gen + 1) (s.zl.committed + 1)
      (s.zl.members.filter fun m => !(s.goneMembers gone).contains m.node)).commitsOn (s.removeMembers gone) := by
  have hne : ¬ ((s.goneMembers gone).isEmpty = true ∨ s.zl.group ≠ .master) := by simp [h, hm]
  have heq : s.removeMembers gone = (((s.goneMembers gone).foldl
      (fun a n => (a.sendTo fMembership n 0 (s.zl.gen + 1)).zlOpenEvent 0 n) (s.setMembers (s.zl.gen + 1)
        (s.zl.committed + 1) (s.zl.members.filter fun m => !(s.goneMembers gone).contains m.node))).sendMembers fMembership
      (s.zl.gen + 1)).tryCommit := if_neg hne
  rw [heq]
  refine .trans (commitsOn_of_sansFrames ?_) (commitsOn_commitLoop _ _)
  rw [State.sendMembers_sansFrames, foldl_keeps State.sansFrames _ fun (a : State) (n : Nat) => by
    rw [State.zlOpenEvent_sansFrames, State.sendTo_sansFrames]]

theorem removeMembers_committed (s : State) (gone : List Nat) :
    s.zl.committed ≤ (s.removeMembers gone).zl.committed := by
  by_cases hm : s.zl.group = .master
  · by_cases h : s.goneMembers gone = []
    · rw [removeMembers_none h]
    · exact (removeMembers_some hm h).1
  · rw [State.removeMembers]
    exact (if_pos (Or.inr hm)).symm ▸ le_rfl

theorem mem_goneMembers {s : State} {gone : List Nat} {n : Nat} :
    n ∈ s.goneMembers gone ↔ s.isMember n = true ∧ n ∈ gone ∧ n ≠ s.node := by
  simp only [State.goneMembers, State.isMember, List.mem_filter, List.mem_map, List.any_eq_true, Bool.and_eq_true,
    List.contains_iff_mem, bne_iff_ne, beq_iff_eq]

/-- A member that a removal leaves is this device or was not named. -/
theorem stays_of_removal {s : State} {gone : List Nat} {m : Member}
    (h : m ∈ s.zl.members.filter fun m => !(s.goneMembers gone).contains m.node) : m.node = s.node ∨ m.node ∉ gone := by
  obtain ⟨hin, hstays⟩ := List.mem_filter.mp h
  by_contra hc
  obtain ⟨hnode, hgone⟩ := not_or.mp hc
  have hmem := mem_goneMembers.mpr ⟨List.any_eq_true.mpr ⟨m, hin, beq_self_eq_true _⟩, not_not.mp hgone, hnode⟩
  rw [List.contains_iff_mem.mpr hmem] at hstays
  exact Bool.false_ne_true hstays

/-! ### Votes (R320, R321) -/

theorem assoc_filter_ne (l : List (Nat × Nat)) (k : Nat) : assoc (l.filter fun x => x.1 != k) k = 0 := by
  have hnone : (l.filter fun x => x.1 != k).find? (fun x => x.1 == k) = none := by
    simp only [List.find?_eq_none, List.mem_filter, bne_iff_ne, beq_iff_eq]
    exact fun x hx => hx.2
  rw [assoc, hnone]

/-- The votes held after a further vote: those held before, and it. -/
theorem mem_votes_addVote {s : State} {g n : Nat} {v : Vote} :
    v ∈ (s.addVote g n).zl.votes ↔ v ∈ s.zl.votes ∨ v = ⟨g, n⟩ := by
  unfold State.addVote
  split
  · next h =>
    refine ⟨Or.inl, fun hv => hv.elim id ?_⟩
    rintro rfl
    obtain ⟨x, hx, hxv⟩ := List.any_eq_true.mp h
    rw [Bool.and_eq_true, beq_iff_eq, beq_iff_eq] at hxv
    rwa [← hxv.1, ← hxv.2]
  · simp

/-- What a SEAL_READY says of its sender, noted: not slow, and whether in lock. -/
def State.heardVoter (s : State) (node lock : Nat) : State :=
  s.modZl fun z => { z with
    slow := z.slow.filter fun x => x.1 != node
    unlocked := if lock = 2 then bump z.unlocked node 1 else z.unlocked.filter fun x => x.1 != node }

theorem countVoter_eq (s : State) (n l : Nat) : s.countVoter n l =
    if s.param 0x0B13 0 ≤ assoc (s.heardVoter n l).zl.unlocked n then (s.heardVoter n l).removeMembers [n]
    else s.heardVoter n l := rfl

/-- A vote in lock removes no member. -/
theorem countVoter_locked {s : State} {n : Nat} (h : 1 ≤ s.param 0x0B13 0) : s.countVoter n 0 = s.heardVoter n 0 := by
  have hzero : assoc (s.heardVoter n 0).zl.unlocked n = 0 := assoc_filter_ne _ _
  rw [countVoter_eq, if_neg (by omega)]

theorem countVoter_committed (s : State) (n l : Nat) : s.zl.committed ≤ (s.countVoter n l).zl.committed := by
  rw [countVoter_eq]
  split
  · exact removeMembers_committed (s.heardVoter n l) [n]
  · exact le_rfl

@[simp] theorem State.countVoter_sansGroup (s : State) (n l : Nat) : (s.countVoter n l).sansGroup = s.sansGroup := by
  rw [countVoter_eq]
  split
  · exact State.removeMembers_sansGroup ..
  · rfl

/-- The master's work on a vote of a member with the GEN in force (R321). -/
def State.takeVote (s : State) (node gtick lock : Nat) : State :=
  (((if gtick ≤ s.zl.committed then s else s.addVote gtick node).countVoter node lock).tryCommit).takeCommit

theorem takeVote_sansGroup (s : State) (n g l : Nat) : (s.takeVote n g l).sansGroup = s.sansGroup := by
  rw [State.takeVote, State.takeCommit_sansGroup, State.tryCommit_sansGroup, State.countVoter_sansGroup]
  split
  · rfl
  · exact State.addVote_sansGroup ..

/-- A vote changes the votes held alone. -/
theorem addVote_votes (s : State) (g n : Nat) : ∃ vs, s.addVote g n = s.modZl fun z => { z with votes := vs } := by
  unfold State.addVote
  split
  · exact ⟨s.zl.votes, rfl⟩
  · exact ⟨_, rfl⟩

theorem addVote_committed (s : State) (g n : Nat) : (s.addVote g n).zl.committed = s.zl.committed := by
  unfold State.addVote
  split <;> rfl

theorem takeVote_committed (s : State) (n g l : Nat) : s.zl.committed ≤ (s.takeVote n g l).zl.committed := by
  rw [State.takeVote, takeCommit_zl]
  refine le_trans ?_ (commitsOn_commitLoop _ _).1
  refine le_trans ?_ (countVoter_committed ..)
  split
  · exact le_rfl
  · exact (addVote_committed ..).ge

/-- The last vote that a commit waits for, from a member in lock, commits its tick. -/
theorem takeVote_last {s : State} {n g : Nat} (hm : s.zl.group = .master) (hp : 1 ≤ s.param 0x0B13 0)
    (hg : g = s.zl.committed + 1) (hv : ∀ k ∈ s.votersOf g, k = n ∨ ∃ v ∈ s.zl.votes, v.gtick = g ∧ v.node = k) :
    g ≤ (s.takeVote n g 0).zl.committed ∧ g + s.zl.offset ≤ (s.takeVote n g 0).hz.commitHeld := by
  obtain ⟨vs, hadd⟩ : ∃ vs, s.addVote g n = s.modZl fun z => { z with votes := vs } := addVote_votes s g n
  have hmem : ∀ v, v ∈ vs ↔ v ∈ s.zl.votes ∨ v = ⟨g, n⟩ := fun v => by
    rw [← mem_votes_addVote, hadd]
    rfl
  have hall : ((s.addVote g n).heardVoter n 0).allVoted (s.zl.committed + 1) = true := by
    rw [hadd, ← hg]
    simp only [State.allVoted, List.all_eq_true, List.any_eq_true, Bool.and_eq_true, beq_iff_eq]
    intro k hk
    rcases hv k hk with rfl | ⟨v, hmv, hvk⟩
    · exact ⟨⟨g, k⟩, (hmem _).mpr (Or.inr rfl), rfl, rfl⟩
    · exact ⟨v, (hmem v).mpr (Or.inl hmv), hvk⟩
  have hne : ((s.addVote g n).heardVoter n 0).zl.votes ≠ [] := by
    rw [hadd]
    exact List.ne_nil_of_mem ((hmem ⟨g, n⟩).mpr (Or.inr rfl))
  have hlast := tryCommit_next (s := (s.addVote g n).heardVoter n 0) (by rw [hadd]; exact hm)
    (by rw [hadd] at hall ⊢; exact hall) hne
  have hvote : s.takeVote n g 0 = ((s.addVote g n).heardVoter n 0).tryCommit.takeCommit := by
    rw [State.takeVote, if_neg (by omega), countVoter_locked (by rw [hadd]; exact hp)]
  rw [hvote, takeCommit_zl, (takeCommit_hz _).1]
  rw [hadd] at hlast ⊢
  exact hg ▸ hlast

/-! ### Memberships (R318, R322) -/

/-- A new tick port is all that a new tick tree changes. -/
theorem retree_tickPort (s : State) : ∃ p, s.retree = s.modZl fun z => { z with tickPort := p } := by
  unfold State.retree
  split
  · cases hopOf s.zl.master s.cablesNow s.node with
    | none => exact ⟨s.zl.tickPort, rfl⟩
    | some h => exact ⟨h.port, rfl⟩
  · exact ⟨s.zl.tickPort, rfl⟩

theorem setMembers_frame (s : State) (g e : Nat) (ms : List Member) :
    s.setMembers g e ms = { s with zl := (s.setMembers g e ms).zl, hz := (s.setMembers g e ms).hz } := by
  simp only [State.setMembers, State.rebuildPaths, State.record, State.modEpoch, State.modHz, State.modZl]

/-- A membership adopted is the one received; the group state stays. -/
theorem adopt_spec (s : State) (gen eff master : Nat) (ring : Ring) (rclk : Nat) :
    ∃ t, s.adopt gen eff master ring rclk = t ∧ t.zl.gen = gen ∧ t.zl.effective = eff ∧ t.zl.master = master ∧
      t.zl.members = ring.members ∧ t.zl.group = s.zl.group ∧ t = { s with zl := t.zl, hz := t.hz } := by
  obtain ⟨z, hz, hg, hm⟩ : ∃ z : Zelim, s.adopt gen eff master ring rclk =
    (({ s with zl := z } : State).setMembers gen eff ring.members).retree ∧ z.group = s.zl.group ∧ z.master = master :=
    ⟨_, rfl, rfl, rfl⟩
  obtain ⟨p, hp⟩ := retree_tickPort (({ s with zl := z } : State).setMembers gen eff ring.members)
  refine ⟨_, rfl, ?_⟩
  rw [hz, hp, setMembers_frame]
  exact ⟨rfl, rfl, hm, rfl, hg, rfl⟩

/-! ### The commands -/

section Received

variable {s : State} {p : Nat} (h : (s.port p).st = .up)
include h

theorem exec_sealReady_up (n g gen l : Nat) : exec (.sealReady p n g gen l) s = .next
    (if s.zl.group ≠ .master then s.received p
     else if s.isMember n = false ∨ s.genOk g gen = false then (s.received p).groupViolation p
     else (s.received p).takeVote n g l) :=
  congrArg Host.Outcome.next (onPort_up h _)

theorem exec_sealCommit_up (g gen : Nat) : exec (.sealCommit p g gen) s = .next
    (match s.zl.group with
     | .member => if s.genOk g gen then
        ((s.received p).modHz fun z => { z with commitHeld := max z.commitHeld (g + s.zl.offset) }).takeCommit
       else (s.received p).groupViolation p
     | .reforming => (s.received p).modHz fun z => { z with commitHeld := max z.commitHeld (g + s.zl.offset) }
     | .master => (s.received p).groupViolation p
     | _ => s.received p) :=
  congrArg Host.Outcome.next (onPort_up h _)

theorem exec_membership_up (gen eff master : Nat) (ring : Ring) (rclk : Nat) :
    exec (.membership p gen eff master ring rclk) s = .next
      (let t := s.received p
       let me := ring.members.any fun m => m.node == s.node
       match s.zl.group with
       | .solo => t
       | .master => t.groupViolation p
       | .member =>
         if gen ≤ s.zl.gen then t.groupViolation p
         else if me then t.adopt gen eff master ring rclk else t.isolate
       | .joining => if me then t.adopt gen eff master ring rclk else t
       | .isolated => if me && s.zl.joinAt != 0 then t.adopt gen eff master ring rclk else t
       | .reforming => if me then t.adopt gen eff master ring rclk else t) :=
  congrArg Host.Outcome.next (onPort_up h _)

theorem exec_memberLost_up (lost : LostNodes) : exec (.memberLost p lost) s = .next
    (let t := (s.received p).dropCables lost.src lost.nodes
     if s.zl.group = .master then t.removeMembers (t.cutOff lost.nodes)
     else if s.zl.group = .member then
       (if hopOf s.zl.master t.cablesNow s.node = none then t.loseMaster
        else t.sendTo fLost s.zl.master 0 (lost.nodes.headD 0))
     else s.received p) :=
  congrArg Host.Outcome.next (onPort_up h _)

end Received

/-- Settles O54: votes commit group ticks and only raise them, commits and memberships are taken from the right sender
alone, and members that no path reaches leave (R46, R315, R318, R320 to R325, R330). -/
theorem sealVoteAndMembership : Obligations.SealVoteAndMembership := by
  intro s p a b c d ms cs ns hup
  have hbad := received_groupViolation hup
  have hready := exec_sealReady_up hup a b c d
  have hcommit := exec_sealCommit_up hup a b
  have hmembers := exec_membership_up hup a b c ⟨ms, cs⟩ d
  have hlost := exec_memberLost_up hup ⟨a, ns⟩
  dsimp only
  refine ⟨?readyElsewhere, ?readyBad, ?ready, ?commit, ?commitGen, ?commitMaster, ?commitReform, ?commitOther, ?staleMembership,
    ?without, ?adopts, ?membershipOther, ⟨?lostNone, ?lostSome, ?lostPath, ?lostMaster⟩, ?lostOther⟩
  case readyElsewhere =>
    intro hg
    rw [hready, if_pos hg]
    rfl
  case readyBad =>
    intro hg hno
    rw [hready, if_neg (not_not_intro hg), if_pos hno, hbad]
    rfl
  case ready =>
    intro hg hm hgen
    refine ⟨(s.received p).takeVote a b d, ?_, takeVote_committed (s.received p) a b d, ?_, ?_⟩
    · rw [hready, if_neg (not_not_intro hg), if_neg (by simp [hm, hgen])]
    · exact eq_of_sansGroup ((takeVote_sansGroup ..).trans (State.modPort_sansGroup ..))
    · rintro rfl hp hb hv
      exact takeVote_last (s := s.received p) hg hp hb hv
  case commit =>
    intro hg hgen
    have hz := takeCommit_hz ((s.received p).modHz fun z => { z with commitHeld := max z.commitHeld (a + s.zl.offset) })
    refine ⟨_, by rw [hcommit]; simp only [hg, hgen, if_true], ?_, ?_, hz.2, takeCommit_zl _⟩
    · rw [takeCommit_frame]; rfl
    · rw [hz.1]; rfl
  case commitGen =>
    intro hg hgen
    rw [hcommit]
    simp only [hg, hgen, Bool.false_eq_true, if_false, hbad]
    rfl
  case commitMaster =>
    intro hg
    rw [hcommit]
    simp only [hg, hbad]
    rfl
  case commitReform =>
    intro hg
    rw [hcommit]
    simp only [hg]
    rfl
  case commitOther =>
    intro hg
    rw [hcommit]
    rcases hg with hg | hg | hg <;> simp only [hg] <;> rfl
  case staleMembership =>
    intro hg
    rw [hmembers]
    rcases hg with hg | ⟨hg, hle⟩
    · simp only [hg, hbad]; rfl
    · simp only [hg, if_pos hle, hbad]; rfl
  case without =>
    intro hg hlt hme
    rw [hmembers]
    simp only [hg, if_neg (Nat.not_le.mpr hlt), hme, Bool.false_eq_true, if_false]
    rfl
  case adopts =>
    intro hg hme
    obtain ⟨t, rfl, hgen, heff, hmaster, hms, hgroup, ht⟩ := adopt_spec (s.received p) a b c ⟨ms, cs⟩ d
    refine ⟨_, ?_, hgen, heff, hmaster, hms, hgroup, ht⟩
    rw [hmembers]
    rcases hg with ⟨hg, hlt⟩ | hg | hg
    · simp only [hg, if_neg (Nat.not_le.mpr hlt), hme, if_true]
    · simp only [hg, hme, if_true]
    · simp only [hg, hme, if_true]
  case membershipOther =>
    intro hg
    rw [hmembers]
    rcases hg with hg | ⟨hg, hme⟩
    · simp only [hg]; rfl
    · simp only [hg, hme, Bool.false_eq_true, if_false]; rfl
  case lostNone =>
    intro hg hno
    rw [hlost]
    dsimp only
    rw [if_pos hg, removeMembers_none]
    · rfl
    · exact List.eq_nil_iff_forall_not_mem.mpr fun n hn =>
        Bool.eq_false_iff.mp (hno n (mem_goneMembers.mp hn).2.1) (mem_goneMembers.mp hn).1
  case lostSome =>
    rintro hg ⟨n, hn, hm, hnode⟩
    have hgone : ((s.received p).dropCables a ns).goneMembers (((s.received p).dropCables a ns).cutOff ns) ≠ [] :=
      List.ne_nil_of_mem (mem_goneMembers.mpr ⟨hm, hn, hnode⟩)
    obtain ⟨-, -, hgen, hms⟩ := removeMembers_some (s := (s.received p).dropCables a ns) hg hgone
    refine ⟨((s.received p).dropCables a ns).removeMembers (((s.received p).dropCables a ns).cutOff ns),
      by rw [hlost]; exact congrArg _ (if_pos hg), ?_, ?_, ?_⟩
    · rw [hgen]; exact Nat.lt_succ_self _
    · rw [hms]
      exact fun m hin => stays_of_removal hin
    · exact eq_of_sansGroup (State.removeMembers_sansGroup ..)
  case lostPath =>
    intro hg hpath
    exact hlost.trans (congrArg _ ((if_neg (by simp [hg])).trans ((if_pos hg).trans
      (if_neg (Option.isSome_iff_ne_none.mp hpath)))))
  case lostMaster =>
    intro hg hpath
    exact hlost.trans (congrArg _ ((if_neg (by simp [hg])).trans ((if_pos hg).trans (if_pos hpath))))
  case lostOther =>
    intro hmember hmaster
    exact hlost.trans (congrArg _ ((if_neg hmaster).trans (if_neg hmember)))

end Sys2Proof.Machine
end

section
/-!
SUPPORT. Joins and tick lock: what an offer, an acceptance and the end of a join change, the marks of a window, and the
statement JoinsAndTickLock.
-/

namespace Sys2Proof.Machine

open Sys2Proof

/-! ### Joins at the master (R317, R325) -/

theorem sendJoin_frame (s : State) (n k v : Nat) : s.sendJoin n k v = { s with zl := (s.sendJoin n k v).zl } :=
  State.sendFrame_frame ..

theorem sendJoin_joins (s : State) (n k v : Nat) : (s.sendJoin n k v).zl.joins = s.zl.joins :=
  (joins_of_sansFrames (State.sendTo_sansFrames ..) :)

/-- An offer within the seal window: the joiner waits with its offset and its join tick, the group's RCLK takes its. -/
theorem offerJoin_fits {s : State} {j : Join} (h : s.latencyFits j.node = true) : s.offerJoin j =
    ((s.modZl fun z => { z with joins := (z.joins.filter fun x => x.node != j.node) ++ [{ j with
      offset := joinerOffset s.zl.base j.last (s.gtickNow + s.joinLead), gJ := s.gtickNow + s.joinLead, waitingHost := false }]
      }).modHz fun z => { z with rclkUs := max z.rclkUs j.rclk }).sendJoin j.node 1 (s.gtickNow + s.joinLead) :=
  if_neg (by rw [h]; decide)

theorem offerJoin_joins {s : State} {j : Join} (h : s.latencyFits j.node = true)
    (hnew : ∀ x ∈ s.zl.joins, x.node ≠ j.node) : (s.offerJoin j).zl.joins = s.zl.joins ++ [{ j with
      offset := joinerOffset s.zl.base j.last (s.gtickNow + s.joinLead), gJ := s.gtickNow + s.joinLead
      waitingHost := false }] := by
  have hall : s.zl.joins.filter (fun x => x.node != j.node) = s.zl.joins :=
    List.filter_eq_self.mpr fun x hx => bne_iff_ne.mpr (hnew x hx)
  rw [offerJoin_fits h, sendJoin_joins, State.modHz_zl, State.modZl_zl, hall]

/-- An offer or its refusal changes Zelim and Horizon alone. -/
theorem offerJoin_frame (s : State) (j : Join) :
    s.offerJoin j = { s with zl := (s.offerJoin j).zl, hz := (s.offerJoin j).hz } := by
  cases h : s.latencyFits j.node with
  | true => rw [offerJoin_fits h, sendJoin_frame]; rfl
  | false =>
    have hr : s.offerJoin j = s.refuseJoin j.node St.zlGroupSize := if_pos h
    rw [hr, State.refuseJoin, sendJoin_frame]
    rfl

theorem acceptJoin_sansGroup (s : State) (j : Join) : (s.acceptJoin j).sansGroup = s.sansGroup := by
  simp only [State.acceptJoin, State.sendMembers_sansGroup, State.zlOpenEvent_sansGroup, State.setMembers_sansGroup,
    State.modZl_sansGroup]

/-- The membership after a join that is accepted: its generation, its first tick, and its members. -/
theorem acceptJoin_spec (s : State) (j : Join) : (s.acceptJoin j).zl.gen = s.zl.gen + 1 ∧
    (s.acceptJoin j).zl.effective = j.gJ ∧ (s.acceptJoin j).zl.members =
      if s.isMember j.node then s.zl.members else s.zl.members ++ [⟨j.node, j.offset⟩] := by
  have h := (State.sendMembers_sansFrames _ fMembership (s.zl.gen + 1)).trans (State.zlOpenEvent_sansFrames
    ((s.modZl fun z => { z with
      joins := updIf (fun x => x.node == j.node) (fun x => { x with accepted := true }) z.joins
      rclkAt := some (j.gJ, s.hz.rclkUs + (j.gJ - s.gtickNow) * s.periodUs) }).setMembers (s.zl.gen + 1) j.gJ
        (if s.isMember j.node then s.zl.members else s.zl.members ++ [⟨j.node, j.offset⟩])) 0 j.node)
  exact ⟨(gen_of_sansFrames h :), (effective_of_sansFrames h :), (members_of_sansFrames h :)⟩

/-- A membership with a joiner names it and every member before. -/
theorem mem_withJoiner {s : State} {j : Join} : (∃ m ∈ (if s.isMember j.node then s.zl.members
    else s.zl.members ++ [⟨j.node, j.offset⟩]), m.node = j.node) ∧ ∀ m ∈ s.zl.members,
      m ∈ (if s.isMember j.node then s.zl.members else s.zl.members ++ [⟨j.node, j.offset⟩]) := by
  split
  · next h =>
    obtain ⟨m, hm, hn⟩ := List.any_eq_true.mp h
    exact ⟨⟨m, hm, beq_iff_eq.mp hn⟩, fun _ => id⟩
  · exact ⟨⟨⟨j.node, j.offset⟩, by simp, rfl⟩, fun m hm => List.mem_append_left _ hm⟩

/-! ### Joins at the joiner (R317, R319) -/

/-- The end of a join without success, and what it leaves alone. -/
theorem endJoin_spec (s : State) (st : Status) : ∃ t, s.endJoin st = t ∧ t.zl.joinAt = 0 ∧ t.zl.lock = .none ∧
    t = { s with zl := t.zl, recs := t.recs, fns := t.fns, q := t.q } ∧
    t.zl.group = if s.zl.group = .joining then .solo else s.zl.group := by
  refine ⟨_, rfl, rfl, rfl, ?_⟩
  unfold State.endJoin
  rw [State.endLong_frame]
  exact ⟨rfl, rfl⟩

theorem sansFrames_of_sansEvents {s t : State} (h : t.sansEvents = s.sansEvents) : t.sansFrames = s.sansFrames :=
  (congrArg State.sansFrames h :)

theorem ringNsEvents_sansFrames (s : State) (st : Status) : (s.ringNsEvents st).sansFrames = s.sansFrames :=
  sansFrames_of_sansEvents (nsEvents_sansEvents st _ s)

/-- At its join tick a joiner is a member, and its epoch number jumps to the one of the group. -/
theorem joinNow_joining {s : State} (h : s.zl.group = .joining) : s.joinNow.zl.group = .member ∧
    s.joinNow.hz.epoch = s.zl.joinAt + s.zl.joinOffset ∧ s.joinNow.zl.offset = s.zl.joinOffset ∧
    s.joinNow.zl.committed = s.zl.joinAt - 1 := by
  have hjoin : ¬ (s.zl.group = .reforming ∧ s.zl.master = s.node) := by simp [h]
  obtain ⟨u, cs, hu, hnow⟩ : ∃ (u : State) (cs : List Ctrl), u.sansFrames = (((((s.renumber (s.zl.joinAt +
      s.zl.joinOffset)).settleRing (if s.zl.group = .reforming then max s.hz.ringMark s.hz.commitHeld
      else s.hz.ringMark)).modStore fun d => d.moveRing .offlineRing .online).modZl fun y => { y with
        group := if s.zl.group = .reforming ∧ s.zl.master = s.node then .master else .member
        offset := s.zl.joinOffset, joinEpoch := 0, joinLong := 0, committed := s.zl.joinAt - 1, votes := []
        effective := max y.effective s.zl.joinAt })).sansFrames ∧ s.joinNow = u.record cs :=
    ⟨_, _, (State.zlOpenEvent_sansFrames ..).trans (ringNsEvents_sansFrames ..), rfl⟩
  rw [hnow]
  refine ⟨(group_of_sansFrames hu).trans (if_neg hjoin), (congrArg Horizon.epoch (hz_of_sansFrames hu) :),
    offset_of_sansFrames hu, committed_of_sansFrames hu⟩

/-! ### Tick lock (R311, R312) -/

section Mark

variable {s : State} (h : s.hz.ticking = true) (hm : s.zl.marked = false)
include h hm

theorem exec_markWindowEnd_missed (hl : s.zl.lock ≠ .none) : exec .markWindowEnd s = .next s.missMark :=
  if_neg (by simp [h, hm, hl])

section OnTickPort

variable {p : Nat} (hu : s.portUp p = true) (hp : s.zl.tickPort = p) (hl : s.zl.lock = .locked ∨ s.zl.lock = .flywheel)
include hu hp hl

/-- A mark on the tick port of a device in lock or flywheel: outside its limits it is only counted, another tick's is a
miss, and the one expected is accepted. -/
theorem exec_tickMark_inLock (g : Nat) (err : Int) (iv : Nat) (valid : Bool) : exec (.tickMark p g err iv valid) s = .next
    (if valid = false ∨ s.param 0x0B16 0 < err.natAbs then
      s.modZl fun z => { z with marksBad := sat32 (z.marksBad + 1) }
     else if s.inRing = true ∧ g ≠ s.gtickNow then s.missMark else s.acceptMark err iv) := by
  have hrun : ¬ (s.portUp p = false ∨ s.zl.tickPort ≠ p ∨ s.zl.lock = .none ∨ s.hz.ticking = false ∨ s.zl.marked = true) := by
    rcases hl with hl | hl <;> simp [hu, hp, hl, h, hm]
  have hacq : s.zl.lock ≠ .acquiring := by rcases hl with hl | hl <;> simp [hl]
  have hout : (s.modZl fun z => { z with
      marksBad := sat32 (z.marksBad + 1), hits := if z.lock = .acquiring ∨ z.lock = .unlocked then 0 else z.hits }) =
      s.modZl fun z => { z with marksBad := sat32 (z.marksBad + 1) } := by
    rcases hl with hl | hl <;> simp [State.modZl, hl]
  change execTickMark p g err iv valid s = _
  rw [execTickMark, if_neg hrun, hout]
  cases valid with
  | false => rfl
  | true =>
    rw [if_neg (by decide)]
    by_cases herr : err.natAbs ≤ s.param 0x0B16 0
    · have hok : ¬ (true = false ∨ s.param 0x0B16 0 < err.natAbs) := by simpa using herr
      rw [if_pos herr, if_neg hok, apply_ite Host.Outcome.next]
    · rw [if_neg herr, if_neg hacq, if_pos (Or.inr (Nat.not_le.mp herr))]

end OnTickPort

end Mark

/-- A mark accepted in lock or flywheel: the device is in lock, without a miss. -/
theorem acceptMark_inLock {s : State} (hl : s.zl.lock = .locked ∨ s.zl.lock = .flywheel) (err : Int) (iv : Nat) :
    ∃ t, s.acceptMark err iv = t ∧ t.zl.lock = .locked ∧ t.zl.misses = 0 ∧ t.zl.phaseErr = err ∧ t.zl.marked = true ∧
      t = { s with zl := t.zl } ∧ t.zl.marksOk = sat32 (s.zl.marksOk + 1) := by
  refine ⟨_, rfl, ?_⟩
  rcases hl with hl | hl
  · simp only [State.acceptMark, hl]
    exact ⟨hl, rfl, rfl, rfl, rfl, rfl⟩
  · simp only [State.acceptMark, hl]
    exact ⟨rfl, rfl, rfl, rfl, rfl, rfl⟩

/-! ### The commands -/

section Received

variable {s : State} {p : Nat} (h : (s.port p).st = .up)
include h

theorem exec_joinRequest_up (n k : Nat) (marks : JoinMarks) (cs : List Cable) (rclk : Nat) :
    exec (.joinRequest p n k marks cs rclk) s = .next
      (let j : Join := ⟨n, p, marks.last, 0, 0, rclk, false, false, k, marks.highWater⟩
       let t := (s.received p).learnCables n cs
       if ((s.received p).port p).scope ≠ some 0 then (s.received p).groupViolation p
       else if s.zl.group = .reforming ∧ s.zl.master = s.node then t.reformRequest j
       else if s.zl.group ≠ .master then s.received p
       else if n = 0 ∨ n = adjacent ∨ s.isMember n = true ∨ (s.zl.joins.any fun x => x.node == n) = true then
         t.refuseJoin n St.zlNodeId
       else if s.zl.hostAdmit then
         (t.modZl fun z => { z with joins := z.joins ++ [{ j with waitingHost := true }] }).zlOpenEvent p n
       else t.offerJoin j) :=
  congrArg Host.Outcome.next (onPort_up h _)

theorem received_scope : ((s.received p).port p).scope = (s.port p).scope := by
  rw [State.received, port_modPort (lt_ports_of_up h)]

/-- A request from a peer of MEMBER scope (R314, R317). -/
theorem exec_joinRequest_member (hs : (s.port p).scope = some 0) (n k : Nat) (marks : JoinMarks) (cs : List Cable)
    (rclk : Nat) : exec (.joinRequest p n k marks cs rclk) s = .next
      (let j : Join := ⟨n, p, marks.last, 0, 0, rclk, false, false, k, marks.highWater⟩
       let t := (s.received p).learnCables n cs
       if s.zl.group = .reforming ∧ s.zl.master = s.node then t.reformRequest j
       else if s.zl.group ≠ .master then s.received p
       else if n = 0 ∨ n = adjacent ∨ s.isMember n = true ∨ (s.zl.joins.any fun x => x.node == n) = true then
         t.refuseJoin n St.zlNodeId
       else if s.zl.hostAdmit then
         (t.modZl fun z => { z with joins := z.joins ++ [{ j with waitingHost := true }] }).zlOpenEvent p n
       else t.offerJoin j) :=
  (exec_joinRequest_up h n k marks cs rclk).trans (congrArg _ (if_neg (by simp [received_scope h, hs])))

/-- An accept of a join that was offered. -/
theorem exec_joinAccept_up {n : Nat} {j : Join} (hj : (s.received p).zl.joins.find? (fun j =>
    j.node == n && !j.waitingHost && !j.accepted && j.gJ != 0) = some j) (hg : s.zl.group = .master ∨ s.zl.group = .reforming) :
    exec (.joinAccept p n) s = .next ((s.received p).acceptJoin j) := by
  refine congrArg Host.Outcome.next ((onPort_up h _).trans ?_)
  simp only [hj]
  exact if_pos hg

theorem exec_joinOffer_up (g period window off rclk : Nat) : exec (.joinOffer p g period window off rclk) s = .next
    (if s.joiner = false ∨ s.zl.joinAt ≠ 0 then s.received p
     else
       let t := ((s.received p).modZl fun z => { z with
         joinAt := g, joinOffset := off, joinPort := p, hits := 0, sumNs := 0, misses := 0 }).modHz fun z => { z with
           rclkUs := max z.rclkUs rclk }
       if s.hz.period = period ∧ s.hz.window = window ∧ s.hz.changes = [] then
         t.modZl fun z => { z with lock := .acquiring, tickPort := p }
       else
         (t.record [.hzConfig period s.hz.source window]).modHz fun z => { z with
           changes := z.changes ++ [(z.epoch + 3, period, z.source, window)] }) :=
  congrArg Host.Outcome.next (onPort_up h _)

theorem exec_joinRefuse_up (st : Status) : exec (.joinRefuse p st) s = .next
    (if s.joiner then (s.received p).endJoin st
     else (s.received p).modZl fun z => { z with joins := z.joins.filter fun j => !(j.port == p && !j.accepted) }) :=
  congrArg Host.Outcome.next (onPort_up h _)

end Received

/-- Settles O55: the steps of a join at the master and at the joiner, its end, its tick, and the marks that keep, lose and
win the tick lock (R67, R311, R312, R314, R317 to R319, R325). -/
theorem joinsAndTickLock : Obligations.JoinsAndTickLock := by
  intro s p a b c d e cs st i
  dsimp only
  refine ⟨fun hup => ⟨?scope, ?nodeInUse, ?offer, ?notMaster, ?accepted, ?offered, ?notJoiner, ?refused, ?refusedJoiner⟩,
    ?deadlineNone, ?deadlineLocked, ?deadlineUnlocked, ?tickNone, ?tickReached, ?windowNone, fun ht hm =>
    ⟨?missLocked, ?missFlywheel, ?missThird, fun hu hp hl => ⟨?marked, ?otherTick, ?outside, ?invalid⟩⟩⟩
  case scope =>
    intro hs
    exact (exec_joinRequest_up hup a b ⟨c, d⟩ cs e).trans (congrArg _ ((if_pos ((received_scope hup).symm ▸ hs)).trans
      (received_groupViolation hup)))
  case nodeInUse =>
    intro hs hg huse
    have hany : a = 0 ∨ a = adjacent ∨ s.isMember a = true ∨ (s.zl.joins.any fun x => x.node == a) = true := by
      rcases huse with h | h | ⟨j, hj, hn⟩
      · exact Or.inl h
      · exact Or.inr (Or.inr (Or.inl h))
      · exact Or.inr (Or.inr (Or.inr (List.any_eq_true.mpr ⟨j, hj, beq_iff_eq.mpr hn⟩)))
    exact (exec_joinRequest_member hup hs a b ⟨c, d⟩ cs e).trans (congrArg _ ((if_neg (by simp [hg])).trans ((if_neg (not_not_intro hg)).trans (if_pos hany))))
  case offer =>
    intro hs hg h0 h1 hmem hjoins
    have hnone : ¬ (a = 0 ∨ a = adjacent ∨ s.isMember a = true ∨ (s.zl.joins.any fun x => x.node == a) = true) := by
      simpa [h0, adjacent, h1, hmem] using hjoins
    have hexec := (exec_joinRequest_member hup hs a b ⟨c, d⟩ cs e).trans (congrArg _ ((if_neg (by simp [hg])).trans ((if_neg (not_not_intro hg)).trans
      (if_neg hnone))))
    cases hh : s.zl.hostAdmit with
    | true =>
      refine ⟨_, hexec.trans (congrArg _ (if_pos hh)), ?_, fun _ => ?_, by simp⟩
      · exact eq_of_sansGroup (State.zlOpenEvent_sansGroup ..)
      · exact (joins_of_sansFrames (State.zlOpenEvent_sansFrames ..) :)
    | false =>
      refine ⟨_, hexec.trans (congrArg _ (if_neg (by simp [hh]))), ?_, by simp, fun _ hfits => ?_⟩
      · rw [offerJoin_frame]
        rfl
      · exact offerJoin_joins hfits hjoins
  case notMaster =>
    intro hs hg href
    exact (exec_joinRequest_member hup hs a b ⟨c, d⟩ cs e).trans (congrArg _ ((if_neg fun hc => href hc.1 hc.2).trans (if_pos hg)))
  case accepted =>
    intro j hj hg
    obtain ⟨hgen, heff, hms⟩ := acceptJoin_spec (s.received p) j
    obtain ⟨hnew, hold⟩ := mem_withJoiner (s := s.received p) (j := j)
    have hnode : j.node = a := by
      have := List.find?_some hj
      simp only [Bool.and_eq_true, beq_iff_eq] at this
      exact this.1.1.1
    refine ⟨_, exec_joinAccept_up hup hj hg, eq_of_sansGroup (acceptJoin_sansGroup ..), hgen, heff, ?_, ?_⟩
    · rw [hms, ← hnode]
      exact hnew
    · rw [hms]
      exact hold
  case offered =>
    intro hj h0
    refine ⟨_, (exec_joinOffer_up hup a b c d e).trans (congrArg _ (if_neg (by simp [hj, h0]))), ?_⟩
    dsimp only
    by_cases hsame : s.hz.period = b ∧ s.hz.window = c ∧ s.hz.changes = []
    · rw [if_pos hsame]
      exact ⟨rfl, rfl, rfl, rfl, fun _ _ _ => ⟨rfl, rfl⟩, fun hne => absurd hsame.1 hne⟩
    · rw [if_neg hsame]
      exact ⟨rfl, rfl, rfl, rfl, fun h1 h2 h3 => absurd ⟨h1, h2, h3⟩ hsame, fun _ => List.mem_append_right _ (List.mem_singleton.mpr rfl)⟩
  case notJoiner =>
    intro hj
    exact (exec_joinOffer_up hup a b c d e).trans (congrArg _ (if_pos hj))
  case refused =>
    intro hj
    obtain ⟨t, rfl, h0, hl, hframe, hg⟩ := endJoin_spec (s.received p) st
    exact ⟨_, (exec_joinRefuse_up hup st).trans (congrArg _ (if_pos hj)), h0, hl, hframe, hg⟩
  case refusedJoiner =>
    intro hj
    exact (exec_joinRefuse_up hup st).trans (congrArg _ (if_neg (by simp [hj])))
  case deadlineNone => exact fun h => if_pos h
  case deadlineLocked =>
    intro hj h0 hl
    exact (if_neg (by simp [hj, h0])).trans (if_pos hl)
  case deadlineUnlocked =>
    intro hj h0 hl
    obtain ⟨t, ht, hz, hlock, hframe, -⟩ :=
      endJoin_spec (s.sendFrame s.zl.joinPort fJoin adjacent 0 (3 + 16 * St.zlJoinLock.toNat)) St.zlJoinLock
    refine ⟨t, ht ▸ (if_neg (by simp [hj, h0])).trans (if_neg hl), hz, hlock, ?_⟩
    rw [hframe, State.sendFrame_frame]
  case tickNone =>
    intro h
    refine if_neg fun hc => ?_
    obtain ⟨ht, h0, hf, hle, -⟩ := hc
    rcases h with h | h | h | h
    · simp [h] at ht
    · exact h0 h
    · simp [h] at hf
    · omega
  case tickReached =>
    intro ht h0 hf hle hg hl hmem
    obtain ⟨hgroup, hepoch, hoff, hcom⟩ := joinNow_joining hg
    have hfollows : (s.joiner && s.zl.lock == .locked && s.isMember s.node) = true := by simp [State.joiner, hg, hl, hmem]
    exact ⟨_, if_pos ⟨ht, h0, hf, hle, by rw [hfollows, Bool.or_true]⟩, hgroup, hepoch, hoff, hcom⟩
  case windowNone => exact fun h => if_pos h
  case missLocked =>
    intro hl
    rw [exec_markWindowEnd_missed ht hm (by simp [hl])]
    simp only [State.missMark, hl]
  case missFlywheel =>
    intro hl hk
    rw [exec_markWindowEnd_missed ht hm (by simp [hl])]
    simp only [State.missMark, hl, if_pos hk]
  case missThird =>
    intro hl hk
    rw [exec_markWindowEnd_missed ht hm (by simp [hl])]
    simp only [State.missMark, hl, if_neg (Nat.not_lt.mpr hk)]
  case marked =>
    intro herr hexp
    obtain ⟨t, hacc, hspec⟩ := acceptMark_inLock hl i b
    refine ⟨t, ?_, hspec⟩
    rw [exec_tickMark_inLock ht hm hu hp hl, if_neg (by simpa using herr), if_neg, hacc]
    rcases hexp with hexp | hexp <;> simp [hexp]
  case otherTick =>
    intro herr hr hne hlock
    rw [exec_tickMark_inLock ht hm hu hp hl, if_neg (by simpa using herr), if_pos ⟨hr, hne⟩,
      exec_markWindowEnd_missed ht hm (by simp [hlock])]
  case outside =>
    intro herr
    rw [exec_tickMark_inLock ht hm hu hp hl, if_pos (Or.inr herr)]
  case invalid => rw [exec_tickMark_inLock ht hm hu hp hl, if_pos (Or.inl rfl)]

end Sys2Proof.Machine
end

section
/-!
SUPPORT. Programs that land or fail: the statement ProgramsLand. It holds that a failed landing program leaves the queues
as they are; but R163 raises an event of class MEDIA, and where PF0 has an event ring that event is a host write more.
-/

namespace Sys2Proof.Machine

open Sys2Proof

/-- PF0 has an event ring of 64 entries; epoch 7 is closed with its intent entry confirmed, and its item lands at data
position 0 of the open stripe in landing block 0. -/
def State.ringedLanding : State := { State.reset with
  fns := [{ Fn.fresh 0 .active Grant.pf0Default with bme := true, evq := { EventRing.reset with entries := 64 } }]
  hz := { State.reset.hz with
    ticking := true, epoch := 9
    epochs := [{ Epoch.fresh 7 with
      closed := true, intentOk := true, fx := [.item ⟨1, [(9, [3])], none, 1, none, false, none⟩] }] }
  flash := { State.reset.flash with
    blocks := [⟨0, .openLanding, false, 0, false, 0, 9, 0, false, 0, false, [0], 0, 0, 0, 0⟩]
    parity := [⟨0, 0, false, [], 9, [], []⟩]
    stripes := [⟨0, 0, 0, 1, 1, 0, 7, [0], [], false, false⟩] } }

/-- What has been written toward the host after a step. -/
def writesAfter : Res → List (Nat × HostWrite)
  | .next t => t.q.issued.map (fun w => (0, w)) ++ t.q.held
  | _ => []

theorem ringedLanding_writes_nothing : writesAfter (.next State.ringedLanding) = [] := by decide

theorem ringedLanding_fits : (State.ringedLanding.landingFits 7 0 0).isSome = true := by decide

/-- The failure of the landing program is an event and an interrupt toward the host. -/
theorem ringedLanding_fail_writes :
    (writesAfter (exec (.landingProgramFail 7 0 0) State.ringedLanding)).length = 1 := by decide

/-- Refutes O37: a landing program that fails raises its event (R124, R163), which PF0's event ring takes as a host write, so
the queues do not stay as they were. -/
theorem not_programsLand : ¬ Obligations.ProgramsLand := by
  unfold Obligations.ProgramsLand
  intro h
  obtain ⟨r, hr⟩ := Option.isSome_iff_exists.1 ringedLanding_fits
  obtain ⟨-, t, ht, -, hq, -⟩ := (h State.ringedLanding 7 0 0).1 r hr
  have same : writesAfter (exec (.landingProgramFail 7 0 0) State.ringedLanding) = [] := by
    rw [ht, writesAfter, hq]
    exact ringedLanding_writes_nothing
  have more := ringedLanding_fail_writes
  rw [same] at more
  exact absurd more (by decide)

end Sys2Proof.Machine
end

section
/-!
SUPPORT. What the start of a drain keeps: the durable state and the power state outlive the end of the accept phase and of
the engines.
-/

namespace Sys2Proof.Machine

open Sys2Proof

/-- The durable state and the power state. -/
def State.base (s : State) : Store × Power := (s.store, s.pw)

theorem base_of_sansEvents {s t : State} (h : t.sansEvents = s.sansEvents) : t.base = s.base :=
  congrArg₂ Prod.mk (store_of_sansEvents h) (pw_of_sansEvents h)

section Base

variable {s t : State} (h : t.base = s.base)
include h

theorem store_of_base : t.store = s.store := (congrArg Prod.fst h :)
theorem pw_of_base : t.pw = s.pw := (congrArg Prod.snd h :)

end Base

/-! ### The end of the accept phase (R66, R210) -/

@[simp] theorem State.modEpoch_base (s : State) (f : Epoch → Epoch) : (s.modEpoch f).base = s.base := rfl
@[simp] theorem State.modHz_base (s : State) (f : Horizon → Horizon) : (s.modHz f).base = s.base := rfl
@[simp] theorem State.modHalo_base (s : State) (f : Halo → Halo) : (s.modHalo f).base = s.base := rfl
@[simp] theorem State.modZl_base (s : State) (f : Zelim → Zelim) : (s.modZl f).base = s.base := rfl
@[simp] theorem State.addFx_base (s : State) (f : Fx) : (s.addFx f).base = s.base := rfl

theorem State.stageOne_base (s : State) (d : Data) (pi : Option PiField) (k i : Nat) : (s.stageOne d pi k i).base = s.base := by
  simp only [State.stageOne, State.modEpoch_base]

@[simp] theorem State.stageUnit_base (s : State) (i k : Nat) (d : Data) (pi : Option PiField) :
    (s.stageUnit i k d pi).base = s.base :=
  foldl_keeps State.base _ (fun a i => a.stageOne_base d pi k i) _ s

@[simp] theorem State.releaseExtent_base (s : State) (i : Nat) (x : Nat × Nat) : (s.releaseExtent i x).base = s.base :=
  foldl_keeps State.base _ (fun a _ => a.addFx_base _) _ s

theorem stageUnits_base (i : Nat) (us : List (Nat × Data)) (s : State) :
    (us.foldl (fun a u => a.stageUnit i u.1 u.2 none) s).base = s.base := by
  refine foldl_keeps State.base _ ?_ us s
  intro a u
  exact a.stageUnit_base i u.1 u.2 none

@[simp] theorem State.putRecord_base (s : State) (r : Rec) : (s.putRecord r).base = s.base := by
  unfold State.putRecord
  extract_lets us
  clear_value us
  exact (State.addFx_base ..).trans ((State.addFx_base ..).trans (stageUnits_base r.nsid us s))

@[simp] theorem State.routeRecord_base (s : State) (i st n : Nat) : (s.routeRecord i st n).base = s.base :=
  foldl_keeps State.base _ (fun a _ => a.modZl_base _) _ s

@[simp] theorem State.indexRecord_base (s : State) (num : Nat) : (s.indexRecord num).base = s.base := by
  unfold State.indexRecord
  dsimp only
  split
  · simp
  · split
    · simp
    · rw [State.routeRecord_base, State.putRecord_base,
        foldl_keeps State.base _ fun a x => a.releaseExtent_base _ x, State.modHalo_base]

@[simp] theorem State.ingestDrain_base (s : State) : s.ingestDrain.base = s.base := by
  simp only [State.ingestDrain]
  rw [foldl_keeps State.base _ State.indexRecord_base, State.modHalo_base]
  rfl

@[simp] theorem State.dropAccepting_base (s : State) : s.dropAccepting.base = s.base := by
  unfold State.dropAccepting
  split
  · rfl
  · split <;> rfl

@[simp] theorem State.stopEngines_base (s : State) : s.stopEngines.base = s.base := by
  rw [base_of_sansEvents s.stopEngines_sansEvents]
  rfl

/-- No exec outlives the engines' stop. -/
@[simp] theorem State.stopEngines_insts (s : State) : s.stopEngines.anv.insts = [] := by
  rw [anv_of_sansEvents s.stopEngines_sansEvents, State.modSq_anv, State.modAnv_anv]

@[simp] theorem State.stopEngines_hz (s : State) : s.stopEngines.hz = s.hz := by
  rw [hz_of_sansEvents s.stopEngines_sansEvents, State.modSq_hz, State.modAnv_hz]

end Sys2Proof.Machine
end

section
/-!
SUPPORT. The drain: its start from a ticking state, its end, the wait for PWRFAIL_N, thermal trip and supply inhibit; and the
statement DrainAndTrip.
-/

namespace Sys2Proof.Machine

open Sys2Proof

/-! ### The start of the drain (R66, R437) -/

/-- The state in which a ticking device has stopped its work for the drain: what the hash units and engines held is let go,
the open epoch is discarded. -/
def State.workStopped (s : State) : State :=
  (if s.hz.ticking = true ∧ s.hz.phase ≠ .accept then s.ingestDrain else s).dropAccepting.stopEngines.modFw
    fun f => { f with phase := .idle, holding := false }

/-- The drain of a ticking device begins where its work has stopped. -/
theorem State.startDrain_ticking {s : State} (h : s.pw.st = .p0 ∨ s.pw.st = .p1 ∨ s.pw.st = .p2) :
    s.startDrain = (s.workStopped.modPw fun p => { p with
      st := .draining, huLoad := false, entry := .none, request := none,
      holdup := { p.holdup with phase := .idle, samples := [] } }).modHz
        fun h => { h with st := .draining, ticking := false, phase := .slack } := by
  unfold State.startDrain
  rcases h with h | h | h <;> rw [h] <;> rfl

@[simp] theorem State.workStopped_base (s : State) : s.workStopped.base = s.base := by
  have h : ∀ u : State, (u.modFw fun f => { f with phase := .idle, holding := false }).base = u.base := fun _ => rfl
  rw [State.workStopped, h, State.stopEngines_base, State.dropAccepting_base]
  split
  · exact s.ingestDrain_base
  · rfl

theorem State.workStopped_insts (s : State) : s.workStopped.anv.insts = [] := by
  rw [State.workStopped, State.modFw_anv, State.stopEngines_insts]

/-- In the accept phase the epochs left are those that `dropAccepting` leaves. -/
theorem State.workStopped_epochs {s : State} (h : s.hz.phase = .accept) :
    s.workStopped.hz.epochs = s.dropAccepting.hz.epochs := by
  rw [State.workStopped, if_neg (fun hc => hc.2 h), State.modFw_hz, State.stopEngines_hz]

/-- An open epoch does not outlive the drop of the accepting epoch. -/
theorem dropAccepting_epochs {s : State} (h : ∀ e, s.epoch? = some e → e.closed = false) :
    ∀ e ∈ s.dropAccepting.hz.epochs, e.n ≠ s.hz.epoch := by
  unfold State.dropAccepting
  split
  · next hn =>
    intro e he
    simpa using List.find?_eq_none.1 hn e he
  · next x hx =>
    have hxn : x.n = s.hz.epoch := by simpa using List.find?_some hx
    have rest : ∀ e ∈ s.hz.epochs.filter fun y => y.n != x.n, e.n ≠ s.hz.epoch := by
      intro e he
      simpa [hxn] using (List.mem_filter.1 he).2
    rw [if_neg (by simp [h x hx])]
    dsimp only [State.modHz_hz]
    split
    · intro e he
      obtain ⟨y, hy, rfl⟩ := List.mem_map.1 he
      split
      · exact rest y hy
      · exact rest y hy
    · exact rest

/-- What the start of the drain does in a ticking device. -/
theorem startDrain_spec {s : State} (h : s.pw.st = .p0 ∨ s.pw.st = .p1 ∨ s.pw.st = .p2) :
    s.startDrain.pw = { s.pw with
      st := .draining, huLoad := false, entry := .none, request := none,
      holdup := { s.pw.holdup with phase := .idle, samples := [] } } ∧
    s.startDrain.hz.st = .draining ∧ s.startDrain.hz.ticking = false ∧ s.startDrain.store = s.store ∧
    s.startDrain.anv.insts = [] := by
  rw [State.startDrain_ticking h]
  simp only [State.modHz_pw, State.modPw_pw, pw_of_base s.workStopped_base, State.modHz_hz, State.modHz_store, State.modPw_store,
    store_of_base s.workStopped_base, State.modHz_anv, State.modPw_anv, s.workStopped_insts, and_self]

theorem startDrain_epochs {s : State} (h : s.pw.st = .p0 ∨ s.pw.st = .p1 ∨ s.pw.st = .p2) (hp : s.hz.phase = .accept) :
    s.startDrain.hz.epochs = s.dropAccepting.hz.epochs := by
  rw [State.startDrain_ticking h, State.modHz_hz, State.modPw_hz]
  exact State.workStopped_epochs hp

/-- A device in P4, or a boot past RESET_N, is STOPPED at once. -/
theorem startDrain_stopNow {s : State} (h : s.pw.st = .p4 ∨ (s.pw.st = .boot ∧ s.pw.resetN = true)) :
    s.startDrain = s.stopNow := by
  unfold State.startDrain
  rcases h with h | ⟨h, hr⟩
  · rw [h]
  · rw [h, hr]; rfl

theorem startDrain_halted {s : State} (h : s.pw.st = .halted) : s.startDrain = s := by
  unfold State.startDrain
  rw [h]

/-! ### Resets from STOPPED (R388, R438, R440) -/

/-- The end of a function's commands changes queue memory and log alone. -/
theorem State.abortAll_silent (s : State) (n : Nat) : (s.abortAll n).silent = s.silent := by
  unfold State.abortAll
  exact (State.modQ_silent ..).trans (foldl_keeps State.silent _ (fun a d => a.modRecs_silent _) _ s)

theorem State.abortCreated_silent (s : State) : s.abortCreated.silent = s.silent :=
  foldl_keeps State.silent _ State.abortAll_silent _ s

@[simp] theorem State.bootRom_base (s : State) : s.bootRom.base = s.base := by
  unfold State.bootRom
  split <;> rfl

theorem State.nsRestored_sansEvents (s : State) : s.nsRestored.sansEvents = s.sansEvents := by
  refine foldl_keeps State.sansEvents _ ?_ _ s
  intro a n
  exact a.nsEvent_sansEvents _ n.f.nsid 0

theorem State.resetNow_base (s : State) : s.resetNow.base = (s.restart false).base := by
  unfold State.resetNow
  rw [State.bootRom_base]
  split
  · exact base_of_sansEvents (State.nsRestored_sansEvents _)
  · rfl

/-- A controller reset from STOPPED boots over the same durable state. -/
theorem resetStopped_spec (s : State) :
    s.resetStopped.pw.st = .boot ∧ s.resetStopped.pw.lastReset = 1 ∧ s.resetStopped.store = s.store := by
  have h : s.resetStopped.base = (s.abortCreated.restart false).base := State.resetNow_base _
  refine ⟨?_, ?_, ?_⟩
  · rw [pw_of_base h]; rfl
  · rw [pw_of_base h]; rfl
  · have hs : s.abortCreated.store = s.store := store_of_silent s.abortCreated_silent
    exact (store_of_base h).trans hs

/-! ### Dies -/

/-- Looking up a die after dies of one number changed, their number kept. -/
theorem find?_updIf_die {g x : Nat} {h : Die → Die} (hh : ∀ d, (h d).die = d.die) (l : List Die) :
    (updIf (fun d => d.die == g) h l).find? (fun d => d.die == x) =
      (l.find? fun d => d.die == x).map fun d => if x = g then h d else d := by
  induction l with
  | nil => rfl
  | cons d l ih =>
    have hd : (if (d.die == g) = true then h d else d).die = d.die := by
      split
      · exact hh d
      · rfl
    rw [updIf, List.map_cons, List.find?_cons, List.find?_cons, hd]
    cases hx : d.die == x with
    | true =>
      rw [beq_iff_eq] at hx
      simp [hx]
    | false => exact ih

theorem die_modDie_same (s : State) {g : Nat} {h : Die → Die} (hh : ∀ d, (h d).die = d.die) :
    (s.modDie g h).die g = h (s.die g) := by
  unfold State.die State.modDie
  rw [State.modFlash_flash]
  dsimp only
  split
  · next ha =>
    obtain ⟨d, hd⟩ := Option.isSome_iff_exists.1 ((List.find?_isSome (p := fun d : Die => d.die == g)).2 (by simpa using ha))
    rw [find?_updIf_die hh, hd]
    simp
  · next ha =>
    have hn : s.flash.dies.find? (fun d => d.die == g) = none := by simpa using ha
    rw [List.find?_append, hn]
    simp [hh, Die.fresh]

theorem die_modDie_other (s : State) {g x : Nat} {h : Die → Die} (hh : ∀ d, (h d).die = d.die) (hx : x ≠ g) :
    (s.modDie g h).die x = s.die x := by
  unfold State.die State.modDie
  rw [State.modFlash_flash]
  dsimp only
  split
  · rw [find?_updIf_die hh]
    simp [hx]
  · have hn : ([h (Die.fresh g)].find? fun d => d.die == x) = none := by
      simpa [hh, Die.fresh] using hx.symm
    rw [List.find?_append, hn, Option.or_none]

/-- A supply inhibit counted in a die (R161). -/
def Die.inhibited (d : Die) : Die := { d with inhibits := d.inhibits + 1 }

theorem dies_inhibited_other {x : Nat} (l : List Nat) (s : State) (hx : x ∉ l) :
    (l.foldl (fun st g => st.modDie g Die.inhibited) s).die x = s.die x := by
  induction l generalizing s with
  | nil => rfl
  | cons g l ih =>
    rw [List.mem_cons, not_or] at hx
    rw [List.foldl_cons, ih _ hx.2, die_modDie_other s (h := Die.inhibited) (fun _ => rfl) hx.1]

theorem dies_inhibited {x : Nat} (l : List Nat) (s : State) (hl : l.Nodup) (hx : x ∈ l) :
    (l.foldl (fun st g => st.modDie g Die.inhibited) s).die x = (s.die x).inhibited := by
  induction l generalizing s with
  | nil => simp at hx
  | cons g l ih =>
    rw [List.nodup_cons] at hl
    rw [List.foldl_cons]
    rcases List.mem_cons.1 hx with rfl | hx
    · rw [dies_inhibited_other l _ hl.1, die_modDie_same s (h := Die.inhibited) fun _ => rfl]
    · rw [ih _ hl.2 hx, die_modDie_other s (h := Die.inhibited) (fun _ => rfl) (fun he => hl.1 (he.subst (motive := fun y => y ∈ l) hx))]

/-! ### The instructions -/

/-- The drain's end without a held-off reset. -/
theorem drainEnd_spec {s : State} (hst : s.pw.st = .draining) (hd : s.drained = true ∨ s.flash.inhibited = true)
    (hpor : s.pw.heldPor = false) (hres : s.pw.heldReset = false) :
    ∃ t, exec .drainEnd s = .next t ∧ t.pw.st = .stopped ∧ t.pw.pwrSafe = true ∧ t.hz.st = .stopped ∧
      t.flash.wpAsserted = true ∧ t.store = s.store ∧ ∀ e ∈ t.hz.epochs, e.isSealed = true := by
  refine ⟨_, if_pos ⟨hst, hd⟩, ?_⟩
  rw [State.afterDrain, State.modPw_pw]
  dsimp only
  simp only [State.modFlash_pw, State.modHz_pw, State.discardUnsealed, State.modNs_pw, hpor, hres, Bool.false_eq_true, false_and,
    if_false]
  refine ⟨rfl, rfl, rfl, rfl, rfl, ?_⟩
  intro e he
  exact (List.mem_filter.1 he).2

/-- An event whose detail is free takes a free value and is an event. -/
theorem State.openEvent_sansEvents (s : State) (cls : Nat) (l : List Nat) (st : Status) :
    (s.openEvent cls l st).sansEvents = s.free.2.sansEvents := State.event_sansEvents ..

theorem State.openEvent_base (s : State) (cls : Nat) (l : List Nat) (st : Status) : (s.openEvent cls l st).base = s.base := by
  rw [base_of_sansEvents (s.openEvent_sansEvents cls l st)]
  rfl

theorem State.openEvent_hz (s : State) (cls : Nat) (l : List Nat) (st : Status) : (s.openEvent cls l st).hz = s.hz := by
  rw [hz_of_sansEvents (s.openEvent_sansEvents cls l st)]
  rfl

theorem State.openEvent_flash (s : State) (cls : Nat) (l : List Nat) (st : Status) : (s.openEvent cls l st).flash = s.flash := by
  rw [flash_of_sansEvents (s.openEvent_sansEvents cls l st)]
  rfl

/-- The state of a ticking device that trips, before its drain begins. -/
def State.tripRaised (s : State) : State :=
  (s.openEvent 6 s.actives St.pwThermalTrip).modPw fun p => { p with tripped := true, fault := true }

theorem State.tripRaised_pw (s : State) : s.tripRaised.pw = { s.pw with tripped := true, fault := true } := by
  rw [State.tripRaised, State.modPw_pw, pw_of_base (s.openEvent_base ..)]

theorem State.tripRaised_store (s : State) : s.tripRaised.store = s.store := by
  rw [State.tripRaised, State.modPw_store, store_of_base (s.openEvent_base ..)]

/-- A thermal trip outside STOPPED and HALTED: FAULT_N is asserted and the drain begins. -/
theorem thermalTrip_ticking {s : State} (h : s.pw.st = .p0 ∨ s.pw.st = .p1 ∨ s.pw.st = .p2) (ht : s.pw.tripped = false) :
    exec .thermalTrip s = .next s.tripRaised.startDrain := by
  have h1 : ¬ (s.pw.st = .stopped ∨ s.pw.tripped = true) := by rcases h with h | h | h <;> simp [h, ht]
  have h2 : ¬ s.pw.st = .halted := by rcases h with h | h | h <;> simp [h]
  exact (if_neg h1).trans (congrArg _ (if_neg h2))

theorem thermalTrip_halted {s : State} (h : s.pw.st = .halted) (ht : s.pw.tripped = false) :
    exec .thermalTrip s = .next (s.tripRaised.stopNow.modHz fun h => { h with st := .stopped }) := by
  have h1 : ¬ (s.pw.st = .stopped ∨ s.pw.tripped = true) := by simp [h, ht]
  exact (if_neg h1).trans (congrArg _ (if_pos h))

/-- The state in which one more monitor inhibits, counted in every die. -/
def State.inhibitedBy (s : State) (m : Nat) : State :=
  s.allDies.foldl (fun st g => st.modDie g Die.inhibited)
    (s.modFlash fun f => { f with monitors := f.monitors ++ [m], inhibited := true })

/-- What is not in a die stays as the count in the dies found it. -/
theorem inhibitedBy_keeps {α : Type} (get : State → α) (h : ∀ (u : State) g, get (u.modDie g Die.inhibited) = get u) (s : State)
    (m : Nat) : get (s.inhibitedBy m) =
      get (s.modFlash fun f => { f with monitors := f.monitors ++ [m], inhibited := true }) :=
  foldl_keeps get _ h _ _

/-- A temperature reading in P0 at its threshold or below it. -/
theorem exec_thermalSensorSample {s : State} (h : s.pw.st = .p0) (r : Int) (rs : List Int) :
    ∃ t, exec (.thermalSensorSample (r :: rs)) s = .next t ∧ t.pw.tjMax = rs.foldl max r ∧
      (s.pw.warn = false → (s.param 0x0C10 0 : Int) ≤ rs.foldl max r → t.pw.warn = true) ∧
      (s.pw.warn = true → rs.foldl max r ≤ (s.param 0x0C10 0 : Int) - 5 → t.pw.warn = false) ∧ t.store = s.store := by
  have h1 : ¬ (r :: rs = [] ∨ s.pw.st = .stopped) := by simp [h]
  have h2 : ¬ (s.pw.st = .boot ∧ s.pw.tripped = true ∧ s.pw.resetN = true ∧ maxReading (r :: rs) < 125 ∧
      s.pw.pwrfailLow = false) := by simp [h]
  have hraised : ∀ (w : Bool) (u : State), u.base = ((s.modPw fun p => { p with tjMax := maxReading (r :: rs) }).modPw
      fun p => { p with warn := w }).base → u.pw.tjMax = rs.foldl max r ∧ u.pw.warn = w ∧ u.store = s.store := by
    intro w u hu
    rw [pw_of_base hu, store_of_base hu]
    exact ⟨rfl, rfl, rfl⟩
  by_cases hup : s.pw.warn = false ∧ (s.param 0x0C10 0 : Int) ≤ maxReading (r :: rs)
  · obtain ⟨ht, hw, hst⟩ := hraised true _ (State.openEvent_base ..)
    refine ⟨_, (if_neg h1).trans ((if_neg h2).trans (if_pos hup)), ht, fun _ _ => hw, fun hc => ?_, hst⟩
    rw [hup.1] at hc
    cases hc
  · by_cases hdown : s.pw.warn = true ∧ maxReading (r :: rs) ≤ (s.param 0x0C10 0 : Int) - 5
    · obtain ⟨ht, hw, hst⟩ := hraised false _ (State.openEvent_base ..)
      refine ⟨_, (if_neg h1).trans ((if_neg h2).trans ((if_neg hup).trans (if_pos hdown))), ht, fun hc => ?_, fun _ _ => hw, hst⟩
      rw [hdown.1] at hc
      cases hc
    · exact ⟨_, (if_neg h1).trans ((if_neg h2).trans ((if_neg hup).trans (if_neg hdown))), rfl,
        fun hw hle => absurd ⟨hw, hle⟩ hup, fun hw hle => absurd ⟨hw, hle⟩ hdown, rfl⟩

theorem die_of_flash {s t : State} (h : t.flash = s.flash) (g : Nat) : t.die g = s.die g := by
  unfold State.die
  rw [h]

/-- A supply inhibit changes the monitors and the dies alone, beside its event. -/
theorem supplyInhibit_spec {s : State} {m : Nat} (hm : s.flash.monitors.contains m = false) :
    ∃ t, exec (.supplyInhibit m) s = .next t ∧ t.flash.inhibited = true ∧
      t.store = s.store ∧ t.hz = s.hz ∧ t.flash.monitors = s.flash.monitors ++ [m] ∧
      (s.allDies.Nodup → ∀ g ∈ s.allDies, (t.die g).inhibits = (s.die g).inhibits + 1) ∧
      ∀ g, g ∉ s.allDies → t.die g = s.die g := by
  have hexec : exec (.supplyInhibit m) s = .next ((s.inhibitedBy m).openEvent 4 [0] St.mediaInhibited) :=
    if_neg (by rw [hm]; exact Bool.false_ne_true)
  have hflash := (s.inhibitedBy m).openEvent_flash 4 [0] St.mediaInhibited
  refine ⟨_, hexec, ?_, ?_, ?_, ?_, ?_, ?_⟩
  · rw [hflash]
    exact inhibitedBy_keeps (·.flash.inhibited) (fun _ _ => rfl) s m
  · rw [store_of_base (State.openEvent_base ..)]
    exact inhibitedBy_keeps State.store (fun _ _ => rfl) s m
  · rw [State.openEvent_hz]
    exact inhibitedBy_keeps State.hz (fun _ _ => rfl) s m
  · rw [hflash]
    exact inhibitedBy_keeps (·.flash.monitors) (fun _ _ => rfl) s m
  · intro hnd g hg
    rw [die_of_flash hflash, State.inhibitedBy, dies_inhibited _ _ hnd hg]
    rfl
  · intro g hg
    rw [die_of_flash hflash, State.inhibitedBy, dies_inhibited_other _ _ hg]
    rfl

/-- Settles O34: the drain begins by the state the device is in and leaves it STOPPED over an untouched durable state (R66,
R161, R437, R438, R442, R468). -/
theorem drainAndTrip : Obligations.DrainAndTrip := by
  intro s
  have hexec : exec .pwrfailAssert s =
    .next (s.modPw fun p => { p with pwrfailLow := true, highTimer := false }).startDrain := rfl
  refine ⟨?ticking, ?halted, ?stopped, drainEnd_spec, ?wait, rfl, ?held, ?expiry, ?trip, ?tripHalted,
    fun m hm => supplyInhibit_spec hm, rfl, fun r rs hp => exec_thermalSensorSample hp r rs⟩
  case ticking =>
    intro h
    have h1 : (s.modPw fun p => { p with pwrfailLow := true, highTimer := false }).pw.st = .p0 ∨ _ := h
    obtain ⟨hpw, hst, htick, hstore, hinsts⟩ := startDrain_spec h1
    refine ⟨_, hexec, by rw [hpw], by rw [hpw]; rfl, hst, htick, hstore, hinsts, ?_⟩
    intro hopen hp
    rw [startDrain_epochs h1 hp]
    exact dropAccepting_epochs (s := s.modPw _) hopen
  case halted =>
    intro h
    exact hexec.trans (congrArg _ (startDrain_halted h))
  case stopped =>
    intro h
    exact ⟨_, hexec.trans (congrArg _ (startDrain_stopNow h)), rfl, rfl, rfl⟩
  case wait =>
    intro h hd hi
    exact if_neg fun hc => by simpa [hd, hi] using hc.2
  case held =>
    intro h ht
    exact (if_pos ht).trans (if_pos h)
  case expiry =>
    intro h ht htr
    have hdr : ¬ s.pw.st = .draining := by simp [h]
    exact ⟨_, (if_pos ht).trans ((if_neg hdr).trans (if_pos ⟨h, htr⟩)), resetStopped_spec _⟩
  case trip =>
    intro h ht
    have h1 : s.tripRaised.pw.st = .p0 ∨ s.tripRaised.pw.st = .p1 ∨ s.tripRaised.pw.st = .p2 := by
      simpa only [State.tripRaised_pw] using h
    obtain ⟨hpw, -, htick, hstore, -⟩ := startDrain_spec h1
    refine ⟨_, thermalTrip_ticking h ht, ?_, ?_, by rw [hpw], htick, hstore.trans s.tripRaised_store⟩
    · rw [hpw, State.tripRaised_pw]
    · rw [hpw, State.tripRaised_pw]
  case tripHalted =>
    intro h ht
    refine ⟨_, thermalTrip_halted h ht, ?_, ?_, rfl, rfl, s.tripRaised_store⟩
    · exact (congrArg Power.tripped s.tripRaised_pw :)
    · exact (congrArg Power.fault s.tripRaised_pw :)

end Sys2Proof.Machine
end

section
/-!
SUPPORT. Two readings of the state for what flash translation and the media do: without the flash and the free values, and
without blocks, stripes and moves alone. Taking data positions and planning moves keep the second, programs and the
opening of super-blocks keep the first.
-/

namespace Sys2Proof.Machine

open Sys2Proof

/-- The state without the flash and the free values. -/
def State.sansFlash (s : State) : State := { s with flash := .reset, freeCtr := 0 }

/-- The state without blocks, stripes, moves and the free values. -/
def State.sansMoves (s : State) : State :=
  { s with flash := { s.flash with blocks := [], stripes := [], moves := [] }, freeCtr := 0 }

theorem sansFlash_of_sansMoves {s t : State} (h : t.sansMoves = s.sansMoves) : t.sansFlash = s.sansFlash :=
  (congrArg State.sansFlash h :)

section Fields

variable {s t : State} (h : t.sansFlash = s.sansFlash)
include h

theorem store_of_sansFlash : t.store = s.store := (congrArg State.store h :)
theorem hz_of_sansFlash : t.hz = s.hz := (congrArg State.hz h :)
theorem q_of_sansFlash : t.q = s.q := (congrArg State.q h :)
theorem pw_of_sansFlash : t.pw = s.pw := (congrArg State.pw h :)

end Fields

theorem parity_of_sansMoves {s t : State} (h : t.sansMoves = s.sansMoves) : t.flash.parity = s.flash.parity :=
  (congrArg (·.flash.parity) h :)

@[simp] theorem State.modFlash_sansFlash (s : State) (f : Flash → Flash) : (s.modFlash f).sansFlash = s.sansFlash := rfl

theorem State.modFlash_sansMoves {s : State} {f : Flash → Flash}
    (h : ∀ x, ({ f x with blocks := [], stripes := [], moves := [] } : Flash) =
      { x with blocks := [], stripes := [], moves := [] }) : (s.modFlash f).sansMoves = s.sansMoves := by
  simp only [State.sansMoves, State.modFlash, h]

/-! ### Data positions (R172 to R175) -/

@[simp] theorem State.addStripe_sansMoves (s : State) (p : Stripe) (mode : Nat) : (s.addStripe p mode).sansMoves = s.sansMoves := by
  unfold State.addStripe
  exact (State.modFlash_sansMoves fun _ => rfl).trans (State.modFlash_sansMoves fun _ => rfl)

@[simp] theorem State.markTaken_sansMoves (s : State) (a : Nat) : (s.markTaken a).sansMoves = s.sansMoves :=
  State.modFlash_sansMoves fun _ => rfl

theorem takeOne_sansMoves {s u : State} {redun n mode a : Nat} {move : Bool}
    (h : s.takeOne redun n mode move a = some u) : u.sansMoves = s.sansMoves := by
  unfold State.takeOne at h
  split at h
  · cases h
  · split at h
    · split at h
      · cases h
        exact s.markTaken_sansMoves a
      · cases h
    · split at h
      · split at h
        · cases h
          exact (State.markTaken_sansMoves ..).trans (State.addStripe_sansMoves ..)
        · cases h
      · cases h

theorem takeRun_sansMoves {redun n mode : Nat} {move : Bool} {k : Nat} :
    ∀ {a : Nat} {s : State} {r : List Nat × State}, State.takeRun redun n mode move k a s = some r →
      r.2.sansMoves = s.sansMoves := by
  induction k with
  | zero =>
    intro a s r h
    cases h
    rfl
  | succ k ih =>
    intro a s r h
    unfold State.takeRun at h
    split at h
    · cases h
    · next h1 =>
      split at h
      · cases h
        exact takeOne_sansMoves h1
      · split at h
        · cases h
        · obtain ⟨u, hu, rfl⟩ := Option.map_eq_some_iff.1 h
          exact (ih hu).trans (takeOne_sansMoves h1)

/-! ### Super-blocks (R126, R154, R172) -/

@[simp] theorem State.openSuper_sansFlash (s : State) (sb mode : Nat) : (s.openSuper sb mode).sansFlash = s.sansFlash := by
  simp only [State.openSuper, State.noteF, State.modFlash_sansFlash]

/-- A super-block that opens adds its parity rows after those that there are. -/
theorem openSuper_parity (s : State) (sb mode : Nat) : s.flash.parity <+: (s.openSuper sb mode).flash.parity := by
  simp only [State.openSuper, State.noteF, State.modFlash_flash]
  split
  · exact List.prefix_rfl
  · exact List.prefix_append ..

theorem withSuper_cases {s u : State} {must : Bool} {sb mode : Nat} (h : s.withSuper must sb mode = some u) :
    u = s ∨ u = s.openSuper sb mode := by
  unfold State.withSuper at h
  split at h
  · exact .inl (Option.some.inj h).symm
  · split at h
    · exact .inr (Option.some.inj h).symm
    · cases h

theorem withSuper_sansFlash {s u : State} {must : Bool} {sb mode : Nat} (h : s.withSuper must sb mode = some u) :
    u.sansFlash = s.sansFlash := by
  rcases withSuper_cases h with rfl | rfl
  · rfl
  · exact s.openSuper_sansFlash sb mode

theorem withSuper_parity {s u : State} {must : Bool} {sb mode : Nat} (h : s.withSuper must sb mode = some u) :
    s.flash.parity <+: u.flash.parity := by
  rcases withSuper_cases h with rfl | rfl
  · exact List.prefix_rfl
  · exact openSuper_parity s sb mode

/-! ### Programs (R153, R174) -/

@[simp] theorem State.confirmCell_sansFlash (s : State) (c : Codeword) : (s.confirmCell c).sansFlash = s.sansFlash := rfl

theorem confirmCells_sansFlash {α : Type} (c : α → Codeword) (l : List α) (s : State) :
    (l.foldl (fun st x => st.confirmCell (c x)) s).sansFlash = s.sansFlash := by
  refine foldl_keeps State.sansFlash _ ?_ l s
  intro a x
  rfl

@[simp] theorem State.closeStripe_sansFlash (s : State) (p : Stripe) : (s.closeStripe p).sansFlash = s.sansFlash := by
  unfold State.closeStripe
  dsimp only
  rw [State.modFlash_sansFlash, confirmCells_sansFlash, confirmCells_sansFlash]

@[simp] theorem State.padBlock_sansFlash (s : State) (e : Nat) (b : Block) : (s.padBlock e b).sansFlash = s.sansFlash := by
  unfold State.padBlock
  dsimp only
  rw [State.modFlash_sansFlash, confirmCells_sansFlash]

@[simp] theorem State.closeStripes_sansFlash (s : State) (q : Stripe → Bool) : (s.closeStripes q).sansFlash = s.sansFlash := by
  unfold State.closeStripes
  dsimp only
  split
  · rfl
  · rw [State.settleFull, State.modFlash_sansFlash, foldl_keeps State.sansFlash _ fun a b => a.padBlock_sansFlash _ b,
      foldl_keeps State.sansFlash _ State.closeStripe_sansFlash]

@[simp] theorem State.putSys_sansFlash (s : State) (as : List Nat) (key : Nat) (parts : List Data) :
    (s.putSys as key parts).sansFlash = s.sansFlash := confirmCells_sansFlash _ _ s

theorem mapSuper_sansFlash {s : State} {mode : Nat} {x : Nat × State} (h : s.mapSuper mode = some x) :
    x.2.sansFlash = s.sansFlash := by
  unfold State.mapSuper at h
  dsimp only at h
  split at h
  · cases h
  · split at h
    · cases h
      rfl
    · obtain ⟨u, hu, rfl⟩ := Option.map_eq_some_iff.1 h
      exact (withSuper_sansFlash hu).trans rfl

@[simp] theorem State.writeSys_sansFlash (s : State) (mode : Nat) (avoid : List Nat) (key : Nat) (d : Data) :
    (s.writeSys mode avoid key d).2.sansFlash = s.sansFlash := by
  unfold State.writeSys
  split
  · rfl
  · next sb s1 h1 =>
    dsimp only
    split
    · rfl
    · split
      · next xs s2 h2 =>
        calc (s2.putSys xs key (codewordsOf d)).sansFlash
          _ = s2.sansFlash := State.putSys_sansFlash ..
          _ = s1.free.2.sansFlash := sansFlash_of_sansMoves (takeRun_sansMoves h2)
          _ = s1.sansFlash := rfl
          _ = s.sansFlash := mapSuper_sansFlash h1
      · rfl

/-! ### Moves (R108, R112, R113) -/

theorem addMoves_sansMoves {s u : State} {ms : List Move} (h : s.addMoves ms = some u) : u.sansMoves = s.sansMoves := by
  unfold State.addMoves at h
  split at h
  · cases h
    exact State.modFlash_sansMoves fun _ => rfl
  · cases h

theorem moveExtent_sansMoves {s : State} {a i k : Nat} {r : Nat × State} (h : s.moveExtent a i k = some r) :
    r.2.sansMoves = s.sansMoves := by
  unfold State.moveExtent at h
  dsimp only at h
  split at h
  · cases h
  · obtain ⟨x, hx, h⟩ := Option.bind_eq_some_iff.1 h
    obtain ⟨u, hu, rfl⟩ := Option.map_eq_some_iff.1 h
    exact (addMoves_sansMoves hu).trans (takeRun_sansMoves hx)

theorem moveOne_sansMoves {s : State} {a : Nat} {c : Codeword} {r : Nat × State} (h : s.moveOne a c = some r) :
    r.2.sansMoves = s.sansMoves := by
  unfold State.moveOne at h
  split at h
  · cases h
  · dsimp only at h
    obtain ⟨x, hx, h⟩ := Option.bind_eq_some_iff.1 h
    obtain ⟨u, hu, rfl⟩ := Option.map_eq_some_iff.1 h
    exact (addMoves_sansMoves hu).trans (takeRun_sansMoves hx)

@[simp] theorem State.moveAll_sansMoves (is : List MoveItem) : ∀ (s : State) (a : Nat), (s.moveAll a is).sansMoves = s.sansMoves := by
  induction is with
  | nil => intro s a; rfl
  | cons i is ih =>
    intro s a
    unfold State.moveAll
    split
    · next r h =>
      rw [ih]
      cases i with
      | one c => exact moveOne_sansMoves h
      | extent n k => exact moveExtent_sansMoves h
    · exact ih s a

theorem State.ownTarget_cases (s : State) : s.ownTarget.2 = s ∨ s.ownTarget.2 = s.free.2 := by
  unfold State.ownTarget
  dsimp only
  split
  · exact .inl rfl
  · exact .inr rfl

/-- What a rewrite does: nothing, or moves are planned in a super-block that is open or opens. -/
theorem State.rewrite_cases (s : State) (p : Nat → Bool) : s.rewrite p = s ∨ ∃ sb u a is,
    s.ownTarget.2.withSuper true sb 1 = some u ∧ s.rewrite p = u.moveAll a is := by
  unfold State.rewrite
  dsimp only
  split
  · exact .inl rfl
  · split
    · next u h => exact .inr ⟨_, u, _, _, h, rfl⟩
    · exact .inl rfl

@[simp] theorem State.rewrite_sansFlash (s : State) (p : Nat → Bool) : (s.rewrite p).sansFlash = s.sansFlash := by
  rcases s.rewrite_cases p with h | ⟨sb, u, a, is, hu, h⟩
  · rw [h]
  · rw [h, sansFlash_of_sansMoves (u.moveAll_sansMoves is a), withSuper_sansFlash hu]
    rcases s.ownTarget_cases with ht | ht
    · rw [ht]
    · rw [ht]
      rfl

theorem rewrite_parity (s : State) (p : Nat → Bool) : s.flash.parity <+: (s.rewrite p).flash.parity := by
  rcases s.rewrite_cases p with h | ⟨sb, u, a, is, hu, h⟩
  · rw [h]
  · rw [h, parity_of_sansMoves (State.moveAll_sansMoves is u a)]
    refine List.IsPrefix.trans ?_ (withSuper_parity hu)
    rcases s.ownTarget_cases with ht | ht
    · rw [ht]
    · rw [ht]
      exact List.prefix_rfl

/-! ### Dies, blocks, bins -/

@[simp] theorem State.modDie_sansFlash (s : State) (g : Nat) (h : Die → Die) : (s.modDie g h).sansFlash = s.sansFlash := rfl
@[simp] theorem State.modBlock_sansFlash (s : State) (b : Nat) (h : Block → Block) : (s.modBlock b h).sansFlash = s.sansFlash := rfl
@[simp] theorem State.modBin_sansFlash (s : State) (k : Nat × Nat × Nat) (h : Bin → Bin) : (s.modBin k h).sansFlash = s.sansFlash := rfl

end Sys2Proof.Machine
end

section
/-!
SUPPORT. From RESET_N to the first tick: the boot ROM, bring-up of the channels, recovery, and the statement
BootToTheFirstTick.
-/

namespace Sys2Proof.Machine

open Sys2Proof

/-! ### The boot ROM (R410, R424, R472) -/

/-- The boot ROM picks a slot whose image passes its checks. -/
theorem bootable_of_pick {f : Firmware} {i : Nat} (h : f.pick = some i) : f.bootable i = true := by
  unfold Firmware.pick at h
  generalize (if f.selectorOk then f.trial.getD f.committed else 0) = slot at h
  dsimp only at h
  split at h
  · next hb => exact Option.some.inj h ▸ hb
  · split at h
    · next hb => exact Option.some.inj h ▸ hb
    · cases h

theorem bootRom_picked {s : State} {i : Nat} (ho : s.fw.otpOk = true) (h : s.fw.pick = some i) :
    s.bootRom.fw = { s.fw with
      running := i, runImg := (s.fw.slots.getD i ⟨.empty, shippedImage⟩).img,
      isCommitted := i == s.fw.committed, trial := none, romDone := true, recovery := false } := by
  rw [State.bootRom, if_pos ho, State.modFw_fw, h]

theorem bootRom_unpicked {s : State} (ho : s.fw.otpOk = true) (h : s.fw.pick = none) :
    s.bootRom.fw = { s.fw with trial := none, recovery := true, romDone := false } := by
  rw [State.bootRom, if_pos ho, State.modFw_fw, h]

/-- The state that the boot ROM finds at the release of RESET_N. -/
def State.released (s : State) : State :=
  (s.modPw fun p => { p with resetN := true, pwrSafe := false }).modPw fun p => { p with tripped := false }

/-- The release of RESET_N with TEST_EN low, PWRFAIL_N high and no trip runs the boot ROM. -/
theorem exec_resetNRelease {s : State} (hr : s.pw.resetN = false) (hl : s.pw.pwrfailLow = false) (ht : s.pw.tripped = false) :
    exec (.resetNRelease false) s = .next s.released.bootRom :=
  (if_neg (by simp [hr])).trans ((if_neg Bool.false_ne_true).trans ((if_neg (by simp [hl])).trans (if_neg (by simp [ht]))))

/-! ### Bring-up (R136, R137) -/

theorem maxOf_le {l : List Nat} {b : Nat} (h : ∀ x ∈ l, x ≤ b) : maxOf l ≤ b := by
  have general : ∀ (l : List Nat) (a : Nat), a ≤ b → (∀ x ∈ l, x ≤ b) → l.foldl max a ≤ b := by
    intro l
    induction l with
    | nil => intro a ha _; exact ha
    | cons x l ih =>
      intro a ha hl
      exact ih _ (Nat.max_le.2 ⟨ha, hl x List.mem_cons_self⟩) fun y hy => hl y (List.mem_cons_of_mem _ hy)
  exact general l 0 (Nat.zero_le b) h

theorem insertOn_perm {α : Type} (key : α → Nat) (x : α) (l : List α) : (insertOn key x l).Perm (x :: l) := by
  induction l with
  | nil => exact List.Perm.refl _
  | cons y l ih =>
    unfold insertOn
    split
    · exact List.Perm.refl _
    · exact (ih.cons y).trans (List.Perm.swap x y l)

theorem sortOn_perm {α : Type} (key : α → Nat) (l : List α) : (sortOn key l).Perm l := by
  induction l with
  | nil => exact List.Perm.refl _
  | cons x l ih => exact (insertOn_perm key x _).trans (ih.cons x)

/-- The dies of a report in the order of their numbers. -/
def sortedDies (r : ChannelReport) : List DieReport := sortOn (fun d : DieReport => 4 * d.ce + d.lun) r.dies

theorem take_sortedDies {r : ChannelReport} (h : r.dies.length ≤ 16) : (sortedDies r).take 16 = sortedDies r :=
  List.take_of_length_le ((sortOn_perm _ _).length_eq.trans_le h)

theorem channelOf_luns (s : State) {r : ChannelReport} (h : r.dies.length ≤ 16) :
    (s.channelOf r).1.luns = (sortedDies r).map fun d => (d.ce, d.lun) :=
  (congrArg (List.map fun d : DieReport => (d.ce, d.lun)) (take_sortedDies h) :)

theorem channelOf_failed (s : State) {r : ChannelReport} (h : r.dies.length ≤ 16) (hf : r.failed = 0)
    (hd : ∃ d ∈ r.dies, profileOf (s.fw.runImg.profiles.filter (·.valid)) d.id = none) : (s.channelOf r).1.failed = 3 := by
  obtain ⟨d, hd, hnone⟩ := hd
  have hall : (((sortedDies r).map fun d => profileOf (s.fw.runImg.profiles.filter (·.valid)) d.id).all (·.isSome)) = false := by
    rw [List.all_eq_false]
    exact ⟨_, List.mem_map.2 ⟨d, (sortOn_perm _ _).mem_iff.2 hd, rfl⟩, by simp [hnone]⟩
  unfold State.channelOf
  dsimp only
  rw [if_neg (by simp [hf]), if_neg]
  rw [show (sortOn (fun d : DieReport => 4 * d.ce + d.lun) r.dies).take 16 = sortedDies r from take_sortedDies h, hall]
  exact Bool.false_ne_true

theorem channelOf_profile (s : State) {r : ChannelReport} (h : r.dies.length ≤ 16) {d : DieReport} {p : FlashProfile}
    (hd : (sortedDies r).head? = some d) (hp : profileOf (s.fw.runImg.profiles.filter (·.valid)) d.id = some p) :
    (s.channelOf r).1.profile = p ∧ (s.channelOf r).1.rate ≤ p.maxRate := by
  have hprof : (s.channelOf r).1.profile = p := by
    unfold State.channelOf
    dsimp only
    rw [show (sortOn (fun d : DieReport => 4 * d.ce + d.lun) r.dies).take 16 = sortedDies r from take_sortedDies h, List.head?_map, hd]
    simp [hp]
  refine ⟨hprof, ?_⟩
  rw [← hprof]
  refine maxOf_le fun x hx => ?_
  have hx := (List.mem_filter.1 hx).2
  exact (of_decide_eq_true hx).trans (Nat.min_le_right ..)

/-- The end of a reshape and the namespaces that go offline leave the flash as it is. -/
theorem State.endReshape_flash (s : State) : s.endReshape.flash = s.flash := by
  have h : s.endReshape.flash = (s.freeStatus 4).2.flash := flash_of_silent (State.endLong_silent ..)
  exact h.trans rfl

theorem State.takeOffline_flash (s : State) : s.takeOffline.flash = s.flash := by
  unfold State.takeOffline
  extract_lets gone s1 s2
  have h2 : s2.flash = s.flash := (flash_of_sansEvents (nsEvents_sansEvents _ gone s1)).trans rfl
  split
  · exact s2.endReshape_flash.trans h2
  · exact h2

/-- The report of a channel takes the place of what was known of it. -/
theorem bringChannel_flash (s : State) (r : ChannelReport) : (s.bringChannel r).flash =
    { s.flash with channels := (s.flash.channels.filter fun x => x.ch != r.ch) ++ [(s.channelOf r).1] } := by
  unfold State.bringChannel
  dsimp only
  split
  · rfl
  · split
    · exact (flash_of_sansEvents (State.mediaEvent_sansEvents ..)).trans (State.takeOffline_flash _)
    · exact (flash_of_sansEvents (State.mediaEvent_sansEvents ..)).trans rfl

theorem bringChannel_store {s : State} {r : ChannelReport} (h : (s.channelOf r).1.failed = 0) :
    (s.bringChannel r).store = s.store := by
  unfold State.bringChannel
  rw [if_pos h, State.modFlash_store]

/-- Bring-up of one channel in BOOT or HELD, after which the device may program. -/
theorem channelBringup_one {s : State} {r : ChannelReport} (hst : s.pw.st = .boot ∨ s.pw.st = .held)
    (hd : s.pw.bringupDone = false) (hr : s.pw.resetN = true) (ht : s.flash.trained = false) :
    ∃ t, exec (.channelBringup [r]) s = .next t ∧ t.flash.trained = true ∧ t.flash.wpAsserted = false ∧
      t.pw.bringupDone = true ∧ t.flash.channels = (s.flash.channels.filter fun c => c.ch != r.ch) ++ [(s.channelOf r).1] ∧
      ((s.channelOf r).1.failed = 0 → t.store = s.store) := by
  have hexec : exec (.channelBringup [r]) s = .next (((s.bringChannel r).modFlash fun f => { f with
      trained := true, wpAsserted := false }).modPw fun p => { p with bringupDone := true }) := by
    refine (if_pos ⟨hst, hd, hr⟩).trans ?_
    rw [ht]
    rfl
  refine ⟨_, hexec, rfl, rfl, rfl, ?_, fun h => bringChannel_store h⟩
  exact (congrArg Flash.channels (bringChannel_flash s r) :)

/-! ### Recovery (R45, R189, R193) -/

/-- The durable state without the place of its descriptor. -/
def Store.sansDesc (d : Store) : Store := { d with descAt := [] }

theorem State.mendDescriptor_store (s : State) : s.mendDescriptor.store.sansDesc = s.store.sansDesc := by
  unfold State.mendDescriptor
  split
  · rfl
  · dsimp only
    split
    · rfl
    · rw [State.modFlash_store, State.modStore_store]
      exact (congrArg Store.sansDesc (store_of_sansFlash (State.writeSys_sansFlash ..)) :)

/-- Recovery of the media changes nothing durable but the place of the descriptor. -/
theorem State.recoverMedia_store (s : State) : s.recoverMedia.store.sansDesc = s.store.sansDesc := by
  unfold State.recoverMedia
  dsimp only
  rw [State.mendDescriptor_store, State.recoverBlocks, State.modFlash_store, State.recoverStripes, State.modFlash_store,
    store_of_sansFlash (State.closeStripes_sansFlash ..), State.modFlash_store]

/-- The state after recovery outside a group: the resynchronisation is narrowed where an intent copy was found, else in full. -/
def State.resynced (s : State) (narrow : Bool) : State :=
  let s1 := s.recoverMedia.modStore Store.recovered
  if narrow then s1.modFlash fun f => { f with resyncFull := false, resyncLeft := [] }
  else (s1.modFlash fun f => { f with
    resyncFull := true, resyncLeft := f.parity.map (·.sb),
    parity := f.parity.map fun p => { p with pending := true } }).mediaEvent St.rdResyncFull 0

theorem State.resynced_store (s : State) (b : Bool) : (s.resynced b).store = s.recoverMedia.store.recovered := by
  cases b with
  | true => rfl
  | false => exact (store_of_sansEvents (State.mediaEvent_sansEvents ..)).trans rfl

theorem State.resynced_full (s : State) (b : Bool) : (s.resynced b).flash.resyncFull = !b := by
  cases b with
  | true => rfl
  | false => exact (congrArg Flash.resyncFull (flash_of_sansEvents (State.mediaEvent_sansEvents ..)) :)

theorem exec_recovery {s : State} {b : Bool} (hst : s.pw.st = .held) (hb : s.pw.bringupDone = true)
    (hr : s.pw.recovered = false) (hl : s.pw.pwrfailLow = false) (hg : s.store.grouped = false) :
    exec (.recovery b) s = .next ((s.resynced b).modPw fun p => { p with recovered := true }) := by
  refine (if_pos ⟨hst, hb, hr, hl⟩).trans ?_
  rw [hg]
  rfl

/-- Recovery outside a group changes neither the map nor the records nor the mark of the last seal. -/
theorem recovery_spec {s : State} {b : Bool} (hst : s.pw.st = .held) (hb : s.pw.bringupDone = true)
    (hr : s.pw.recovered = false) (hl : s.pw.pwrfailLow = false) (hg : s.store.grouped = false) :
    ∃ t, exec (.recovery b) s = .next t ∧ t.pw.recovered = true ∧ t.flash.resyncFull = !b ∧
      t.store.map = s.store.map ∧ t.store.recs = s.store.recs ∧ t.store.sealed = s.store.sealed := by
  have hstore := s.resynced_store b
  have hdesc := s.recoverMedia_store
  refine ⟨_, exec_recovery hst hb hr hl hg, rfl, s.resynced_full b, ?_, ?_, ?_⟩
  · exact (congrArg Store.map hstore).trans (congrArg Store.map hdesc :)
  · exact (congrArg Store.recs hstore).trans (congrArg Store.recs hdesc :)
  · exact (congrArg Store.sealed hstore).trans (congrArg Store.sealed hdesc :)

/-- The first tick opens at HIGH_WATER + 1 over the durable state (R65, R67). -/
theorem leaveHeld_spec (s : State) : s.leaveHeld.pw.st = .p0 ∧ s.leaveHeld.hz.st = .running ∧
    s.leaveHeld.hz.ticking = true ∧ s.leaveHeld.hz.epoch = s.store.highWater + 1 ∧ s.leaveHeld.hz.phase = .accept ∧
    s.leaveHeld.store = s.store := ⟨rfl, rfl, rfl, rfl, rfl, rfl⟩

/-- Settles O33: the boot ROM's choice of a slot, bring-up, recovery and the first tick (R45, R65, R67, R136, R189, R410, R424,
R430, R434, R472). -/
theorem bootToTheFirstTick : Obligations.BootToTheFirstTick := by
  intro s
  refine ⟨?testEn, ?boot, fun i => bootable_of_pick, ?firmware, ?trained, fun r => channelBringup_one, ?channel,
    fun b => recovery_spec, ?held, ?stays⟩
  case testEn =>
    intro hr
    exact ⟨_, (if_neg (by simp [hr])).trans (if_pos rfl), rfl, rfl, rfl⟩
  case boot =>
    intro hr hl ht ho
    have hbase := State.bootRom_base s.released
    refine ⟨fun i sl hi hsl => ?_, fun hn => ?_⟩
    · have hfw := bootRom_picked (s := s.released) ho hi
      refine ⟨_, exec_resetNRelease hr hl ht, ?_⟩
      rw [hfw, pw_of_base hbase, store_of_base hbase]
      refine ⟨rfl, ?_, rfl, rfl, rfl, rfl, rfl, rfl, rfl⟩
      have hget : s.fw.slots.getD i ⟨.empty, shippedImage⟩ = sl := by rw [List.getD, hsl, Option.getD_some]
      exact congrArg FwSlot.img hget
    · refine ⟨_, exec_resetNRelease hr hl ht, ?_, (store_of_base hbase).trans rfl⟩
      rw [bootRom_unpicked (s := s.released) ho hn]
  case firmware =>
    intro b hst hrom hr hl hb
    refine (if_pos ⟨hst, hrom, hr, hl⟩).trans (congrArg _ ?_)
    unfold State.startHoldup
    dsimp only
    rw [show (s.modPw fun p => { p with st := .held }).boardRecord = some b from hb]
    rfl
  case trained =>
    intro rs hst hd hr ht
    refine (if_pos ⟨hst, hd, hr⟩).trans ?_
    rw [ht]
    rfl
  case channel =>
    intro r ps ds hlen
    exact ⟨channelOf_luns s hlen, fun hd hf => channelOf_failed s hlen hf hd,
      fun d p hd hp => channelOf_profile s hlen hd hp⟩
  case held =>
    intro hst hr hh
    exact ⟨_, if_pos ⟨hst, hr, hh⟩, leaveHeld_spec s⟩
  case stays =>
    intro hst h
    exact if_neg fun hc => by rcases h with h | h <;> simp [h] at hc

end Sys2Proof.Machine
end

section
/-!
SUPPORT. Dies and scans: temperatures, failures of dies and members, verify scans, patrol; and the statement DiesAndScans.
-/

namespace Sys2Proof.Machine

open Sys2Proof

/-! ### Changes recorded (R43) -/

/-- Epoch `n` records `c`. -/
def State.recorded (s : State) (n : Nat) (c : Ctrl) : Prop := ∀ e ∈ s.hz.epochs, e.n = n → c ∈ e.ctrl

theorem recorded_of_hz {s t : State} {n : Nat} {c : Ctrl} (h : t.hz = s.hz) (hs : s.recorded n c) : t.recorded n c := by
  unfold State.recorded
  rw [h]
  exact hs

/-- The epochs after a record: each as it was, or with the record at its end. -/
theorem record_epochs {s : State} {cs : List Ctrl} {e : Epoch} (he : e ∈ (s.record cs).hz.epochs) :
    ∃ y ∈ s.hz.epochs, e.n = y.n ∧ (∀ c ∈ y.ctrl, c ∈ e.ctrl) ∧ (y.n = s.hz.epoch → ∀ c ∈ cs, c ∈ e.ctrl) := by
  obtain ⟨y, hy, rfl⟩ := List.mem_map.1 he
  refine ⟨y, hy, ?_⟩
  by_cases hc : (y.n == s.hz.epoch) = true
  · rw [if_pos hc]
    exact ⟨rfl, fun c h => List.mem_append.2 (.inl h), fun _ c h => List.mem_append.2 (.inr h)⟩
  · rw [if_neg hc]
    exact ⟨rfl, fun c h => h, fun hn => absurd (beq_iff_eq.2 hn) hc⟩

/-- The epoch being accepted takes a record. -/
theorem recorded_record (s : State) {cs : List Ctrl} {c : Ctrl} (h : c ∈ cs) : (s.record cs).recorded s.hz.epoch c := by
  intro e he hn
  obtain ⟨y, -, hyn, -, hnew⟩ := record_epochs he
  exact hnew (hyn.symm.trans hn) c h

/-- What is recorded stays recorded. -/
theorem recorded_of_record {s : State} {n : Nat} {cs : List Ctrl} {c : Ctrl} (h : s.recorded n c) : (s.record cs).recorded n c := by
  intro e he hn
  obtain ⟨y, hy, hyn, hold, -⟩ := record_epochs he
  exact hold c (h y hy (hyn.symm.trans hn))

/-! ### Failures of dies and members (R164, R178) -/

/-- What the failure of a member leaves alone. -/
theorem failMember_keeps (s : State) (m : Nat) :
    (s.failMember m).store = s.store ∧ (s.failMember m).flash.dies = s.flash.dies ∧
      ∀ n c, s.recorded n c → (s.failMember m).recorded n c := by
  unfold State.failMember
  split
  · have h := State.mediaEvent_sansEvents (s.modFlash fun f => { f with
      lostMembers := f.lostMembers ++ [m]
      windowFails := if s.hz.phase = .sealWindow then f.windowFails ++ [m] else f.windowFails }) St.rdMemberFailed m
    exact ⟨(store_of_sansEvents h :), (congrArg Flash.dies (flash_of_sansEvents h) :),
      fun n c hc => recorded_of_record (recorded_of_hz (hz_of_sansEvents h) hc)⟩
  · exact ⟨rfl, rfl, fun _ _ hc => hc⟩

/-- A member ONLINE and not known to be lost fails: it is known to be lost, and the failure is recorded. -/
theorem failMember_fails {s : State} {m : Nat} (ho : (s.store.pool.members.any fun x => x.1 == m && x.2 == .online) = true)
    (hl : s.flash.lostMembers.contains m = false) :
    m ∈ (s.failMember m).flash.lostMembers ∧ (s.failMember m).recorded s.hz.epoch (.memberFail m) := by
  unfold State.failMember
  rw [if_pos (by rw [ho, hl]; rfl)]
  have he := State.mediaEvent_sansEvents (s.modFlash fun f => { f with
    lostMembers := f.lostMembers ++ [m]
    windowFails := if s.hz.phase = .sealWindow then f.windowFails ++ [m] else f.windowFails }) St.rdMemberFailed m
  have hepoch : s.hz.epoch = _ := (congrArg Horizon.epoch (hz_of_sansEvents he)).symm
  refine ⟨?_, hepoch ▸ recorded_record _ List.mem_cons_self⟩
  rw [State.record, State.modEpoch, State.modHz_flash, flash_of_sansEvents (State.mediaEvent_sansEvents ..), State.modFlash_flash]
  exact List.mem_append.2 (.inr List.mem_cons_self)

theorem die_of_dies {s t : State} (h : t.flash.dies = s.flash.dies) (g : Nat) : t.die g = s.die g := by
  unfold State.die
  rw [h]

/-- The state in which a die is declared failed, before its member is. -/
def State.dieDeclared (s : State) (g : Nat) : State :=
  ((s.modDie g fun d => { d with failed := true }).mediaEvent St.mediaDieFailed g).record [.dieFail g]

theorem dieDeclared_spec (s : State) (g : Nat) : ((s.dieDeclared g).die g).failed = true ∧ (s.dieDeclared g).store = s.store ∧
    (s.dieDeclared g).recorded s.hz.epoch (.dieFail g) := by
  have he := State.mediaEvent_sansEvents (s.modDie g fun d => { d with failed := true }) St.mediaDieFailed g
  have hepoch : ((s.modDie g fun d => { d with failed := true }).mediaEvent St.mediaDieFailed g).hz.epoch = s.hz.epoch :=
    (congrArg Horizon.epoch (hz_of_sansEvents he) :)
  refine ⟨?_, (store_of_sansEvents he :), hepoch ▸ recorded_record _ List.mem_cons_self⟩
  have hd : (s.dieDeclared g).die g = (s.modDie g fun d => { d with failed := true }).die g :=
    die_of_flash (flash_of_sansEvents he :) g
  rw [hd, die_modDie_same s (h := fun d => { d with failed := true }) fun _ => rfl]

/-- A die that has not failed is failed, and its failure recorded. -/
theorem failDie_fails {s : State} {g : Nat} (h : (s.die g).failed = false) :
    ((s.failDie g).die g).failed = true ∧ (s.failDie g).store = s.store ∧ (s.failDie g).recorded s.hz.epoch (.dieFail g) := by
  obtain ⟨hdie, hstore, hrec⟩ := dieDeclared_spec s g
  unfold State.failDie
  rw [if_neg (by rw [h]; exact Bool.false_ne_true)]
  dsimp only
  split
  · obtain ⟨hk, hd, hr⟩ := failMember_keeps (s.dieDeclared g) (g / 16)
    exact ⟨(congrArg Die.failed (die_of_dies hd g)).trans hdie, hk.trans hstore, hr _ _ hrec⟩
  · exact ⟨hdie, hstore, hrec⟩

/-- DIE_READY_TIMEOUT fails the die (R164). -/
theorem dieReadyTimeout_spec {s : State} {g : Nat} (h : (s.die g).failed = false) :
    ∃ t, exec (.dieReadyTimeout g) s = .next t ∧ (t.die g).failed = true ∧ t.store = s.store ∧
      ∀ e ∈ t.hz.epochs, e.n = s.hz.epoch → Ctrl.dieFail g ∈ e.ctrl := by
  have h1 : ((s.modDie g fun d => { d with noReady := 3 }).die g).failed = false := by
    rw [die_modDie_same s (h := fun d => { d with noReady := 3 }) fun _ => rfl]
    exact h
  obtain ⟨hf, hs, hr⟩ := failDie_fails h1
  exact ⟨_, rfl, hf, hs.trans rfl, hr⟩

/-! ### Temperatures and training (R149, R150, R152) -/

/-- A temperature read is noted in its die; channels far from the temperature of their training are to be trained again. -/
theorem readTemp_spec (s : State) (g : Nat) (temp : Int) :
    ((s.readTemp (g, temp)).die g).temp = temp ∧ (s.readTemp (g, temp)).sansFlash = s.sansFlash ∧
      (s.readTemp (g, temp)).flash.channels = updIf (fun c => c.ch == g / 16 && decide (10 ≤ tempDiff temp c.trainTemp))
        (fun c => { c with training := max 1 c.training }) s.flash.channels := by
  unfold State.readTemp
  extract_lets d far s1
  have hkeep : ∀ {α : Type} (get : State → α), (∀ (u : State) k, get (u.wantBin k) = get u) → ∀ l : List (Nat × Nat × Nat),
      get (l.foldl State.wantBin s1) = get s1 := fun get h l => foldl_keeps get _ h l s1
  refine ⟨?_, ?_, ?_⟩
  · have hd : s1.die g = (s.modDie g fun y => { y with temp := temp }).die g := die_of_dies rfl g
    rw [die_of_dies (hkeep (·.flash.dies) (fun _ _ => rfl) _), hd, die_modDie_same s (h := fun y => { y with temp := temp }) fun _ => rfl]
  · exact hkeep State.sansFlash (fun _ _ => rfl) _
  · exact hkeep (·.flash.channels) (fun _ _ => rfl) _

theorem dieTempRead_spec (s : State) (g : Nat) (temp : Int) :
    ∃ t, exec (.dieTempRead [(g, temp)]) s = .next t ∧ (t.die g).temp = temp ∧ t.store = s.store ∧ t.hz = s.hz ∧
      ∀ c ∈ t.flash.channels, c.ch = g / 16 → 10 ≤ tempDiff temp c.trainTemp → 1 ≤ c.training := by
  obtain ⟨htemp, hflash, hch⟩ := readTemp_spec s g temp
  refine ⟨s.readTemp (g, temp), rfl, htemp, store_of_sansFlash hflash, hz_of_sansFlash hflash, ?_⟩
  intro c hc hn hfar
  rw [hch] at hc
  obtain ⟨y, -, rfl⟩ := List.mem_map.1 hc
  split at hn
  · next hp =>
    rw [if_pos hp]
    exact Nat.le_max_left ..
  · next hp =>
    rw [if_neg hp] at hfar
    exact absurd (by simp [hn, hfar]) hp

/-! ### Reads that count (R148, R160) -/

theorem State.markRefresh_sansFlash (s : State) (b : Nat) : (s.markRefresh b).sansFlash = s.sansFlash := by
  unfold State.markRefresh
  split <;> rfl

/-- Codewords, parity rows and what patrol waits for. -/
def State.stored (s : State) : List Codeword × List ParityBlock × List Nat := (s.flash.cells, s.flash.parity, s.flash.patrol)

theorem State.markRefresh_stored (s : State) (b : Nat) : (s.markRefresh b).stored = s.stored := by
  unfold State.markRefresh
  split <;> rfl

theorem State.countReads_sansFlash (s : State) (b n : Nat) : (s.countReads b n).sansFlash = s.sansFlash := by
  unfold State.countReads
  dsimp only
  split
  · exact State.markRefresh_sansFlash ..
  · rfl

theorem State.countReads_stored (s : State) (b n : Nat) : (s.countReads b n).stored = s.stored := by
  unfold State.countReads
  dsimp only
  split
  · exact State.markRefresh_stored ..
  · rfl

/-- A read that suspends an erase counts the suspend. -/
theorem suspendErase_cases {s u : State} {a : Nat} (h : s.suspendErase a = some u) :
    u = s ∨ ∃ b, u = s.modBlock b fun b => { b with suspends := b.suspends + 1 } := by
  unfold State.suspendErase at h
  split at h
  · exact .inl (Option.some.inj h).symm
  · split at h
    · exact .inr ⟨_, (Option.some.inj h).symm⟩
    · cases h

/-! ### Patrol (R160, R167) -/

/-- The state after the reads and the marks of a patrol pass. -/
def State.patrolRun (s : State) (failing : List Nat) : State :=
  ((failing.filter fun a => s.patrolled.any fun b => b.blk == a && !b.refresh).eraseDups).foldl State.markRefresh
    (s.patrolled.foldl (fun st b => st.countReads b.blk b.used) s)

theorem patrolRun_sansFlash (s : State) (l : List Nat) : (s.patrolRun l).sansFlash = s.sansFlash := by
  rw [State.patrolRun, foldl_keeps State.sansFlash _ State.markRefresh_sansFlash,
    foldl_keeps State.sansFlash _ fun a (b : Block) => a.countReads_sansFlash b.blk b.used]

theorem patrolRun_stored (s : State) (l : List Nat) : (s.patrolRun l).stored = s.stored := by
  rw [State.patrolRun, foldl_keeps State.stored _ State.markRefresh_stored,
    foldl_keeps State.stored _ fun a (b : Block) => a.countReads_stored b.blk b.used]

theorem endLongs_silent (st : Status) (vs l : List Nat) (s : State) :
    (l.foldl (fun a id => a.endLong id st vs) s).silent = s.silent :=
  foldl_keeps State.silent _ (fun a id => a.endLong_silent id st vs) l s

theorem patrolInterval_spec {s : State} {n : Nat} {l : List Nat} (h : s.flash.patrol ≠ [] ∨ s.flash.patrolNext ≤ s.hz.uptimeUs) :
    ∃ t, exec (.patrolInterval n l) s = .next t ∧ t.flash.patrol = [] ∧ t.flash.patrolRead = n ∧ t.store = s.store ∧
      t.hz = s.hz ∧ t.flash.cells = s.flash.cells ∧
      t.flash.patrolNext = s.hz.uptimeUs + 3600000000 * s.param 0x0523 0 := by
  have hdue : ¬ (s.flash.patrol = [] ∧ s.hz.uptimeUs < s.flash.patrolNext) := by
    rintro ⟨hp, hn⟩
    rcases h with h | h
    · exact h hp
    · omega
  have hs := patrolRun_sansFlash s l
  have hk := patrolRun_stored s l
  have hend := endLongs_silent St.ok
    [n, ((l.filter fun a => s.patrolled.any fun b => b.blk == a && !b.refresh).eraseDups).length] (s.patrolRun l).flash.patrol
    (s.patrolRun l)
  refine ⟨_, if_neg hdue, rfl, rfl, ?_, ?_, ?_, rfl⟩
  · exact (store_of_silent hend).trans (store_of_sansFlash hs)
  · exact (hz_of_silent hend).trans (hz_of_sansFlash hs)
  · exact (congrArg Flash.cells (flash_of_silent hend)).trans (congrArg Prod.fst hk)

/-! ### Verify scans (R154, R159) -/

/-- What a scan may do beside its counts: the map, Horizon and the fetched commands stay, parity rows are only added. -/
structure ScanKeeps (s t : State) : Prop where
  map : t.store.map = s.store.map
  hz : t.hz = s.hz
  cmds : t.q.cmds = s.q.cmds
  parity : s.flash.parity <+: t.flash.parity

theorem ScanKeeps.trans {s t u : State} (h : ScanKeeps s t) (h' : ScanKeeps t u) : ScanKeeps s u :=
  ⟨h'.map.trans h.map, h'.hz.trans h.hz, h'.cmds.trans h.cmds, h.parity.trans h'.parity⟩

theorem scanKeeps_of_sansFlash {s t : State} (h : t.sansFlash = s.sansFlash) (hp : s.flash.parity <+: t.flash.parity) :
    ScanKeeps s t :=
  ⟨congrArg Store.map (store_of_sansFlash h), hz_of_sansFlash h, congrArg Queues.cmds (q_of_sansFlash h), hp⟩

theorem scanKeeps_rewrite (s : State) (p : Nat → Bool) : ScanKeeps s (s.rewrite p) :=
  scanKeeps_of_sansFlash (s.rewrite_sansFlash p) (rewrite_parity s p)

theorem scanKeeps_condemn (s : State) (b : Nat) : ScanKeeps s (s.condemn b) :=
  scanKeeps_of_sansFlash rfl List.prefix_rfl

theorem touchSegs_parity (n : Nat) (l : List (Nat × Nat × Nat × List Nat)) (f : Flash) :
    (l.foldl (touchSeg n) f).parity = f.parity := by
  induction l generalizing f with
  | nil => rfl
  | cons x l ih => exact (ih _).trans rfl

theorem scanKeeps_renewSys (s : State) (p : Nat → Bool) : ScanKeeps s (s.renewSys p) :=
  ⟨rfl, rfl, rfl, (touchSegs_parity s.hz.epoch _ s.flash).symm ▸ List.prefix_rfl⟩

theorem scanKeeps_renewCell (s : State) (c : Codeword) : ScanKeeps s (s.renewCell c) := by
  unfold State.renewCell
  split
  · exact scanKeeps_renewSys s _
  · exact scanKeeps_rewrite s _

/-- The state in which a scan has read the codeword at `a` of super-block `sb`. -/
def State.scannedAt (s : State) (sb a : Nat) : State :=
  (s.countRead (blockOf a)).modFlash fun f => { f with
    parity := updIf (fun q => q.sb == sb) (fun q => { q with scanned := q.scanned ++ [a] }) f.parity }

/-- The codeword read and found failing is noted so with the parity of its super-block. -/
theorem scannedAt_parity {s : State} {sb a : Nat} {p : ParityBlock} (hp : p ∈ s.flash.parity) (hsb : p.sb = sb) (ha : superOf a = sb) :
    ∃ q ∈ ((s.scannedAt sb a).countFailing a).flash.parity, q.sb = sb ∧ a ∈ q.scanned ∧ a ∈ q.failing := by
  have hk : (s.countRead (blockOf a)).flash.parity = s.flash.parity :=
    congrArg (fun x => x.2.1) (s.countReads_stored (blockOf a) 1)
  have h1 : { p with scanned := p.scanned ++ [a] } ∈ (s.scannedAt sb a).flash.parity := by
    refine List.mem_map.2 ⟨p, hk ▸ hp, if_pos (beq_iff_eq.2 hsb)⟩
  refine ⟨_, List.mem_map.2 ⟨_, h1, rfl⟩, ?_⟩
  split
  · exact ⟨hsb, List.mem_append.2 (.inr List.mem_cons_self), List.mem_append.2 (.inr List.mem_cons_self)⟩
  · next hc =>
    refine ⟨hsb, List.mem_append.2 (.inr List.mem_cons_self), ?_⟩
    simpa [hsb, ha] using hc

theorem scannedAt_sansFlash (s : State) (sb a : Nat) :
    ((s.scannedAt sb a).countFailing a).sansFlash = s.sansFlash := by
  simp only [State.countFailing, State.scannedAt, State.modFlash_sansFlash]
  exact s.countReads_sansFlash (blockOf a) 1

/-- A scan that reads: where the codeword decodes within the limit nothing more is done; else it is noted as failing, and what
it holds is written anew. -/
theorem exec_verifyScan {s u : State} {sb a k : Nat} {b : Bool} {p : ParityBlock} {c : Codeword}
    (hp : (s.flash.parity.find? fun p => p.sb == sb && p.pending) = some p) (hc : s.cell? a = some c) (ha : superOf a = sb)
    (hu : s.suspendErase a = some u) (hn : p.scanned.contains a = false) : exec (.verifyScan sb a k b) s =
      if (!(b && !s.unreadable a && decide (k ≤ s.profile.verifyLimit))) = false then .next (u.scannedAt sb a)
      else if s.profile.verifyTolerance <
          (p.failing.filter fun x => blockOf x == blockOf a && x != a).length + 1 then
        .next (((((u.scannedAt sb a).countFailing a).condemn (blockOf a)).renewSys fun x => blockOf x == blockOf a).rewrite
          fun x => blockOf x == blockOf a)
      else .next (((u.scannedAt sb a).countFailing a).renewCell c) := by
  change execVerifyScan sb a k b s = _
  unfold execVerifyScan
  rw [hp, hc, hu]
  exact if_neg (by simpa [ha] using hn)

/-- What a failing codeword leads to: it is noted with the parity of its super-block, and the map, Horizon and the fetched
commands stay. -/
theorem scanNoted {s u t : State} {sb a : Nat} {p : ParityBlock}
    (hp : (s.flash.parity.find? fun p => p.sb == sb && p.pending) = some p) (ha : superOf a = sb)
    (hu : s.suspendErase a = some u) (hk : ScanKeeps ((u.scannedAt sb a).countFailing a) t) :
    t.store.map = s.store.map ∧ t.hz = s.hz ∧ t.q.cmds = s.q.cmds ∧
      ∃ q ∈ t.flash.parity, q.sb = sb ∧ a ∈ q.scanned ∧ a ∈ q.failing := by
  have husame : u.sansFlash = s.sansFlash ∧ u.flash.parity = s.flash.parity := by
    rcases suspendErase_cases hu with rfl | ⟨b, rfl⟩
    · exact ⟨rfl, rfl⟩
    · exact ⟨rfl, rfl⟩
  obtain ⟨hsans, hpar⟩ := husame
  have hpsb : p.sb = sb := by
    have h := List.find?_some hp
    simp only [Bool.and_eq_true, beq_iff_eq] at h
    exact h.1
  obtain ⟨q, hq, hnoted⟩ := scannedAt_parity (s := u) (hpar ▸ List.mem_of_find?_eq_some hp) hpsb ha
  have hs := (scannedAt_sansFlash u sb a).trans hsans
  exact ⟨hk.map.trans (congrArg Store.map (store_of_sansFlash hs)), hk.hz.trans (hz_of_sansFlash hs),
    hk.cmds.trans (congrArg Queues.cmds (q_of_sansFlash hs)), q, hk.parity.subset hq, hnoted⟩

theorem verifyScan_fails {s u : State} {sb a k : Nat} {p : ParityBlock} {c : Codeword}
    (hp : (s.flash.parity.find? fun p => p.sb == sb && p.pending) = some p) (hc : s.cell? a = some c) (ha : superOf a = sb)
    (hu : s.suspendErase a = some u) (hn : p.scanned.contains a = false) :
    ∃ t, exec (.verifyScan sb a k false) s = .next t ∧ t.store.map = s.store.map ∧ t.hz = s.hz ∧ t.q.cmds = s.q.cmds ∧
      ∃ q ∈ t.flash.parity, q.sb = sb ∧ a ∈ q.scanned ∧ a ∈ q.failing := by
  have hexec := (exec_verifyScan (k := k) (b := false) hp hc ha hu hn).trans (if_neg (by simp))
  by_cases htol : s.profile.verifyTolerance < (p.failing.filter fun x => blockOf x == blockOf a && x != a).length + 1
  · exact ⟨_, hexec.trans (if_pos htol), scanNoted hp ha hu
      (((scanKeeps_condemn _ _).trans (scanKeeps_renewSys _ _)).trans (scanKeeps_rewrite _ _))⟩
  · exact ⟨_, hexec.trans (if_neg htol), scanNoted hp ha hu (scanKeeps_renewCell _ _)⟩

/-- A scan ends where no block of the super-block but retired ones is left and nothing of it moves or is resynchronised. -/
theorem exec_verifyScanEnd {s : State} {sb : Nat} {p : ParityBlock}
    (hp : (s.flash.parity.find? fun p => p.sb == sb && p.pending) = some p)
    (hb : ∀ b ∈ s.flash.blocks, superOf b.blk = sb → b.st = .retired) (hm : ∀ m ∈ s.flash.moves, superOf m.src ≠ sb)
    (hr : s.flash.resyncLeft.contains sb = false) : exec (.verifyScanEnd sb) s = .next (s.modFlash fun f => { f with
      parity := f.parity.filter fun q => q.sb != sb, logs := f.logs.filter fun l => l.sb != sb }) := by
  have hblocks : (s.flash.blocks.filter fun b => superOf b.blk == sb && b.st != .retired) = [] := by
    rw [List.filter_eq_nil_iff]
    intro b hmem hc
    simp only [Bool.and_eq_true, beq_iff_eq, bne_iff_ne] at hc
    exact hc.2 (hb b hmem hc.1)
  have hmoves : (s.flash.moves.any fun m => superOf m.src == sb && p.failing.contains m.src) = false := by
    rw [List.any_eq_false]
    intro m hmem hc
    simp only [Bool.and_eq_true, beq_iff_eq] at hc
    exact hm m hmem hc.1
  change execVerifyScanEnd sb s = _
  unfold execVerifyScanEnd
  rw [hp]
  dsimp only
  rw [hblocks, hmoves, hr]
  rfl

/-- Settles O40: temperatures, sweeps, training, failures, scans and patrol change the media state as R51, R149, R151, R152,
R154, R158 to R160, R164 and R178 say. -/
theorem diesAndScans : Obligations.DiesAndScans := by
  intro s g ch temp
  refine ⟨dieTempRead_spec s g temp, ?sweep, ?training, dieReadyTimeout_spec, ?scan, fun sb p hp hb hm hr =>
    exec_verifyScanEnd hp hb hm hr, fun n l h => patrolInterval_spec h, fun _ _ => rfl⟩
  case sweep =>
    intro m b best x mine htick hmine hw hlen hstep hlo hhi
    exact if_pos ⟨htick, hmine, hw, hlen, hstep, hlo, hhi⟩
  case training =>
    intro c hc set
    have hexec : ∀ ok, exec (.interfaceRetrain ch ok temp) s = if ok = true then
        .next (set fun c => { c with trainTemp := temp, trainFails := 0, training := 0, action := .none })
        else .next (if 3 ≤ c.trainFails + 1 then (set fun c => { c with
          trainFails := c.trainFails + 1, action := .none }).failMember ch
          else set fun c => { c with trainFails := c.trainFails + 1, action := .none }) := by
      intro ok
      change execInterfaceRetrain ch ok temp s = _
      unfold execInterfaceRetrain
      rw [hc]
    refine ⟨(hexec true).trans (if_pos rfl), fun hf => ?_, fun hf ho hl => ?_⟩
    · exact (hexec false).trans ((if_neg Bool.false_ne_true).trans (congrArg _ (if_neg (by omega))))
    · obtain ⟨hmem, hrec⟩ := failMember_fails (s := set fun c => { c with
        trainFails := c.trainFails + 1, action := .none }) (m := ch) ho hl
      exact ⟨_, (hexec false).trans ((if_neg Bool.false_ne_true).trans (congrArg _ (if_pos (by omega)))),
        (failMember_keeps _ ch).1, hmem, hrec⟩
  case scan =>
    intro sb a k p c u hp hc ha hu hn
    refine ⟨fun hr hk => ?_, verifyScan_fails hp hc ha hu hn⟩
    exact (exec_verifyScan hp hc ha hu hn).trans (if_pos (by simp [hr, hk]))

end Sys2Proof.Machine
end

section
/-!
SUPPORT. TICK_IN, SHOCK_IN and the end of a verify: the statement ClockAndShockInputs.
-/

namespace Sys2Proof.Machine

open Sys2Proof

/-! ### A freeze leaves the parameters (R27, R90) -/

/-- What the epoch being accepted records changes no setting in force: those are the changes of earlier ticks. -/
theorem record_inForce (s : State) (cs : List Ctrl) : (s.record cs).inForce = s.inForce := by
  have h : ((s.record cs).hz.epochs.filter fun e => decide (e.n < s.hz.epoch)) =
      s.hz.epochs.filter fun e => decide (e.n < s.hz.epoch) := by
    simp only [State.record, State.modEpoch, State.modHz_hz, updIf]
    induction s.hz.epochs with
    | nil => rfl
    | cons e es ih =>
      rw [List.map_cons, List.filter_cons, List.filter_cons, ih]
      by_cases hn : (e.n == s.hz.epoch) = true
      · have hlt : ¬ e.n < s.hz.epoch := by have := beq_iff_eq.1 hn; omega
        rw [if_pos hn, if_neg (by simpa using hlt), if_neg (by simpa using hlt)]
      · rw [if_neg hn]
  exact congrArg (fun l : List Epoch => l.foldl (fun d e => e.ctrl.foldl (fun d c => c.setting d) d) s.store) h

theorem inForce_of_hz {s t : State} (hstore : t.store = s.store) (hhz : t.hz = s.hz) : t.inForce = s.inForce := by
  unfold State.inForce
  rw [hstore, hhz]

/-- The length of the hold-off follows the settings in force and the volatile ones (R97). -/
theorem holdoffLength_congr {s t : State} (hv : t.recs.vparams = s.recs.vparams) (hf : t.inForce = s.inForce) :
    t.param 0x0321 0 = s.param 0x0321 0 := by
  have h : ∀ u : State, u.param 0x0321 0 = (u.paramSet? 0x0321 0).getD 1000 := by
    intro u
    unfold State.param
    split
    · next hs => rw [hs, Option.getD_some]
    · next hs => rw [hs]; rfl
  rw [h, h, State.paramSet?, State.paramSet?, hv, hf]

/-- A freeze is recorded by the epoch being accepted, noted as triggered and reported; or it was triggered before. -/
theorem freezeNs_cases {s u : State} {x : Ns} (h : s.freezeNs x = some u) : u = s ∨ ∃ cs tr,
    u.sansEvents = ((s.record cs).modNs fun v => { v with triggered := tr }).sansEvents := by
  unfold State.freezeNs at h
  dsimp only at h
  split at h
  · cases h
  · split at h
    · exact .inl (Option.some.inj h).symm
    · exact .inr ⟨_, _, Option.some.inj h ▸ State.nsEvent_sansEvents ..⟩

theorem freezeNs_holdoff {s u : State} {x : Ns} (h : s.freezeNs x = some u) : u.param 0x0321 0 = s.param 0x0321 0 := by
  rcases freezeNs_cases h with rfl | ⟨cs, tr, hu⟩
  · rfl
  · refine holdoffLength_congr (congrArg (·.recs.vparams) hu :) ?_
    exact (inForce_of_hz (store_of_sansEvents hu) (hz_of_sansEvents hu)).trans (record_inForce s cs)

/-! ### SHOCK_IN (R90 to R93) -/

/-- With one SNS that has a freeze window, a trigger in a tick that freezes it begins the hold-off, where its length is not 0. -/
theorem shockTick_one {s u : State} {x : Ns} (hx : s.shockTargets = [x]) (hu : s.freezeNs x = some u)
    (hlen : s.param 0x0321 0 ≠ 0) : s.shockTick = { u with ns := { u.ns with holdoff := true } } := by
  have hone : [x].foldl State.shockOne (s, false) = (u, true) := by
    rw [List.foldl_cons, List.foldl_nil, State.shockOne, hu]
  unfold State.shockTick
  rw [hx]
  dsimp only [List.isEmpty_cons]
  rw [hone]
  exact (if_pos rfl).trans (if_pos (freezeNs_holdoff hu ▸ hlen))

section Shock

variable {s : State} (hc : (s.inForce.claims.any fun c => c.opcode == 0x0106) = true) (hh : s.hz.st ≠ .halted)
include hc hh

theorem shock_served : ¬ ((s.inForce.claims.any fun c => c.opcode == 0x0106) = false ∨ s.hz.st = .halted) := by
  simp [hc, hh]

theorem shockInTrigger_tick (ho : s.ns.holdoff = false) (ht : s.hz.ticking = true) :
    exec .shockInTrigger s = .next s.shockTick :=
  (if_neg (shock_served hc hh)).trans ((if_neg (by simp [ho])).trans (if_pos ht))

theorem shockInTrigger_drain (ho : s.ns.holdoff = false) (ht : s.hz.ticking = false) (hst : s.pw.st = .draining) :
    exec .shockInTrigger s = .next s.shockDrain.startHoldoff := by
  refine (if_neg (shock_served hc hh)).trans ((if_neg (by simp [ho])).trans ((if_neg (by simp [ht])).trans ?_))
  rw [hst]

theorem shockInTrigger_noTick (ho : s.ns.holdoff = false) (ht : s.hz.ticking = false)
    (hst : s.pw.st = .boot ∨ s.pw.st = .held ∨ s.pw.st = .p4 ∨ s.pw.st = .stopped) : exec .shockInTrigger s =
      .next ((s.modNs fun v => { v with noTick := sat32 (v.noTick + 1) }).event 2 deviceFn [0] St.nsFreezeNoTick 0) := by
  refine (if_neg (shock_served hc hh)).trans ((if_neg (by simp [ho])).trans ((if_neg (by simp [ht])).trans ?_))
  rcases hst with h | h | h | h <;> rw [h]

end Shock

/-! ### The other inputs -/

/-- An intent entry with the next sequence number is confirmed for the oldest closed epoch without one (R187, R188). -/
theorem exec_intentEntryConfirmed {s : State} {e : Epoch}
    (he : (s.hz.epochs.find? fun e => e.closed && !e.intentOk && !e.isSealed &&
      (decide (e.n < s.hz.epoch) || s.pw.st == .draining)) = some e) (hr : s.programsRun = true) (hi : s.flash.inhibited = false) :
    exec (.intentEntryConfirmed (s.hz.intentSeq + 1)) s =
      .next ((s.programIntent (s.hz.intentSeq + 1) e.n).modHz fun h => { h with
        intentSeq := s.hz.intentSeq + 1
        epochs := updIf (fun x => x.n == e.n)
          (fun x => { x with intentSeq := some (s.hz.intentSeq + 1), intentOk := true }) h.epochs }) := by
  change execIntentEntryConfirmed (s.hz.intentSeq + 1) s = _
  unfold execIntentEntryConfirmed
  rw [he]
  exact if_pos ⟨hr, hi, rfl⟩

/-- A verify whose bytes are all readable ends by the digest of its slot (R95). -/
theorem exec_imageVerifyDone {s : State} {i k : Nat} {n : Ns} {x y : Slot} (hn : s.store.ns? i = some n)
    (hx : n.slots[k]? = some x) (hy : (s.slotsAccepted n)[k]? = some y) (hxst : x.st = .verifyPending)
    (hyst : y.st = .verifyPending) (ht : s.hz.ticking = true) (hl : s.slotLost n k x.len = false) :
    exec (.imageVerifyDone i k) s =
      (if natLE (sha256 (s.slotBytes n k x.len)) = x.expect then .next (s.recordNext [.slot i k { x with st := .verified }])
       else .next ((s.modStore fun d => d.setSlot i k { x with st := .staging }).endLong x.longId St.imgVerifyFail [])) := by
  change execImageVerifyDone i k s = _
  unfold execImageVerifyDone
  rw [hn]
  dsimp only
  rw [hx, hy]
  exact (if_neg (by simp [hxst, hyst, ht])).trans (if_neg (by simp [hl]))

/-- Settles O27: TICK_IN, the intent entry, SHOCK_IN and the end of a verify do what R30, R31, R34, R43, R90 to R93, R95, R187
and R470 say. -/
theorem clockAndShockInputs : Obligations.ClockAndShockInputs := by
  intro s err iv
  refine ⟨⟨?discarded, ?locked, ?hit, ?unlocked, ?miss, ?lost, ?relock, fun e => exec_intentEntryConfirmed, rfl⟩,
    fun hc hh => ⟨?ignored, ?frozen, ?drain, ?noTick⟩, rfl, fun i k n x y => exec_imageVerifyDone⟩
  case discarded =>
    intro hw ht he
    exact (if_neg (by simp [hw, ht])).trans (if_pos he)
  case locked =>
    intro hw ht he hl
    exact (if_neg (by simp [hw, ht])).trans ((if_neg (by simp [he])).trans (if_pos hl))
  case hit =>
    intro hw ht he hl
    refine ⟨_, (if_neg (by simp [hw, ht])).trans ((if_neg (by simp [he])).trans (if_neg (by simp [hl]))), rfl, hl, ?_⟩
    intro hn
    simp only [hn, decide_true, Bool.true_and]
    exact Bool.or_not_self _
  case unlocked =>
    intro ht hs hl
    exact (if_neg (by simp [ht, hs])).trans (if_pos hl)
  case miss =>
    intro ht hs hl hm
    exact (if_neg (by simp [ht, hs])).trans ((if_neg (by simp [hl])).trans (if_pos hm))
  case lost =>
    intro ht hs hl hm
    exact (if_neg (by simp [ht, hs])).trans ((if_neg (by simp [hl])).trans (if_neg (by omega)))
  case relock =>
    intro ht hw hs hn
    exact if_pos ⟨ht, hw, hs, hn⟩
  case ignored =>
    intro ho
    exact (if_neg (shock_served hc hh)).trans (if_pos ho)
  case frozen =>
    intro x u ht ho hx hu hlen
    exact (shockInTrigger_tick hc hh ho ht).trans (congrArg _ (shockTick_one hx hu hlen))
  case drain => exact fun ht ho => shockInTrigger_drain hc hh ho ht
  case noTick => exact fun ht ho => shockInTrigger_noTick hc hh ho ht

end Sys2Proof.Machine
end

section
/-!
SUPPORT. Data, classes and compressed segments that arrive, and the admission of the oldest command of the holder in turn:
the statement IngestAndAdmission.
-/

namespace Sys2Proof.Machine

open Sys2Proof

/-! ### Data and classes (R54, R81, R197, R207) -/

section Data

variable {s : State} {n q cid : Nat} {c : Cmd} {x : Ns} {bytes : Data} {pi : List PiField}

/-- Data that a command may fetch and that finds room is checked. -/
theorem exec_dataFetchDone
    (hc : (s.q.cmds.find? fun c => c.fn == n && c.qid == q && c.e.cid == cid) = some c) (hx : s.store.ns? c.e.nsid = some x)
    (hf : c.toFetch x = true) (hk : c.fetchOk x bytes.length = true)
    (hp : pi.length = (if piLen x = 0 then 0 else bytes.length / 4096))
    (hr : s.ingressFits n bytes.length (c.e.opc == opAppend) = true) :
    (∀ st, dataCheck x c bytes pi = some st → exec (.dataFetchDone n q cid bytes pi) s = .next (s.cutShort c st)) ∧
    (dataCheck x c bytes pi = none → exec (.dataFetchDone n q cid bytes pi) s = .next ((s.modCmd c.seq fun c => { c with
      stage := .waiting, bytes := c.bytes ++ bytes, pi := c.pi ++ pi }).mirrorOut x c)) := by
  have hgo : ¬ (c.toFetch x = false ∨ c.fetchOk x bytes.length = false ∨
      pi.length ≠ (if piLen x = 0 then 0 else bytes.length / 4096) ∨
      s.ingressFits n bytes.length (c.e.opc == opAppend) = false) := by simp only [hf, hk, hp, hr]; simp
  change (∀ st, _ → execDataFetchDone n q cid bytes pi s = _) ∧ (_ → execDataFetchDone n q cid bytes pi s = _)
  unfold execDataFetchDone
  rw [hc]
  dsimp only
  rw [hx]
  dsimp only
  rw [if_neg hgo]
  refine ⟨fun st hd => ?_, fun hd => ?_⟩ <;> rw [hd]

/-- Nothing goes to a replica but the append of a mirrored namespace. -/
theorem mirrorOut_none (u : State) (h : c.e.opc ≠ opAppend ∨ x.mirror = false) : u.mirrorOut x c = u :=
  if_neg fun hc => h.elim (fun h => h hc.1) fun h => by rw [h] at hc; cases hc.2

end Data

theorem exec_classificationResult_host {s : State} {n q cid : Nat} {c : Cmd} {x : Ns} {h : RecHeader}
    (hc : (s.q.cmds.find? fun c => c.fn == n && c.qid == q && c.e.cid == cid && c.stage == .needClass) = some c)
    (hx : s.store.ns? c.e.nsid = some x) (hh : c.hdr = some h) :
    exec (.classificationResult (.host n q cid)) s = .next (s.classHost c x h) := by
  change execClassificationResult (.host n q cid) s = _
  unfold execClassificationResult
  dsimp only
  rw [hc]
  dsimp only
  rw [hx, hh]

theorem classHost_passes {s : State} {c : Cmd} {x : Ns} {h : RecHeader}
    (hr : (s.classify (classKey c.fn 0 x.f.nsid s.srcNode h)).2.2.ingestCheck x h
      (s.classify (classKey c.fn 0 x.f.nsid s.srcNode h)).1 = none) :
    let r := s.classify (classKey c.fn 0 x.f.nsid s.srcNode h)
    s.classHost c x h = r.2.2.modCmd c.seq fun c => { c with
      stage := .needData, word := some r.1, matched := r.2.1, room := wordIdx r.1 } := by
  unfold State.classHost
  dsimp only
  rw [hr]

theorem exec_classificationResult_link {s : State} {p rid : Nat} {y : LinkRec} {x : Ns} {h : RecHeader}
    (hy : s.linkRec? p rid = some y) (hx : s.store.ns? y.nsid = some x) (hh : y.hdr = some h) (hw : y.word = none) :
    exec (.classificationResult (.link p rid)) s = .next (s.classLink p y x h) := by
  change execClassificationResult (.link p rid) s = _
  unfold execClassificationResult
  dsimp only
  rw [hy]
  dsimp only
  rw [hx, hh, hw]

theorem classLink_passes {s : State} {p : Nat} {y : LinkRec} {x : Ns} {h : RecHeader} (hm : y.mirror = false)
    (hr : (s.classify (classKey 0 (p + 1) x.f.nsid h.srcNode { h with stream := y.stream })).2.2.ingestCheck x
      { h with stream := y.stream }
      (s.classify (classKey 0 (p + 1) x.f.nsid h.srcNode { h with stream := y.stream })).1 = none)
    (hp : payCrcOk h y.bytes = true) :
    let r := s.classify (classKey 0 (p + 1) x.f.nsid h.srcNode { h with stream := y.stream })
    s.classLink p y x h = r.2.2.modRec p y.rid fun z => { z with word := some r.1, matched := r.2.1 } := by
  unfold State.classLink
  dsimp only
  rw [hr, hm]
  exact (if_neg (by simp [hp])).trans (if_neg Bool.false_ne_true)

/-! ### Compressed segments (R208, R238, R239) -/

theorem exec_segmentCompressDone {s : State} {i st w : Nat} {len : Nat} {ok : Bool}
    (hg : (s.halo.segs.any fun g => g.nsid == i && g.stream == st && g.window == w) = true)
    (hf : s.hz.phase = .accept → (w + 1) * 65536 ≤ s.streamEnd st) :
    let us := s.segUnits i st w; let c := (96 + len + 4095) / 4096
    let s1 := s.modHalo fun h => { h with segs := h.segs.filter fun g => !(g.nsid == i && g.stream == st && g.window == w) };
    exec (.segmentCompressDone i st w len ok) s =
      if s.segLevel i st us = 0 ∨ us.length ≤ c ∨ s.metaFits 0 us.length = false then
        .next (s1.modSq fun q => { q with asAdmitted := q.asAdmitted + 1 })
      else if ¬ ok then .next ((s1.modSq fun q => { q with verifyFails := q.verifyFails + 1 }).openLog deviceFn St.sqVerify)
      else .next ((s1.modSq fun q => { q with compressed := q.compressed + 1 }).modEpoch fun e => { e with
        fx := packSegment i (us.map fun u => streamKey st (4096 * u)) c (s.segLevel i st us, len) e.fx
        hostRecs := e.hostRecs + us.length }) := by
  refine if_neg ?_
  rintro (h | ⟨hp, hl⟩)
  · exact h hg
  · exact absurd (hf hp) (by omega)

/-! ### The turn of a function (R55, R377, R483) -/

section Turn

variable {s t : State} {n : Nat} {hs : List Nat} {c : Cmd} {cs : List Cmd}

/-- The oldest command of a function that is served first is tried first. -/
theorem turnFn_done (hb : s.link.below = false) (hf : s.fnState n = .active)
    (hq : (s.q.cmds.filter fun c => c.fn == n) = c :: cs) (ht : s.tryCmd c = .done t) : s.turnFn n = .done t := by
  rw [State.turnFn, if_neg (by simp [hb, hf]), hq, State.tryAll, if_neg (by simp), ht]

/-- The first holder in turn has its command admitted, and the turn goes to the next holder. -/
theorem admission_done (ha : s.admits = true) (ho : turnOrder (s.hz.credits.map (·.holder)) s.hz.turn = n :: hs) (hn : n < 256)
    (hh : (s.credit n).hold = false) (hb : s.link.below = false) (hf : s.fnState n = .active)
    (hq : (s.q.cmds.filter fun c => c.fn == n) = c :: cs) (ht : s.tryCmd c = .done t) :
    exec .admission s = .next (t.modHz fun z => { z with turn := nextHolder (z.credits.map (·.holder)) n }) := by
  refine (if_pos ha).trans (congrArg _ ?_)
  rw [ho, State.admitTurn, if_neg (by simp [hh]), State.turnOf, if_pos hn, turnFn_done hb hf hq ht]

end Turn

section Waiting

variable {s : State} {c : Cmd} (hs : c.stage = .waiting) (he : c.ended = false) (hm : s.mustWait c = false)
include hs he hm

theorem waiting_turn (ho : c.e.opc ≠ opFlush) :
    ¬ (c.stage ≠ .waiting ∨ c.ended = true ∨ c.e.opc = opFlush ∨ s.mustWait c = true) := by
  simp [hs, he, hm, ho]

theorem tryCmd_refused {st : Status} (ho : c.e.opc ≠ opFlush) (hd : c.done = 0) (ha : s.accessCheck c = some st) :
    s.tryCmd c = .done (s.failCmd c st) := by
  rw [State.tryCmd, if_neg (by simp [hs]), if_neg (waiting_turn hs he hm ho), if_pos ⟨hd, by rw [ha]; rfl⟩, ha]
  rfl

/-- A command that waits and may go on is tried by its opcode. -/
theorem tryCmd_waiting {x : Ns} (ho : c.e.opc ≠ opFlush) (ha : c.done = 0 → s.accessCheck c = none)
    (hx : s.store.ns? c.e.nsid = some x) : s.tryCmd c = s.tryNs x c := by
  have hpass : ¬ (c.done = 0 ∧ (s.accessCheck c).isSome = true) := fun h => by rw [ha h.1] at h; cases h.2
  rw [State.tryCmd, if_neg (by simp [hs]), if_neg (waiting_turn hs he hm ho), if_neg hpass, hx]

end Waiting

/-! ### What admission stages changes epochs alone -/

section Staged

variable {α : Type} (get : State → α) (h : ∀ (u : State) (f : Horizon → Horizon), get (u.modHz f) = get u)
include h

theorem stageUnit_keeps (i k : Nat) (d : Data) (pi : Option PiField) (s : State) : get (s.stageUnit i k d pi) = get s := by
  refine foldl_keeps get _ ?_ _ s
  intro u i
  rw [State.stageOne, State.modEpoch, h]

theorem dropUnits_keeps (i : Nat) (f : Nat → Fx) (s : State) : get (s.dropUnits i f) = get s := by
  refine foldl_keeps get _ ?_ _ s
  intro u i
  rw [State.addFx, State.modEpoch, h]

theorem chargeEpoch_keeps (a b d e : Nat) (s : State) : get (s.chargeEpoch a b d e) = get s := by
  rw [State.chargeEpoch, h, State.modEpoch, h]

/-- The units of a piece of a write and its charges. -/
theorem stagePiece_keeps (l : List Nat) (i fn w a b d : Nat) (key : Nat → Nat) (bytes : Nat → Data) (pi : Nat → Option PiField)
    (s : State) : get (((l.foldl (fun u j => u.stageUnit i (key j) (bytes j) (pi j)) s).charge fn w 0 0).chargeEpoch a b d 0) =
      get s := by
  rw [chargeEpoch_keeps get h, State.charge, h]
  refine foldl_keeps get _ ?_ _ s
  intro u j
  exact stageUnit_keeps get h i (key j) (bytes j) (pi j) u

end Staged

/-- A piece of a write changes the epoch and its command. -/
theorem writePiece_spec (s : State) (x : Ns) (c : Cmd) (k : Nat) : (s.writePiece x c k).store = s.store ∧
    (s.writePiece x c k).q.cmds = updIf (fun y => y.seq == c.seq) (fun y => { y with
      done := y.done + k * unitLen x, left := y.left - k * unitLen x, need := s.hz.epoch
      pieces := y.pieces ++ [(s.hz.epoch, k * unitLen x)]
      stage := if y.left ≤ k * unitLen x then .admitted else y.stage }) s.q.cmds := by
  unfold State.writePiece
  dsimp only
  rw [State.modCmd, State.modQ_store, State.modQ_q, stagePiece_keeps State.store fun _ _ => rfl,
    stagePiece_keeps State.q fun _ _ => rfl]
  exact ⟨rfl, rfl⟩

/-! ### The turn of a command by its opcode -/

section Turns

variable {s : State} {x : Ns} {c : Cmd}

theorem tryNs_write (ho : c.e.opc = opWrite) :
    s.tryNs x c = if s.slotRefuses x c = true then .done (s.cutShort c St.imgSlotState) else s.tryWrite x c := by
  rw [State.tryNs, if_neg (by rw [ho]; decide), if_pos ho]

theorem tryNs_discard (ho : c.e.opc = opDiscard) :
    s.tryNs x c = if s.slotRefuses x c = true then .done (s.failCmd c St.imgSlotState) else s.tryDiscard x c := by
  rw [State.tryNs, if_neg (by rw [ho]; decide), if_neg (by rw [ho]; decide), if_pos ho]

theorem tryNs_append (ho : c.e.opc = opAppend) : s.tryNs x c = s.tryAppend x c := by
  rw [State.tryNs, if_neg (by rw [ho]; decide), if_neg (by rw [ho]; decide), if_neg (by rw [ho]; decide), if_pos ho]

theorem tryNs_exec (ho : c.e.opc = opExec) : s.tryNs x c = .done ((s.modAnv fun a => { a with
    insts := (a.insts.filter fun i => i.id != c.inst) ++ a.insts.filter fun i => i.id == c.inst }).modCmd
      c.seq fun x => { x with stage := .execing }) := by
  rw [State.tryNs, if_neg (by rw [ho]; decide), if_neg (by rw [ho]; decide), if_neg (by rw [ho]; decide),
    if_neg (by rw [ho]; decide), if_pos ho]

/-- A command of which nothing is admitted is cut short as a failed check ends it. -/
theorem cutShort_slotState (hd : c.done = 0) : s.cutShort c St.imgSlotState = s.failCmd c St.imgSlotState := by
  rw [State.cutShort, if_pos hd, State.failCmd]
  exact (if_neg (by decide)).symm

/-- A write or discard whose image slot has left STAGING fails (R94). -/
theorem tryNs_slotRefused (ho : c.e.opc = opWrite ∨ c.e.opc = opDiscard) (hd : c.done = 0) (hr : s.slotRefuses x c = true) :
    s.tryNs x c = .done (s.failCmd c St.imgSlotState) := by
  rcases ho with ho | ho
  · rw [tryNs_write ho, if_pos hr, cutShort_slotState hd]
  · rw [tryNs_discard ho, if_pos hr]

theorem tryNs_write_piece (ho : c.e.opc = opWrite) (hr : s.slotRefuses x c = false)
    (hk : 0 < min (min (c.left / unitLen x) (c.fetchedUnits x)) ((s.credit c.fn).write / (4096 * s.copies c.e.nsid)))
    (hm : s.metaFits (piLen x * min (min (c.left / unitLen x) (c.fetchedUnits x))
      ((s.credit c.fn).write / (4096 * s.copies c.e.nsid))) (s.copies c.e.nsid) = true) :
    s.tryNs x c = .done (s.writePiece x c
      (min (min (c.left / unitLen x) (c.fetchedUnits x)) ((s.credit c.fn).write / (4096 * s.copies c.e.nsid)))) := by
  rw [tryNs_write ho, if_neg (by simp [hr]), State.tryWrite]
  exact (if_neg (by omega)).trans (if_neg fun hc => hc hm)

/-- A discard is admitted whole. -/
theorem tryNs_discard_whole (ho : c.e.opc = opDiscard) (hr : s.slotRefuses x c = false)
    (hm : s.metaFits 0 (s.copies c.e.nsid) = true) : ∃ t, s.tryNs x c = .done t ∧ t.store = s.store ∧
      t.q.cmds = updIf (fun y => y.seq == c.seq) (fun y => { y with
        done := y.left, left := 0, need := s.hz.epoch, stage := .admitted, pieces := [(s.hz.epoch, y.left)] }) s.q.cmds := by
  rw [tryNs_discard ho, if_neg (by simp [hr]), State.tryDiscard, if_neg (by simp [hm])]
  refine ⟨_, rfl, ?_, ?_⟩
  · rw [State.modCmd, State.modQ_store, chargeEpoch_keeps State.store fun _ _ => rfl, dropUnits_keeps State.store fun _ _ => rfl]
  · rw [State.modCmd, State.modQ_q, chargeEpoch_keeps State.q fun _ _ => rfl, dropUnits_keeps State.q fun _ _ => rfl]

theorem tryNs_read (ho : c.e.opc = opRead)
    (hn : ¬ (x.isIns = true ∧ c.e.addr < x.f.capacity ∧ x.activeSlot = none ∧ c.done = 0))
    (hk : 0 < if x.isBlock then min c.left ((s.credit c.fn).read / 4096) else min c.left (s.credit c.fn).read) :
    s.tryNs x c = .done (s.readPart x (if c.done = 0 then { c with offset := x.aliasBase c.e.addr } else c)
      (if x.isBlock then min c.left ((s.credit c.fn).read / 4096) else min c.left (s.credit c.fn).read)) := by
  rw [State.tryNs, if_pos ho, State.tryRead]
  exact (if_neg hn).trans (if_neg (by omega))

/-- An append of an unmirrored namespace is admitted where the gate lets it go. -/
theorem tryNs_append_go {h : RecHeader} {w : BitVec 32} {plan : List (Nat × Nat)} (ho : c.e.opc = opAppend) (hh : c.hdr = some h)
    (hw : c.word = some w) (hs : s.streamOpen x.f.nsid h.stream = true) (hm : x.mirror = false)
    (hr : s.routeFull x.f.nsid h.stream (32 + h.declLen) = false)
    (hg : (s.dropCmd c.seq).recGate c.fn x h.stream h.declLen w = .go plan) :
    s.tryNs x c = .done (s.appendGo x c h w plan) := by
  have hcheck : s.mirrorCheck x = none := if_pos (by simp [hm])
  have hgate : s.mirrorGate x c h.declLen = some id := if_pos (by simp [hm])
  rw [tryNs_append ho, State.tryAppend, hh, hw]
  dsimp only
  rw [if_neg (by simp [hs]), hcheck, if_neg (by simp), if_neg (by simp [hr]), hgate]
  dsimp only
  rw [hg]
  rfl

end Turns

/-- Settles O31: data, classes and segments that arrive, and the admission of the oldest command of the holder in turn (R54, R55,
R81, R109, R197, R203, R207, R238, R239, R377, R483). -/
theorem ingestAndAdmission : Obligations.IngestAndAdmission := by
  intro s n q cid
  refine ⟨?data, ?host, ?link, ?segment, ?closed, ?admission⟩
  case data =>
    intro c x bytes pi hc hx hf hk hp hr
    obtain ⟨hfail, hpass⟩ := exec_dataFetchDone hc hx hf hk hp hr
    exact ⟨hfail, fun hd hm => (hpass hd).trans (congrArg _ (mirrorOut_none _ hm))⟩
  case host =>
    intro c x h hc hx hh r hr
    exact (exec_classificationResult_host hc hx hh).trans (congrArg _ (classHost_passes hr))
  case link =>
    intro p y x h hy hx hh hw hm r hr hp
    exact (exec_classificationResult_link hy hx hh hw).trans (congrArg _ (classLink_passes hm hr hp))
  case segment =>
    intro i st w len hg hf us c s1 go
    have hstay : ¬ (s.segLevel i st us = 0 ∨ us.length ≤ c ∨ s.metaFits 0 us.length = false) ↔ go := by
      simp only [go, not_or, Nat.not_le, Bool.not_eq_false, ne_eq]
    refine ⟨fun hgo => ?_, fun hgo => ?_, fun hgo ok => ?_⟩
    · exact (exec_segmentCompressDone hg hf).trans ((if_neg (hstay.2 hgo)).trans (if_neg (by simp)))
    · exact ⟨_, (exec_segmentCompressDone hg hf).trans ((if_neg (hstay.2 hgo)).trans (if_pos (by simp))), rfl, rfl, rfl⟩
    · exact (exec_segmentCompressDone hg hf).trans (if_pos (not_not.1 fun h => hgo (hstay.1 h)))
  case closed =>
    intro ha
    exact if_neg (by simp [ha])
  case admission =>
    intro hs c cs x ha ho hn hh hb hf hq hst he hm hx pass
    have hdone : ∀ {t : State}, s.tryCmd c = .done t → exec .admission s = .next (pass t) :=
      admission_done ha ho hn hh hb hf hq
    have hgo : ∀ {t : State}, c.e.opc ≠ opFlush → (c.done = 0 → s.accessCheck c = none) → s.tryNs x c = .done t →
        exec .admission s = .next (pass t) := fun hop hacc ht => hdone ((tryCmd_waiting hst he hm hop hacc hx).trans ht)
    refine ⟨?refused, ?slot, ?write, ?discard, ?read, ?append, ?exec⟩
    case refused => exact fun hd hop st hacc => hdone (tryCmd_refused hst he hm hop hd hacc)
    case slot =>
      intro hd hacc hop hr
      refine hgo ?_ (fun _ => hacc) (tryNs_slotRefused hop hd hr)
      rcases hop with h | h <;> rw [h] <;> decide
    case write =>
      intro hacc hop hr k hk hmeta
      obtain ⟨hstore, hcmds⟩ := writePiece_spec s x c k
      exact ⟨_, hgo (by rw [hop]; decide) hacc (tryNs_write_piece hop hr hk hmeta), rfl, hstore, hcmds⟩
    case discard =>
      intro hd hacc hop hr hmeta
      obtain ⟨t, ht, hstore, hcmds⟩ := tryNs_discard_whole hop hr hmeta
      exact ⟨_, hgo (by rw [hop]; decide) (fun _ => hacc) ht, hstore, hcmds⟩
    case read =>
      intro hacc hop hn k hk
      exact hgo (by rw [hop]; decide) hacc (tryNs_read hop hn hk)
    case append =>
      intro h w plan hd hacc hop hh hw hs hm hr hg
      exact hgo (by rw [hop]; decide) (fun _ => hacc) (tryNs_append_go hop hh hw hs hm hr hg)
    case exec =>
      intro hd hacc hop
      exact hgo (by rw [hop]; decide) (fun _ => hacc) (tryNs_exec hop)

end Sys2Proof.Machine
end

section
/-!
SUPPORT. Image slots, freezes and trims: the check of a slot as R95 admits it, and the statement ImagesAndRegionsRecorded.
-/

namespace Sys2Proof.Machine

open Sys2Proof

/-- A command on an image slot runs where the slot is in a state that the command admits (R95). -/
theorem onSlot_admits {s : State} {x : Ns} {k : Nat} {ok : SlotState → Bool} {go : Slot → MbResult} {y : Slot}
    (hy : (s.slotsAccepted x)[k]? = some y) (hok : ok y.st = true) : s.onSlot x k ok go = go y := by
  simp only [State.onSlot, hy, hok, if_true]

/-- A slot in any other state answers ST_IMG_SLOT_STATE. -/
theorem onSlot_refuses {s : State} {x : Ns} {k : Nat} {ok : SlotState → Bool} {go : Slot → MbResult} {y : Slot}
    (hy : (s.slotsAccepted x)[k]? = some y) (hok : ok y.st = false) :
    s.onSlot x k ok go = .refuse St.imgSlotState [] := by
  simp only [State.onSlot, hy, hok, Bool.false_eq_true, if_false]

/-- The states in which `ns.image.erase` takes a slot are all but ACTIVE and verify pending. -/
theorem erasable_iff (z : SlotState) : (z == .empty || z == .staging || z == .verified || z == .previous) = false ↔
    z = .active ∨ z = .verifyPending := by
  cases z <;> decide

/-- Settles O7: each change of regions and slots is recorded with its reply after the seal where R90, R91 and R95 allow
it, verify and trim begin a long command, and a retained record stops a trim (R88, R90, R91, R95, R96, R484). -/
theorem imagesAndRegionsRecorded : Obligations.ImagesAndRegionsRecorded := by
  intro s n r x
  dsimp only
  intro hx
  refine ⟨?freeze, ?freezeLimit, ?unfreeze, ?imageOpen, ?verify, ?activate, ?rollback, ?erase, ?trim⟩
  case freeze =>
    intro u h hsns hspan hu
    refine exec_turn_persist rfl h ((onNs_serves hx (by simp [hsns, hspan])).trans ?_)
    rw [hu]
  case freezeLimit =>
    intro h hsns hspan hmany
    have hnone : (s.taken n).freezeNs x = none := if_pos hmany
    refine exec_turn_refuse rfl h ((onNs_serves hx (by simp [hsns, hspan])).trans ?_)
    rw [hnone]
  case unfreeze =>
    intro h
    split
    · next hregion => exact exec_turn_persist rfl h ((onNs_serves hx rfl).trans (if_pos hregion))
    · next hregion => exact exec_turn_refuse rfl h ((onNs_serves hx rfl).trans (if_neg hregion))
  case imageOpen =>
    intro y h hins hy hst
    exact exec_turn_persist rfl h ((onNs_serves hx hins).trans (onSlot_admits hy (by simp [hst])))
  case verify =>
    intro y h hins hlen hy hst hfew
    refine exec_turn_long (go := fun u => u.record [.slot x.f.nsid (fld r 32 2)
      ⟨.verifyPending, fld r 64 64, fldB r 16 32, s.hz.epoch, s.recs.nextLong, n⟩]) rfl h hfew ?_
    exact (onNs_serves hx hins).trans ((if_neg (Nat.not_lt.mpr hlen)).trans (onSlot_admits hy (by simp [hst])))
  case activate =>
    intro y h hins hy hst
    exact exec_turn_persist rfl h ((onNs_serves hx hins).trans (onSlot_admits hy (by simp [hst])))
  case rollback =>
    intro y h hins hy
    have hst : (y.st == .previous) = true := by
      obtain ⟨hlt, rfl⟩ := List.getElem?_eq_some_iff.mp hy
      exact List.findIdx_getElem (p := fun z : Slot => z.st == .previous)
    exact exec_turn_persist rfl h ((onNs_serves hx hins).trans (onSlot_admits hy hst))
  case erase =>
    intro y h hins hy
    split
    · next hbusy =>
      exact exec_turn_refuse rfl h ((onNs_serves hx hins).trans (onSlot_refuses hy ((erasable_iff _).mpr hbusy)))
    · next hfree =>
      have hok := Bool.eq_true_of_not_eq_false (mt (erasable_iff y.st).mp hfree)
      exact exec_turn_persist rfl h ((onNs_serves hx hins).trans (onSlot_admits hy hok))
  case trim =>
    intro h hrns hreplica hfew
    have hown : ¬ x.isReplica = true := Bool.eq_false_iff.mp hreplica
    split
    · next hkept =>
      exact exec_turn_refuse rfl h ((onNs_serves hx hrns).trans ((if_neg hown).trans (if_pos hkept)))
    · next hkept =>
      refine exec_turn_long (go := fun u => u.record [.trim x.f.nsid (min (fld r 64 64) (s.hz.epoch - 1)) n
        s.recs.nextLong]) rfl h hfew ?_
      exact (onNs_serves hx hrns).trans ((if_neg hown).trans (if_neg hkept))

end Sys2Proof.Machine
end

section
/-!
SUPPORT. The checks of fetched commands (R376): a failing check ends the command, a passing one runs the command's own
part; the statement CommandChecks.
-/

namespace Sys2Proof.Machine

open Sys2Proof

section Checked

variable {s : State} {n q cid opc : Nat} {bufs : List BufEntry} {c : Cmd} (hc : s.toCheck n q cid opc = some c)
  (go : Cmd → Ns → State)
include hc

theorem checked_fails {st : Status} (h : s.checks c bufs = .error st) :
    s.checked n q cid opc bufs go = s.failCmd c st := by
  simp only [State.checked, hc, h]

theorem checked_passes {x : Ns} (h : s.checks c bufs = .ok x) : s.checked n q cid opc bufs go = go c x := by
  simp only [State.checked, hc, h]

end Checked

/-- A check that only streams take passes where it passes for a stream (R109). -/
theorem streamCheck_none {b : Bool} {o : Option Status} (h : b = true → o = none) : (if b then o else none) = none := by
  split
  · next hb => exact h hb
  · rfl

/-- Settles O30: the first failing check of R376 ends a command, and one that passes waits for its data, its class or its
turn (R81, R109, R285, R373, R375, R376, R384). -/
theorem commandChecks : Obligations.CommandChecks := by
  intro s n q cid bufs c
  refine ⟨?fails, ?read, ?write, ?discard, ?flush, ?append, ?exec⟩
  case fails =>
    intro st i hc h
    have hend : ∀ go, Host.Outcome.next (s.checked n q cid i.2 (if i.1 then bufs else []) go) =
        (.next (s.failCmd c st) : Res) := fun go => congrArg _ (checked_fails hc go h)
    refine ⟨?_, ?_, ?_, ?_, ?_, ?_⟩
    · rintro rfl; exact hend _
    · rintro rfl; exact hend _
    · rintro rfl hdr; exact hend _
    · rintro rfl; exact hend _
    · rintro rfl; exact hend _
    · rintro rfl b; exact hend _
  case read =>
    intro x hc h hstream
    refine congrArg Host.Outcome.next ((checked_passes hc _ h).trans ?_)
    have hbound : ¬ (x.isStream = true ∧ ¬ s.streamBound x.f.nsid c.e.stream = true) :=
      fun ⟨hx, hno⟩ => hno (hstream hx).1
    have hend : ¬ (x.isStream = true ∧ s.streamEnd c.e.stream < c.e.addr + c.e.len) :=
      fun ⟨hx, hpast⟩ => Nat.not_lt.mpr (hstream hx).2 hpast
    exact (if_neg hbound).trans (if_neg hend)
  case write =>
    intro x hc h hstream
    refine congrArg Host.Outcome.next ((checked_passes hc _ h).trans ?_)
    rw [streamCheck_none hstream]
  case discard =>
    intro x hc h hstream
    refine congrArg Host.Outcome.next ((checked_passes hc _ h).trans ?_)
    rw [streamCheck_none hstream]
  case flush =>
    intro x hc h
    exact congrArg Host.Outcome.next (checked_passes hc _ h)
  case append =>
    intro x hdr hc h hmirror hrec
    refine congrArg Host.Outcome.next ((checked_passes hc _ h).trans ?_)
    rw [hmirror, hrec]
  case exec =>
    intro x b hc h hwindow hexec
    refine congrArg Host.Outcome.next ((checked_passes hc _ h).trans ?_)
    refine (if_neg (not_not_intro hwindow)).trans ?_
    rw [hexec]

end Sys2Proof.Machine
end

section
/-!
SUPPORT. Records and mirrors: a frame in order with its header, the parts of a record that arrive, NAKs, and the frames
between the primary and its replica; the statement RecordsAndMirrors.
-/

namespace Sys2Proof.Machine

open Sys2Proof

/-! ### A frame in order (R303 to R305) -/

/-- Frame `f` received in order on port `p`: its ACK is taken, its SEQ is the last one received, and an ACK is due. -/
def State.inOrder (s : State) (p : Nat) (f : Frame) : State :=
  s.modPort p fun x => { x.ack f.ack with rxSeq := f.seq, ackDue := true }

theorem onFrame_inOrder {s : State} {p len : Nat} {f : Frame} (hup : (s.port p).st = .up) (hok : frameOk f len = true)
    (htag : f.tagOk = true) (hseq : f.seq = (s.port p).rxSeq + 1) (go : State → State) :
    s.onFrame p f len go = go (s.inOrder p f) := by
  have hgap : ¬ (f.tagOk = false ∨ (s.port p).rxSeq + 1 < f.seq) := by simp [htag, hseq]
  have hold : ¬ f.seq ≤ (s.port p).rxSeq := by omega
  simp only [State.onFrame, hup, hok, if_neg hgap, if_neg hold, Bool.true_eq_false, if_false]
  rfl

/-- DATA in order to this device brings its bytes. -/
theorem exec_data_inOrder {s : State} {p : Nat} {f : Frame} {bs : Data} (hup : (s.port p).st = .up)
    (hok : frameOk f bs.length = true) (htag : f.tagOk = true) (hseq : f.seq = (s.port p).rxSeq + 1)
    (hdst : f.dst = s.node ∨ f.dst = 65535) : exec (.data p f bs) s = .next ((s.inOrder p f).takeData p f bs) :=
  congrArg Host.Outcome.next ((onFrame_inOrder hup hok htag hseq _).trans (if_pos hdst))

@[simp] theorem State.inOrder_mirror (s : State) (p : Nat) (f : Frame) : (s.inOrder p f).zl.mirror = s.zl.mirror := rfl

@[simp] theorem State.inOrder_node (s : State) (p : Nat) (f : Frame) : (s.inOrder p f).node = s.node := rfl

theorem lt_ports_inOrder {s : State} {p : Nat} (f : Frame) (hup : (s.port p).st = .up) :
    p < (s.inOrder p f).zl.ports.length :=
  (lt_ports_of_up hup).trans_eq (updAt_length ..).symm

/-! ### Records under way (R81, R308) -/

/-- A record under way is found by its flow. -/
theorem flow_of_partial? {x : Port} {src rid : Nat} {r : LinkRec} (h : x.partial? src rid = some r) :
    r.rid = rid ∧ r.src = src := by
  have hr := List.find?_some h
  simp only [Bool.and_eq_true, beq_iff_eq] at hr
  exact hr.1

section Partial

variable {s : State} {p : Nat} {r : LinkRec} {h : RecHeader} (hh : r.hdr = some h)
include hh

theorem moreData_tooLong (fin : Bool) (hlen : 32 + h.declLen < r.bytes.length) :
    s.moreData p r fin = s.refuseRec p r fin St.lengthLong := by
  simp only [State.moreData, hh, if_pos hlen]

theorem moreData_unfinished (hlen : r.bytes.length ≤ 32 + h.declLen) :
    s.moreData p r false = s.setPartial p r.src r.rid (some r) := by
  simp only [State.moreData, hh, if_neg (Nat.not_lt.mpr hlen), if_true]

/-- At END a record that passes checks 5 to 7 of R81 is complete. -/
theorem moreData_whole (hlen : r.bytes.length ≤ 32 + h.declLen) (hlast : s.lastCheck p r h = none) :
    s.moreData p r true = s.setPartial p r.src r.rid (some { r with complete := true }) := by
  simp only [State.moreData, hh, if_neg (Nat.not_lt.mpr hlen), hlast, Bool.true_eq_false, if_false]

variable {f : Frame} (hrid : f.rid ≠ 0) (hr : (s.port p).partial? f.src f.rid = some r)
include hrid hr

/-- Bytes of a record under way join those it holds. -/
theorem takeData_partial (bs : Data) :
    s.takeData p f bs = s.moreData p { r with bytes := r.bytes ++ bs } (bitAt f.flags 0) := by
  simp only [State.takeData, if_neg hrid, hr, hh, Option.isSome_some, if_true]

theorem takeData_append {bs : Data} (hfin : bitAt f.flags 0 = false)
    (hlen : r.bytes.length + bs.length ≤ 32 + h.declLen) :
    s.takeData p f bs = s.setPartial p f.src f.rid (some { r with bytes := r.bytes ++ bs }) := by
  obtain ⟨hflow, hsrc⟩ := flow_of_partial? hr
  rw [← hflow, ← hsrc, takeData_partial hh hrid hr, hfin]
  exact moreData_unfinished hh (by simpa using hlen)

theorem takeData_tooLong {bs : Data} (hlen : 32 + h.declLen < r.bytes.length + bs.length) :
    s.takeData p f bs = s.refuseRec p { r with bytes := r.bytes ++ bs } (bitAt f.flags 0) St.lengthLong := by
  rw [takeData_partial hh hrid hr]
  exact moreData_tooLong (r := { r with bytes := r.bytes ++ bs }) hh _ (by simpa using hlen)

end Partial

theorem mem_recs_setPartial {s : State} {p : Nat} (hp : p < s.zl.ports.length) (src rid : Nat) (r : LinkRec) :
    r ∈ ((s.setPartial p src rid (some r)).port p).recs := by
  rw [State.setPartial, port_modPort hp]
  exact List.mem_append_right _ (List.mem_singleton_self r)

/-! ### PAUSE keeps the records (R308) -/

theorem modPort_recs {g : Port → Port} (hg : ∀ x, (g x).recs = x.recs) (s : State) (p : Nat) :
    ((s.modPort p g).port p).recs = (s.port p).recs := by
  by_cases hp : p < s.zl.ports.length
  · rw [port_modPort hp, hg]
  · simp [State.modPort, State.port, updAt, List.getD_eq_getElem?_getD, hp]

theorem sendFrame_recs (s : State) (p typ dst rid arg : Nat) :
    ((s.sendFrame p typ dst rid arg).port p).recs = (s.port p).recs := by
  unfold State.sendFrame
  extract_lets x o
  clear_value o
  split
  · exact (modPort_recs (g := fun x => { x with
      txSeq := x.txSeq + 1, unacked := x.unacked ++ [(x.txSeq + 1, ⟨p, typ, dst, rid, arg⟩)], ackDue := false })
      (fun _ => rfl) s p :)
  · rfl

theorem pausePeer_recs (s : State) (p : Nat) : ((s.pausePeer p).port p).recs = (s.port p).recs := by
  unfold State.pausePeer
  split
  · rfl
  · rw [sendFrame_recs]
    exact modPort_recs (g := fun x => { x with sentPause := true }) (fun _ => rfl) s p

theorem pausePeer_frame (s : State) (p : Nat) : s.pausePeer p = { s with zl := (s.pausePeer p).zl } := by
  unfold State.pausePeer
  split
  · rfl
  · rw [State.sendFrame_frame]
    rfl

/-! ### Whole records (R81, R308) -/

/-- The record that frame `f` begins with bytes `bs`. -/
def State.arriving (s : State) (f : Frame) (bs : Data) : LinkRec :=
  ⟨f.rid, f.src, bitsAt f.arg 0 32, bitsAt f.arg 32 12, bs, none, none, false, false,
    (s.store.ns? (bitsAt f.arg 0 32)).elim false fun n => n.mirror && n.replica && n.f.mirrorNode == f.src, none⟩

theorem takeData_first {s : State} {p : Nat} {f : Frame} (hrid : f.rid ≠ 0)
    (hnew : (s.port p).partial? f.src f.rid = none) (bs : Data) :
    s.takeData p f bs = s.firstData p (s.arriving f bs) (bitAt f.flags 0) := by
  simp only [State.takeData, if_neg hrid, hnew, State.arriving]

/-- The one frame of a whole record that passes its checks and fits the ingress share is held complete; what PAUSE may
follow changes Zelim alone. -/
theorem firstData_whole {s : State} {p : Nat} {r : LinkRec} (hp : p < s.zl.ports.length)
    (hlen : r.bytes.length = 32 + (headerOf r.bytes).declLen) (hfirst : s.firstCheck r (headerOf r.bytes) = none)
    (hlast : s.lastCheck p { r with hdr := some (headerOf r.bytes) } (headerOf r.bytes) = none)
    (hport : s.portHeld p + r.bytes.length ≤ s.portShare p) (hall : s.ingressAll + r.bytes.length ≤ Config.ingressBytes) :
    ∃ t, s.firstData p r true = t ∧ t = { s with zl := t.zl } ∧
      { r with hdr := some (headerOf r.bytes), complete := true } ∈ (t.port p).recs := by
  have hlong : ¬ r.bytes.length < 32 := by omega
  have hfits : ¬ (s.portShare p < s.portHeld p + (32 + (headerOf r.bytes).declLen) ∨
      Config.ingressBytes < s.ingressAll + (32 + (headerOf r.bytes).declLen)) := by omega
  have hwhole := moreData_whole (p := p) (r := { r with hdr := some (headerOf r.bytes) }) rfl hlen.le hlast
  have hmem := mem_recs_setPartial hp r.src r.rid { r with hdr := some (headerOf r.bytes), complete := true }
  refine ⟨_, rfl, ?_⟩
  simp only [State.firstData, if_neg hlong, hfirst, if_neg hfits, hwhole]
  split
  · rw [pausePeer_recs]
    exact ⟨pausePeer_frame _ _, hmem⟩
  · exact ⟨rfl, hmem⟩

/-! ### NAK (R307, R332) -/

theorem failCmd_zl (s : State) (c : Cmd) (st : Status) : (s.failCmd c st).zl = s.zl := by
  have hend : (s.endCmd c st 0).zl = s.zl := (congrArg State.zl (s.endCmd_silent c st 0) :)
  unfold State.failCmd
  dsimp only
  split
  · unfold State.recordNext
    split <;> exact hend
  · exact hend

/-- The mirror record that a NAK names goes, and no other. -/
theorem nakMirror_mirror (s : State) (m : MirrorRec) (st : Status) :
    (s.nakMirror m st).zl.mirror = s.zl.mirror.filter fun x => x.rid != m.rid := by
  unfold State.nakMirror
  dsimp only
  split
  · rw [failCmd_zl, State.modZl_zl]
  · rfl

theorem nakRoute_mirror (s : State) (n : Nat) (st : Status) : (s.nakRoute n st).zl.mirror = s.zl.mirror := by
  unfold State.nakRoute
  split <;> rfl

/-- A NAK that comes from no node of a route changes nothing. -/
theorem nakRoute_none {s : State} {n : Nat} (h : ∀ r ∈ s.zl.routes, r.node ≠ n) (st : Status) : s.nakRoute n st = s := by
  have hnone : s.zl.routes.find? (fun r => r.node == n) = none := by simpa using h
  simp only [State.nakRoute, hnone]

section Nak

variable {s : State} {p : Nat} {f : Frame} (hup : (s.port p).st = .up) (hok : frameOk f f.len = true) (htag : f.tagOk = true)
  (hseq : f.seq = (s.port p).rxSeq + 1) (hdst : f.dst = s.node ∨ f.dst = 65535)
  (hlate : BitVec.ofNat 16 (bitsAt f.arg 0 16) ≠ St.zlMirrorLate) (hrid : f.rid ≠ 0)
include hup hok htag hseq hdst hlate hrid

/-- A NAK to this device that names a mirror record refuses it. -/
theorem exec_nak_mirror {m : MirrorRec} (hm : s.zl.mirror.find? (fun m => m.rid == f.rid) = some m) :
    exec (.nak p f) s = .next ((s.inOrder p f).nakMirror m (BitVec.ofNat 16 (bitsAt f.arg 0 16))) := by
  have hhere : ¬ (f.dst ≠ s.node ∧ f.dst ≠ adjacent) := fun h => hdst.elim h.1 h.2
  refine congrArg Host.Outcome.next ((onFrame_inOrder hup hok htag hseq _).trans ?_)
  rw [State.inOrder_node, State.inOrder_mirror, if_neg hhere, if_neg hlate, if_neg hrid, hm]

/-- Any other NAK with a RID counts on the route of its node. -/
theorem exec_nak_route (hm : ∀ m ∈ s.zl.mirror, m.rid ≠ f.rid) :
    exec (.nak p f) s = .next ((s.inOrder p f).nakRoute f.src (BitVec.ofNat 16 (bitsAt f.arg 0 16))) := by
  have hhere : ¬ (f.dst ≠ s.node ∧ f.dst ≠ adjacent) := fun h => hdst.elim h.1 h.2
  have hnone : s.zl.mirror.find? (fun m => m.rid == f.rid) = none := by simpa using hm
  refine congrArg Host.Outcome.next ((onFrame_inOrder hup hok htag hseq _).trans ?_)
  rw [State.inOrder_node, State.inOrder_mirror, if_neg hhere, if_neg hlate, if_neg hrid, hnone]

/-- After a NAK with a RID no mirror record has that RID. -/
theorem exec_nak_unlists : ∃ t, exec (.nak p f) s = .next t ∧ ∀ m ∈ t.zl.mirror, m.rid ≠ f.rid := by
  cases hm : s.zl.mirror.find? fun m => m.rid == f.rid with
  | some m =>
    have hmrid : m.rid = f.rid := by simpa using List.find?_some hm
    refine ⟨_, exec_nak_mirror hup hok htag hseq hdst hlate hrid hm, fun x hx => ?_⟩
    rw [nakMirror_mirror, hmrid] at hx
    simpa using (List.mem_filter.mp hx).2
  | none =>
    have hnone : ∀ m ∈ s.zl.mirror, m.rid ≠ f.rid := by simpa using hm
    refine ⟨_, exec_nak_route hup hok htag hseq hdst hlate hrid hnone, ?_⟩
    rw [nakRoute_mirror]
    exact hnone

end Nak

/-! ### Frames between primary and replica (R331 to R333) -/

section Mirror

variable {s : State} {p : Nat} (hup : (s.port p).st = .up)
include hup

theorem port_received : (s.received p).port p = { s.port p with rxSeq := (s.port p).rxSeq + 1, ackDue := true } :=
  port_modPort (lt_ports_of_up hup) _

theorem exec_mirrorCreate_up (node offset : Nat) (q : NsFields) : exec (.mirrorCreate p node q offset) s = .next
    (if s.inRing = false ∨ s.hz.ticking = false ∨ s.refusesMirror q offset = true then
      (s.received p).sendNak p node 0 ((s.port p).rxSeq + 1) St.nsMirrorPeer
     else ((s.received p).record [.nsCreate { q with mirrorNode := node } s.hz.epoch true]).sendTo fMirror node 0 0) := by
  refine congrArg Host.Outcome.next ((onPort_up hup _).trans ?_)
  rw [port_received hup]
  rfl

theorem exec_mirrorHeld_up (rid : Nat) : exec (.mirrorHeld p rid) s = .next
    (if rid = 0 then (s.received p).createHeld
     else (s.received p).modZl fun z => { z with
      mirror := updIf (fun m => m.rid == rid) (fun m => { m with held := true }) z.mirror }) :=
  congrArg Host.Outcome.next (onPort_up hup _)

theorem exec_mirrorAdmit_none {rid : Nat} (g : Nat)
    (hr : (s.port p).recs.find? (fun r => r.rid == rid && r.complete && r.mirror) = none) :
    exec (.mirrorAdmit p rid g) s = .next (s.received p) := by
  refine congrArg Host.Outcome.next ((onPort_up hup _).trans ?_)
  rw [port_received hup, hr]

theorem exec_mirrorAdmit_some {rid : Nat} {r : LinkRec} (g : Nat)
    (hr : (s.port p).recs.find? (fun r => r.rid == rid && r.complete && r.mirror) = some r) :
    exec (.mirrorAdmit p rid g) s = .next
      (if g < s.gtickNow ∨ (g = s.gtickNow ∧ s.admits = false) then (s.received p).rejectRec p r St.zlMirrorLate
       else if g = s.gtickNow then (s.received p).mirrorGo p r
       else (s.received p).modRec p rid fun x => { x with ticket := some g }) := by
  refine congrArg Host.Outcome.next ((onPort_up hup _).trans ?_)
  rw [port_received hup, hr]
  rfl

end Mirror

theorem createHeld_none {s : State} (h : s.zl.creating = none) : s.createHeld = s := by
  simp only [State.createHeld, h]

theorem createHeld_some {s : State} {fn tag : Nat} {g : NsFields} (h : s.zl.creating = some (fn, tag, g)) :
    s.createHeld = ((s.modZl fun z => { z with creating := none }).record [.nsCreate g s.hz.epoch false]).stage fn 0x0301 tag
      St.ok [g.nsid] (some s.hz.epoch) := by
  simp only [State.createHeld, h]

/-- Settles O53: records are built from DATA and checked first and last, a NAK takes the mirror record that it names off the
list, and mirror frames create, hold and release on the replica (R81, R304, R307, R308, R331 to R333). -/
theorem recordsAndMirrors : Obligations.RecordsAndMirrors := by
  intro s p a b f bs q hup
  have hcreate := exec_mirrorCreate_up hup a b q
  have hheld := exec_mirrorHeld_up hup
  dsimp only
  refine ⟨?data, ?nak, ?refuse, ?create, ?held, ?heldNone, ?heldCreate, ?ticketNone, ?ticket, fun hc ht => if_pos ⟨hc, ht⟩,
    ?copyNone⟩
  case data =>
    intro hok htag hseq hdst
    have hdata := exec_data_inOrder hup hok htag hseq hdst
    refine ⟨fun hrid => hdata.trans (congrArg _ (if_pos hrid)), ?underWay, ?whole⟩
    case underWay =>
      intro r h hrid hr hh
      exact ⟨fun hfin hlen => hdata.trans (congrArg _ (takeData_append hh hrid hr hfin hlen)),
        fun hlen => hdata.trans (congrArg _ (takeData_tooLong hh hrid hr hlen))⟩
    case whole =>
      intro hrid hnew hfin hlen hfirst hlast hport hall
      obtain ⟨t, ht, hheld⟩ := firstData_whole (r := (s.inOrder p f).arriving f bs) (lt_ports_inOrder f hup) hlen hfirst
        hlast hport hall
      rw [← hfin] at ht
      exact ⟨t, hdata.trans (congrArg _ ((takeData_first hrid hnew bs).trans ht)), hheld⟩
  case nak =>
    intro hok htag hseq hdst hlate
    refine ⟨fun hrid => exec_nak_unlists hup hok htag hseq hdst hlate hrid, fun hrid hm hroute => ?_⟩
    exact (exec_nak_route hup hok htag hseq hdst hlate hrid hm).trans
      (congrArg _ (nakRoute_none (s := s.inOrder p f) hroute _))
  case refuse => exact fun h => hcreate.trans (congrArg _ (if_pos h))
  case create =>
    intro hring hticks hok
    exact hcreate.trans (congrArg _ (if_neg (by simp [hring, hticks, hok])))
  case held =>
    intro ha
    rw [hheld, if_neg ha]
    simp only [updIf, beq_iff_eq]
    rfl
  case heldNone => exact fun hn => (hheld 0).trans (congrArg _ (createHeld_none (s := s.received p) hn))
  case heldCreate => exact fun fn tag g hg => (hheld 0).trans (congrArg _ (createHeld_some (s := s.received p) hg))
  case ticketNone =>
    intro h
    exact exec_mirrorAdmit_none hup b (by simpa using h)
  case ticket =>
    intro r hr
    have hadmit := exec_mirrorAdmit_some hup b hr
    refine ⟨fun hlate => hadmit.trans (congrArg _ (if_pos hlate)), fun hb hopen => ?_, fun hb => ?_⟩
    · exact hadmit.trans (congrArg _ ((if_neg (by simp [hb, hopen])).trans (if_pos hb)))
    · exact hadmit.trans (congrArg _ ((if_neg (by omega)).trans (if_neg (by omega))))
  case copyNone =>
    intro h
    refine if_neg fun ⟨hc, ht⟩ => ?_
    exact h.elim (fun h => Bool.false_ne_true (h.symm.trans hc)) fun h => Bool.false_ne_true (h.symm.trans ht)

end Sys2Proof.Machine
end

section
/-!
SUPPORT. What the placing of data keeps: super-blocks that open, data positions that are taken, moves that are planned and map
structures that are programmed leave the rest of the flash and the states of the blocks that there are.
-/

namespace Sys2Proof.Machine

open Sys2Proof

/-! ### The rest of the flash -/

/-- The state without codewords, blocks, parity, stripes, moves and the free values: what the placing of data changes. -/
def State.sansPlaces (s : State) : State :=
  { s with
    flash := { s.flash with
      cells := [], blocks := [], moves := [], parity := [], stripes := [], collecting := false, logSupers := [] }
    freeCtr := 0 }

theorem sansPlaces_of_sansMoves {s t : State} (h : t.sansMoves = s.sansMoves) : t.sansPlaces = s.sansPlaces :=
  (congrArg State.sansPlaces h :)

theorem sansFlash_of_sansPlaces {s t : State} (h : t.sansPlaces = s.sansPlaces) : t.sansFlash = s.sansFlash :=
  (congrArg State.sansFlash h :)

section Fields

variable {s t : State} (h : t.sansPlaces = s.sansPlaces)
include h

theorem segs_of_sansPlaces : t.flash.segs = s.flash.segs := (congrArg (·.flash.segs) h :)
theorem writeback_of_sansPlaces : t.flash.writeback = s.flash.writeback := (congrArg (·.flash.writeback) h :)

end Fields

@[simp] theorem State.openSuper_sansPlaces (s : State) (sb mode : Nat) : (s.openSuper sb mode).sansPlaces = s.sansPlaces := rfl

theorem withSuper_sansPlaces {s u : State} {must : Bool} {sb mode : Nat} (h : s.withSuper must sb mode = some u) :
    u.sansPlaces = s.sansPlaces := by
  rcases withSuper_cases h with rfl | rfl
  · rfl
  · exact s.openSuper_sansPlaces sb mode

@[simp] theorem State.rewrite_sansPlaces (s : State) (p : Nat → Bool) : (s.rewrite p).sansPlaces = s.sansPlaces := by
  rcases s.rewrite_cases p with h | ⟨sb, u, a, is, hu, h⟩
  · rw [h]
  · rw [h, sansPlaces_of_sansMoves (u.moveAll_sansMoves is a), withSuper_sansPlaces hu]
    rcases s.ownTarget_cases with ht | ht
    · rw [ht]
    · rw [ht]
      rfl

/-- What the move of live codewords does: nothing, or moves are planned in a super-block that is open or opens. -/
theorem State.moveLive_cases (s : State) (must : Bool) (p : Nat → Bool) (a : Nat) : s.moveLive must p a = s ∨
    ∃ u, s.withSuper must (superOf a) 1 = some u ∧ s.moveLive must p a = u.moveAll a (s.moveItems p) := by
  unfold State.moveLive
  split
  · next u h => exact .inr ⟨u, h, rfl⟩
  · exact .inl rfl

@[simp] theorem State.moveLive_sansPlaces (s : State) (must : Bool) (p : Nat → Bool) (a : Nat) :
    (s.moveLive must p a).sansPlaces = s.sansPlaces := by
  rcases s.moveLive_cases must p a with h | ⟨u, hu, h⟩
  · rw [h]
  · rw [h, sansPlaces_of_sansMoves (u.moveAll_sansMoves _ a), withSuper_sansPlaces hu]

/-! ### Moves and block states -/

/-- Data positions taken keep whatever new stripes and marks in stripes keep. -/
theorem takeOne_keeps {β : Type} (get : State → β) (hadd : ∀ s p mode, get (s.addStripe p mode) = get s)
    (hmark : ∀ s a, get (s.markTaken a) = get s) {s u : State} {redun n mode a : Nat} {move : Bool}
    (h : s.takeOne redun n mode move a = some u) : get u = get s := by
  unfold State.takeOne at h
  split at h
  · cases h
  · split at h
    · split at h
      · cases h
        exact hmark s a
      · cases h
    · split at h
      · split at h
        · cases h
          exact (hmark ..).trans (hadd ..)
        · cases h
      · cases h

theorem takeRun_keeps {β : Type} (get : State → β) (hadd : ∀ s p mode, get (s.addStripe p mode) = get s)
    (hmark : ∀ s a, get (s.markTaken a) = get s) {redun n mode : Nat} {move : Bool} {k : Nat} :
    ∀ {a : Nat} {s : State} {r : List Nat × State}, State.takeRun redun n mode move k a s = some r → get r.2 = get s := by
  induction k with
  | zero =>
    intro a s r h
    cases h
    rfl
  | succ k ih =>
    intro a s r h
    unfold State.takeRun at h
    split at h
    · cases h
    · next h1 =>
      have hone := takeOne_keeps get hadd hmark h1
      split at h
      · cases h
        exact hone
      · split at h
        · cases h
        · obtain ⟨u, hu, rfl⟩ := Option.map_eq_some_iff.1 h
          exact (ih hu).trans hone

theorem takeRun_moves {redun n mode k a : Nat} {move : Bool} {s : State} {r : List Nat × State}
    (h : State.takeRun redun n mode move k a s = some r) : r.2.flash.moves = s.flash.moves :=
  takeRun_keeps (·.flash.moves) (fun _ _ _ => rfl) (fun _ _ => rfl) h

/-- The blocks that are not FREE, each with its state. -/
def State.blockStates (s : State) : List (Nat × BlockState) := s.flash.blocks.map fun b => (b.blk, b.st)

theorem mem_blockStates {s : State} {n : Nat} {st : BlockState} :
    (n, st) ∈ s.blockStates ↔ ∃ b ∈ s.flash.blocks, b.blk = n ∧ b.st = st := by
  simp [State.blockStates]

theorem map_updIf {α β : Type} {p : α → Bool} {f : α → α} {g : α → β} (h : ∀ x, g (f x) = g x) (l : List α) :
    (updIf p f l).map g = l.map g := by
  rw [updIf, List.map_map]
  refine List.map_congr_left fun x _ => ?_
  rw [Function.comp_apply]
  split
  · exact h x
  · rfl

theorem State.addStripe_blockStates (s : State) (p : Stripe) (mode : Nat) :
    (s.addStripe p mode).blockStates = s.blockStates := by
  unfold State.addStripe
  dsimp only
  refine map_updIf (g := fun b : Block => (b.blk, b.st)) ?_ s.flash.blocks
  exact fun _ => rfl

theorem takeRun_blockStates {redun n mode k a : Nat} {move : Bool} {s : State} {r : List Nat × State}
    (h : State.takeRun redun n mode move k a s = some r) : r.2.blockStates = s.blockStates :=
  takeRun_keeps State.blockStates State.addStripe_blockStates (fun _ _ => rfl) h

theorem addMoves_spec {s u : State} {ms : List Move} (h : s.addMoves ms = some u) :
    u = s.modFlash fun f => { f with moves := f.moves ++ ms } := by
  unfold State.addMoves at h
  split at h
  · exact (Option.some.inj h).symm
  · cases h

/-- An extent that moves takes the positions of its run and adds the moves of its plan. -/
theorem moveExtent_spec {s : State} {a i k : Nat} {r : Nat × State} (h : s.moveExtent a i k = some r) :
    ∃ x head xs, State.takeRun (s.store.redunOf i) s.hz.epoch 1 true (s.planLen (s.extentPlan i k)) a s = some x ∧
      r.2 = x.2.modFlash fun f => { f with moves := f.moves ++ s.planMoves i (s.extentPlan i k) [] head xs } := by
  unfold State.moveExtent at h
  dsimp only at h
  split at h
  · cases h
  · obtain ⟨x, hx, h⟩ := Option.bind_eq_some_iff.1 h
    obtain ⟨u, hu, rfl⟩ := Option.map_eq_some_iff.1 h
    exact ⟨x, _, _, hx, addMoves_spec hu⟩

theorem moveExtent_blockStates {s : State} {a i k : Nat} {r : Nat × State} (h : s.moveExtent a i k = some r) :
    r.2.blockStates = s.blockStates := by
  obtain ⟨x, head, xs, hx, hr⟩ := moveExtent_spec h
  rw [hr]
  exact takeRun_blockStates hx

theorem moveOne_blockStates {s : State} {a : Nat} {c : Codeword} {r : Nat × State} (h : s.moveOne a c = some r) :
    r.2.blockStates = s.blockStates := by
  unfold State.moveOne at h
  split at h
  · cases h
  · dsimp only at h
    obtain ⟨x, hx, h⟩ := Option.bind_eq_some_iff.1 h
    obtain ⟨u, hu, rfl⟩ := Option.map_eq_some_iff.1 h
    rw [addMoves_spec hu]
    exact takeRun_blockStates hx

@[simp] theorem State.moveAll_blockStates (is : List MoveItem) :
    ∀ (s : State) (a : Nat), (s.moveAll a is).blockStates = s.blockStates := by
  induction is with
  | nil => intro s a; rfl
  | cons i is ih =>
    intro s a
    unfold State.moveAll
    split
    · next r h =>
      rw [ih]
      cases i with
      | one c => exact moveOne_blockStates h
      | extent n k => exact moveExtent_blockStates h
    · exact ih s a

/-- A super-block that opens adds its blocks after those that there are. -/
theorem withSuper_blockStates {s u : State} {must : Bool} {sb mode : Nat} (h : s.withSuper must sb mode = some u) :
    s.blockStates <+: u.blockStates := by
  rcases withSuper_cases h with rfl | rfl
  · exact List.prefix_rfl
  · exact (List.prefix_append s.flash.blocks _).map fun b => (b.blk, b.st)

theorem moveLive_blockStates (s : State) (must : Bool) (p : Nat → Bool) (a : Nat) :
    s.blockStates <+: (s.moveLive must p a).blockStates := by
  rcases s.moveLive_cases must p a with h | ⟨u, hu, h⟩
  · rw [h]
  · rw [h, u.moveAll_blockStates]
    exact withSuper_blockStates hu

/-! ### Map segments and structures of the map area -/

/-- Segments that become dirty change the two cache tiers alone. -/
theorem touchSegs_keeps {β : Type} (get : Flash → β) (h : ∀ f gs t, get { f with segs := gs, tier1 := t } = get f) (n : Nat)
    (l : List (Nat × Nat × Nat × List Nat)) (f : Flash) : get (l.foldl (touchSeg n) f) = get f := by
  induction l generalizing f with
  | nil => rfl
  | cons x l ih => exact (ih _).trans (h f ..)

theorem renewSys_keeps {β : Type} (get : Flash → β) (h : ∀ f gs t, get { f with segs := gs, tier1 := t } = get f) (s : State)
    (bad : Nat → Bool) : get (s.renewSys bad).flash = get s.flash := touchSegs_keeps get h s.hz.epoch _ s.flash

/-- Codewords confirmed one after the other are added in order. -/
theorem confirmCells_cells {α : Type} (c : α → Codeword) (l : List α) (s : State) :
    (l.foldl (fun st x => st.confirmCell (c x)) s).flash.cells = s.flash.cells ++ l.map c := by
  induction l generalizing s with
  | nil => exact (List.append_nil _).symm
  | cons x l ih =>
    rw [List.foldl_cons, ih, List.map_cons, List.append_cons]
    rfl

@[simp] theorem State.putSys_sansPlaces (s : State) (as : List Nat) (key : Nat) (parts : List Data) :
    (s.putSys as key parts).sansPlaces = s.sansPlaces := by
  refine foldl_keeps State.sansPlaces _ ?_ _ s
  intro a x
  rfl

/-- A structure programmed has a codeword of the map area for each of its parts. -/
theorem putSys_cells {s : State} {as : List Nat} {key : Nat} {parts : List Data} {x : Nat × Data} (hx : x ∈ as.zip parts) :
    ∃ c ∈ (s.putSys as key parts).flash.cells, c.addr = x.1 ∧ c.data = x.2 ∧ c.utype = 3 := by
  obtain ⟨i, hi, rfl⟩ := List.mem_iff_getElem.1 hx
  refine ⟨sysCell ((as.zip parts)[i]).1 (key + i) s.hz.epoch (as.headD 0) ((as.zip parts)[i]).2, ?_, rfl, rfl, rfl⟩
  rw [State.putSys, confirmCells_cells, List.mem_append]
  exact .inr (List.mem_map.2 ⟨((as.zip parts)[i], i), List.mk_mem_zipIdx_iff_getElem?.2 (List.getElem?_eq_getElem hi), rfl⟩)

/-- A structure of the map area that is programmed stands in its codewords, and the rest of the flash stays. -/
theorem programMap_spec {s : State} {a : Nat} {d : Data} {r : List Nat × State} (h : s.programMap a d = some r) :
    r.2.sansPlaces = s.sansPlaces ∧
      ∀ x ∈ r.1.zip (codewordsOf d), ∃ c ∈ r.2.flash.cells, c.addr = x.1 ∧ c.data = x.2 ∧ c.utype = 3 := by
  unfold State.programMap at h
  split at h
  · cases h
  · next u hu =>
    obtain ⟨y, hy, rfl⟩ := Option.map_eq_some_iff.1 h
    refine ⟨?_, fun x hx => putSys_cells hx⟩
    calc (y.2.putSys y.1 0 (codewordsOf d)).sansPlaces
      _ = y.2.sansPlaces := State.putSys_sansPlaces ..
      _ = u.sansPlaces := sansPlaces_of_sansMoves (takeRun_sansMoves hy)
      _ = s.sansPlaces := withSuper_sansPlaces hu

end Sys2Proof.Machine
end

section
/-!
SUPPORT. Folding, collection, consolidation, erases, and the map segments: what each command plans, ends or programs; and the
statement BlocksAndSegments.
-/

namespace Sys2Proof.Machine

open Sys2Proof

/-! ### Victims (R108, R112, R113, R122) -/

/-- The state in which every full landing block of super-block `sb` is a victim. -/
def State.foldVictims (s : State) (sb : Nat) : State :=
  s.modFlash fun f => { f with
    blocks := updIf (fun b => superOf b.blk == sb && b.st == .fullLanding) (fun b => { b with st := .victim }) f.blocks }

theorem exec_fold {s : State} {a sb : Nat} (hsb : s.oldestLanding = some sb) (hrun : s.movesRun = true) :
    exec (.fold a) s = .next ((s.foldVictims sb).moveLive true (fun a => superOf a == sb) a) := by
  change execFold a s = _
  unfold execFold
  rw [hsb]
  exact if_pos hrun

/-- FOLD makes every full landing block of the oldest foldable super-block a victim. -/
theorem fold_spec {s : State} {a sb : Nat} (hsb : s.oldestLanding = some sb) (hrun : s.movesRun = true) :
    ∃ t, exec (.fold a) s = .next t ∧ t.store = s.store ∧ t.hz = s.hz ∧
      ∀ x ∈ s.flash.blocks, superOf x.blk = sb → x.st = .fullLanding → ∃ y ∈ t.flash.blocks, y.blk = x.blk ∧ y.st = .victim := by
  have hsans := sansFlash_of_sansPlaces ((s.foldVictims sb).moveLive_sansPlaces true (fun a => superOf a == sb) a)
  refine ⟨_, exec_fold hsb hrun, (store_of_sansFlash hsans :), (hz_of_sansFlash hsans :), fun x hx hxsb hfull => ?_⟩
  refine mem_blockStates.1 ((moveLive_blockStates ..).subset (mem_blockStates.2 ?_))
  exact ⟨{ x with st := .victim }, List.mem_map.2 ⟨x, hx, if_pos (by simp [hxsb, hfull])⟩, rfl, rfl⟩

/-- The state in which block `b` is a victim and the map structures in it are to be rewritten. -/
def State.gcVictim (s : State) (b : Nat) : State :=
  (s.modBlock b fun b => { b with st := .victim }).renewSys fun a => blockOf a == b

theorem exec_gcCollect {s : State} {a b : Nat} {x : Block} (hx : s.flash.blocks.find? (fun x => x.blk == b) = some x)
    (hrun : s.movesRun = true) (hc : s.collectable x = true) :
    exec (.gcCollect b a) s = .next ((s.gcVictim b).moveLive true (fun a => blockOf a == b) a) := by
  change execGcCollect b a s = _
  unfold execGcCollect
  rw [hx]
  exact if_pos ⟨hrun, hc⟩

theorem gcVictim_blocks (s : State) (b : Nat) :
    (s.gcVictim b).flash.blocks = updIf (fun x => x.blk == b) (fun x => { x with st := .victim }) s.flash.blocks :=
  renewSys_keeps (·.blocks) (fun _ _ _ => rfl) ..

/-- GC_COLLECT makes its collectable block a victim. -/
theorem gcCollect_spec {s : State} {a b : Nat} {x : Block} (hx : s.flash.blocks.find? (fun x => x.blk == b) = some x)
    (hrun : s.movesRun = true) (hc : s.collectable x = true) :
    ∃ t, exec (.gcCollect b a) s = .next t ∧ t.store.map = s.store.map ∧ t.store.extents = s.store.extents ∧ t.hz = s.hz ∧
      ∃ y ∈ t.flash.blocks, y.blk = b ∧ y.st = .victim := by
  have hsans := sansFlash_of_sansPlaces ((s.gcVictim b).moveLive_sansPlaces true (fun a => blockOf a == b) a)
  have hstore := store_of_sansFlash hsans
  have hb : x.blk = b := by simpa using List.find?_some hx
  refine ⟨_, exec_gcCollect hx hrun hc, (congrArg Store.map hstore :), (congrArg Store.extents hstore :),
    (hz_of_sansFlash hsans :), ?_⟩
  refine mem_blockStates.1 ((moveLive_blockStates ..).subset (mem_blockStates.2 ?_))
  rw [gcVictim_blocks]
  exact ⟨{ x with st := .victim }, List.mem_map.2 ⟨x, List.mem_of_find?_eq_some hx, if_pos (beq_iff_eq.2 hb)⟩, hb, rfl⟩

/-- The moves of an EXTENT_SET are one for each unit of its plan, in order. -/
theorem planMoves_spec (s : State) (i : Nat) (plan : List (Nat × Option Nat)) : ∀ done head xs,
    (s.planMoves i plan done head xs).map (·.key) = plan.map (·.1) ∧
      ∀ m ∈ s.planMoves i plan done head xs, m.nsid = i ∧ m.coarse = true ∧ m.confirmed = false := by
  have hcons : ∀ {m : Move} {ms : List Move} {k : Nat} {ks : List Nat}, m.key = k →
      m.nsid = i ∧ m.coarse = true ∧ m.confirmed = false →
      (ms.map (·.key) = ks ∧ ∀ m ∈ ms, m.nsid = i ∧ m.coarse = true ∧ m.confirmed = false) →
      (m :: ms).map (·.key) = k :: ks ∧ ∀ x ∈ m :: ms, x.nsid = i ∧ x.coarse = true ∧ x.confirmed = false :=
    fun hk hm ⟨hks, hms⟩ => ⟨List.cons_eq_cons.2 ⟨hk, hks⟩, List.forall_mem_cons.2 ⟨hm, hms⟩⟩
  induction plan with
  | nil => exact fun _ _ _ => ⟨rfl, List.forall_mem_nil _⟩
  | cons p plan ih =>
    intro done head xs
    obtain ⟨k, _ | a⟩ := p
    · exact hcons rfl ⟨rfl, rfl, rfl⟩ (ih ..)
    · unfold State.planMoves
      split
      · exact hcons rfl ⟨rfl, rfl, rfl⟩ (ih ..)
      · exact hcons rfl ⟨rfl, rfl, rfl⟩ (ih ..)

theorem extentPlan_of_store {s t : State} (h : t.store = s.store) (i k : Nat) : t.extentPlan i k = s.extentPlan i k := by
  unfold State.extentPlan State.extentLen
  rw [h]

/-- CONSOLIDATION of an extent with enough hot units is the move of the extent. -/
theorem exec_consolidation {s u : State} {i k a : Nat} {x : Extent} {r : Nat × State}
    (hx : (s.store.extents.filter fun x => x.run != [] && x.ovl.isSome).find? (fun x => x.nsid == i && x.key == k) = some x)
    (hrun : s.movesRun = true) (hhot : s.param 0x0513 0 ≤ x.hot.length) (hu : s.withSuper false (superOf a) 1 = some u)
    (hr : u.moveExtent a i k = some r) : exec (.consolidation i k a) s = .next r.2 := by
  change execConsolidation i k a s = _
  unfold execConsolidation
  dsimp only
  rw [hx]
  dsimp only
  rw [if_pos ⟨hrun, .inl hhot⟩, hu, Option.bind_some, hr]
  rfl

/-- An extent that fits at its target adds a move of each of its units, in order. -/
theorem moveExtent_moves {s u : State} {i k a : Nat} {r : Nat × State} (hu : s.withSuper false (superOf a) 1 = some u)
    (hr : u.moveExtent a i k = some r) : r.2.store = s.store ∧ r.2.hz = s.hz ∧
      ∃ ms, r.2.flash.moves = s.flash.moves ++ ms ∧ ms.map (·.key) = (s.extentPlan i k).map (·.1) ∧
        ∀ m ∈ ms, m.nsid = i ∧ m.coarse = true ∧ m.confirmed = false := by
  have husans := withSuper_sansFlash hu
  have hsans := (sansFlash_of_sansMoves (moveExtent_sansMoves hr)).trans husans
  have humoves : u.flash.moves = s.flash.moves := by
    rcases withSuper_cases hu with rfl | rfl
    · rfl
    · rfl
  obtain ⟨x, head, xs, hx, hr2⟩ := moveExtent_spec hr
  refine ⟨store_of_sansFlash hsans, hz_of_sansFlash hsans, u.planMoves i (u.extentPlan i k) [] head xs, ?_, ?_⟩
  · rw [hr2, State.modFlash_flash, takeRun_moves hx, humoves]
  · rw [← extentPlan_of_store (store_of_sansFlash husans)]
    exact planMoves_spec u i _ [] head xs

/-! ### Erases (R122, R124, R163) -/

/-- What the failure of a die or a member leaves alone: the durable state, codewords, wear, blocks, and the blocks erased. -/
def State.stock (s : State) : Store × List Codeword × List (Nat × Nat) × List Block × List Nat :=
  (s.store, s.flash.cells, s.flash.wear, s.flash.blocks, s.flash.erased)

theorem stock_of_sansEvents {s t : State} (h : t.sansEvents = s.sansEvents) : t.stock = s.stock :=
  (congrArg State.stock h :)

@[simp] theorem State.mediaEvent_stock (s : State) (st : Status) (n : Nat) : (s.mediaEvent st n).stock = s.stock :=
  stock_of_sansEvents (s.mediaEvent_sansEvents st n)

@[simp] theorem State.record_stock (s : State) (cs : List Ctrl) : (s.record cs).stock = s.stock := rfl
@[simp] theorem State.modDie_stock (s : State) (g : Nat) (h : Die → Die) : (s.modDie g h).stock = s.stock := rfl

@[simp] theorem State.failMember_stock (s : State) (m : Nat) : (s.failMember m).stock = s.stock := by
  unfold State.failMember
  split
  · rw [State.record_stock, State.mediaEvent_stock]
    rfl
  · rfl

@[simp] theorem State.failDie_stock (s : State) (g : Nat) : (s.failDie g).stock = s.stock := by
  unfold State.failDie
  split
  · rfl
  · dsimp only
    split
    · simp
    · simp

/-- Block `b` retired, and nothing else. -/
def State.markRetired (s : State) (b : Nat) : State := s.modBlock b fun x => { x with st := .retired, erasing := false }

@[simp] theorem State.retireBlock_stock (s : State) (b : Nat) : (s.retireBlock b).stock = (s.markRetired b).stock := by
  unfold State.retireBlock
  dsimp only
  split
  · rw [State.failDie_stock]
    rfl
  · rfl

@[simp] theorem State.freeParity_stock (s : State) (sb : Nat) : (s.freeParity sb).stock = s.stock := by
  unfold State.freeParity
  split
  · rfl
  · rfl

section Stock

variable {s t : State} (h : t.stock = s.stock)
include h

theorem store_of_stock : t.store = s.store := (congrArg Prod.fst h :)
theorem cells_of_stock : t.flash.cells = s.flash.cells := (congrArg (·.2.1) h :)
theorem wear_of_stock : t.flash.wear = s.flash.wear := (congrArg (·.2.2.1) h :)
theorem blocks_of_stock : t.flash.blocks = s.flash.blocks := (congrArg (·.2.2.2.1) h :)
theorem erased_of_stock : t.flash.erased = s.flash.erased := (congrArg (·.2.2.2.2) h :)

end Stock

theorem retired_of_stock {s t : State} {b : Nat} (h : t.stock = (s.markRetired b).stock) :
    ∀ y ∈ t.flash.blocks, y.blk = b → y.st = .retired := by
  intro y hy hb
  rw [blocks_of_stock h] at hy
  obtain ⟨x, -, rfl⟩ := List.mem_map.1 hy
  split at hb
  · next hx => rw [if_pos hx]
  · next hx => exact absurd (beq_iff_eq.2 hb) hx

/-- The state in which the erase of block `b` is counted and what it held is gone. -/
def State.wiped (s : State) (b mode : Nat) : State :=
  s.modFlash fun f => { f with
    cells := f.cells.filter fun c => blockOf c.addr != b
    wear := bump f.wear (2 * b + mode) 1 }

/-- The state in which block `b` is FREE. -/
def State.freed (s : State) (b : Nat) : State :=
  s.modFlash fun f => { f with blocks := f.blocks.filter fun x => x.blk != b, erased := f.erased ++ [b] }

/-- An erase that is done wipes the block; below the P/E limit of its mode it is FREE, at it retired. -/
theorem exec_eraseDone {s : State} {b : Nat} {x : Block}
    (hx : s.flash.blocks.find? (fun x => x.blk == b && x.erasing) = some x) : exec (.eraseDone b) s =
      .next (if FlashProfile.peLimit s.profile (b2n x.qlc) ≤ (s.wiped b (b2n x.qlc)).wearCount b (b2n x.qlc)
        then ((s.wiped b (b2n x.qlc)).retireBlock b).freeParity (superOf b)
        else ((s.wiped b (b2n x.qlc)).freed b).freeParity (superOf b)) := by
  change execEraseDone b s = _
  unfold execEraseDone
  rw [hx]
  exact (apply_ite Host.Outcome.next ..).symm

theorem eraseDone_spec {s : State} {b : Nat} {x : Block}
    (hx : s.flash.blocks.find? (fun x => x.blk == b && x.erasing) = some x) :
    let w := assoc (bump s.flash.wear (2 * b + b2n x.qlc) 1) (2 * b + b2n x.qlc) + assoc s.flash.formed (addrCh b)
    ∃ t, exec (.eraseDone b) s = .next t ∧ t.store = s.store ∧ (∀ c ∈ t.flash.cells, blockOf c.addr ≠ b) ∧
      t.flash.wear = bump s.flash.wear (2 * b + b2n x.qlc) 1 ∧
      (w < FlashProfile.peLimit s.profile (b2n x.qlc) →
        (∀ y ∈ t.flash.blocks, y.blk ≠ b) ∧ t.flash.erased = s.flash.erased ++ [b]) ∧
      (FlashProfile.peLimit s.profile (b2n x.qlc) ≤ w → ∀ y ∈ t.flash.blocks, y.blk = b → y.st = .retired) := by
  intro w
  have hgone : ∀ c ∈ (s.wiped b (b2n x.qlc)).flash.cells, blockOf c.addr ≠ b := fun c hc => by
    simpa using (List.mem_filter.1 hc).2
  by_cases hw : FlashProfile.peLimit s.profile (b2n x.qlc) ≤ w
  · have ht : (((s.wiped b (b2n x.qlc)).retireBlock b).freeParity (superOf b)).stock =
        ((s.wiped b (b2n x.qlc)).markRetired b).stock := by
      rw [State.freeParity_stock, State.retireBlock_stock]
    refine ⟨_, (exec_eraseDone hx).trans (congrArg _ (if_pos hw)), (store_of_stock ht :), cells_of_stock ht ▸ hgone,
      wear_of_stock ht, fun hlt => absurd hw (Nat.not_le.2 hlt), fun _ => retired_of_stock ht⟩
  · have ht : (((s.wiped b (b2n x.qlc)).freed b).freeParity (superOf b)).stock =
        ((s.wiped b (b2n x.qlc)).freed b).stock := State.freeParity_stock ..
    refine ⟨_, (exec_eraseDone hx).trans (congrArg _ (if_neg hw)), (store_of_stock ht :), cells_of_stock ht ▸ hgone,
      wear_of_stock ht, fun _ => ⟨?_, erased_of_stock ht⟩, fun hle => absurd hle hw⟩
    rw [blocks_of_stock ht]
    exact fun y hy => by simpa using (List.mem_filter.1 hy).2

/-- The state in which a failed erase of block `b` is counted in its die and reported. -/
def State.eraseFailNoted (s : State) (b : Nat) : State :=
  (s.modDie (globalDie b) fun d => { d with eraseFails := d.eraseFails + 1 }).mediaEvent St.mediaEraseFail (globalDie b)

/-- An erase that fails retires the block. -/
theorem eraseFail_spec {s : State} {b : Nat} (h : (s.flash.blocks.any fun x => x.blk == b && x.erasing) = true) :
    ∃ t, exec (.eraseFail b) s = .next t ∧ t.store = s.store ∧ ∀ y ∈ t.flash.blocks, y.blk = b → y.st = .retired := by
  have hnoted : (s.eraseFailNoted b).stock = s.stock := State.mediaEvent_stock ..
  have ht : (((s.eraseFailNoted b).retireBlock b).freeParity (superOf b)).stock = ((s.eraseFailNoted b).markRetired b).stock := by
    rw [State.freeParity_stock, State.retireBlock_stock]
  exact ⟨_, if_pos h, (store_of_stock ht :).trans (store_of_stock hnoted :), retired_of_stock ht⟩

/-! ### Map segments (R103, R105, R121) -/

theorem segment_is {g : Segment} {i ty k : Nat} : g.is i ty k = true ↔ g.nsid = i ∧ g.typ = ty ∧ g.idx = k := by
  simp [Segment.is, and_assoc]

/-- An access reorders the segments. -/
theorem mem_access_segs {f : Flash} {n : Nat × Nat × Nat} {g : Segment} : g ∈ (f.access n).segs ↔ g ∈ f.segs := by
  simp only [Flash.access, List.mem_append, List.mem_filter, ← and_or_left, and_iff_left_iff_imp, Bool.not_eq_true']
  exact fun _ => (Bool.eq_false_or_eq_true _).symm

/-- The segments once segment `(i, ty, k)` is whole. -/
def Flash.loaded (f : Flash) (i ty k : Nat) : List Segment :=
  (f.segs.filter fun g => !g.is i ty k) ++
    [{ (f.segs.find? fun g => g.is i ty k).getD ⟨i, ty, k, true, none, [], none⟩ with whole := true, held := [] }]

/-- Where the cache has room a segment that is loaded evicts none. -/
theorem evictSegs_loaded {f : Flash} {i ty k : Nat} (h : f.segs.length < 524288) :
    evictSegs (f.loaded i ty k) = f.loaded i ty k := by
  have hlen := List.length_filter_le (fun g : Segment => !g.is i ty k) f.segs
  refine if_pos ?_
  rw [Flash.loaded, List.length_append, List.length_singleton]
  omega

/-- A loaded segment is whole and holds no entries of its own; the other segments stay. -/
theorem loaded_spec (f : Flash) (i ty k : Nat) :
    (∃ g ∈ f.loaded i ty k, g.is i ty k = true ∧ g.whole = true ∧ g.held = []) ∧
      ∀ g ∈ f.segs, g.is i ty k = false → g ∈ f.loaded i ty k := by
  have hold : ((f.segs.find? fun g => g.is i ty k).getD ⟨i, ty, k, true, none, [], none⟩).is i ty k = true := by
    cases h : f.segs.find? fun g => g.is i ty k with
    | none => exact segment_is.2 ⟨rfl, rfl, rfl⟩
    | some g => exact (List.find?_some h :)
  refine ⟨⟨_, List.mem_append.2 (.inr List.mem_cons_self), segment_is.2 (segment_is.1 hold), rfl, rfl⟩, fun g hg hn => ?_⟩
  exact List.mem_append.2 (.inl (List.mem_filter.2 ⟨hg, by rw [hn]; rfl⟩))

/-- The state in which segment `(i, ty, k)` is whole and was the last one accessed. -/
def State.segLoaded (s : State) (i ty k : Nat) : State :=
  s.modFlash fun f => ({ f with segs := evictSegs (f.loaded i ty k) }).access (i, ty, k)

theorem segmentLoadDone_spec {s : State} {i ty k : Nat}
    (hdir : (s.flash.dirEnts.any fun x => x.1 == i && x.2.1 == ty && x.2.2.1 == k) = true) (hroom : s.flash.segs.length < 524288) :
    ∃ u : State, exec (.segmentLoadDone i ty k) s = .next (u.loadDone (i, ty, k)) ∧ u.store = s.store ∧ u.hz = s.hz ∧
      u.q = s.q ∧ (∃ g ∈ u.flash.segs, g.is i ty k = true ∧ g.whole = true ∧ g.held = []) ∧
      ∀ g ∈ s.flash.segs, g.is i ty k = false → g ∈ u.flash.segs := by
  have hmem : ∀ g, g ∈ (s.segLoaded i ty k).flash.segs ↔ g ∈ s.flash.loaded i ty k := fun g => by
    rw [← evictSegs_loaded hroom]
    exact mem_access_segs
  obtain ⟨⟨g, hg, hwhole⟩, hrest⟩ := loaded_spec s.flash i ty k
  exact ⟨s.segLoaded i ty k, if_pos hdir, rfl, rfl, rfl, ⟨g, (hmem g).2 hg, hwhole⟩, fun g hg hn => (hmem g).2 (hrest g hg hn)⟩

theorem segmentWriteback_spec {s : State} {a : Nat} {g : Segment} {r : List Nat × State}
    (hg : s.oldestDirty = some g) (hrun : s.reserveRuns = true) (hw : g.whole = true)
    (hr : s.programMap a (s.store.segBytes g.nsid g.typ g.idx s.store.sealed) = some r) :
    ∃ t, exec (.segmentWriteback a) s = .next t ∧ t.store = s.store ∧ t.hz = s.hz ∧ t.flash.segs = s.flash.segs ∧
      t.flash.writeback = s.flash.writeback ++ [(g.nsid, g.typ, g.idx, a)] ∧
      ∀ x ∈ r.1.zip (codewordsOf (s.store.segBytes g.nsid g.typ g.idx s.store.sealed)),
        ∃ c ∈ t.flash.cells, c.addr = x.1 ∧ c.data = x.2 ∧ c.utype = 3 := by
  obtain ⟨hsans, hcells⟩ := programMap_spec hr
  have hflash := sansFlash_of_sansPlaces hsans
  have hexec : exec (.segmentWriteback a) s =
      .next (r.2.modFlash fun f => { f with writeback := f.writeback ++ [(g.nsid, g.typ, g.idx, a)] }) := by
    change execSegmentWriteback a s = _
    unfold execSegmentWriteback
    rw [hg]
    dsimp only
    rw [if_pos ⟨hrun, .inl hw⟩, hr]
  refine ⟨_, hexec, store_of_sansFlash hflash, hz_of_sansFlash hflash, (segs_of_sansPlaces hsans :), ?_, hcells⟩
  rw [State.modFlash_flash, writeback_of_sansPlaces hsans]

theorem directoryCheckpoint_spec {s : State} {a : Nat} {r : List Nat × State} (hrun : s.reserveRuns = true)
    (hn : s.flash.ckpt = none) (hr : s.programMap a (s.store.checkpointBytes s.flash.dirEnts) = some r) :
    ∃ t, exec (.directoryCheckpoint a) s = .next t ∧ t.store = s.store ∧ t.hz = s.hz ∧ t.flash.ckpt = some a ∧
      t.flash.ckptCws = r.1 ∧ t.flash.segs = s.flash.segs := by
  have hsans := (programMap_spec hr).1
  have hflash := sansFlash_of_sansPlaces hsans
  have hexec : exec (.directoryCheckpoint a) s = .next (r.2.modFlash fun f => { f with ckpt := some a, ckptCws := r.1 }) := by
    change execDirectoryCheckpoint a s = _
    unfold execDirectoryCheckpoint
    rw [if_pos ⟨hrun, hn⟩, hr]
  exact ⟨_, hexec, store_of_sansFlash hflash, hz_of_sansFlash hflash, rfl, rfl, (segs_of_sansPlaces hsans :)⟩

/-- Settles O38: victims, erases and map segments follow R103, R105, R108, R112, R113, R121, R122, R124 and R163. -/
theorem blocksAndSegments : Obligations.BlocksAndSegments := by
  intro s a b
  exact ⟨fun sb hsb hrun => fold_spec hsb hrun, fun x hx hrun hc => gcCollect_spec hx hrun hc,
    fun i k x u r hx hrun hhot hu hr => ⟨exec_consolidation hx hrun hhot hu hr, moveExtent_moves hu hr⟩,
    fun hrun hphase hreads hwaits => if_pos ⟨hrun, hphase, hwaits, hreads⟩, fun x hx => eraseDone_spec hx, eraseFail_spec,
    fun i ty k hdir hroom => segmentLoadDone_spec hdir hroom, fun g r hg hrun hw hr => segmentWriteback_spec hg hrun hw hr,
    fun r hrun hn hr => directoryCheckpoint_spec hrun hn hr⟩

end Sys2Proof.Machine
end

section
/-!
SUPPORT. What reads leave alone: the counts and the tracking of reads, and the commands that go on or end once a codeword is
recovered or lost.
-/

namespace Sys2Proof.Machine

open Sys2Proof

/-! ### Counts and tracking (R147, R149, R150, R160) -/

/-- The state without what reads count and track: blocks, dies, bins and the number of the latest read. -/
def State.sansTracking (s : State) : State :=
  { s with flash := { s.flash with blocks := [], dies := [], bins := [], readSeq := 0 } }

@[simp] theorem State.modBlock_sansTracking (s : State) (b : Nat) (h : Block → Block) :
    (s.modBlock b h).sansTracking = s.sansTracking := rfl
@[simp] theorem State.modDie_sansTracking (s : State) (g : Nat) (h : Die → Die) :
    (s.modDie g h).sansTracking = s.sansTracking := rfl
@[simp] theorem State.modBin_sansTracking (s : State) (k : Nat × Nat × Nat) (h : Bin → Bin) :
    (s.modBin k h).sansTracking = s.sansTracking := rfl
@[simp] theorem State.wantBin_sansTracking (s : State) (k : Nat × Nat × Nat) :
    (s.wantBin k).sansTracking = s.sansTracking := State.modBin_sansTracking ..
@[simp] theorem State.condemn_sansTracking (s : State) (b : Nat) : (s.condemn b).sansTracking = s.sansTracking :=
  State.modBlock_sansTracking ..

@[simp] theorem State.track_sansTracking (s : State) (k : Nat × Nat × Nat) (n : Nat) :
    (s.track k n).sansTracking = s.sansTracking := by
  unfold State.track
  dsimp only
  split
  · rw [State.wantBin_sansTracking, State.modBin_sansTracking]
  · exact State.modBin_sansTracking ..

@[simp] theorem State.markRefresh_sansTracking (s : State) (b : Nat) : (s.markRefresh b).sansTracking = s.sansTracking := by
  unfold State.markRefresh
  split
  · rfl
  · rfl

@[simp] theorem State.countRead_sansTracking (s : State) (b : Nat) : (s.countRead b).sansTracking = s.sansTracking := by
  unfold State.countRead State.countReads
  dsimp only
  split
  · rw [State.markRefresh_sansTracking, State.modBlock_sansTracking]
    rfl
  · exact State.modBlock_sansTracking ..

/-! ### Commands that wait for a codeword (R125, R383) -/

/-- The durable state, the flash, and the epochs with the one being accepted: what the end of a read leaves alone. -/
def State.atRest (s : State) : Store × Flash × List Epoch × Nat := (s.store, s.flash, s.hz.epochs, s.hz.epoch)

theorem atRest_of_silent {s t : State} (h : t.silent = s.silent) : t.atRest = s.atRest := (congrArg State.atRest h :)

@[simp] theorem State.hostWrite_atRest (s : State) (n : Nat) (w : HostWrite) : (s.hostWrite n w).atRest = s.atRest :=
  atRest_of_silent (silent_of_sansEvents (s.hostWrite_sansEvents n w))

@[simp] theorem State.returnData_atRest (s : State) (c : Cmd) : (s.returnData c).atRest = s.atRest := by
  unfold State.returnData
  extract_lets n bytes s1 s2
  have h1 : s1.atRest = s.atRest := by
    unfold s1
    split
    · rfl
    · exact s.hostWrite_atRest ..
  have h2 : s2.atRest = s1.atRest := by
    unfold s2
    split
    · rfl
    · exact s1.hostWrite_atRest ..
  exact h2.trans h1

@[simp] theorem State.finishRead_atRest (s : State) (c : Cmd) : (s.finishRead c).atRest = s.atRest := by
  unfold State.finishRead
  split
  · dsimp only
    split
    · exact (atRest_of_silent (State.endCmd_silent ..)).trans (s.returnData_atRest c)
    · exact s.returnData_atRest c
  · rfl

@[simp] theorem State.readDone_atRest (s : State) (a : Nat) : (s.readDone a).atRest = s.atRest := by
  refine foldl_keeps State.atRest _ ?_ _ s
  intro u c
  exact State.finishRead_atRest ..

@[simp] theorem State.readLost_atRest (s : State) (a : Nat) : (s.readLost a).atRest = s.atRest := by
  refine foldl_keeps State.atRest _ ?_ _ s
  intro u c
  split
  · rfl
  · exact State.finishRead_atRest ..

section Fields

variable {s t : State} (h : t.atRest = s.atRest)
include h

theorem store_of_atRest : t.store = s.store := (congrArg Prod.fst h :)
theorem flash_of_atRest : t.flash = s.flash := (congrArg (·.2.1) h :)
theorem epochs_of_atRest : t.hz.epochs = s.hz.epochs := (congrArg (·.2.2.1) h :)

end Fields

end Sys2Proof.Machine
end

section
/-!
SUPPORT. Decodes and the retry ladder: what a decode at the starting level does, what each end of a level does, the units that L7
loses; and the statement DecodeAndLadder.
-/

namespace Sys2Proof.Machine

open Sys2Proof

/-! ### The ladder and the map (R142, R147) -/

/-- The durable map and the codewords on the ladder. -/
def State.ladderView (s : State) : List UnitMap × List Extent × List Ladder :=
  (s.store.map, s.store.extents, s.flash.ladders)

theorem ladderView_of_sansTracking {s t : State} (h : t.sansTracking = s.sansTracking) : t.ladderView = s.ladderView :=
  (congrArg State.ladderView h :)
theorem ladderView_of_sansPlaces {s t : State} (h : t.sansPlaces = s.sansPlaces) : t.ladderView = s.ladderView :=
  (congrArg State.ladderView h :)
theorem ladderView_of_sansEvents {s t : State} (h : t.sansEvents = s.sansEvents) : t.ladderView = s.ladderView :=
  (congrArg State.ladderView h :)

theorem ladderView_of_atRest {s t : State} (h : t.atRest = s.atRest) : t.ladderView = s.ladderView := by
  unfold State.ladderView
  rw [store_of_atRest h, flash_of_atRest h]

@[simp] theorem State.record_ladderView (s : State) (cs : List Ctrl) : (s.record cs).ladderView = s.ladderView := rfl
@[simp] theorem State.addFx_ladderView (s : State) (x : Fx) : (s.addFx x).ladderView = s.ladderView := rfl

theorem State.renewSys_ladderView (s : State) (bad : Nat → Bool) : (s.renewSys bad).ladderView = s.ladderView :=
  congrArg (fun l => (s.store.map, s.store.extents, l)) (renewSys_keeps (·.ladders) (fun _ _ _ => rfl) s bad)

theorem State.renewCell_ladderView (s : State) (c : Codeword) : (s.renewCell c).ladderView = s.ladderView := by
  unfold State.renewCell
  split
  · exact s.renewSys_ladderView _
  · exact ladderView_of_sansPlaces (s.rewrite_sansPlaces _)

/-! ### Levels that succeed (R142 to R147) -/

/-- The state in which a decode at level `l` is counted and tracked. -/
def State.decodeTracked (s : State) (c : Codeword) (l corrected : Nat) : State :=
  let k := s.binAt c.addr
  let s1 := s.modDie (globalDie c.addr) fun d => { d with levels := updAt d.levels l (· + 1), noReady := 0 }
  let s2 := if l ≤ 2 then s1.track k corrected else s1
  let s3 := if l = 2 then s2.wantBin k else s2
  if 5 ≤ l ∨ s.param 0x0520 0 ≤ l then s3.markRefresh (blockOf c.addr) else s3

theorem State.decoded_eq (s : State) (c : Codeword) (l k : Nat) : s.decoded c l k =
    (if 5 ≤ l then ((s.decodeTracked c l k).countFailing c.addr).renewCell c else s.decodeTracked c l k).readDone c.addr := rfl

theorem State.decodeTracked_sansTracking (s : State) (c : Codeword) (l k : Nat) :
    (s.decodeTracked c l k).sansTracking = s.sansTracking := by
  unfold State.decodeTracked
  simp only [apply_ite State.sansTracking, State.markRefresh_sansTracking, State.wantBin_sansTracking,
    State.track_sansTracking, State.modDie_sansTracking, ite_self]

theorem State.decoded_ladderView (s : State) (c : Codeword) (l k : Nat) : (s.decoded c l k).ladderView = s.ladderView := by
  have htrack := ladderView_of_sansTracking (s.decodeTracked_sansTracking c l k)
  rw [s.decoded_eq, ladderView_of_atRest (State.readDone_atRest ..)]
  split
  · exact (State.renewCell_ladderView ..).trans htrack
  · exact htrack

/-- A decode below L5 is counted and tracked, and the reads that wait go on. -/
theorem State.decoded_below {s : State} {l : Nat} (c : Codeword) (k : Nat) (hl : l < 5) :
    (s.decoded c l k).atRest = (s.decodeTracked c l k).atRest := by
  rw [s.decoded_eq, if_neg (by omega), State.readDone_atRest]

/-! ### A decode at the starting level (R141, R144, R148) -/

theorem State.startLevel_lt (s : State) (a : Nat) :
    (s.flash.blocks.find? fun b => b.blk == blockOf a).elim 0 s.startLevel < 5 := by
  cases s.flash.blocks.find? fun b => b.blk == blockOf a with
  | none => exact Nat.zero_lt_succ 4
  | some b =>
    change s.startLevel b < 5
    unfold State.startLevel
    split
    · omega
    · omega

/-- What a read leaves alone: the state beside the flash, the codewords, the ladder. -/
def State.cellView (s : State) : State × List Codeword × List Ladder := (s.sansFlash, s.flash.cells, s.flash.ladders)

theorem cellView_of_sansTracking {s t : State} (h : t.sansTracking = s.sansTracking) : t.cellView = s.cellView :=
  (congrArg State.cellView h :)

section Fields

variable {s t : State} (h : t.cellView = s.cellView)
include h

theorem sansFlash_of_cellView : t.sansFlash = s.sansFlash := (congrArg Prod.fst h :)
theorem cells_of_cellView : t.flash.cells = s.flash.cells := (congrArg (·.2.1) h :)
theorem ladders_of_cellView : t.flash.ladders = s.flash.ladders := (congrArg (·.2.2) h :)

end Fields

/-- The state in which the decoder's report is held (R141). -/
def State.holdReport (s : State) (r : DecodeReport) : State := s.modFlash fun f => { f with decode := some r }

theorem State.holdReport_cellView (s : State) (r : DecodeReport) : (s.holdReport r).cellView = s.cellView := rfl

theorem State.suspendProgram_cellView (s : State) (a : Nat) : (s.suspendProgram a).cellView = s.cellView := by
  unfold State.suspendProgram
  split
  · rfl
  · split
    · rfl
    · rfl

theorem suspendErase_cellView {s u : State} {a : Nat} (h : s.suspendErase a = some u) : u.cellView = s.cellView := by
  rcases suspendErase_cases h with rfl | ⟨b, rfl⟩
  · rfl
  · rfl

/-- The state in which a decode at level `l` is read and its report held; `u` is the one in which an erase on its die is
suspended. -/
def State.decodeNoted (s u : State) (a l : Nat) (r : DecodeReport) : State :=
  (((u.suspendProgram a).countRead (blockOf a)).holdReport r).modDie (globalDie a)
    fun d => { d with offsets := if l = 1 then s.levelOffsets (s.binAt a) else [] }

theorem decodeNoted_cellView {s u : State} {a l : Nat} {r : DecodeReport} (hu : s.suspendErase a = some u) :
    (s.decodeNoted u a l r).cellView = s.cellView :=
  calc (s.decodeNoted u a l r).cellView
    _ = (((u.suspendProgram a).countRead (blockOf a)).holdReport r).cellView :=
      cellView_of_sansTracking (State.modDie_sansTracking ..)
    _ = ((u.suspendProgram a).countRead (blockOf a)).cellView := State.holdReport_cellView ..
    _ = (u.suspendProgram a).cellView := cellView_of_sansTracking (State.countRead_sansTracking ..)
    _ = u.cellView := u.suspendProgram_cellView a
    _ = s.cellView := suspendErase_cellView hu

/-- The state in which codeword `x` has joined the ladder. -/
def State.toLadder (s : State) (x : Ladder) : State := s.modFlash fun f => { f with ladders := f.ladders ++ [x] }

theorem State.toLadder_sansFlash (s : State) (x : Ladder) : (s.toLadder x).sansFlash = s.sansFlash := rfl
theorem State.toLadder_decode (s : State) (x : Ladder) : (s.toLadder x).flash.decode = s.flash.decode := rfl
theorem State.toLadder_ladders (s : State) (x : Ladder) : (s.toLadder x).flash.ladders = s.flash.ladders ++ [x] := rfl

theorem exec_decodeResult {s u : State} {a : Nat} {c : Codeword} (hc : s.cell? a = some c) (hu : s.suspendErase a = some u)
    (hn : (s.flash.ladders.any fun l => l.addr == a) = false) (cv : Bool) (i ut key : Nat) (ok : Bool) (f : DecodeFigures) :
    let l := (s.flash.blocks.find? fun b => b.blk == blockOf a).elim 0 s.startLevel
    let t := s.decodeNoted u a l ⟨a, cv, f.corrected, f.iters, f.weight⟩
    exec (.decodeResult a cv i ut key ok f) s =
      if cv = true ∧ s.unreadable a = false ∧ f.iters ≤ s.iterLimit l ∧ i = c.nsid ∧ ut = c.utype ∧ key = c.key ∧ ok = true then
        .next (t.decoded c l f.corrected)
      else .next (t.toLadder ⟨a, if l = 0 then 1 else 2, !(s.readingOf a).isEmpty⟩) := by
  change execDecodeResult a cv i ut key ok f s = _
  unfold execDecodeResult
  rw [hc, hu]
  dsimp only
  rw [hn]
  rfl

/-- A decode that matches leaves the ladder and the codewords. -/
theorem decodeNoted_decoded {s u : State} {a l k : Nat} {r : DecodeReport} {c : Codeword} (hu : s.suspendErase a = some u)
    (hl : l < 5) : let t := (s.decodeNoted u a l r).decoded c l k
    t.store = s.store ∧ t.flash.ladders = s.flash.ladders ∧ t.flash.cells = s.flash.cells ∧ t.flash.decode = some r := by
  intro t
  have hview := decodeNoted_cellView (l := l) (r := r) hu
  have hrest := (s.decodeNoted u a l r).decoded_below c k hl
  have htrack := (s.decodeNoted u a l r).decodeTracked_sansTracking c l k
  have hcells := (cellView_of_sansTracking htrack).trans hview
  refine ⟨(store_of_atRest hrest).trans (store_of_sansFlash (sansFlash_of_cellView hcells)), ?_⟩
  rw [flash_of_atRest hrest]
  exact ⟨ladders_of_cellView hcells, cells_of_cellView hcells, (congrArg (·.flash.decode) htrack :)⟩

/-- A decode that does not match puts its codeword on the ladder. -/
theorem decodeNoted_toLadder {s u : State} {a l : Nat} {r : DecodeReport} (hu : s.suspendErase a = some u) (x : Ladder) :
    let t := (s.decodeNoted u a l r).toLadder x
    t.store = s.store ∧ t.hz = s.hz ∧ t.flash.decode = some r ∧ t.flash.ladders = s.flash.ladders ++ [x] := by
  have hview := decodeNoted_cellView (l := l) (r := r) hu
  have hsans := (State.toLadder_sansFlash _ x).trans (sansFlash_of_cellView hview)
  refine ⟨store_of_sansFlash hsans, hz_of_sansFlash hsans, (State.toLadder_decode ..).trans rfl, ?_⟩
  rw [State.toLadder_ladders, ladders_of_cellView hview]

/-! ### Units lost (R125, R147) -/

/-- Epoch `n` holds effect `x`. -/
def State.holdsFx (s : State) (n : Nat) (x : Fx) : Prop := ∀ e ∈ s.hz.epochs, e.n = n → x ∈ e.fx

theorem holdsFx_of_epochs {s t : State} {n : Nat} {x : Fx} (h : t.hz.epochs = s.hz.epochs) (hs : s.holdsFx n x) :
    t.holdsFx n x := by
  unfold State.holdsFx
  rw [h]
  exact hs

/-- A change of the epoch being accepted that takes no effect away leaves every effect held. -/
theorem holdsFx_modEpoch {s : State} {g : Epoch → Epoch} {n : Nat} {x : Fx} (hn : ∀ e, (g e).n = e.n)
    (hg : ∀ e, e.fx ⊆ (g e).fx) (h : s.holdsFx n x) : (s.modEpoch g).holdsFx n x := by
  intro e he hen
  obtain ⟨y, hy, rfl⟩ := List.mem_map.1 he
  split
  · next hc =>
    rw [if_pos hc, hn] at hen
    exact hg y (h y hy hen)
  · next hc =>
    rw [if_neg hc] at hen
    exact h y hy hen

theorem holdsFx_addFx {s : State} {n : Nat} {x : Fx} (f : Fx) (h : s.holdsFx n x) : (s.addFx f).holdsFx n x :=
  holdsFx_modEpoch (g := fun e => { e with fx := e.fx ++ [f] }) (fun _ => rfl) (fun e => List.subset_append_left e.fx [f]) h

/-- The epoch being accepted takes an effect that is added. -/
theorem addFx_holdsFx (s : State) (x : Fx) : (s.addFx x).holdsFx s.hz.epoch x := by
  intro e he hen
  obtain ⟨y, -, rfl⟩ := List.mem_map.1 he
  split
  · exact List.mem_append.2 (.inr List.mem_cons_self)
  · next hc =>
    rw [if_neg hc] at hen
    exact absurd (beq_iff_eq.2 hen) hc

/-- Units recorded LOST one after the other are all held. -/
theorem lostAll_holdsFx {u : Nat × Nat} (l : List (Nat × Nat)) (s : State) (h : u ∈ l ∨ s.holdsFx s.hz.epoch (.lost u.1 u.2)) :
    (l.foldl (fun a u => a.addFx (.lost u.1 u.2)) s).holdsFx s.hz.epoch (.lost u.1 u.2) := by
  induction l generalizing s with
  | nil => exact h.resolve_left List.not_mem_nil
  | cons v l ih =>
    refine ih (s.addFx (.lost v.1 v.2)) ?_
    rcases h with h | h
    · rcases List.mem_cons.1 h with rfl | h
      · exact .inr (addFx_holdsFx s _)
      · exact .inl h
    · exact .inr (holdsFx_addFx _ h)

theorem loseCell_holdsFx (s : State) (c : Codeword) {u : Nat × Nat} (hu : u ∈ s.lostUnits (s.headOf c)) :
    (s.loseCell c).holdsFx s.hz.epoch (.lost u.1 u.2) := by
  unfold State.loseCell
  exact lostAll_holdsFx _ _ (.inl hu)

theorem loseCell_ladderView (s : State) (c : Codeword) : (s.loseCell c).ladderView = s.ladderView := by
  unfold State.loseCell
  dsimp only
  rw [foldl_keeps State.ladderView _ fun a (u : Nat × Nat) => a.addFx_ladderView (.lost u.1 u.2)]
  rfl

theorem reportLoss_holdsFx {s : State} {st : Status} {i k m n : Nat} {x : Fx} (h : s.holdsFx n x) :
    (s.reportLoss st i k m).holdsFx n x := by
  unfold State.reportLoss
  split
  · exact holdsFx_of_epochs (congrArg Horizon.epochs (hz_of_sansEvents (s.nsEvent_sansEvents ..))) h
  · refine holdsFx_modEpoch (fun _ => rfl) (fun e => List.Subset.refl e.fx) ?_
    exact holdsFx_of_epochs (congrArg Horizon.epochs (hz_of_sansEvents (s.log_sansEvents ..))) h

theorem reportLoss_ladderView (s : State) (st : Status) (i k n : Nat) :
    (s.reportLoss st i k n).ladderView = s.ladderView := by
  unfold State.reportLoss
  split
  · exact ladderView_of_sansEvents (s.nsEvent_sansEvents ..)
  · rw [State.record_ladderView]
    exact ladderView_of_sansEvents (s.log_sansEvents ..)

theorem loseInternal_cases (s : State) (st : Status) (c : Codeword) :
    s.loseInternal st c = s.loseCell c ∨ ∃ i k n, s.loseInternal st c = (s.loseCell c).reportLoss st i k n := by
  unfold State.loseInternal
  dsimp only
  split
  · exact .inl rfl
  · next u _ _ => exact .inr ⟨u.1, u.2, _, rfl⟩

/-! ### L7 (R125, R147) -/

/-- The state in which an uncorrectable codeword is counted in its die and logged. -/
def State.l7Logged (s : State) (c : Codeword) : State :=
  (s.modDie (globalDie c.addr) fun d => { d with l7 := d.l7 + 1 }).log 4 deviceFn St.mediaUncorrectable (globalDie c.addr)

theorem State.l7Logged_ladderView (s : State) (c : Codeword) : (s.l7Logged c).ladderView = s.ladderView :=
  (ladderView_of_sansEvents (State.log_sansEvents ..)).trans (ladderView_of_sansTracking (State.modDie_sansTracking ..))

/-- The state in which what an uncorrectable codeword held is lost, or is to be rewritten. -/
def State.l7Lost (s : State) (c : Codeword) : State :=
  if c.utype = 3 then (s.l7Logged c).renewSys fun a => a == c.addr
  else if s.readingOf (s.headOf c).addr = [] then (s.l7Logged c).loseInternal St.ftUnitLost c else (s.l7Logged c).loseCell c

theorem State.uncorrectable_eq (s : State) (c : Codeword) :
    s.uncorrectable c = ((s.l7Lost c).condemn (blockOf c.addr)).readLost (s.headOf c).addr := rfl

theorem State.l7Lost_ladderView (s : State) (c : Codeword) : (s.l7Lost c).ladderView = s.ladderView := by
  rw [← s.l7Logged_ladderView c, State.l7Lost]
  split
  · exact State.renewSys_ladderView ..
  · split
    · rcases loseInternal_cases (s.l7Logged c) St.ftUnitLost c with h | ⟨i, k, n, h⟩
      · rw [h, loseCell_ladderView]
      · rw [h, reportLoss_ladderView, loseCell_ladderView]
    · exact loseCell_ladderView ..

theorem State.uncorrectable_ladderView (s : State) (c : Codeword) : (s.uncorrectable c).ladderView = s.ladderView :=
  calc (s.uncorrectable c).ladderView
    _ = ((s.l7Lost c).condemn (blockOf c.addr)).ladderView := ladderView_of_atRest (State.readLost_atRest ..)
    _ = (s.l7Lost c).ladderView := ladderView_of_sansTracking (State.condemn_sansTracking ..)
    _ = s.ladderView := s.l7Lost_ladderView c

/-- At L7 each unit that the map still names and no confirmed copy holds is recorded LOST. -/
theorem uncorrectable_holdsFx {s : State} {c : Codeword} (hc : c.utype ≠ 3) {u : Nat × Nat}
    (hu : u ∈ s.lostUnits (s.headOf c)) : (s.uncorrectable c).holdsFx s.hz.epoch (.lost u.1 u.2) := by
  have hcell : ((s.l7Logged c).loseCell c).holdsFx s.hz.epoch (.lost u.1 u.2) := loseCell_holdsFx (s.l7Logged c) c hu
  have hlost : (s.l7Lost c).holdsFx s.hz.epoch (.lost u.1 u.2) := by
    unfold State.l7Lost
    rw [if_neg hc]
    split
    · rcases loseInternal_cases (s.l7Logged c) St.ftUnitLost c with h | ⟨i, k, n, h⟩
      · rw [h]
        exact hcell
      · rw [h]
        exact reportLoss_holdsFx hcell
    · exact hcell
  rw [s.uncorrectable_eq]
  exact holdsFx_of_epochs (epochs_of_atRest (State.readLost_atRest ..)) hlost

/-! ### A level ends (R143, R147) -/

/-- The state in which codeword `a` is read and off the ladder. -/
def State.ladderOff (s : State) (a : Nat) : State :=
  (s.countRead (blockOf a)).modFlash fun f => { f with ladders := f.ladders.filter fun x => x.addr != a }

theorem State.ladderOff_ladderView (s : State) (a : Nat) : (s.ladderOff a).ladderView =
    (s.store.map, s.store.extents, s.flash.ladders.filter fun x => x.addr != a) :=
  congrArg (fun v => (v.1, v.2.1, v.2.2.filter fun x => x.addr != a))
    (ladderView_of_sansTracking (s.countRead_sansTracking (blockOf a)))

theorem ladderView_split {t : State} {m : List UnitMap} {x : List Extent} {l : List Ladder} (h : t.ladderView = (m, x, l)) :
    t.store.map = m ∧ t.store.extents = x ∧ t.flash.ladders = l := by
  obtain ⟨hm, h⟩ := Prod.mk.inj h
  obtain ⟨hx, hl⟩ := Prod.mk.inj h
  exact ⟨hm, hx, hl⟩

/-- The units that a codeword would lose, and the epoch being accepted, as a step of the ladder finds them. -/
theorem State.ladderOff_lost (s : State) (a : Nat) (c : Codeword) :
    (s.ladderOff a).lostUnits ((s.ladderOff a).headOf c) = s.lostUnits (s.headOf c) ∧
      (s.ladderOff a).hz.epoch = s.hz.epoch := by
  have h := s.countRead_sansTracking (blockOf a)
  have hstore : (s.ladderOff a).store = s.store := (congrArg State.store h :)
  have hcells : (s.ladderOff a).flash.cells = s.flash.cells := (congrArg (·.flash.cells) h :)
  have hmoves : (s.ladderOff a).flash.moves = s.flash.moves := (congrArg (·.flash.moves) h :)
  refine ⟨?_, (congrArg (·.hz.epoch) h :)⟩
  unfold State.lostUnits State.liveAll State.liveUnit State.headOf State.cell?
  rw [hstore, hcells, hmoves]

theorem exec_ladderStep {s : State} {a : Nat} {c : Codeword} {l : Ladder} (hc : s.cell? a = some c)
    (hl : s.flash.ladders.find? (fun l => l.addr == a) = some l) (r : LadderReport) : exec (.ladderStep a r) s =
      if r.success = true ∧ s.levelOpen c l.level r.iters = true then .next ((s.ladderOff a).decoded c l.level r.corrected)
      else if l.level < 6 then
        .next ((s.countRead (blockOf a)).modFlash fun f => { f with
          ladders := updIf (fun x => x.addr == a) (fun x => { x with level := x.level + 1 }) f.ladders })
      else .next ((s.ladderOff a).uncorrectable c) := by
  change execLadderStep a r s = _
  unfold execLadderStep
  rw [hl, hc]
  rfl

/-- Settles O39: a decode that matches its codeword ends the read, one that fails climbs the ladder, and L7 loses the live
units, as R125, R141 to R145, R147, R148 and R160 say. -/
theorem decodeAndLadder : Obligations.DecodeAndLadder := by
  intro s a k it w c hc
  refine ⟨fun hn hs => ?decode, fun l hl => ⟨fun hopen => ?succeeds, fun hlow => ?next, fun htop => ?l7⟩⟩
  case decode =>
    obtain ⟨u, hu⟩ := Option.isSome_iff_exists.1 hs
    intro l
    have hexec := exec_decodeResult hc hu hn
    refine ⟨fun hread hit => ?_, fun cv i ut key ok hfail => ?_⟩
    · exact ⟨_, (hexec true c.nsid c.utype c.key true ⟨k, it, w⟩).trans (if_pos ⟨rfl, hread, hit, rfl, rfl, rfl, rfl⟩),
        decodeNoted_decoded hu (s.startLevel_lt a)⟩
    · exact ⟨_, (hexec cv i ut key ok ⟨k, it, w⟩).trans (if_neg hfail), decodeNoted_toLadder hu _⟩
  case succeeds =>
    exact ⟨_, (exec_ladderStep hc hl ⟨true, k, it⟩).trans (if_pos ⟨rfl, hopen⟩),
      ladderView_split ((State.decoded_ladderView ..).trans (s.ladderOff_ladderView a))⟩
  case next =>
    exact (exec_ladderStep hc hl ⟨false, k, it⟩).trans ((if_neg (by simp)).trans (if_pos hlow))
  case l7 =>
    obtain ⟨hmap, -, hladders⟩ :=
      ladderView_split (((s.ladderOff a).uncorrectable_ladderView c).trans (s.ladderOff_ladderView a))
    obtain ⟨hlost, hepoch⟩ := s.ladderOff_lost a c
    refine ⟨_, (exec_ladderStep hc hl ⟨false, k, it⟩).trans ((if_neg (by simp)).trans (if_neg (Nat.not_lt.2 htop))), hmap,
      hladders, fun htype u hu => ?_⟩
    rw [← hlost] at hu
    rw [← hepoch]
    exact uncorrectable_holdsFx htype hu

end Sys2Proof.Machine
end

section
/-!
SUPPORT. Rebuild, resynchronisation, stripe checks and reshape: what a walk loses, what a mismatch leaves alone, what a reshape
copies; and the statement RebuildAndReshape.
-/

namespace Sys2Proof.Machine

open Sys2Proof

/-! ### What the placing of data keeps -/

theorem recs_of_sansFlash {s t : State} (h : t.sansFlash = s.sansFlash) : t.recs = s.recs := (congrArg State.recs h :)

section Fields

variable {s t : State} (h : t.sansPlaces = s.sansPlaces)
include h

theorem walking_of_sansPlaces : t.flash.walking = s.flash.walking := (congrArg (·.flash.walking) h :)
theorem resyncLeft_of_sansPlaces : t.flash.resyncLeft = s.flash.resyncLeft := (congrArg (·.flash.resyncLeft) h :)

end Fields

/-! ### Losses one after the other (R125, R182) -/

/-- What the losses of a walk leave alone: the map, the codewords, the epoch being accepted, the fetched commands, and whether
the walk goes on. -/
def State.lossView (s : State) : List UnitMap × List Extent × List Codeword × Nat × List Cmd × Bool :=
  (s.store.map, s.store.extents, s.flash.cells, s.hz.epoch, s.q.cmds, s.flash.walking)

theorem lossView_of_sansEvents {s t : State} (h : t.sansEvents = s.sansEvents) : t.lossView = s.lossView :=
  (congrArg State.lossView h :)

section Fields

variable {s t : State} (h : t.lossView = s.lossView)
include h

theorem map_of_lossView : t.store.map = s.store.map := (congrArg Prod.fst h :)
theorem extents_of_lossView : t.store.extents = s.store.extents := (congrArg (·.2.1) h :)
theorem cells_of_lossView : t.flash.cells = s.flash.cells := (congrArg (·.2.2.1) h :)
theorem epoch_of_lossView : t.hz.epoch = s.hz.epoch := (congrArg (·.2.2.2.1) h :)
theorem cmds_of_lossView : t.q.cmds = s.q.cmds := (congrArg (·.2.2.2.2.1) h :)
theorem walking_of_lossView : t.flash.walking = s.flash.walking := (congrArg (·.2.2.2.2.2) h :)

end Fields

/-- Losses lead from `s` to `t`: the view stays, and moves are only dropped. -/
structure Loses (s t : State) : Prop where
  view : t.lossView = s.lossView
  moves : t.flash.moves ⊆ s.flash.moves

theorem Loses.trans {s t u : State} (h : Loses s t) (h' : Loses t u) : Loses s u :=
  ⟨h'.view.trans h.view, List.Subset.trans h'.moves h.moves⟩

theorem loses_of_sansEvents {s t : State} (h : t.sansEvents = s.sansEvents) : Loses s t :=
  ⟨lossView_of_sansEvents h, (congrArg Flash.moves (flash_of_sansEvents h)).symm ▸ List.Subset.refl _⟩

theorem State.addFx_lossView (s : State) (x : Fx) : (s.addFx x).lossView = s.lossView := rfl
theorem State.addFx_moves (s : State) (x : Fx) : (s.addFx x).flash.moves = s.flash.moves := rfl

theorem loses_record (s : State) (cs : List Ctrl) : Loses s (s.record cs) := ⟨rfl, List.Subset.refl s.flash.moves⟩

theorem loses_loseCell (s : State) (c : Codeword) : Loses s (s.loseCell c) := by
  unfold State.loseCell
  dsimp only
  refine ⟨?_, ?_⟩
  · rw [foldl_keeps State.lossView _ fun a (u : Nat × Nat) => a.addFx_lossView (.lost u.1 u.2)]
    rfl
  · rw [foldl_keeps (·.flash.moves) _ fun a (u : Nat × Nat) => a.addFx_moves (.lost u.1 u.2)]
    exact List.filter_subset_self _

theorem loses_reportLoss (s : State) (st : Status) (i k n : Nat) : Loses s (s.reportLoss st i k n) := by
  unfold State.reportLoss
  split
  · exact loses_of_sansEvents (s.nsEvent_sansEvents ..)
  · exact (loses_of_sansEvents (s.log_sansEvents ..)).trans (loses_record ..)

theorem loses_loseInternal (s : State) (st : Status) (c : Codeword) : Loses s (s.loseInternal st c) := by
  rcases loseInternal_cases s st c with h | ⟨i, k, n, h⟩
  · rw [h]
    exact loses_loseCell s c
  · rw [h]
    exact (loses_loseCell s c).trans (loses_reportLoss ..)

theorem mapHit_congr {d e : Store} (hm : e.map = d.map) (hx : e.extents = d.extents) (i k : Nat) :
    e.mapHit i k = d.mapHit i k := by
  unfold Store.mapHit
  rw [hm, hx]

/-- Losses take no unit off those that a codeword would lose. -/
theorem Loses.lostUnits {s t : State} (h : Loses s t) (c : Codeword) :
    s.lostUnits (s.headOf c) ⊆ t.lostUnits (t.headOf c) := by
  have hhead : t.headOf c = s.headOf c := by
    unfold State.headOf State.cell?
    rw [cells_of_lossView h.view]
  have hlive : t.liveAll (s.headOf c) = s.liveAll (s.headOf c) := by
    unfold State.liveAll State.liveUnit
    simp only [mapHit_congr (map_of_lossView h.view) (extents_of_lossView h.view)]
  rw [hhead]
  intro u hu
  obtain ⟨hmem, hnone⟩ := List.mem_filter.1 hu
  refine List.mem_filter.2 ⟨hlive.symm ▸ hmem, ?_⟩
  rw [Bool.not_eq_true', List.any_eq_false] at hnone ⊢
  exact fun m hm => hnone m (h.moves hm)

/-- A unit that a codeword loses, or that was recorded LOST before, is recorded LOST. -/
theorem loseInternal_holdsFx {s : State} {c : Codeword} {u : Nat × Nat} (st : Status)
    (h : u ∈ s.lostUnits (s.headOf c) ∨ s.holdsFx s.hz.epoch (.lost u.1 u.2)) :
    (s.loseInternal st c).holdsFx s.hz.epoch (.lost u.1 u.2) := by
  have hcell : (s.loseCell c).holdsFx s.hz.epoch (.lost u.1 u.2) := by
    unfold State.loseCell
    exact lostAll_holdsFx _ _ h
  rcases loseInternal_cases s st c with h | ⟨i, k, n, h⟩
  · rw [h]
    exact hcell
  · rw [h]
    exact reportLoss_holdsFx hcell

/-- The codewords of a list lost one after the other. -/
def State.loseAll (s : State) (l : List Codeword) : State := l.foldl (fun a c => a.loseInternal St.rdStripeLost c) s

theorem loses_loseAll (l : List Codeword) (s : State) : Loses s (s.loseAll l) := by
  induction l generalizing s with
  | nil => exact ⟨rfl, List.Subset.refl _⟩
  | cons c l ih => exact (loses_loseInternal s St.rdStripeLost c).trans (ih _)

/-- Whatever is lost before it, each codeword of the list records its units LOST. -/
theorem loseAll_holdsFx {c : Codeword} {u : Nat × Nat} (l : List Codeword) (s : State) (hu : u ∈ s.lostUnits (s.headOf c))
    (h : c ∈ l ∨ s.holdsFx s.hz.epoch (.lost u.1 u.2)) : (s.loseAll l).holdsFx s.hz.epoch (.lost u.1 u.2) := by
  induction l generalizing s with
  | nil => exact h.resolve_left List.not_mem_nil
  | cons d l ih =>
    have hloses := loses_loseInternal s St.rdStripeLost d
    have hepoch := epoch_of_lossView hloses.view
    have hrest : c ∈ l ∨ (s.loseInternal St.rdStripeLost d).holdsFx s.hz.epoch (.lost u.1 u.2) := by
      rcases h with h | h
      · rcases List.mem_cons.1 h with rfl | h
        · exact .inr (loseInternal_holdsFx _ (.inl hu))
        · exact .inl h
      · exact .inr (loseInternal_holdsFx _ (.inr h))
    rw [← hepoch] at hrest ⊢
    exact ih _ (hloses.lostUnits c hu) hrest

theorem loses_renewSys (s : State) (bad : Nat → Bool) : Loses s (s.renewSys bad) := by
  have hkeeps := renewSys_keeps (fun f => (f.cells, f.walking, f.moves)) (fun _ _ _ => rfl) s bad
  simp only [Prod.mk.injEq] at hkeeps
  obtain ⟨hcells, hwalking, hmoves⟩ := hkeeps
  refine ⟨?_, hmoves ▸ List.Subset.refl _⟩
  unfold State.lossView
  rw [hcells, hwalking]
  rfl

/-! ### The walk of a rebuild (R180, R182, R183) -/

/-- The codewords of super-block `sb` on a lost member that a walk names lost, or whose stripe cannot be solved. -/
def State.walkGone (s : State) (sb : Nat) (lost : List Nat) : List Codeword :=
  s.flash.cells.filter fun c => superOf c.addr == sb && s.store.pool.slotLost (addrCh c.addr) (addrDie c.addr) &&
    (c.utype == 1 || c.utype == 2) && (lost.contains c.addr || !(s.fromStripe c.addr).elim false c.agrees)

theorem mem_walkGone {s : State} {sb : Nat} {lost : List Nat} {c : Codeword} (hc : c ∈ s.flash.cells) (hsb : superOf c.addr = sb)
    (hlost : lost.contains c.addr = true) (htype : c.utype = 1 ∨ c.utype = 2)
    (hslot : s.store.pool.slotLost (addrCh c.addr) (addrDie c.addr) = true) : c ∈ s.walkGone sb lost := by
  refine List.mem_filter.2 ⟨hc, ?_⟩
  rw [hslot, hlost]
  simpa [hsb] using htype

/-- The state in which the structures of the map area of `sb` are to be rewritten. -/
def State.walkRenewed (s : State) (sb : Nat) : State :=
  s.renewSys fun a => superOf a == sb && s.store.pool.slotLost (addrCh a) (addrDie a)

/-- The codewords of hurt stripes of `sb` that a walk does not lose. -/
def State.walkPicks (s : State) (sb : Nat) (lost : List Nat) (a : Nat) : Bool :=
  superOf a == sb && s.stripeHurt a && !((s.walkGone sb lost).map fun c => (s.headOf c).addr).contains a

/-- The state in which what a walk of `sb` loses is lost and what it saves moves. -/
def State.walkMoved (s : State) (sb : Nat) (lost : List Nat) (target : Nat) : State :=
  ((s.walkRenewed sb).loseAll (s.walkGone sb lost)).moveLive false (s.walkPicks sb lost) target

theorem exec_rebuildWalk {s : State} {sb : Nat} (hreb : s.rebuilding = true) (hrun : s.reserveRuns = true)
    (hnew : s.flash.walked.contains sb = false) (hsb : s.supers.contains sb = true)
    (hnext : (s.supers.all fun x => s.flash.walked.contains x || s.walksBefore sb x) = true) (lost : List Nat) (a : Nat) :
    exec (.rebuildWalk sb lost a) s = .next ((s.walkMoved sb lost a).modFlash fun f => { f with
      walking := true, walkTotal := if f.walking then max f.walkTotal s.walkLeft else s.walkLeft
      walked := if ((s.walkMoved sb lost a).liveCells (s.walkPicks sb lost)).isEmpty then f.walked ++ [sb] else f.walked }) :=
  if_pos ⟨hreb, hrun, hnew, hsb, hnext⟩

/-- A walk keeps the map, the commands and its own mark, and records the units that it names lost. -/
theorem State.walkMoved_spec (s : State) (sb : Nat) (lost : List Nat) (target : Nat) : let t := s.walkMoved sb lost target
    t.store.map = s.store.map ∧ t.flash.walking = s.flash.walking ∧ t.q.cmds = s.q.cmds ∧
      ∀ c ∈ s.walkGone sb lost, ∀ u ∈ s.lostUnits (s.headOf c), t.holdsFx s.hz.epoch (.lost u.1 u.2) := by
  intro t
  have hrenew := loses_renewSys s fun a => superOf a == sb && s.store.pool.slotLost (addrCh a) (addrDie a)
  have hview : ((s.walkRenewed sb).loseAll (s.walkGone sb lost)).lossView = s.lossView :=
    (hrenew.trans (loses_loseAll (s.walkGone sb lost) _)).view
  have hplaces : t.sansPlaces = ((s.walkRenewed sb).loseAll (s.walkGone sb lost)).sansPlaces := State.moveLive_sansPlaces ..
  have hsans := sansFlash_of_sansPlaces hplaces
  refine ⟨?_, ?_, ?_, fun c hc u hu => ?_⟩
  · exact (congrArg Store.map (store_of_sansFlash hsans)).trans (map_of_lossView hview)
  · exact (walking_of_sansPlaces hplaces).trans (walking_of_lossView hview)
  · exact (congrArg Queues.cmds (q_of_sansFlash hsans)).trans (cmds_of_lossView hview)
  · exact holdsFx_of_epochs (congrArg Horizon.epochs (hz_of_sansFlash hsans))
      (loseAll_holdsFx _ (s.walkRenewed sb) (hrenew.lostUnits c hu) (.inl hc))

theorem rebuildWalk_spec {s : State} {sb a : Nat} {lost : List Nat} (hreb : s.rebuilding = true) (hrun : s.reserveRuns = true)
    (hnew : s.flash.walked.contains sb = false) (hsb : s.supers.contains sb = true)
    (hnext : (s.supers.all fun x => s.flash.walked.contains x || s.walksBefore sb x) = true) :
    ∃ t, exec (.rebuildWalk sb lost a) s = .next t ∧ t.store.map = s.store.map ∧ t.flash.walking = true ∧
      (s.flash.walking = false → t.flash.walkTotal = s.walkLeft) ∧ t.q.cmds = s.q.cmds ∧
      ∀ c ∈ s.flash.cells, superOf c.addr = sb → lost.contains c.addr = true → (c.utype = 1 ∨ c.utype = 2) →
        s.store.pool.slotLost (addrCh c.addr) (addrDie c.addr) = true → ∀ u ∈ s.lostUnits (s.headOf c),
          t.holdsFx s.hz.epoch (.lost u.1 u.2) := by
  obtain ⟨hmap, hwalking, hcmds, hfx⟩ := s.walkMoved_spec sb lost a
  refine ⟨_, exec_rebuildWalk hreb hrun hnew hsb hnext lost a, hmap, rfl, fun hoff => ?_, hcmds, fun c hc hcsb hclost htype hslot u hu => ?_⟩
  · refine if_neg ?_
    rw [hwalking, hoff]
    exact Bool.false_ne_true
  · exact hfx c (mem_walkGone hc hcsb hclost htype hslot) u hu

/-! ### Parity that disagrees (R189, R190, R199) -/

/-- What a parity mismatch leaves alone, and the log entry that it adds. -/
structure Mended (s t : State) : Prop where
  map : t.store.map = s.store.map
  hz : t.hz = s.hz
  cmds : t.q.cmds = s.q.cmds
  resyncLeft : t.flash.resyncLeft = s.flash.resyncLeft
  nextIdx : t.recs.nextIdx = s.recs.nextIdx + 1

/-- An event is one log entry, whoever receives it (R393). -/
theorem State.event_nextIdx (s : State) (cls fn : Nat) (l : List Nat) (st : Status) (d : Nat) :
    (s.event cls fn l st d).recs.nextIdx = s.recs.nextIdx + 1 := by
  unfold State.event
  rw [foldl_keeps State.recs _ fun a n => a.ringEvent_recs n cls st d]
  rfl

theorem mended_mendStripes (s : State) (q : Stripe → Bool) : Mended s (s.mendStripes q) := by
  have hevent := s.mediaEvent_sansEvents St.rdParityMismatch 0
  let on := fun a => ((s.flash.stripes.filter q).flatMap (·.on)).contains a
  have hplaces : (s.mendStripes q).sansPlaces = ((s.mediaEvent St.rdParityMismatch 0).renewSys on).sansPlaces :=
    State.rewrite_sansPlaces ..
  have hsans := sansFlash_of_sansPlaces hplaces
  refine ⟨?_, ?_, ?_, ?_, ?_⟩
  · exact (congrArg Store.map (store_of_sansFlash hsans)).trans (congrArg Store.map (store_of_sansEvents hevent) :)
  · exact (hz_of_sansFlash hsans).trans (hz_of_sansEvents hevent :)
  · exact (congrArg Queues.cmds (q_of_sansFlash hsans)).trans (cmds_of_sansEvents hevent :)
  · calc (s.mendStripes q).flash.resyncLeft
      _ = ((s.mediaEvent St.rdParityMismatch 0).renewSys on).flash.resyncLeft := resyncLeft_of_sansPlaces hplaces
      _ = (s.mediaEvent St.rdParityMismatch 0).flash.resyncLeft := renewSys_keeps (·.resyncLeft) (fun _ _ _ => rfl) _ on
      _ = s.flash.resyncLeft := congrArg Flash.resyncLeft (flash_of_sansEvents hevent)
  · exact (congrArg Records.nextIdx (recs_of_sansFlash hsans)).trans (s.event_nextIdx ..)

/-- The state in which a resynchronisation has taken super-block `sb` off its list. -/
def State.resyncTaken (s : State) (sb : Nat) : State :=
  s.modFlash fun f => { f with resyncLeft := f.resyncLeft.filter fun x => x != sb }

theorem resyncFull_mismatch {s : State} {sb : Nat} (hrun : s.reserveRuns = true) (hsb : s.flash.resyncLeft.contains sb = true) :
    ∃ t, exec (.resyncFull sb true) s = .next t ∧ t.store.map = s.store.map ∧ t.hz = s.hz ∧ t.q.cmds = s.q.cmds ∧
      t.flash.resyncLeft = s.flash.resyncLeft.filter fun x => x != sb := by
  obtain ⟨hmap, hhz, hcmds, hleft, -⟩ := mended_mendStripes (s.resyncTaken sb).free.2 fun p => p.sb == sb && p.closed &&
    ((s.resyncTaken sb).mismatched p || (s.resyncTaken sb).free.1.getLsbD ((p.grp + 16 * p.n) % 256))
  exact ⟨_, if_pos ⟨hrun, hsb⟩, hmap, hhz, hcmds, hleft⟩

/-- A stripe check that finds a mismatch mends one of the closed stripes of its super-block. -/
theorem exec_stripeCheck {s : State} {sb : Nat} (hrun : s.reserveRuns = true) (hon : s.param 0x0611 0 ≠ 0)
    (hclosed : (s.flash.stripes.any fun p => p.sb == sb && p.closed) = true) :
    ∃ q, exec (.stripeCheck sb true) s = .next (s.free.2.mendStripes q) := by
  obtain ⟨p, hp, hpick⟩ := List.any_eq_true.1 hclosed
  have hexec : exec (.stripeCheck sb true) s = _ := if_pos ⟨hrun, hon, rfl⟩
  split at hexec
  · next hnil => exact absurd hpick (List.filter_eq_nil_iff.1 hnil p hp)
  · exact ⟨_, hexec⟩

theorem stripeCheck_mismatch {s : State} {sb : Nat} (hrun : s.reserveRuns = true) (hon : s.param 0x0611 0 ≠ 0)
    (hclosed : (s.flash.stripes.any fun p => p.sb == sb && p.closed) = true) :
    ∃ t, exec (.stripeCheck sb true) s = .next t ∧ t.store.map = s.store.map ∧ t.hz = s.hz ∧ t.q.cmds = s.q.cmds ∧
      t.recs.nextIdx = s.recs.nextIdx + 1 := by
  obtain ⟨q, hexec⟩ := exec_stripeCheck hrun hon hclosed
  obtain ⟨hmap, hhz, hcmds, -, hidx⟩ := mended_mendStripes s.free.2 q
  exact ⟨_, hexec, hmap, hhz, hcmds, hidx⟩

/-! ### The copy of a reshape (R192) -/

/-- The extent of a unit is copied as a whole: it is closed and the new layout `i` holds nothing of it. -/
def State.copiesWhole (s : State) (i k : Nat) : Bool :=
  s.store.inExtents i && s.closedExtent (extentKey k) &&
    (s.extentPlan i (extentKey k)).all fun x => s.resolve i x.1 == .zero none

section Copy

variable {s u : State} {k a : Nat} (hst : s.store.reshape.st = .copying) (hrun : s.reserveRuns = true)
  (hleft : s.uncopied k = true)
  (hrest : (s.flash.moves.any fun m => m.nsid == newLayout s.store.reshape.nsid && m.key == k) = false)
  (hu : s.withSuper false (superOf a) 1 = some u)
include hst hrun hleft hrest hu

theorem exec_reshapeCopy : exec (.reshapeCopy k a) s = .next
    ((if s.copiesWhole (newLayout s.store.reshape.nsid) k
      then (u.moveExtent a (newLayout s.store.reshape.nsid) (extentKey k)).map (·.2) else u.copyUnits k a).getD s) := by
  change execReshapeCopy k a s = _
  unfold execReshapeCopy
  dsimp only
  rw [if_pos ⟨hst, hrun, hleft, hrest⟩, hu]
  rfl

theorem exec_reshapeCopy_extent {r : Nat × State} (hwhole : s.copiesWhole (newLayout s.store.reshape.nsid) k = true)
    (hr : u.moveExtent a (newLayout s.store.reshape.nsid) (extentKey k) = some r) :
    exec (.reshapeCopy k a) s = .next r.2 := by
  rw [exec_reshapeCopy hst hrun hleft hrest hu, if_pos hwhole, hr]
  rfl

theorem exec_reshapeCopy_units {t : State} (hwhole : s.copiesWhole (newLayout s.store.reshape.nsid) k = false)
    (ht : u.copyUnits k a = some t) : exec (.reshapeCopy k a) s = .next t := by
  rw [exec_reshapeCopy hst hrun hleft hrest hu, hwhole, if_neg Bool.false_ne_true, ht]
  rfl

end Copy

theorem withSuper_moves {s u : State} {must : Bool} {sb mode : Nat} (h : s.withSuper must sb mode = some u) :
    u.flash.moves = s.flash.moves := by
  rcases withSuper_cases h with rfl | rfl
  · rfl
  · rfl

/-- Units copied for themselves are moves of live units of the old layout into the new one. -/
theorem copyUnits_spec {s t : State} {k a : Nat} (h : s.copyUnits k a = some t) : t.sansPlaces = s.sansPlaces ∧
    ∃ ms, t.flash.moves = s.flash.moves ++ ms ∧ ∀ m ∈ ms, m.nsid = newLayout s.store.reshape.nsid ∧ m.confirmed = false ∧
      s.store.mapHit s.store.reshape.nsid m.key = .flash m.src := by
  unfold State.copyUnits at h
  dsimp only at h
  split at h
  · next src hhit =>
    obtain ⟨c, -, h⟩ := Option.bind_eq_some_iff.1 h
    split at h
    · cases h
    · obtain ⟨x, hx, h⟩ := Option.bind_eq_some_iff.1 h
      obtain rfl := addMoves_spec h
      refine ⟨?_, _, congrArg (· ++ _) (takeRun_moves hx), fun m hm => ?_⟩
      · exact sansPlaces_of_sansMoves ((State.modFlash_sansMoves fun _ => rfl).trans (takeRun_sansMoves hx))
      · obtain ⟨key, hkey, rfl⟩ := List.mem_map.1 hm
        have hlive := (Bool.and_eq_true_iff.1 (List.mem_filter.1 hkey).2).2
        exact ⟨rfl, rfl, beq_iff_eq.1 hlive⟩
  · cases h

theorem copyUnits_opened {s u t : State} {k a : Nat} (hu : s.withSuper false (superOf a) 1 = some u)
    (ht : u.copyUnits k a = some t) : t.store = s.store ∧ t.hz = s.hz ∧
      ∃ ms, t.flash.moves = s.flash.moves ++ ms ∧ ∀ m ∈ ms, m.nsid = newLayout s.store.reshape.nsid ∧ m.confirmed = false ∧
        s.store.mapHit s.store.reshape.nsid m.key = .flash m.src := by
  obtain ⟨hplaces, ms, hmoves, hms⟩ := copyUnits_spec ht
  have hsans := (sansFlash_of_sansPlaces hplaces).trans (withSuper_sansFlash hu)
  rw [store_of_sansFlash (withSuper_sansFlash hu)] at hms
  rw [withSuper_moves hu] at hmoves
  exact ⟨store_of_sansFlash hsans, hz_of_sansFlash hsans, ms, hmoves, hms⟩

/-- Settles O41: a walk records what it names lost, its end makes members CLEAR, mismatches change nothing in map or epoch, and a
reshape copies live units and then records its switch (R161, R180, R182, R183, R189, R190, R192, R193, R199). -/
theorem rebuildAndReshape : Obligations.RebuildAndReshape := by
  intro s sb a
  refine ⟨fun lost hreb hrun hnew hsb hnext => rebuildWalk_spec hreb hrun hnew hsb hnext, ?walkEnd, ?notWalking,
    fun hrun hsb => ⟨if_pos ⟨hrun, hsb⟩, resyncFull_mismatch hrun hsb⟩, ?unchecked, stripeCheck_mismatch, ?copy,
    fun hst htick hleft => if_pos ⟨hst, htick, hleft⟩⟩
  case walkEnd =>
    intro hwalking hall hmoves
    refine (if_pos ⟨hwalking, hall, hmoves⟩ : execRebuildWalkEnd s = _).trans ?_
    simp only [updIf, beq_iff_eq]
    rfl
  case notWalking =>
    intro hoff
    exact if_neg fun h => Bool.false_ne_true (hoff.symm.trans h.1)
  case unchecked => exact if_neg fun h => Bool.false_ne_true h.2.2
  case copy =>
    intro k u i whole hst hrun hleft hrest hu
    refine ⟨fun hwhole r hr => ?_, fun hwhole t ht => ?_⟩
    · obtain ⟨hstore, hhz, -⟩ := moveExtent_moves hu hr
      exact ⟨exec_reshapeCopy_extent hst hrun hleft hrest hu hwhole hr, hstore, hhz⟩
    · exact ⟨exec_reshapeCopy_units hst hrun hleft hrest hu hwhole ht, copyUnits_opened hu ht⟩

end Sys2Proof.Machine
end

section
/-!
SUPPORT. The arithmetic of P and Q: byte strings under exclusive or, GF(2^8) as the powers of g, and the solution of a stripe with
one or two data codewords lost; and the statement LostCodewordsRecovered.
-/

namespace Sys2Proof.Machine

open Sys2Proof

/-! ### Byte strings under exclusive or -/

@[simp] theorem xorData_nil_left (a : Data) : xorData [] a = a := rfl

@[simp] theorem xorData_nil_right (a : Data) : xorData a [] = a := by
  cases a <;> rfl

theorem xorData_comm (a b : Data) : xorData a b = xorData b a := by
  induction a generalizing b with
  | nil => simp
  | cons x xs ih =>
    cases b with
    | nil => simp
    | cons y ys => simp only [xorData, BitVec.xor_comm x y, ih ys]

theorem xorData_assoc (a b c : Data) : xorData (xorData a b) c = xorData a (xorData b c) := by
  induction a generalizing b c with
  | nil => simp
  | cons x xs ih =>
    cases b with
    | nil => simp
    | cons y ys =>
      cases c with
      | nil => simp
      | cons z zs => simp only [xorData, BitVec.xor_assoc, ih ys zs]

theorem xorData_left_comm (a b c : Data) : xorData a (xorData b c) = xorData b (xorData a c) := by
  rw [← xorData_assoc, xorData_comm a b, xorData_assoc]

theorem length_xorData (a b : Data) : (xorData a b).length = max a.length b.length := by
  induction a generalizing b with
  | nil => simp
  | cons x xs ih =>
    cases b with
    | nil => simp
    | cons y ys => simp only [xorData, List.length_cons, ih ys, Nat.add_max_add_right]

/-- A string that is no longer than `a`, added twice, leaves `a`; a longer one would leave zeros after it. -/
theorem xorData_xorData_cancel {a b : Data} (h : b.length ≤ a.length) : xorData (xorData a b) b = a := by
  induction a generalizing b with
  | nil => simp [List.length_eq_zero_iff.1 (Nat.le_zero.1 h)]
  | cons x xs ih =>
    cases b with
    | nil => simp
    | cons y ys => simp only [xorData, BitVec.xor_assoc, BitVec.xor_self, BitVec.xor_zero, ih (Nat.le_of_succ_le_succ h)]

/-! ### GF(2^8): products with the powers of g (R176) -/

theorem gfTwice_xor (a b : Byte) : gfTwice (a ^^^ b) = gfTwice a ^^^ gfTwice b := by
  have hred : ∀ c : Byte, gfTwice c = (c <<< 1) ^^^ bif c.getLsbD 7 then 0x1D else 0 := fun c => by
    unfold gfTwice
    cases c.getLsbD 7 <;> simp
  have hbit : ∀ p q : Bool, (bif p ^^ q then 0x1D else 0 : Byte) = (bif p then 0x1D else 0) ^^^ bif q then 0x1D else 0 := by
    decide
  rw [hred, hred, hred, BitVec.getLsbD_xor, BitVec.shiftLeft_xor_distrib, hbit]
  ac_rfl

/-- The multiples of `x` that the bits `is` of `y` pick, `x` doubled from one bit to the next. -/
def gfPicked (y : Byte) : Byte → List Nat → Byte
  | _, [] => 0
  | x, i :: is => (if y.getLsbD i then x else 0) ^^^ gfPicked y (gfTwice x) is

theorem gfMul_eq_gfPicked (x y : Byte) : gfMul x y = gfPicked y x (List.range 8) := by
  have hfold : ∀ (is : List Nat) (a x : Byte), (is.foldl (fun (a : Byte × Byte) i =>
      (if y.getLsbD i then a.1 ^^^ a.2 else a.1, gfTwice a.2)) (a, x)).1 = a ^^^ gfPicked y x is := by
    intro is
    induction is with
    | nil => simp [gfPicked]
    | cons i is ih =>
      intro a x
      rw [List.foldl_cons, ih, gfPicked]
      split <;> simp [BitVec.xor_assoc]
  exact (hfold _ 0 x).trans BitVec.zero_xor

theorem gfPicked_xor (y a b : Byte) (is : List Nat) : gfPicked y (a ^^^ b) is = gfPicked y a is ^^^ gfPicked y b is := by
  induction is generalizing a b with
  | nil => simp [gfPicked]
  | cons i is ih =>
    simp only [gfPicked, gfTwice_xor, ih]
    split
    · ac_rfl
    · simp

theorem gfPicked_gfTwice (y x : Byte) (is : List Nat) : gfPicked y (gfTwice x) is = gfTwice (gfPicked y x is) := by
  induction is generalizing x with
  | nil => exact (by decide : (0 : Byte) = gfTwice 0)
  | cons i is ih =>
    rw [gfPicked, gfPicked, gfTwice_xor, ih, apply_ite gfTwice, (by decide : gfTwice 0 = 0)]

theorem gfMul_xor_left (a b y : Byte) : gfMul (a ^^^ b) y = gfMul a y ^^^ gfMul b y := by
  simp only [gfMul_eq_gfPicked, gfPicked_xor]

theorem gfMul_gfTwice_left (x y : Byte) : gfMul (gfTwice x) y = gfTwice (gfMul x y) := by
  simp only [gfMul_eq_gfPicked, gfPicked_gfTwice]

theorem gfMul_one_left : ∀ y : Byte, gfMul 1 y = y := by decide +kernel

theorem gfPow_eq_iterate (n : Nat) : gfPow n = gfTwice^[n] 1 := by
  simp [gfPow, List.foldl_const]

/-- A product with g^n doubles n times. -/
theorem gfMul_gfPow (n : Nat) (y : Byte) : gfMul (gfPow n) y = gfTwice^[n] y := by
  rw [gfPow_eq_iterate]
  induction n with
  | zero => exact gfMul_one_left y
  | succ n ih => rw [Function.iterate_succ_apply', Function.iterate_succ_apply', gfMul_gfTwice_left, ih]

theorem gfMul_gfPow_gfPow (m n : Nat) : gfMul (gfPow m) (gfPow n) = gfPow (m + n) := by
  rw [gfMul_gfPow, gfPow_eq_iterate, gfPow_eq_iterate, Function.iterate_add_apply]

theorem gfPow_255 : gfPow 255 = 1 := by decide +kernel

theorem gfPow_255_mul (n : Nat) : gfPow (255 * n) = 1 := by
  induction n with
  | zero => rfl
  | succ n ih => rw [Nat.mul_succ, ← gfMul_gfPow_gfPow, ih, gfPow_255, gfMul_one_left]

theorem gfInv_gfPow (n : Nat) : gfInv (gfPow n) = gfPow (254 * n) := by
  have hpower : ∀ m, (gfMul · (gfPow n))^[m] (gfPow n) = gfPow ((m + 1) * n) := by
    intro m
    induction m with
    | zero => simp
    | succ m ih => rw [Function.iterate_succ_apply', ih, gfMul_gfPow_gfPow, ← Nat.succ_mul]
  rw [gfInv, List.foldl_const, List.length_range]
  exact hpower 253

/-- The inverse of a power of g takes its product back (R177). -/
theorem gfMul_gfInv_gfMul_gfPow (n : Nat) (b : Byte) : gfMul (gfInv (gfPow n)) (gfMul (gfPow n) b) = b :=
  calc gfMul (gfInv (gfPow n)) (gfMul (gfPow n) b)
    _ = gfTwice^[254 * n] (gfTwice^[n] b) := by rw [gfInv_gfPow, gfMul_gfPow, gfMul_gfPow]
    _ = gfMul (gfPow (255 * n)) b := by rw [← Function.iterate_add_apply, ← Nat.succ_mul, gfMul_gfPow]
    _ = b := by rw [gfPow_255_mul, gfMul_one_left]

theorem gfMul_gfPow_xor (n : Nat) (a b : Byte) : gfMul (gfPow n) (a ^^^ b) = gfMul (gfPow n) a ^^^ gfMul (gfPow n) b := by
  simp only [gfMul_gfPow]
  induction n with
  | zero => rfl
  | succ n ih => simp only [Function.iterate_succ_apply', ih, gfTwice_xor]

/-- The divisor of two erasures among at most 14 data codewords is g^x · (1 ⊕ g^(y−x)), itself a power of g. -/
theorem exists_gfPow_eq_xor {x y : Nat} (hxy : x < y) (hy : y < 14) : ∃ n, gfPow n = gfPow x ^^^ gfPow y := by
  have hall : ∀ d < 14, 0 < d → gfPow 0 ^^^ gfPow d ∈ List.iterate gfTwice 1 255 := by decide +kernel
  obtain ⟨d, rfl⟩ := Nat.exists_eq_add_of_le hxy.le
  obtain ⟨n, -, hn⟩ := List.mem_iterate.1 (hall d (by omega) (by omega))
  exact ⟨x + n, by
    rw [← gfMul_gfPow_gfPow, gfPow_eq_iterate n, ← hn, gfMul_gfPow_xor, gfMul_gfPow_gfPow, gfMul_gfPow_gfPow, Nat.add_zero]⟩

/-! ### Byte strings times a byte -/

@[simp] theorem gfScale_nil (c : Byte) : gfScale c [] = [] := rfl

@[simp] theorem length_gfScale (c : Byte) (d : Data) : (gfScale c d).length = d.length := List.length_map _

theorem gfScale_xor (a b : Byte) (d : Data) : gfScale (a ^^^ b) d = xorData (gfScale a d) (gfScale b d) := by
  induction d with
  | nil => rfl
  | cons x xs ih => exact congrArg₂ List.cons (gfMul_xor_left a b x) ih

theorem gfScale_gfPow_xorData (n : Nat) (a b : Data) :
    gfScale (gfPow n) (xorData a b) = xorData (gfScale (gfPow n) a) (gfScale (gfPow n) b) := by
  induction a generalizing b with
  | nil => rfl
  | cons x xs ih =>
    cases b with
    | nil => rfl
    | cons y ys => exact congrArg₂ List.cons (gfMul_gfPow_xor n x y) (ih ys)

theorem gfScale_gfInv_gfScale (n : Nat) (d : Data) : gfScale (gfInv (gfPow n)) (gfScale (gfPow n) d) = d := by
  simp [gfScale, Function.comp_def, gfMul_gfInv_gfMul_gfPow]

/-! ### P and Q (R176) -/

theorem parityP_cons (d : Data) (ds : List Data) : parityP (d :: ds) = xorData d (parityP ds) := by
  have : Std.Associative xorData := ⟨xorData_assoc⟩
  calc (d :: ds).foldl xorData []
    _ = ds.foldl xorData (xorData d []) := by rw [List.foldl_cons, xorData_nil_left, xorData_nil_right]
    _ = xorData d (parityP ds) := List.foldl_assoc

theorem length_parityP_le {n : Nat} {ds : List Data} (h : ∀ d ∈ ds, d.length ≤ n) : (parityP ds).length ≤ n := by
  induction ds with
  | nil => exact Nat.zero_le n
  | cons d ds ih =>
    obtain ⟨hd, hds⟩ := List.forall_mem_cons.1 h
    rw [parityP_cons, length_xorData]
    exact max_le hd (ih hds)

/-- P is a codeword added to the P of the others. -/
theorem parityP_eq_xorData_set {ds : List Data} {x : Nat} (hx : x < ds.length) :
    parityP ds = xorData ds[x] (parityP (ds.set x [])) := by
  induction ds generalizing x with
  | nil => exact absurd hx (Nat.not_lt_zero x)
  | cons d ds ih =>
    cases x with
    | zero => exact parityP_cons d ds
    | succ x =>
      have hx := Nat.lt_of_succ_lt_succ hx
      calc parityP (d :: ds)
        _ = xorData d (xorData ds[x] (parityP (ds.set x []))) := by rw [parityP_cons, ← ih hx]
        _ = xorData ds[x] (parityP (d :: ds.set x [])) := by rw [xorData_left_comm, parityP_cons]

/-- The terms g^i · Di that Q adds up. -/
def weighted (ds : List Data) : List Data := ds.zipIdx.map fun x => gfScale (gfPow x.2) x.1

theorem parityQ_eq_parityP_weighted (ds : List Data) : parityQ ds = parityP (weighted ds) := rfl

@[simp] theorem length_weighted (ds : List Data) : (weighted ds).length = ds.length := by simp [weighted]

@[simp] theorem getElem_weighted (ds : List Data) (i : Nat) (h : i < (weighted ds).length) :
    (weighted ds)[i] = gfScale (gfPow i) (ds[i]'(by simpa using h)) := by
  simp [weighted]

theorem weighted_set_nil (ds : List Data) (x : Nat) : weighted (ds.set x []) = (weighted ds).set x [] := by
  refine List.ext_getElem (by simp) fun i _ _ => ?_
  simp only [getElem_weighted, List.getElem_set]
  split <;> simp

theorem length_of_mem_weighted {n : Nat} {ds : List Data} (h : ∀ d ∈ ds, d.length = n) :
    ∀ d ∈ weighted ds, d.length = n := by
  intro d hd
  obtain ⟨i, hi, rfl⟩ := List.mem_iff_getElem.1 hd
  rw [getElem_weighted, length_gfScale]
  exact h _ (List.getElem_mem _)

/-! ### P′ and Q′ (R177) -/

theorem length_le_of_mem_set_nil {n x : Nat} {ds : List Data} (h : ∀ d ∈ ds, d.length ≤ n) :
    ∀ d ∈ ds.set x [], d.length ≤ n := by
  intro d hd
  obtain hmem | rfl := List.mem_or_eq_of_mem_set hd
  · exact h d hmem
  · exact Nat.zero_le n

section Removed

variable {n x y : Nat} {ds : List Data} (hn : ∀ d ∈ ds, d.length = n)
include hn

/-- P without the surviving codewords is the one lost. -/
theorem xorData_parityP_set (hx : x < ds.length) : xorData (parityP ds) (parityP (ds.set x [])) = ds[x] := by
  have hrest := length_parityP_le (length_le_of_mem_set_nil (x := x) fun d hd => (hn d hd).le)
  rw [parityP_eq_xorData_set hx]
  exact xorData_xorData_cancel (hrest.trans (hn _ (List.getElem_mem hx)).ge)

/-- P without the surviving codewords is the sum of the two lost. -/
theorem xorData_parityP_set_set (hxy : x < y) (hy : y < ds.length) :
    xorData (parityP ds) (parityP ((ds.set x []).set y [])) = xorData ds[x] ds[y] := by
  have hx := hxy.trans hy
  have hrest := length_parityP_le (length_le_of_mem_set_nil (x := y)
    (length_le_of_mem_set_nil (x := x) fun d hd => (hn d hd).le))
  have hsum : parityP (ds.set x []) = xorData ds[y] (parityP ((ds.set x []).set y [])) := by
    rw [parityP_eq_xorData_set (x := y) (by simpa using hy), List.getElem_set_ne hxy.ne]
  rw [parityP_eq_xorData_set hx, hsum, ← xorData_assoc]
  refine xorData_xorData_cancel (hrest.trans ?_)
  rw [length_xorData, hn _ (List.getElem_mem hx)]
  exact le_max_left _ _

theorem xorData_parityQ_set (hx : x < ds.length) :
    xorData (parityQ ds) (parityQ (ds.set x [])) = gfScale (gfPow x) ds[x] := by
  rw [parityQ_eq_parityP_weighted, parityQ_eq_parityP_weighted, weighted_set_nil,
    xorData_parityP_set (length_of_mem_weighted hn) (by simpa using hx), getElem_weighted]

theorem xorData_parityQ_set_set (hxy : x < y) (hy : y < ds.length) :
    xorData (parityQ ds) (parityQ ((ds.set x []).set y [])) =
      xorData (gfScale (gfPow x) ds[x]) (gfScale (gfPow y) ds[y]) := by
  rw [parityQ_eq_parityP_weighted, parityQ_eq_parityP_weighted, weighted_set_nil, weighted_set_nil,
    xorData_parityP_set_set (length_of_mem_weighted hn) hxy (by simpa using hy), getElem_weighted, getElem_weighted]

end Removed

/-- The two equations of R177 solved: Q′ ⊕ g^y·P′ = (g^x ⊕ g^y)·Dx, and P′ ⊕ Dx = Dy. -/
theorem solveTwo_spec {x y n : Nat} {dx dy : Data} (hg : gfPow n = gfPow x ^^^ gfPow y) (hlen : dx.length = dy.length) :
    solveTwo x y (xorData dx dy) (xorData (gfScale (gfPow x) dx) (gfScale (gfPow y) dy)) = (dx, dy) := by
  have hsum : xorData (xorData (gfScale (gfPow x) dx) (gfScale (gfPow y) dy)) (gfScale (gfPow y) (xorData dx dy)) =
      gfScale (gfPow x ^^^ gfPow y) dx := by
    rw [gfScale_gfPow_xorData, gfScale_xor, xorData_comm (gfScale (gfPow y) dx), ← xorData_assoc,
      xorData_xorData_cancel (by simp [hlen])]
  have hx : gfScale (gfInv (gfPow x ^^^ gfPow y)) (xorData (xorData (gfScale (gfPow x) dx) (gfScale (gfPow y) dy))
      (gfScale (gfPow y) (xorData dx dy))) = dx := by
    rw [hsum, ← hg, gfScale_gfInv_gfScale]
  have hy : xorData (xorData dx dy) dx = dy := by
    rw [xorData_comm dx, xorData_xorData_cancel hlen.le]
  exact Prod.ext hx ((congrArg _ hx).trans hy)

/-! ### The table of R177 -/

/-- The places of the erasures, counted from `k`. -/
def erasures (k : Nat) (e : List (Option Data)) : List Nat := ((e.zipIdx k).filter fun x => x.1.isNone).map (·.2)

/-- The codewords of a stripe, with `v` where one is an erasure. -/
def filledWith (e : List (Option Data)) (v : Nat → Data) : List Data := e.zipIdx.map fun x => x.1.getD (v x.2)

section Table

variable {two : Bool} {e : List (Option Data)} {x y : Nat} {p q : Data}

theorem solveStripe_from_p {q : Option Data} (h : erasures 0 e = [x]) :
    solveStripe two e (some p) q = some (filledWith e fun _ => stripP p e) := by
  unfold erasures at h
  simp only [solveStripe, h]
  rfl

theorem solveStripe_from_q (h : erasures 0 e = [x]) :
    solveStripe true e none (some q) = some (filledWith e fun _ => gfScale (gfInv (gfPow x)) (stripQ q e)) := by
  unfold erasures at h
  simp only [solveStripe, h]
  rfl

theorem solveStripe_from_both (h : erasures 0 e = [x, y]) : solveStripe true e (some p) (some q) =
    some (filledWith e fun i => if i = x then (solveTwo x y (stripP p e) (stripQ q e)).1
      else (solveTwo x y (stripP p e) (stripQ q e)).2) := by
  unfold erasures at h
  simp only [solveStripe, h]
  rfl

end Table

theorem erasures_append (k : Nat) (a b : List (Option Data)) : erasures k (a ++ b) = erasures k a ++ erasures (k + a.length) b := by
  simp [erasures, List.zipIdx_append]

theorem erasures_eq_nil {k : Nat} {e : List (Option Data)} (h : ∀ d ∈ e, d.isSome) : erasures k e = [] := by
  refine List.map_eq_nil_iff.2 (List.filter_eq_nil_iff.2 fun x hx => ?_)
  simpa [Option.isSome_iff_ne_none] using h x.1 (List.fst_mem_of_mem_zipIdx hx)

/-- One more erasure, behind those there. -/
theorem erasures_set_none {e : List (Option Data)} {y : Nat} (hy : y < e.length) (h : ∀ d ∈ e.drop y, d.isSome) :
    erasures 0 (e.set y none) = erasures 0 e ++ [y] := by
  have hafter : ∀ d ∈ e.drop (y + 1), d.isSome := fun d hd => h d (List.drop_subset_drop_left e y.le_succ hd)
  have hlen : (e.take y).length = y := List.length_take_of_le hy.le
  have hsplit : erasures 0 e = erasures 0 (e.take y) := by
    conv_lhs => rw [← List.take_append_drop y e, erasures_append, erasures_eq_nil h, List.append_nil]
  calc erasures 0 (e.set y none)
    _ = erasures 0 (e.take y) ++ y :: erasures (y + 1) (e.drop (y + 1)) := by
      rw [List.set_eq_take_append_cons_drop, if_pos hy, erasures_append, hlen, Nat.zero_add]
      rfl
    _ = erasures 0 e ++ [y] := by rw [erasures_eq_nil hafter, hsplit]

theorem erasures_one {ds : List Data} {x : Nat} (hx : x < ds.length) : erasures 0 ((ds.map some).set x none) = [x] := by
  have hall : ∀ d ∈ ds.map some, d.isSome := by simp
  rw [erasures_set_none (by simpa using hx) fun d hd => hall d (List.mem_of_mem_drop hd), erasures_eq_nil hall, List.nil_append]

theorem erasures_two {ds : List Data} {x y : Nat} (hxy : x < y) (hy : y < ds.length) :
    erasures 0 (((ds.map some).set x none).set y none) = [x, y] := by
  rw [erasures_set_none (by simpa using hy), erasures_one (hxy.trans hy)]
  · rfl
  · rw [List.drop_set_of_lt hxy]
    intro d hd
    obtain ⟨_, -, rfl⟩ := List.mem_map.1 (List.mem_of_mem_drop hd)
    rfl

theorem map_getD_erased (ds : List Data) : (ds.map some).map (·.getD []) = ds := by
  simp [Function.comp_def]

theorem filledWith_eq {e : List (Option Data)} {v : Nat → Data} {ds : List Data} (hlen : e.length = ds.length)
    (h : ∀ (i : Nat) (hi : i < ds.length), e[i].getD (v i) = ds[i]) : filledWith e v = ds :=
  List.ext_getElem (by simpa [filledWith] using hlen) fun i _ hi => by simpa [filledWith] using h i hi

theorem filledWith_one {ds : List Data} {x : Nat} (hx : x < ds.length) :
    filledWith ((ds.map some).set x none) (fun _ => ds[x]) = ds := by
  refine filledWith_eq (by simp) fun i hi => ?_
  rw [List.getElem_set]
  split
  · next heq => subst heq; rfl
  · simp

theorem filledWith_two {ds : List Data} {x y : Nat} (hxy : x < y) (hy : y < ds.length) :
    filledWith (((ds.map some).set x none).set y none) (fun i => if i = x then ds[x] else ds[y]) = ds := by
  refine filledWith_eq (by simp) fun i hi => ?_
  rw [List.getElem_set]
  split
  · next heq => subst heq; simp [hxy.ne']
  · rw [List.getElem_set]
    split
    · next heq => subst heq; simp
    · simp

/-! ### Lost codewords come back -/

section Recovered

variable {n x y : Nat} {ds : List Data} (hn : ∀ d ∈ ds, d.length = n)
include hn

theorem solveStripe_one_from_p (hx : x < ds.length) (two : Bool) (q : Option Data) :
    solveStripe two ((ds.map some).set x none) (some (parityP ds)) q = some ds := by
  rw [solveStripe_from_p (erasures_one hx), stripP, List.map_set, map_getD_erased]
  exact congrArg some (by simpa only [Option.getD_none, xorData_parityP_set hn hx] using filledWith_one hx)

theorem solveStripe_one_from_q (hx : x < ds.length) :
    solveStripe true ((ds.map some).set x none) none (some (parityQ ds)) = some ds := by
  rw [solveStripe_from_q (erasures_one hx), stripQ, List.map_set, map_getD_erased]
  exact congrArg some (by
    simpa only [Option.getD_none, xorData_parityQ_set hn hx, gfScale_gfInv_gfScale] using filledWith_one hx)

theorem solveStripe_two_from_both (hxy : x < y) (hy : y < ds.length) (h14 : ds.length ≤ 14) :
    solveStripe true (((ds.map some).set x none).set y none) (some (parityP ds)) (some (parityQ ds)) = some ds := by
  have hx := hxy.trans hy
  obtain ⟨_, hg⟩ := exists_gfPow_eq_xor hxy (hy.trans_le h14)
  have hlen : ds[x].length = ds[y].length := (hn _ (List.getElem_mem hx)).trans (hn _ (List.getElem_mem hy)).symm
  rw [solveStripe_from_both (erasures_two hxy hy), stripP, stripQ, List.map_set, List.map_set, map_getD_erased]
  exact congrArg some (by
    simpa only [Option.getD_none, xorData_parityP_set_set hn hxy hy, xorData_parityQ_set_set hn hxy hy,
      solveTwo_spec hg hlen] using filledWith_two hxy hy)

end Recovered

/-- Settles O42: P and Q less the surviving codewords are linear equations in those lost, whose coefficients are powers of g and so
have inverses (R176, R177). -/
theorem lostCodewordsRecovered : Obligations.LostCodewordsRecovered := by
  intro n ds h14 hn p q
  refine ⟨fun x hx => ⟨?both, ?q, ?p, ?pOnly⟩, fun x y hxy hy => ?two⟩
  case both => exact solveStripe_one_from_p hn hx true (some q)
  case q => exact solveStripe_one_from_q hn hx
  case p => exact solveStripe_one_from_p hn hx true none
  case pOnly => exact solveStripe_one_from_p hn hx false none
  case two => exact solveStripe_two_from_both hn hxy hy h14

end Sys2Proof.Machine
end

section
/-!
SUPPORT. The commands on Halo tables: the room that an insertion finds, and the statement
HaloTableCommands.
-/

namespace Sys2Proof.Machine

open Sys2Proof

section Room

variable {s : State} {n : Nat} {r : MbReq} {x : HaloTable} {i : Nat}

/-- The entry that an insertion writes, its slot given (R217). -/
def insertedEntry (x : HaloTable) (r : MbReq) (slot : Nat) : HaloEntry :=
  ⟨x.nextId, slot, reqValue r, reqMask r, fldB r 33 1, false, reqWord r, List.replicate x.replicas 0⟩

/-- An insertion begins: the moves that free its slot, then the entry's own steps (R218, R219). -/
def State.beginInsert (s : State) (n : Nat) (r : MbReq) (x : HaloTable) (slot : Nat) (ms : List (Nat × Nat)) : State :=
  s.beginSteps x.id (ms.flatMap moveSteps ++ [.write (insertedEntry x r slot), .validate slot])
    (n, 0x0703, r.tag, [x.nextId, slot, ms.length]) fun y => { y with nextId := y.nextId + 1 }

theorem insertEntry_free {lo hi : Nat} (h : x.room i = .free lo hi) :
    let c := s.choose (fun v => decide (lo ≤ v) && decide (v < hi)) lo
    s.insertEntry n r x i = .later (c.2.beginInsert n r x c.1 []) := by
  simp only [State.insertEntry, h]
  rfl

theorem insertEntry_moves {slot : Nat} {ms : List (Nat × Nat)} (h : x.room i = .moves slot ms)
    (hms : ms.length ≤ s.param 0x0711 0) : s.insertEntry n r x i = .later (s.beginInsert n r x slot ms) := by
  simp only [State.insertEntry, h, if_neg (Nat.not_lt.mpr hms)]
  rfl

theorem insertEntry_noHole {slot : Nat} {ms : List (Nat × Nat)} (h : x.room i = .moves slot ms)
    (hms : s.param 0x0711 0 < ms.length) : s.insertEntry n r x i = .refuse St.haloNoHole [] := by
  simp only [State.insertEntry, h, if_pos hms]

theorem insertEntry_full (h : x.room i = .full) : s.insertEntry n r x i = .refuse St.haloTableFull [] := by
  simp only [State.insertEntry, h]

end Room

/-- An entry of the request's own priority refuses no placement before it (R217). -/
theorem placed_of_all {o : Option HaloEntry} {code p : Nat} (h : code = 2 → o.all (fun e => e.prio == p) = true) :
    ¬ (code = 2 ∧ o.elim false (fun e => e.prio != p) = true) := by
  rintro ⟨hcode, hne⟩
  cases o with
  | none => cases hne
  | some e => simp_all [Option.all]

/-- A command ends as its own part on the state that it runs on says. -/
theorem finish_congr {s : State} {m : MbMeta} {n : Nat} {r : MbReq} {f g : State → MbResult} (h : f s = g s) :
    s.finish m n r f = s.finish m n r g := by
  simp only [State.finish, h]

/-- An insertion whose table, entry and place pass their checks takes the room at its place (R217, R219). -/
theorem exec_haloTableInsert {s : State} {n : Nat} {r : MbReq} {x : HaloTable} {i : Nat}
    (h : s.turn Mb.haloTableInsert n r)
    (hx : ((s.taken n).settleTable (fldB r 32 1)).tableFor n (fldB r 32 1) false = some x) (hidle : x.compacting = false)
    (hcheck : ((s.taken n).settleTable (fldB r 32 1)).entryCheck x (reqValue r) (reqMask r) (reqWord r) = none)
    (hplace : x.place (fldB r 33 1) (fld r 272 2) (fldB r 36 4) = some i)
    (hprio : fld r 272 2 = 2 → (x.entries[i]?).all (fun e => e.prio == fldB r 33 1) = true) :
    exec (.haloTableInsert n r) s = .next ((s.taken n).finish Mb.haloTableInsert n r fun u =>
      (u.settleTable (fldB r 32 1)).insertEntry n r x i) := by
  refine (exec_turn rfl h).trans (congrArg _ (finish_congr ?_))
  simp only [hx, hidle, hcheck, hplace, if_neg (placed_of_all hprio), Bool.false_eq_true, if_false]

/-- Settles O11: each command on a Halo table ends, at its turn and within its rules, as R217 to R224 say. -/
theorem haloTableCommands : Obligations.HaloTableCommands := by
  intro s n r
  dsimp only
  refine ⟨?create, ?destroy, ?delete, ?modify, ?insert, ?compact⟩
  case create =>
    intro h hfew hclass hbanks
    refine exec_turn_basic rfl h ?_
    have hlimit : ¬ (256 ≤ (s.taken n).halo.tables.length ∨
        (bitAt r.payload 11 = true ∧ ((s.taken n).classTable.isSome = true ∨ n ≠ 0))) := by
      rintro (hfull | ⟨hc, hbusy⟩)
      · exact Nat.not_le.mpr hfew hfull
      · obtain ⟨hn, hnone, -⟩ := hclass hc
        rcases hbusy with hheld | hother
        · rw [hnone] at hheld; cases hheld
        · exact hother hn
    have hword : ¬ (bitAt r.payload 11 = true ∧ ¬ wordOk (BitVec.ofNat 32 (fld r 32 32)) = true) :=
      fun ⟨hc, hno⟩ => hno (hclass hc).2.2
    exact (if_neg hlimit).trans ((if_neg (Nat.not_lt.mpr hbanks)).trans (if_neg hword))
  case destroy =>
    intro x h hx
    exact exec_turn_basic rfl h (by simp only [hx])
  case delete =>
    intro x e h hx hidle he
    exact exec_turn_later rfl h (by simp only [hx, hidle, he, Bool.false_eq_true, if_false])
  case modify =>
    intro x e h hx hidle hcheck he hprio
    exact exec_turn_later rfl h (by
      simp only [hx, hidle, hcheck, he, hprio, Bool.false_eq_true, if_false, ne_eq, not_true_eq_false])
  case insert =>
    intro x i h hx hidle hcheck hplace hprio
    have hrun := exec_haloTableInsert h hx hidle hcheck hplace hprio
    refine ⟨?free, ?moves, ?noHole, ?full⟩
    case free => exact fun lo hi hroom => hrun.trans (congrArg _ (finish_later (insertEntry_free hroom)))
    case moves => exact fun slot ms hroom hms => hrun.trans (congrArg _ (finish_later (insertEntry_moves hroom hms)))
    case noHole => exact fun slot ms hroom hms => hrun.trans (congrArg _ (finish_refuse (insertEntry_noHole hroom hms)))
    case full => exact fun hroom => hrun.trans (congrArg _ (finish_refuse (insertEntry_full hroom)))
  case compact =>
    intro x h hx hidle hfew
    refine (exec_turn rfl h).trans (congrArg _ (finish_long ?_))
    simp only [hx, hidle, Bool.false_eq_true, if_false]
    exact long_free hfew _

end Sys2Proof.Machine
end

section
/-!
SUPPORT. The update steps of Halo tables (R218): what a step leaves of its table, the reply that follows the last of
them, and the statement HaloUpdates.
-/

namespace Sys2Proof.Machine

open Sys2Proof

/-! ### The element of a key after a change -/

section Keyed

variable {α : Type} {key : α → Nat} {k : Nat} {g : α → α} (hg : ∀ y, key y = k → key (g y) = k)
include hg

/-- The element of a key, after a change of the elements of that key that keeps the key. -/
theorem find?_updIf_same (l : List α) : (updIf (fun y => key y == k) g l).find? (fun y => key y == k) =
    (l.find? fun y => key y == k).map g := by
  induction l with
  | nil => rfl
  | cons y l ih =>
    change List.find? _ ((if (key y == k) = true then g y else y) :: updIf (fun y => key y == k) g l) = _
    by_cases hy : key y = k
    · simp [hy, hg y hy]
    · simp [hy, ih]

/-- The element of another key is as before. -/
theorem find?_updIf_other {m : Nat} (hm : m ≠ k) (l : List α) :
    (updIf (fun y => key y == k) g l).find? (fun y => key y == m) = l.find? fun y => key y == m := by
  induction l with
  | nil => rfl
  | cons y l ih =>
    change List.find? _ ((if (key y == k) = true then g y else y) :: updIf (fun y => key y == k) g l) = _
    by_cases hy : key y = k
    · simp [hy, hg y hy, Ne.symm hm, ih]
    · simp [hy, List.find?_cons, ih]

end Keyed

/-! ### Entries after a step (R214, R218) -/

/-- An entry put in its slot stands beside the entries of the other slots. -/
theorem mem_put {t : HaloTable} {e x : HaloEntry} :
    x ∈ (t.put e).entries ↔ x = e ∨ x ∈ t.entries ∧ x.slot ≠ e.slot := by
  change x ∈ insertOn _ e _ ↔ _
  rw [(insertOn_perm _ e _).mem_iff]
  simp

theorem mem_put_slot {t : HaloTable} {e x : HaloEntry} (h : x ∈ (t.put e).entries) (hs : x.slot = e.slot) : x = e :=
  (mem_put.1 h).elim id fun hx => absurd hs hx.2

theorem mem_put_other {t : HaloTable} {e x : HaloEntry} (h : x ∈ t.entries) (hs : x.slot ≠ e.slot) :
    x ∈ (t.put e).entries := mem_put.2 (.inr ⟨h, hs⟩)

/-- A step changes the entries of its table alone. -/
theorem apply_frame (t : HaloTable) (x : HaloStep) : t.apply x = { t with entries := (t.apply x).entries } := by
  cases x with
  | copy a b => simp only [HaloTable.apply]; split <;> rfl
  | _ => rfl

theorem apply_copy {t : HaloTable} {a b : Nat} {e : HaloEntry} (h : t.entries.find? (fun x => x.slot == a) = some e) :
    t.apply (.copy a b) = t.put { e with slot := b, valid := false } := by
  simp only [HaloTable.apply, h]

theorem mem_apply_validate {t : HaloTable} {a : Nat} {x : HaloEntry} :
    x ∈ (t.apply (.validate a)).entries ↔ ∃ y ∈ t.entries, (if y.slot = a then { y with valid := true } else y) = x := by
  simp [HaloTable.apply, updIf]

theorem mem_apply_invalidate {t : HaloTable} {a : Nat} {x : HaloEntry} :
    x ∈ (t.apply (.invalidate a)).entries ↔ x ∈ t.entries ∧ x.slot ≠ a := by
  simp [HaloTable.apply]

/-! ### Tables after a change of one of them -/

theorem table?_id {s : State} {n : Nat} {t : HaloTable} (h : s.table? n = some t) : t.id = n := by
  simpa using List.find?_some h

section ModTable

variable {s : State} {n : Nat} {g : HaloTable → HaloTable} (hg : ∀ y, y.id = n → (g y).id = n)
include hg

theorem table?_modTable : (s.modTable n g).table? n = (s.table? n).map g := find?_updIf_same hg _

theorem table?_modTable_other {m : Nat} (hm : m ≠ n) : (s.modTable n g).table? m = s.table? m :=
  find?_updIf_other hg hm _

end ModTable

/-! ### The reply that follows the last step (R218) -/

theorem laterReply_frame (s : State) (n op tag : Nat) (vals : List Nat) :
    s.laterReply n op tag vals = { s with fns := (s.laterReply n op tag vals).fns } := by
  unfold State.laterReply
  split <;> rfl

@[simp] theorem table?_laterReply (s : State) (n op tag : Nat) (vals : List Nat) (m : Nat) :
    (s.laterReply n op tag vals).table? m = s.table? m := by
  rw [laterReply_frame]
  rfl

/-- A request that still waits for its later reply gets it. -/
theorem fn?_laterReply {s : State} {n op tag : Nat} {f : Fn} {r : Nat × MbReq} (vals : List Nat)
    (hf : s.fn? n = some f) (hr : f.mb.request = some r) (hop : r.1 = op) (htag : r.2.tag = tag) :
    (s.laterReply n op tag vals).fn? n = some { f with
      mb := { f.mb with request := none, reply := some ⟨op, tag, St.ok, vals, none⟩ } } := by
  have hwaits : ((s.fn? n).elim false fun f => f.mb.request.elim false fun r => r.1 == op && r.2.tag == tag) = true := by
    simp [hf, hr, hop, htag]
  rw [State.laterReply, if_pos hwaits, State.stage, fn?_modFn (by exact fun _ => rfl), hf]
  rfl

section TableReply

variable {s : State} {t : HaloTable}

theorem tableReply_frame : s.tableReply t = { s with halo := (s.tableReply t).halo, fns := (s.tableReply t).fns } := by
  unfold State.tableReply
  split
  · rfl
  · rw [laterReply_frame]
    rfl

theorem table?_tableReply {n : Nat} (hn : t.id = n) (h : s.table? n = some t) :
    (s.tableReply t).table? n = some { t with reply := none } := by
  subst hn
  unfold State.tableReply
  split
  · next hnone => rw [h, ← hnone]
  · rw [table?_laterReply, table?_modTable (by exact fun _ hy => hy), h]
    rfl

theorem table?_tableReply_other {m : Nat} (hm : m ≠ t.id) : (s.tableReply t).table? m = s.table? m := by
  unfold State.tableReply
  split
  · rfl
  · rw [table?_laterReply, table?_modTable_other (by exact fun _ hy => hy) hm]

theorem fn?_tableReply {k op tag : Nat} {vals : List Nat} {f : Fn} {r : Nat × MbReq}
    (hreply : t.reply = some (k, op, tag, vals)) (hf : s.fn? k = some f) (hr : f.mb.request = some r) (hop : r.1 = op)
    (htag : r.2.tag = tag) : (s.tableReply t).fn? k = some { f with
      mb := { f.mb with request := none, reply := some ⟨op, tag, St.ok, vals, none⟩ } } := by
  simp only [State.tableReply, hreply]
  exact fn?_laterReply vals hf hr hop htag

end TableReply

/-! ### A step of a table (R218) -/

section Stepped

variable {s : State} {t : HaloTable} {x : HaloStep} {xs : List HaloStep}

/-- A table once its first waiting step is performed. -/
def HaloTable.stepped (t : HaloTable) (x : HaloStep) (xs : List HaloStep) : HaloTable := { t.apply x with steps := xs }

theorem stepped_id : (t.stepped x xs).id = t.id := by
  rw [HaloTable.stepped, apply_frame]

theorem stepped_reply : (t.stepped x xs).reply = t.reply := by
  rw [HaloTable.stepped, apply_frame]

theorem stepTable_more (h : t.steps = x :: xs) (hxs : xs ≠ []) :
    s.stepTable t = s.modTable t.id fun _ => t.stepped x xs := by
  simp only [State.stepTable, h, if_neg hxs]
  rfl

theorem stepTable_last (h : t.steps = [x]) :
    s.stepTable t = (s.modTable t.id fun _ => t.stepped x []).tableReply (t.stepped x []) := by
  simp only [State.stepTable, h, if_true]
  rfl

theorem stepTable_frame (h : t.steps = x :: xs) :
    s.stepTable t = { s with halo := (s.stepTable t).halo, fns := (s.stepTable t).fns } := by
  by_cases hxs : xs = []
  · subst hxs
    rw [stepTable_last h, tableReply_frame]
    rfl
  · rw [stepTable_more h hxs]
    rfl

/-- The table itself is stepped, and holds its reply no longer after the last step. -/
theorem table?_stepTable (ht : s.table? t.id = some t) (h : t.steps = x :: xs) : (s.stepTable t).table? t.id =
    some { t.apply x with steps := xs, reply := if xs = [] then none else t.reply } := by
  have hmod : (s.modTable t.id fun _ => t.stepped x xs).table? t.id = some (t.stepped x xs) := by
    rw [table?_modTable fun _ _ => stepped_id, ht]
    rfl
  by_cases hxs : xs = []
  · subst hxs
    rw [stepTable_last h, table?_tableReply stepped_id hmod, if_pos rfl]
    rfl
  · rw [stepTable_more h hxs, hmod, if_neg hxs, ← stepped_reply (t := t) (x := x) (xs := xs)]
    rfl

theorem table?_stepTable_other {m : Nat} (hm : m ≠ t.id) (h : t.steps = x :: xs) :
    (s.stepTable t).table? m = s.table? m := by
  have hmod := table?_modTable_other (s := s) (n := t.id) (g := fun _ => t.stepped x xs) (fun _ _ => stepped_id) hm
  by_cases hxs : xs = []
  · subst hxs
    rw [stepTable_last h, table?_tableReply_other (by rw [stepped_id]; exact hm), hmod]
  · rw [stepTable_more h hxs, hmod]

/-- After the last step the request that waits for the change is answered (R218). -/
theorem fn?_stepTable_last {k op tag : Nat} {vals : List Nat} {f : Fn} {r : Nat × MbReq} (h : t.steps = [x])
    (hreply : t.reply = some (k, op, tag, vals)) (hf : s.fn? k = some f) (hr : f.mb.request = some r) (hop : r.1 = op)
    (htag : r.2.tag = tag) : (s.stepTable t).fn? k = some { f with
      mb := { f.mb with request := none, reply := some ⟨op, tag, St.ok, vals, none⟩ } } := by
  rw [stepTable_last h]
  exact fn?_tableReply (stepped_reply.trans hreply) hf hr hop htag

end Stepped

section AtTable

variable {s : State} {n : Nat}

theorem exec_haloUpdateStep {t : HaloTable} (h : s.table? n = some t) :
    exec (.haloUpdateStep n) s = .next (s.stepTable t) := by
  change execHaloUpdateStep n s = _
  simp only [execHaloUpdateStep, h]

theorem exec_halo_noTable (h : s.table? n = none) :
    exec (.haloUpdateStep n) s = .next s ∧ exec (.haloCompactDone n) s = .next s := by
  change execHaloUpdateStep n s = _ ∧ execHaloCompactDone n s = _
  simp only [execHaloUpdateStep, execHaloCompactDone, h, and_self]

theorem exec_haloCompactDone {t : HaloTable} (h : s.table? n = some t) : exec (.haloCompactDone n) s =
    if t.compacting = true ∧ t.steps = [] then
      .next ((s.modTable n fun t => { t with compacting := false }).endLong t.longId St.ok [t.moved])
    else .next s := by
  change execHaloCompactDone n s = _
  simp only [execHaloCompactDone, h]

end AtTable

/-- Settles O43: a step is performed on its table alone, each kind of step leaves VALID as R218 says, and a compaction
ends after its last step (R219, R221, R224). -/
theorem haloUpdates : Obligations.HaloUpdates := by
  intro s n
  refine ⟨exec_halo_noTable, fun t ht => ?_⟩
  obtain rfl := table?_id ht
  refine ⟨?idle, ?step, ?write, ?copy, ?flags, ?compacted, ?notCompacted⟩
  case idle =>
    intro h
    rw [exec_haloUpdateStep ht, State.stepTable, h]
  case step =>
    intro x xs h
    refine ⟨_, exec_haloUpdateStep ht, stepTable_frame h, table?_stepTable ht h, fun m hm => table?_stepTable_other hm h, ?_⟩
    rintro rfl k op tag vals f r hreply hf hr hop htag
    exact fn?_stepTable_last h hreply hf hr hop htag
  case write => exact fun e => ⟨fun x => mem_put_slot, fun x => mem_put_other (e := { e with valid := false })⟩
  case copy =>
    intro a b e he
    rw [apply_copy he]
    exact ⟨fun x => mem_put_slot, fun x => mem_put_other (e := { e with slot := b, valid := false })⟩
  case flags =>
    intro a
    refine ⟨fun x hx hs => ?_, fun x hx => (mem_apply_invalidate.1 hx).2, fun x hx hs =>
      ⟨mem_apply_validate.2 ⟨x, hx, if_neg hs⟩, mem_apply_invalidate.2 ⟨hx, hs⟩⟩⟩
    obtain ⟨y, -, rfl⟩ := mem_apply_validate.1 hx
    split at hs
    · next hy => rw [if_pos hy]
    · next hy => exact absurd hs hy
  case compacted =>
    intro hc h
    rw [exec_haloCompactDone ht, if_pos ⟨hc, h⟩]
  case notCompacted =>
    intro h
    rw [exec_haloCompactDone ht, if_neg]
    rintro ⟨hc, hs⟩
    rcases h with hidle | hsteps
    · rw [hc] at hidle; cases hidle
    · exact hsteps hs

end Sys2Proof.Machine
end

section
/-!
SUPPORT. Calls of services (R278): what a thread has run leaves alone, the call that reaches its service and the call of
a function that is not ACTIVE (R291), and the result registers of a call.
-/

namespace Sys2Proof.Machine

open Sys2Proof

/-! ### What a thread has run leaves alone (R265, R266) -/

/-- The state without what a thread changes as it runs: the engines and the data memory of modules. -/
def State.sansEngines (s : State) : State := s.modAnv fun a => { a with engines := [], data := [] }

@[simp] theorem modEngine_sansEngines (s : State) (e : Nat) (g : Engine → Engine) :
    (s.modEngine e g).sansEngines = s.sansEngines := rfl

@[simp] theorem modWrite_sansEngines (s : State) (n e a : Nat) (bs : Data) :
    (s.modWrite n e a bs).sansEngines = s.sansEngines := by
  unfold State.modWrite
  split <;> rfl

@[simp] theorem stores_sansEngines (s : State) (n e : Nat) (ws : List (Nat × Data)) :
    (s.stores n e ws).sansEngines = s.sansEngines := by
  refine foldl_keeps _ _ (fun u w => ?_) ws s
  split
  · exact modWrite_sansEngines ..
  · rfl

@[simp] theorem ranWith_sansEngines (s : State) (n e : Nat) (run : ThreadRun) (rs : List (Nat × Nat)) :
    (s.ranWith n e run rs).sansEngines = s.sansEngines := by
  rw [State.ranWith, modEngine_sansEngines, State.ran, stores_sansEngines, modEngine_sansEngines]

/-- A reading of the state that looks at no engine and at no data memory is as before the thread ran. -/
theorem ranWith_keeps {β : Type} (get : State → β) (h : ∀ u : State, get u.sansEngines = get u) (s : State) (n e : Nat)
    (run : ThreadRun) (rs : List (Nat × Nat)) : get (s.ranWith n e run rs) = get s := by
  rw [← h, ranWith_sansEngines, h]

section Ran

variable (s : State) (n e : Nat) (run : ThreadRun) (rs : List (Nat × Nat))

@[simp] theorem ranWith_readable (m : Module) (a len : Nat) :
    (s.ranWith n e run rs).readable_ m a len = s.readable_ m a len :=
  ranWith_keeps (·.readable_ m a len) (fun _ => rfl) ..

@[simp] theorem ranWith_writable (k a len : Nat) : (s.ranWith n e run rs).writable k a len = s.writable k a len :=
  ranWith_keeps (·.writable k a len) (fun _ => rfl) ..

@[simp] theorem ranWith_threadOf (inst tid : Nat) : (s.ranWith n e run rs).threadOf inst tid = s.threadOf inst tid :=
  ranWith_keeps (·.threadOf inst tid) (fun _ => rfl) ..

@[simp] theorem ranWith_table? (id : Nat) : (s.ranWith n e run rs).table? id = s.table? id :=
  ranWith_keeps (·.table? id) (fun _ => rfl) ..

@[simp] theorem ranWith_dataBytes (k : Nat) : (s.ranWith n e run rs).dataBytes k = s.dataBytes k :=
  ranWith_keeps (·.dataBytes k) (fun _ => rfl) ..

@[simp] theorem ranWith_dataUsed (k : Nat) : (s.ranWith n e run rs).dataUsed k = s.dataUsed k :=
  ranWith_keeps (·.dataUsed k) (fun _ => rfl) ..

@[simp] theorem ranWith_dataStarts (k align : Nat) : (s.ranWith n e run rs).dataStarts k align = s.dataStarts k align :=
  ranWith_keeps (·.dataStarts k align) (fun _ => rfl) ..

@[simp] theorem ranWith_dataFree (k a len : Nat) : (s.ranWith n e run rs).dataFree k a len = s.dataFree k a len :=
  ranWith_keeps (·.dataFree k a len) (fun _ => rfl) ..

@[simp] theorem ranWith_mem : (s.ranWith n e run rs).anv.mem = s.anv.mem :=
  ranWith_keeps (·.anv.mem) (fun _ => rfl) ..

@[simp] theorem ranWith_threads : (s.ranWith n e run rs).anv.threads = s.anv.threads :=
  ranWith_keeps (·.anv.threads) (fun _ => rfl) ..

@[simp] theorem ranWith_recs : (s.ranWith n e run rs).recs = s.recs :=
  ranWith_keeps (·.recs) (fun _ => rfl) ..

variable {s n e run rs} {u : State}

/-- What a call changes beside the engines, seen from before the thread ran. -/
theorem ranWith_frame (hu : u = { s.ranWith n e run rs with anv := u.anv, freeCtr := u.freeCtr }) :
    u = { s with anv := u.anv, freeCtr := u.freeCtr } :=
  hu.trans (ranWith_keeps (fun w => { w with anv := u.anv, freeCtr := u.freeCtr }) (fun _ => rfl) ..)

theorem ranWith_recs_frame
    (hu : u = { s.ranWith n e run rs with anv := u.anv, recs := u.recs, freeCtr := u.freeCtr }) :
    u = { s with anv := u.anv, recs := u.recs, freeCtr := u.freeCtr } :=
  hu.trans (ranWith_keeps (fun w => { w with anv := u.anv, recs := u.recs, freeCtr := u.freeCtr }) (fun _ => rfl) ..)

end Ran

/-! ### Integer registers of the engines -/

/-- The integer registers of every engine. -/
def State.regs (s : State) : List (List Word64) := s.anv.engines.map (·.x)

@[simp] theorem getElem?_updAt {α : Type} (l : List α) (i : Nat) (f : α → α) : (updAt l i f)[i]? = l[i]?.map f := by
  unfold updAt
  split
  · next x hx =>
    obtain ⟨hi, rfl⟩ := List.getElem?_eq_some_iff.1 hx
    simp [hi]
  · next hx => simp [hx]

theorem map_updAt {α β : Type} {p : α → β} {f : α → α} {g : β → β} (h : ∀ x, p (f x) = g (p x)) (l : List α) (i : Nat) :
    (updAt l i f).map p = updAt (l.map p) i g := by
  unfold updAt
  rw [List.getElem?_map]
  cases l[i]? with
  | none => rfl
  | some x => simp [List.map_set, h]

theorem updAt_id {α : Type} (l : List α) (i : Nat) : updAt l i id = l := by
  unfold updAt
  split
  · next x hx =>
    obtain ⟨hi, rfl⟩ := List.getElem?_eq_some_iff.1 hx
    exact List.set_getElem_self hi
  · rfl

theorem modEngine_regs {g : Engine → Engine} {h : List Word64 → List Word64} (hg : ∀ c, (g c).x = h c.x) (s : State)
    (e : Nat) : (s.modEngine e g).regs = updAt s.regs e h := map_updAt hg _ e

@[simp] theorem modWrite_regs (s : State) (n e a : Nat) (bs : Data) : (s.modWrite n e a bs).regs = s.regs := by
  unfold State.modWrite
  split
  · rw [modEngine_regs (h := id) (by exact fun _ => rfl), updAt_id]
  · rfl

@[simp] theorem stores_regs (s : State) (n e : Nat) (ws : List (Nat × Data)) : (s.stores n e ws).regs = s.regs := by
  refine foldl_keeps State.regs _ (fun u w => ?_) ws s
  split
  · exact modWrite_regs ..
  · rfl

/-- Registers after settings one after another; x0 stays 0. -/
def setX (x : List Word64) (rs : List (Nat × Nat)) : List Word64 :=
  rs.foldl (fun x r => if r.1 = 0 then x else x.set r.1 (BitVec.ofNat 64 r.2)) x

@[simp] theorem setX_length (rs : List (Nat × Nat)) (x : List Word64) : (setX x rs).length = x.length := by
  induction rs generalizing x with
  | nil => rfl
  | cons r rs ih =>
    change (setX (if r.1 = 0 then x else x.set r.1 (BitVec.ofNat 64 r.2)) rs).length = _
    rw [ih]
    split
    · rfl
    · exact List.length_set

/-- A call finds the registers that the thread has run up to, with its arguments and its number set. -/
theorem ranWith_regs (s : State) (n e : Nat) (run : ThreadRun) (rs : List (Nat × Nat)) :
    (s.ranWith n e run rs).regs[e]? = s.regs[e]?.map fun _ => setX (0 :: run.x.drop 1) rs := by
  rw [State.ranWith, modEngine_regs (h := (setX · rs)) (fun _ => rfl), getElem?_updAt, State.ran, stores_regs,
    modEngine_regs (h := fun _ => 0 :: run.x.drop 1) (fun _ => rfl), getElem?_updAt, Option.map_map]
  rfl

theorem engineOk_iff {s : State} {e : Nat} : s.engineOk e ↔ ∃ x, s.regs[e]? = some x ∧ x.length = 32 := by
  simp only [State.engineOk, State.regs, State.engine, List.getElem?_map, List.getD_eq_getElem?_getD]
  by_cases h : e < s.anv.engines.length
  · simp [h]
  · simp [h]

theorem engineOk_congr {s t : State} {e : Nat} (h : t.regs = s.regs) (hs : s.engineOk e) : t.engineOk e := by
  rw [engineOk_iff, h]
  exact engineOk_iff.1 hs

theorem engineOk_ranWith {s : State} {e : Nat} {run : ThreadRun} (he : e < s.anv.engines.length) (hx : run.x.length = 32)
    (n : Nat) (rs : List (Nat × Nat)) : (s.ranWith n e run rs).engineOk e := by
  rw [engineOk_iff, ranWith_regs, State.regs, List.getElem?_map, List.getElem?_eq_getElem he]
  exact ⟨_, rfl, by simp [hx]⟩

theorem xreg_eq (s : State) (e r : Nat) : s.xreg e r = ((s.regs[e]?.getD Engine.fresh.x).getD r 0).toNat := by
  simp only [State.xreg, State.engine, State.regs, List.getElem?_map, List.getD_eq_getElem?_getD]
  cases s.anv.engines[e]? <;> rfl

/-- The result of a call stands in a0 and a1 (R278). -/
theorem resultOf_setResult {s : State} {e : Nat} (h : s.engineOk e) (st : Status) (v : Nat) :
    (s.setResult e st v).resultOf e = (st.toNat, v % 2 ^ 64) := by
  obtain ⟨x, hx, hlen⟩ := engineOk_iff.1 h
  have hset : (s.setResult e st v).regs[e]? = some ((x.set 10 (BitVec.ofNat 64 st.toNat)).set 11 (BitVec.ofNat 64 v)) := by
    rw [State.setResult, modEngine_regs (h := (setX · [(10, st.toNat), (11, v)])) (fun _ => rfl), getElem?_updAt, hx]
    rfl
  have hst : st.toNat < 2 ^ 64 := Nat.lt_trans st.isLt (by decide)
  simp only [State.resultOf, xreg_eq, hset, Option.getD_some, List.getD_eq_getElem?_getD, List.getElem?_set,
    List.length_set, hlen]
  simpa using hst

/-- The result that a service gives, where the service itself sets no register. -/
theorem resultOf_call {s u : State} {n e : Nat} {run : ThreadRun} {rs : List (Nat × Nat)} {st : Status} {v : Nat}
    (he : e < s.anv.engines.length) (hx : run.x.length = 32) (hu : u.regs = (s.ranWith n e run rs).regs) :
    (u.setResult e st v).resultOf e = (st.toNat, v % 2 ^ 64) :=
  resultOf_setResult (engineOk_congr hu (engineOk_ranWith he hx n rs)) st v

/-! ### Calls -/

section Call

variable {s : State} {e : Nat} {t : Thread} {i : Inst} {m : Module} {run : ThreadRun}

/-- A call of a thread that may call reaches its service, once what the thread has run is known (R278). -/
theorem service_go (h : s.calls e t i m) (k : Nat) (args : List Nat) (go : State → Thread → Inst → Module → State) :
    s.service e k args run go = go (s.ranWith t.fn e run (callRegs k args)) t i m := by
  obtain ⟨hrun, hfree, hactive, hinst, hlive, hmod⟩ := h
  simp only [State.service, hrun, hfree, hactive, hinst, hlive, hmod, Bool.false_eq_true, if_false, ne_eq,
    not_true_eq_false]
  rfl

/-- A call of a function that is not ACTIVE returns ST_OK and does nothing (R291). -/
theorem service_inactive (hrun : s.runningOn e = some t) (hfree : s.callStalled e = false) (h : s.fnState t.fn ≠ .active)
    (k : Nat) (args : List Nat) (go : State → Thread → Inst → Module → State) :
    s.service e k args run go = (s.ranWith t.fn e run (callRegs k args)).setResult e St.ok 0 := by
  simp only [State.service, hrun, hfree, if_pos h, Bool.false_eq_true, if_false]
  rfl

end Call

end Sys2Proof.Machine
end

section
/-!
SUPPORT. The services that move data (R278, R279): each on the state that a call reaches, and the statement
DataServices.
-/

namespace Sys2Proof.Machine

open Sys2Proof

/-! ### Allocations (R278) -/

/-- No allocation goes beyond the function's data memory. -/
theorem dataAlloc_none {s : State} {n len : Nat} (h : s.dataBytes n < s.dataUsed n + len) (inst align : Nat) :
    s.dataAlloc n inst len align = none := by
  simp only [State.dataAlloc, if_pos h]

/-- Where an aligned free piece of the size asked for is left, one is allocated. -/
theorem dataAlloc_some {s : State} {n len align : Nat} (h : s.dataUsed n + len ≤ s.dataBytes n)
    (hfree : ∃ x ∈ s.dataStarts n align, x % align = 0 ∧ s.dataFree n x len = true) (inst : Nat) :
    ∃ x, x % align = 0 ∧ s.dataFree n x len = true ∧ s.dataAlloc n inst len align =
      some (x, s.free.2.modAnv fun a => { a with mem := a.mem ++ [(n, inst, x, len)] }) := by
  let ok := fun x => x % align == 0 && s.dataFree n x len
  have hok : ∀ x, ok x = true → x % align = 0 ∧ s.dataFree n x len = true := fun x hx => by
    simpa only [ok, Bool.and_eq_true, beq_iff_eq] using hx
  cases hleast : (s.dataStarts n align).find? ok with
  | none =>
    obtain ⟨x, hx, hal, hfr⟩ := hfree
    exact absurd (List.find?_eq_none.1 hleast x hx) (by simp [ok, hal, hfr])
  | some least =>
    obtain ⟨hal, hfr⟩ := choose_cases (s := s) (P := fun x => x % align = 0 ∧ s.dataFree n x len = true) hok
      (hok least (List.find?_some hleast))
    refine ⟨_, hal, hfr, ?_⟩
    simp only [State.dataAlloc, if_neg (Nat.not_lt.mpr h)]
    rw [hleast]
    rfl

/-! ### Log entries of a module (R278, R420) -/

theorem modRecs_modRecs (s : State) (f g : Records → Records) :
    (s.modRecs f).modRecs g = s.modRecs fun z => g (f z) := rfl

/-- Log entries written one after another each take the next index, and change the records alone. -/
theorem foldl_log {α : Type} (cls fn : Nat) (st : Status) (d : α → Nat) (l : List α) (s : State) :
    ∃ r, l.foldl (fun (a : State) k => a.log cls fn st (d k)) s = s.modRecs (fun _ => r) ∧
      r.nextIdx = s.recs.nextIdx + l.length := by
  induction l generalizing s with
  | nil => exact ⟨s.recs, rfl, rfl⟩
  | cons k l ih =>
    obtain ⟨r, hr, hidx⟩ := ih (s.log cls fn st (d k))
    refine ⟨r, ?_, hidx.trans ?_⟩
    · rw [List.foldl_cons, hr]
      exact modRecs_modRecs s _ _
    · change s.recs.nextIdx + 1 + l.length = _
      rw [List.length_cons, Nat.add_assoc, Nat.add_comm 1]

section Call

variable {s : State} {e : Nat} {t : Thread} {i : Inst} {m : Module} {run : ThreadRun} (h : s.calls e t i m)
include h

/-- A service call is its service's own part on the state that the call reaches. -/
theorem exec_call {x : Instr} {k : Nat} {args : List Nat} {go : State → Thread → Inst → Module → State} {u : State}
    (hx : exec x s = .next (s.service e k args run go)) (hu : go (s.ranWith t.fn e run (callRegs k args)) t i m = u) :
    exec x s = .next u := by
  rw [hx, service_go h, hu]

/-- An allocation that finds room takes an aligned free piece (R278). -/
theorem exec_memAlloc {a b : Nat} (halign : (List.range 23).any (fun k => b == 2 ^ k) = true)
    (hfits : s.dataUsed t.fn + a ≤ s.dataBytes t.fn)
    (hfree : ∃ x ∈ s.dataStarts t.fn b, x % b = 0 ∧ s.dataFree t.fn x a = true) :
    ∃ x, x % b = 0 ∧ s.dataFree t.fn x a = true ∧ exec (.memAlloc ⟨e, run⟩ a b) s =
      .next (((s.ranWith t.fn e run (callRegs 9 [a, b])).free.2.modAnv fun z => { z with
        mem := z.mem ++ [(t.fn, i.id, x, a)] }).setResult e St.ok x) := by
  obtain ⟨x, hxb, hxf, hx⟩ := dataAlloc_some (s := s.ranWith t.fn e run (callRegs 9 [a, b])) (by simpa using hfits)
    (by simpa using hfree) i.id
  refine ⟨x, hxb, by simpa using hxf, exec_call h rfl ((if_neg (not_not_intro halign)).trans ?_)⟩
  split
  · next hnone => cases hx.symm.trans hnone
  · next hsome => cases hx.symm.trans hsome; rfl

/-- A log entry for each 16 bytes, under a class and a status that are open (R278, R420). -/
theorem exec_modLog {a b : Nat} (hlen : b ≤ 256) (hread : s.readable_ m a b = true) :
    let v := s.ranWith t.fn e run (callRegs 12 [a, b])
    ∃ z, exec (.modLog ⟨e, run⟩ a b) s = .next ((v.free.2.modRecs fun _ => z).setResult e St.ok 0) ∧
      z.nextIdx = s.recs.nextIdx + (b + 15) / 16 := by
  intro v
  have hok : ¬ (256 < b ∨ ¬ v.readable_ m a b = true) := by simp [v, hlen, hread]
  obtain ⟨z, hz, hidx⟩ := foldl_log (1 + v.free.1.toNat / 257 % 7) t.fn (v.freeStatus 8).1
    (fun k => natLE (((v.userRead m e a b).drop (16 * k)).take 16)) (List.range ((b + 15) / 16)) v.free.2
  refine ⟨z, exec_call h rfl ((if_neg hok).trans (congrArg (State.setResult · e St.ok 0) hz)), hidx.trans ?_⟩
  rw [List.length_range]
  exact congrArg (fun z : Records => z.nextIdx + (b + 15) / 16) (ranWith_recs s t.fn e run (callRegs 12 [a, b]))

end Call

/-- Settles O49: each service on the state that its call reaches ends as R278 says, by its arguments, its rights and what
it finds; a function that is not ACTIVE has none of it (R291), and a put waits for its credit (R279). -/
theorem dataServices : Obligations.DataServices := by
  intro s e t i m a b c d f g run he hx'
  dsimp only
  refine ⟨fun h => ⟨?search, ?submit, ?put, ?release, ?alloc, ?free, ?log⟩, ?inactive, ?credit⟩
  case search =>
    refine ⟨fun hbad => exec_call h rfl (if_pos (by simpa using hbad)), fun hflag hc hc' hread hwrite hslot => ?_⟩
    have hpos : c ≠ 0 := Nat.ne_of_gt hc
    have hargs : ∀ rs, ¬ (¬ bitAt m.file.flags 0 = true ∨ c = 0 ∨ 256 < c ∨
        ¬ (s.ranWith t.fn e run rs).readable_ m b (16 * c) = true ∨
        ¬ (s.ranWith t.fn e run rs).writable t.fn d (8 * c) = true ∨ 4 ≤ g) := by
      simp [hflag, hpos, hc', hread, hwrite, hslot]
    refine ⟨fun hnone => exec_call h rfl ((if_neg (hargs _)).trans (by simp [hnone])), fun hthread => ?_⟩
    have hsome : s.threadOf i.id f ≠ none := Option.isSome_iff_ne_none.1 hthread
    refine ⟨fun hnone => exec_call h rfl ((if_neg (hargs _)).trans ?noTable), fun x hx =>
      ⟨fun hother => exec_call h rfl ((if_neg (hargs _)).trans ?notOwner), fun hown =>
        exec_call h rfl ((if_neg (hargs _)).trans ?searched)⟩⟩
    case noTable => simp [hsome, hnone, srcHalo]
    case notOwner => simp [hsome, hx, hother, srcHalo]
    case searched => simp [hsome, hx, hown, srcHalo]
  case submit =>
    refine ⟨fun hbad => exec_call h rfl (if_pos (by simpa using hbad)), fun hflag hread hwrite hslot hthread => ?_⟩
    have hargs : ∀ rs, ¬ (¬ bitAt m.file.flags 1 = true ∨ ¬ (s.ranWith t.fn e run rs).readable_ m a 64 = true ∨
        ¬ (s.ranWith t.fn e run rs).writable t.fn b 32 = true ∨ 4 ≤ d) := by
      simp [hflag, hread, hwrite, hslot]
    have hsome : s.threadOf i.id c ≠ none := Option.isSome_iff_ne_none.1 hthread
    refine ⟨fun hpasses => exec_call h rfl ((if_neg (hargs _)).trans ?queued), fun st hfails =>
      exec_call h rfl ((if_neg (hargs _)).trans ?refused)⟩
    case queued => simp [hsome, hpasses]
    case refused => simp [hsome, hfails]
  case put =>
    refine ⟨fun hbad => exec_call h rfl (if_pos (by simpa using hbad)), fun hflag hc hc' hread hslot hthread => ?_⟩
    have hpos : c ≠ 0 := Nat.ne_of_gt hc
    have hargs : ∀ rs, ¬ (¬ bitAt m.file.flags 2 = true ∨ c = 0 ∨ 1048576 < c ∨
        ¬ (s.ranWith t.fn e run rs).readable_ m a c = true ∨ 4 ≤ f) := by
      simp [hflag, hpos, hc', hread, hslot]
    have hsome : s.threadOf i.id d ≠ none := Option.isSome_iff_ne_none.1 hthread
    refine ⟨fun hbeyond => exec_call h rfl ((if_neg (hargs _)).trans ?beyond), fun hwithin =>
      exec_call h rfl ((if_neg (hargs _)).trans ?within)⟩
    case beyond => simp [hsome, hbeyond]
    case within => simp [hsome, Nat.not_lt.mpr hwithin]
  case release =>
    refine ⟨fun ⟨x, hx, he, ha⟩ => exec_call h rfl (if_pos ?_), fun hnone => exec_call h rfl (if_neg ?_)⟩
    · simp only [Inst.held, List.any_filter, List.any_eq_true]
      exact ⟨x, hx, by simp [he, ha]⟩
    · simpa [Inst.held] using hnone
  case alloc =>
    refine ⟨fun hbad => exec_call h rfl (if_pos (by simpa using hbad)), fun j hj hb => ?_⟩
    have halign : (List.range 23).any (fun k => b == 2 ^ k) = true :=
      List.any_eq_true.2 ⟨j, List.mem_range.2 hj, beq_iff_eq.2 hb⟩
    refine ⟨fun hover => exec_call h rfl ((if_neg (not_not_intro halign)).trans ?_), fun hfits hfree => ?_⟩
    · rw [dataAlloc_none (by simpa using hover)]
    · obtain ⟨x, hxb, hxf, hx⟩ := exec_memAlloc h halign hfits hfree
      refine ⟨_, x, hx, ?_, hxb, hxf, ?_, ranWith_threads s t.fn e run (callRegs 9 [a, b]),
        ranWith_frame (rs := callRegs 9 [a, b]) rfl⟩
      · exact resultOf_call (n := t.fn) (rs := callRegs 9 [a, b]) he hx' rfl
      · exact congrArg (· ++ [(t.fn, i.id, x, a)]) (ranWith_mem s t.fn e run (callRegs 9 [a, b]))
  case free =>
    refine ⟨fun harg ⟨x, hx, hfn, hid, ha⟩ => exec_call h rfl (if_pos ⟨harg, ?_⟩), fun hnone =>
      exec_call h rfl (if_neg ?_)⟩
    · rw [ranWith_mem]
      exact List.any_eq_true.2 ⟨x, hx, by simp [hfn, hid, ha]⟩
    · rw [ranWith_mem, List.any_eq_true]
      rintro ⟨harg, x, hx, hsame⟩
      simp only [Bool.and_eq_true, beq_iff_eq, and_assoc] at hsame
      exact hnone.elim harg fun hno => hno x hx hsame
  case log =>
    refine ⟨fun hlen hread => ?_, fun hbad => exec_call h rfl (if_pos (by simpa using hbad))⟩
    obtain ⟨z, hz, hidx⟩ := exec_modLog h hlen hread
    refine ⟨_, hz, ?_, ranWith_recs_frame (rs := callRegs 12 [a, b]) rfl,
      ranWith_threads s t.fn e run (callRegs 12 [a, b]), hidx⟩
    rw [resultOf_call (n := t.fn) (rs := callRegs 12 [a, b]) he hx' (by rfl), Nat.zero_mod]
  case inactive =>
    intro hrun hfree hst
    have hnothing : ∀ k args go, (.next (s.service e k args run go) : Res) =
        .next ((s.ranWith t.fn e run (callRegs k args)).setResult e St.ok 0) := fun k args go =>
      congrArg _ (service_inactive hrun hfree hst k args go)
    simp only [List.forall_mem_cons]
    exact ⟨hnothing .., hnothing .., hnothing .., hnothing .., hnothing .., hnothing .., hnothing .., hnothing ..,
      hnothing .., hnothing .., hnothing .., hnothing .., fun _ hx => nomatch hx⟩
  case credit =>
    intro p hp
    simp [State.putLoop, hp]

end Sys2Proof.Machine
end

section
/-!
SUPPORT. Memory that device units write for modules (R265, R279): what one write leaves, and what tokens and the
ends of running instances leave of it.
-/

namespace Sys2Proof.Machine

open Sys2Proof

/-! ### A write is read back -/

/-- A written span reads as written, whatever the cells were before. -/
theorem byteAt_memWrite_span (m : List Host.Cell) {a i : Nat} {bs : Data} (hi : i < bs.length) :
    byteAt (memWrite m a bs) (a + i) = bs.getD i 0 := by
  have below : (m.filter fun c => decide (c.1 < a)).find? (fun c => c.1 == a + i) = none := by
    simp only [List.find?_eq_none, List.mem_filter, decide_eq_true_eq, beq_iff_eq]
    omega
  have above : (m.filter fun c => decide (a + bs.length ≤ c.1)).find? (fun c => c.1 == a + i) = none := by
    simp only [List.find?_eq_none, List.mem_filter, decide_eq_true_eq, beq_iff_eq]
    omega
  have hnil : byteAt (memWrite [] a bs) (a + i) = bs.getD i 0 := byteAt_memWrite ⟨.nil, by simp⟩ hi
  rw [← hnil]
  simp [byteAt, memWrite, List.find?_append, below, above]

theorem memRead_memWrite (m : List Host.Cell) (a : Nat) (bs : Data) : memRead (memWrite m a bs) a bs.length = bs := by
  refine List.ext_getElem (by simp [memRead]) fun i _ hi => ?_
  simp [memRead, byteAt_memWrite_span m hi, hi]

theorem find?_setAssoc {β : Type} (l : List (Nat × β)) (k : Nat) (v : β) :
    (setAssoc l k v).find? (fun x => x.1 == k) = some (k, v) := by
  unfold setAssoc
  split
  · next hk =>
    induction l with
    | nil => simp at hk
    | cons x l ih =>
      by_cases hx : x.1 = k
      · simp [hx]
      · simpa [hx] using ih (by simpa [hx] using hk)
  · next hk =>
    have hnone : l.find? (fun x => x.1 == k) = none :=
      List.find?_eq_none.2 fun x hx hxk => hk (List.any_eq_true.2 ⟨x, hx, hxk⟩)
    simp [List.find?_append, hnone]

theorem engine_modEngine {s : State} {e : Nat} (h : e < s.anv.engines.length) (g : Engine → Engine) :
    (s.modEngine e g).engine e = g (s.engine e) := by
  simp [State.engine, State.modEngine, List.getD_eq_getElem?_getD, h]

theorem dataMem_modAnv_setAssoc (s : State) (n : Nat) (m : List Host.Cell) :
    (s.modAnv fun v => { v with data := setAssoc v.data n m }).dataMem n = m := by
  simp [State.dataMem, find?_setAssoc]

/-- What a device unit writes for a function it reads back, from data memory or the scratchpad of an engine. -/
theorem modRead_modWrite {s : State} {n e : Nat} (h : e < s.anv.engines.length) (a : Nat) (bs : Data) :
    (s.modWrite n e a bs).modRead n e a bs.length = bs := by
  unfold State.modRead State.modWrite
  split
  · rw [engine_modEngine h, memRead_memWrite]
  · rw [dataMem_modAnv_setAssoc, memRead_memWrite]

/-! ### Scratchpads and data memory -/

/-- The memory that device units read and write for modules: engines with their scratchpads, and data memory. -/
def State.unitMem (s : State) : List Engine × List (Nat × List Host.Cell) := (s.anv.engines, s.anv.data)

theorem modRead_congr {s t : State} (h : t.unitMem = s.unitMem) (n e a len : Nat) :
    t.modRead n e a len = s.modRead n e a len := by
  obtain ⟨hengines, hdata⟩ := Prod.mk.inj h
  simp only [State.modRead, State.engine, State.dataMem, hengines, hdata]

theorem State.modWrite_frame (s : State) (n e a : Nat) (bs : Data) :
    s.modWrite n e a bs = { s with anv := (s.modWrite n e a bs).anv } := by
  unfold State.modWrite
  split <;> rfl

@[simp] theorem State.modWrite_sq (s : State) (n e a : Nat) (bs : Data) : (s.modWrite n e a bs).sq = s.sq :=
  (congrArg State.sq (s.modWrite_frame n e a bs) :)

@[simp] theorem State.modWrite_engineCount (s : State) (n e a : Nat) (bs : Data) :
    (s.modWrite n e a bs).anv.engines.length = s.anv.engines.length := by
  unfold State.modWrite
  split
  · exact updAt_length ..
  · rfl

theorem State.deliver_unitMem {s u : State} {tid slot : Nat} {k : Token} (h : s.deliver tid slot k = some u) :
    u.unitMem = s.unitMem := by
  unfold State.deliver at h
  dsimp only at h
  (repeat' split at h) <;> cases h <;> rfl

@[simp] theorem State.produce_unitMem (s : State) (tid slot : Nat) (k : Token) :
    (s.produce tid slot k).unitMem = s.unitMem := by
  unfold State.produce
  split
  · next h => exact State.deliver_unitMem h
  · rfl

@[simp] theorem State.produce_sq (s : State) (tid slot : Nat) (k : Token) : (s.produce tid slot k).sq = s.sq :=
  (congrArg State.sq (s.produce_frame tid slot k) :)

/-! ### Instances that end (R286) -/

@[simp] theorem State.cancel_unitMem (s : State) (tid : Nat) : (s.cancel tid).unitMem = s.unitMem := by
  unfold State.cancel
  (repeat' split) <;> rfl

@[simp] theorem State.cancel_sq (s : State) (tid : Nat) : (s.cancel tid).sq = s.sq :=
  (congrArg State.sq (s.cancel_frame tid) :)

/-- What Squall keeps beside its jobs: pipe time, continuation states and the counts of ended jobs. -/
def State.sqBooks (s : State) : List (Nat × Int) × List SqArea × List (Nat × Nat) :=
  (s.sq.time, s.sq.states, s.sq.jobsDone)

section Keeps

variable {β : Type} (get : State → β) (hcancel : ∀ s tid, get (State.cancel s tid) = get s)
  (hinst : ∀ s id g, get (State.modInst s id g) = get s)
  (hjobs : ∀ s (js : List SqJob → List SqJob), get (State.modSq s fun q => { q with jobs := js q.jobs }) = get s)
include hcancel hinst hjobs

/-- A reading that cancelled threads, the instances and the Squall jobs do not reach is kept where instances end. -/
theorem State.endInst_keeps (s : State) (id : Nat) (st : Status) (code len : Nat) :
    get (s.endInst id st code len) = get s := by
  unfold State.endInst
  split
  · rfl
  · split
    · rfl
    · dsimp only
      rw [hjobs _ fun js => (js.filter fun j => j.inst != id || j.engine.isSome).map fun j =>
        if j.inst = id then { j with stopping := true } else j, hinst]
      exact foldl_keeps get _ (fun a (t : Thread) => hcancel a t.tid) _ s

theorem State.idleCheck_keeps (s : State) (id : Nat) : get (s.idleCheck id) = get s := by
  unfold State.idleCheck
  split
  · split
    · exact State.endInst_keeps get hcancel hinst hjobs ..
    · rfl
  · rfl

end Keeps

@[simp] theorem State.idleCheck_unitMem (s : State) (id : Nat) : (s.idleCheck id).unitMem = s.unitMem :=
  State.idleCheck_keeps State.unitMem State.cancel_unitMem (fun _ _ _ => rfl) (fun _ _ => rfl) s id

@[simp] theorem State.idleCheck_sqBooks (s : State) (id : Nat) : (s.idleCheck id).sqBooks = s.sqBooks :=
  State.idleCheck_keeps State.sqBooks (fun s tid => by simp only [State.sqBooks, State.cancel_sq]) (fun _ _ _ => rfl)
    (fun _ _ => rfl) s id

end Sys2Proof.Machine
end

section
/-!
SUPPORT. Squall jobs (R226 to R237): whose turn a free pipe takes, what a job's output, state area and record leave, and
the statement SquallJobs.
-/

namespace Sys2Proof.Machine

open Sys2Proof

/-! ### Start of a job (R226, R227) -/

/-- The function whose turn a pipe takes: one that has held no time yet, else the first in turn that is ready. -/
def State.sqTurn (s : State) (p : Nat) : Option Nat :=
  let turn := (s.sq.time.map (·.1 / 2)).eraseDups
  ((s.sqReady p).find? fun n => !turn.contains n).or (turn.find? fun n => (s.sqReady p).contains n)

theorem sqTurn_none {s : State} {p : Nat} (h : s.sqReady p = []) : s.sqTurn p = none := by
  simp [State.sqTurn, h]

/-- Where a function is ready, the turn falls on one that is: each is in the order of turns or new to it. -/
theorem sqTurn_ready {s : State} {p : Nat} (h : s.sqReady p ≠ []) : ∃ n ∈ s.sqReady p, s.sqTurn p = some n := by
  cases hturn : s.sqTurn p with
  | some n =>
    refine ⟨n, ?_, rfl⟩
    rcases Option.or_eq_some_iff.1 hturn with hfresh | ⟨-, hnext⟩
    · exact List.mem_of_find?_eq_some hfresh
    · simpa using List.find?_some hnext
  | none =>
    obtain ⟨hfresh, hnext⟩ := Option.or_eq_none_iff.1 hturn
    obtain ⟨n, hn⟩ := List.exists_mem_of_ne_nil _ h
    have hin := List.find?_eq_none.1 hfresh n hn
    simp only [Bool.not_eq_true, Bool.not_eq_false', List.contains_iff_mem] at hin
    exact absurd (List.contains_iff_mem.2 hn) (List.find?_eq_none.1 hnext n hin)

/-- The oldest queued job of function `n` for pipe `p` started on engine `e`, and the function last in turn. -/
def State.sqStarted (s : State) (e p n : Nat) : State :=
  (s.modSq fun q => { q with
    jobs := updAt q.jobs (q.jobs.findIdx fun j => j.fn == n && j.engine == none && sqPipe j.desc == p)
      fun j => { j with engine := some e }
    time := (q.time.filter fun x => x.1 / 2 != n) ++ [(2 * n, s.sqLeft n 0), (2 * n + 1, s.sqLeft n 1)] }).spill e

/-- The pipe holds a job of the engine. -/
theorem any_sqJob {s : State} {e p : Nat} :
    s.sq.jobs.any (fun j => j.engine == some e && sqPipe j.desc == p) = true ↔
      ∃ j ∈ s.sq.jobs, j.engine = some e ∧ sqPipe j.desc = p := by
  simp

theorem exec_sqJobStart_taken {s : State} {e p : Nat}
    (h : 8 ≤ e ∨ 2 ≤ p ∨ ∃ j ∈ s.sq.jobs, j.engine = some e ∧ sqPipe j.desc = p) :
    exec (.sqJobStart e p) s = .next s :=
  if_pos (h.imp_right (·.imp_right any_sqJob.2))

theorem exec_sqJobStart_free {s : State} {e p : Nat} (he : e < 8) (hp : p < 2)
    (hfree : ∀ j ∈ s.sq.jobs, ¬ (j.engine = some e ∧ sqPipe j.desc = p)) :
    exec (.sqJobStart e p) s = (s.sqTurn p).elim (.next s) fun n => .next (s.sqStarted e p n) := by
  have hopen : ¬ (8 ≤ e ∨ 2 ≤ p ∨ s.sq.jobs.any (fun j => j.engine == some e && sqPipe j.desc == p) = true) := by
    rw [any_sqJob]
    rintro (h | h | ⟨j, hj, hon⟩)
    · omega
    · omega
    · exact hfree j hj hon
  refine (if_neg hopen).trans ?_
  unfold State.sqTurn
  dsimp only
  split
  · next hturn => rw [hturn]; rfl
  · next n hturn => rw [hturn]; rfl

theorem exec_sqJobStart_noneReady {s : State} {p : Nat} (e : Nat) (h : s.sqReady p = []) :
    exec (.sqJobStart e p) s = .next s := by
  by_cases htaken : 8 ≤ e ∨ 2 ≤ p ∨ ∃ j ∈ s.sq.jobs, j.engine = some e ∧ sqPipe j.desc = p
  · exact exec_sqJobStart_taken htaken
  · obtain ⟨he, hp, hfree⟩ : e < 8 ∧ p < 2 ∧ ∀ j ∈ s.sq.jobs, ¬ (j.engine = some e ∧ sqPipe j.desc = p) := by
      simpa using htaken
    rw [exec_sqJobStart_free he hp hfree, sqTurn_none h]
    rfl

/-! ### Output, state area and record of a job (R231 to R233) -/

/-- The state without Squall and Anvil, the two that a job's end changes. -/
def State.sansSqAnv (s : State) : State := { s with sq := .reset, anv := .reset }

theorem eq_of_sansSqAnv {s t : State} (h : t.sansSqAnv = s.sansSqAnv) : t = { s with sq := t.sq, anv := t.anv } :=
  (congrArg (fun u : State => { u with sq := t.sq, anv := t.anv }) h :)

@[simp] theorem State.modSq_sansSqAnv (s : State) (g : Squall → Squall) : (s.modSq g).sansSqAnv = s.sansSqAnv := rfl

@[simp] theorem State.modWrite_sansSqAnv (s : State) (n e a : Nat) (bs : Data) :
    (s.modWrite n e a bs).sansSqAnv = s.sansSqAnv := by
  rw [State.modWrite_frame]; rfl

@[simp] theorem State.produce_sansSqAnv (s : State) (tid slot : Nat) (k : Token) :
    (s.produce tid slot k).sansSqAnv = s.sansSqAnv := by
  rw [State.produce_frame]; rfl

@[simp] theorem State.idleCheck_sansSqAnv (s : State) (id : Nat) : (s.idleCheck id).sansSqAnv = s.sansSqAnv := by
  rw [State.idleCheck_frame]; rfl

@[simp] theorem State.sqEnd_anv (s : State) (j : SqJob) (p used : Nat) : (s.sqEnd j p used).anv = s.anv := rfl

@[simp] theorem State.sqWrite_sansSqAnv (s : State) (j : SqJob) (d : SqDone) :
    (s.sqWrite j d).sansSqAnv = s.sansSqAnv := by
  unfold State.sqWrite
  dsimp only
  split
  · simp
  · simp

/-- Output and state area leave of Squall all but the continuation states. -/
theorem State.sqWrite_sq (s : State) (j : SqJob) (d : SqDone) :
    (s.sqWrite j d).sq = { s.sq with states := (s.sqWrite j d).sq.states } := by
  unfold State.sqWrite
  dsimp only
  split
  · simp only [State.modWrite_sq]
  · simp only [State.modSq_sq, State.modWrite_sq]

@[simp] theorem State.sqWrite_engineCount (s : State) (j : SqJob) (d : SqDone) :
    (s.sqWrite j d).anv.engines.length = s.anv.engines.length := by
  unfold State.sqWrite
  dsimp only
  split
  · simp
  · simp

/-- The state that a job leaves in its area replaces what stood there, and goes with a stream that cannot go on. -/
theorem State.sqWrite_states {s : State} {j : SqJob} (h : j.desc.state ≠ 0) (d : SqDone) :
    (s.sqWrite j d).sq.states =
      let rest := s.sq.states.filter fun x =>
        !(x.fn == j.fn && x.spot == spotOf j.from_ j.desc.state && x.addr == j.desc.state)
      if d.out.stateOk then
        rest ++ [⟨j.fn, spotOf j.from_ j.desc.state, j.desc.state, j.desc.op, j.desc.format, d.src, d.dst⟩]
      else rest := by
  simp only [State.sqWrite, h, if_false, State.modSq_sq, State.modWrite_sq]

theorem mem_sqWrite_states {s : State} {j : SqJob} {d : SqDone} (h : j.desc.state ≠ 0) (hgoes : d.out.stateOk = true) :
    ⟨j.fn, spotOf j.from_ j.desc.state, j.desc.state, j.desc.op, j.desc.format, d.src, d.dst⟩ ∈
      (s.sqWrite j d).sq.states := by
  simp [State.sqWrite_states h, hgoes]

theorem not_area_of_mem_sqWrite_states {s : State} {j : SqJob} {d : SqDone} (h : j.desc.state ≠ 0)
    (hends : d.out.stateOk = false) {x : SqArea} (hx : x ∈ (s.sqWrite j d).sq.states) :
    ¬ (x.fn = j.fn ∧ x.spot = spotOf j.from_ j.desc.state ∧ x.addr = j.desc.state) := by
  simp only [State.sqWrite_states h, hends, Bool.false_eq_true, if_false, List.mem_filter] at hx
  rintro ⟨hfn, hspot, haddr⟩
  simp [hfn, hspot, haddr] at hx

theorem sqRecordBytes_length (tag : Nat) (o : SqOutcome) : (sqRecordBytes tag o).length = 32 := by
  simp [sqRecordBytes, bytesLE]

section Record

variable (s : State) (n e record tid slot tag : Nat) (o : SqOutcome)

@[simp] theorem State.sqRecord_sansSqAnv : (s.sqRecord n e record tid slot tag o).sansSqAnv = s.sansSqAnv := by
  simp [State.sqRecord]

/-- A record counts one ended job and leaves the rest of Squall. -/
theorem State.sqRecord_sq : (s.sqRecord n e record tid slot tag o).sq =
    { s.sq with jobsDone := bump s.sq.jobsDone (65536 * n + o.status.toNat) 1 } := by
  simp only [State.sqRecord, State.produce_sq, State.modWrite_sq, State.modSq_sq]

variable {s e}

theorem modRead_sqRecord (h : e < s.anv.engines.length) :
    (s.sqRecord n e record tid slot tag o).modRead n e record 32 = sqRecordBytes tag o := by
  rw [State.sqRecord, modRead_congr (State.produce_unitMem ..), ← sqRecordBytes_length tag o]
  exact modRead_modWrite (s := s.modSq _) h ..

end Record

/-! ### End of a job (R232, R237, R286) -/

/-- The outcome of a job that ran, with the status that its record carries (R237). -/
def SqJob.final (j : SqJob) (d : SqDone) : SqOutcome := { d.out with status := sqFinal j.desc d.out }

/-- A job that was not stopped has written its output and its record, and its end may leave nothing to run (R286). -/
def State.sqDone (s : State) (j : SqJob) (p used : Nat) (d : SqDone) : State :=
  (((s.sqEnd j p used).sqWrite j d).sqRecord j.fn j.from_ j.record j.tid j.slot j.desc.tag (j.final d)).idleCheck j.inst

theorem exec_sqJobComplete_none {s : State} {e p : Nat} (r : SqReport)
    (h : ∀ j ∈ s.sq.jobs, ¬ (j.engine = some e ∧ sqPipe j.desc = p)) : exec (.sqJobComplete e p r) s = .next s := by
  have hnone : s.sq.jobs.find? (fun j => j.engine == some e && sqPipe j.desc == p) = none :=
    List.find?_eq_none.2 fun j hj => by simpa using h j hj
  change execSqJobComplete e p r s = _
  simp only [execSqJobComplete, hnone]

section Ended

variable {s : State} {e p : Nat} {r : SqReport} {j : SqJob}
  (hj : s.sq.jobs.find? (fun j => j.engine == some e && sqPipe j.desc == p) = some j)
include hj

theorem exec_sqJobComplete_stopped (h : j.stopping = true) :
    exec (.sqJobComplete e p r) s = .next (s.sqEnd j p r.usedTime) := by
  change execSqJobComplete e p r s = _
  simp only [execSqJobComplete, hj, h, if_true]

theorem exec_sqJobComplete_ran {d : SqDone} (h : j.stopping = false) (hd : s.sqRun j r = some d) :
    exec (.sqJobComplete e p r) s = .next (s.sqDone j p r.usedTime d) := by
  change execSqJobComplete e p r s = _
  simp only [execSqJobComplete, hj, h, hd]
  rfl

end Ended

section Done

variable (s : State) (j : SqJob) (p used : Nat) (d : SqDone)

theorem sqDone_frame : s.sqDone j p used d =
    { s with sq := (s.sqDone j p used d).sq, anv := (s.sqDone j p used d).anv } :=
  eq_of_sansSqAnv (by simp [State.sqDone, State.sqEnd])

/-- Pipe time is charged, the continuation states are those of the job's end, and the job is counted by its status. -/
theorem sqDone_sqBooks : (s.sqDone j p used d).sqBooks = ((s.sqEnd j p used).sq.time,
    ((s.sqEnd j p used).sqWrite j d).sq.states, bump s.sq.jobsDone (65536 * j.fn + (sqFinal j.desc d.out).toNat) 1) := by
  rw [State.sqDone, State.idleCheck_sqBooks, State.sqBooks, State.sqRecord_sq, State.sqWrite_sq]
  rfl

variable {s j}

theorem modRead_sqDone (h : j.from_ < s.anv.engines.length) :
    (s.sqDone j p used d).modRead j.fn j.from_ j.record 32 = sqRecordBytes j.desc.tag (j.final d) := by
  rw [State.sqDone, modRead_congr (State.idleCheck_unitMem ..), modRead_sqRecord]
  rwa [State.sqWrite_engineCount, State.sqEnd_anv]

end Done

/-- Settles O44: a free pipe takes its turn among the functions that are ready, and a job's end charges its time, leaves a
stopped job without a record, and else writes the record under the status of R237 and keeps or drops the state area. -/
theorem squallJobs : Obligations.SquallJobs := by
  intro s e p r
  refine ⟨?nothing, ?start, exec_sqJobComplete_none r, fun j hj => ⟨exec_sqJobComplete_stopped hj, ?decodes, ?ran⟩⟩
  case nothing =>
    rintro (he | hp | htaken | hnone)
    · exact exec_sqJobStart_taken (.inl he)
    · exact exec_sqJobStart_taken (.inr (.inl hp))
    · exact exec_sqJobStart_taken (.inr (.inr htaken))
    · exact exec_sqJobStart_noneReady e hnone
  case start =>
    intro he hp hfree hready
    obtain ⟨n, hn, hturn⟩ := sqTurn_ready hready
    refine ⟨n, hn, ?_⟩
    rw [exec_sqJobStart_free he hp hfree, hturn]
    rfl
  case decodes => exact fun h => if_neg (by simp [h])
  case ran =>
    intro d hrun hd hfrom
    obtain ⟨htime, hbooks⟩ := Prod.mk.inj (sqDone_sqBooks s j p r.usedTime d)
    obtain ⟨hstates, hcount⟩ := Prod.mk.inj hbooks
    refine ⟨_, exec_sqJobComplete_ran hj hrun hd, sqDone_frame .., htime, modRead_sqDone _ _ _ hfrom, ?goes, ?ends,
      hcount⟩
    case goes =>
      intro hgoes h
      rw [hstates]
      exact mem_sqWrite_states h hgoes
    case ends =>
      intro hends h x hx
      rw [hstates] at hx
      exact not_area_of_mem_sqWrite_states h hends hx

end Sys2Proof.Machine
end

section
/-!
SUPPORT. What every command keeps (Laws/Sound), read off its outcome: a next state that keeps what `State.kept` reads is
sound, and so is a mailbox command whose own part keeps it. One lemma for each shared operation that answers an
outcome, a mailbox result or a turn.
-/

namespace Sys2Proof.Machine

open Sys2Proof

/-! ### Sound outcomes -/

/-- The outcome is a next state that keeps what every command keeps. -/
def State.soundly (s : State) (o : Res) : Prop := ∃ t, o = .next t ∧ s.sound t

theorem State.soundly_next {s t : State} (h : s.sound t) : s.soundly (.next t) := ⟨t, rfl, h⟩

/-- The state that an outcome leads to; a stop leads nowhere. -/
def resState : Res → Option State
  | .next t => some t
  | _ => none

/-- What the state that an outcome leads to keeps. -/
def resKept (o : Res) := (resState o).map State.kept

@[simp] theorem resKept_next (s : State) : resKept (.next s) = some s.kept := rfl

@[simp] theorem resKept_ite {p : Prop} [Decidable p] (a b : Res) :
    resKept (if p then a else b) = if p then resKept a else resKept b := by split <;> rfl

theorem State.soundly_kept {s t : State} (h : t.kept = s.kept) : s.soundly (.next t) :=
  s.soundly_next (State.sound_of_kept h)

theorem State.soundly_of_kept {s : State} {o : Res} (h : resKept o = some s.kept) : s.soundly o := by
  cases o with
  | next t => exact State.soundly_kept (Option.some.inj h)
  | fault => cases h
  | refused => cases h

/-! ### A mailbox command's own part -/

/-- The state after a command's own part: a refusal changes nothing. -/
def MbResult.after (s : State) : MbResult → State
  | .refuse _ _ => s
  | .basic _ t | .persist _ t | .long t | .later t => t

section After

variable (s t : State) (v : List Nat)

@[simp] theorem MbResult.after_refuse (st : Status) : (MbResult.refuse st v).after s = s := rfl
@[simp] theorem MbResult.after_basic : (MbResult.basic v t).after s = t := rfl
@[simp] theorem MbResult.after_persist : (MbResult.persist v t).after s = t := rfl
@[simp] theorem MbResult.after_later : (MbResult.later t).after s = t := rfl

@[simp] theorem MbResult.after_ite {p : Prop} [Decidable p] (a b : MbResult) :
    (if p then a else b).after s = if p then a.after s else b.after s := by split <;> rfl

end After

section Keeps

variable {s a : State}

theorem MbResult.sound_of_after {x : MbResult} (h : (x.after s).kept = s.kept) : x.sound s := by
  cases x with
  | refuse => trivial
  | basic _ t | persist _ t | long t | later t => exact State.sound_of_kept h

theorem State.soundly_mb {m : MbMeta} {n : Nat} {r : MbReq} {body : State → MbResult}
    (h : ∀ t, ((body t).after t).kept = t.kept) : s.soundly (.next (s.mbRun m n r body)) :=
  s.soundly_next (State.mbRun_sound fun t => MbResult.sound_of_after (h t))

theorem State.long_kept_from {m : MbMeta} {n : Nat} {go : State → State} (ha : s.kept = a.kept)
    (h : ∀ t : State, (go t).kept = t.kept) : ((s.long m n go).after a).kept = a.kept := by
  unfold State.long
  split
  · rfl
  · exact (h _).trans ((s.startLong_kept _ _).trans ha)

@[simp] theorem State.long_kept {m : MbMeta} {n : Nat} {go : State → State} (h : ∀ t : State, (go t).kept = t.kept) :
    ((s.long m n go).after s).kept = s.kept := State.long_kept_from rfl h

@[simp] theorem State.onNs_kept {n i : Nat} {serves : Ns → Bool} {go : Ns → MbResult}
    (h : ∀ x, ((go x).after s).kept = s.kept) : ((s.onNs n i serves go).after s).kept = s.kept := by
  unfold State.onNs
  split
  · rfl
  · simp [h]

@[simp] theorem State.onSlot_kept {x : Ns} {k : Nat} {ok : SlotState → Bool} {go : Slot → MbResult}
    (h : ∀ y, ((go y).after s).kept = s.kept) : ((s.onSlot x k ok go).after s).kept = s.kept := by
  unfold State.onSlot
  split
  · simp [h]
  · rfl

theorem State.insertEntry_kept (n : Nat) (r : MbReq) (x : HaloTable) (i : Nat) (h : s.kept = a.kept) :
    ((s.insertEntry n r x i).after a).kept = a.kept := by
  unfold State.insertEntry
  dsimp only
  split
  · rfl
  · split <;> simp [h]
  · simp [h]

@[simp] theorem State.abortCmd_kept (n tag : Nat) (c : Cmd) : ((s.abortCmd n tag c).after s).kept = s.kept := by
  unfold State.abortCmd
  split
  · split <;> simp
  · split <;> simp

end Keeps

/-! ### Fetch loops and services -/

theorem State.fetchLoop_kept (n : Nat) : ∀ (es : List SqEntry) (cur : Nat × Nat) (s : State),
    (State.fetchLoop n es cur s).kept = s.kept
  | [], _, _ => rfl
  | e :: es, cur, s => by
    unfold State.fetchLoop
    split
    · exact (State.fetchLoop_kept n es _ _).trans (s.fetchOne_kept ..)
    · rfl

/-! ### Turns (R55, R483) -/

/-- The state after a turn: one in which nothing is taken changes nothing. -/
def Try.after (s : State) : Try → State
  | .done t => t
  | _ => s

section Turns

variable (s : State)

@[simp] theorem Try.after_done (t : State) : (Try.done t).after s = t := rfl
@[simp] theorem Try.after_pass : Try.pass.after s = s := rfl
@[simp] theorem Try.after_block : Try.block.after s = s := rfl
@[simp] theorem Try.after_hold : Try.hold.after s = s := rfl
@[simp] theorem Try.after_full : Try.full.after s = s := rfl

@[simp] theorem Try.after_ite {p : Prop} [Decidable p] (a b : Try) :
    (if p then a else b).after s = if p then a.after s else b.after s := by split <;> rfl

variable (x : Ns) (c : Cmd)

@[simp] theorem State.tryWrite_kept : ((s.tryWrite x c).after s).kept = s.kept := by simp [State.tryWrite]

@[simp] theorem State.tryDiscard_kept : ((s.tryDiscard x c).after s).kept = s.kept := by simp [State.tryDiscard]

@[simp] theorem State.tryRead_kept : ((s.tryRead x c).after s).kept = s.kept := by simp [State.tryRead]

theorem State.mirrorGate_kept {len : Nat} {send : State → State} (h : s.mirrorGate x c len = some send) (t : State) :
    (send t).kept = t.kept := by
  unfold State.mirrorGate at h
  (repeat' split at h) <;> cases h
  · rfl
  · simp

@[simp] theorem State.tryAppend_kept : ((s.tryAppend x c).after s).kept = s.kept := by
  unfold State.tryAppend
  split
  · split
    · simp
    · split
      · simp
      · split
        · rfl
        · split
          · rfl
          · next hsend => split <;> simp [State.mirrorGate_kept s x c hsend]
  · rfl

@[simp] theorem State.tryNs_kept : ((s.tryNs x c).after s).kept = s.kept := by simp [State.tryNs]

@[simp] theorem State.tryCmd_kept : ((s.tryCmd c).after s).kept = s.kept := by
  unfold State.tryCmd
  (repeat' split) <;> simp

theorem State.tryAll_kept : ∀ (cs : List Cmd) (blk : List Nat), ((s.tryAll cs blk).after s).kept = s.kept
  | [], _ => rfl
  | c :: cs, blk => by
    unfold State.tryAll
    split
    · exact State.tryAll_kept cs blk
    · split
      · exact State.tryAll_kept cs blk
      · exact State.tryAll_kept cs (c.qid :: blk)
      · exact s.tryCmd_kept c

@[simp] theorem State.turnFn_kept (n : Nat) : ((s.turnFn n).after s).kept = s.kept := by
  unfold State.turnFn
  split
  · rfl
  · exact s.tryAll_kept _ _

@[simp] theorem State.turnPort_kept (p : Nat) : ((s.turnPort p).after s).kept = s.kept := by
  unfold State.turnPort
  split
  · rfl
  · split
    · simp only [Try.after_ite, Try.after_done, Try.after_pass]
      (repeat' split) <;> simp
    · simp

theorem State.turnOf_kept (h : Nat) : ((s.turnOf h).after s).kept = s.kept := by simp [State.turnOf]

end Turns

theorem State.admitTurn_kept : ∀ (hs : List Nat) (s : State), (State.admitTurn hs s).kept = s.kept
  | [], _ => rfl
  | h :: hs, s => by
    have hturn := s.turnOf_kept h
    unfold State.admitTurn
    split
    · exact State.admitTurn_kept hs s
    · split
      · exact State.admitTurn_kept hs s
      · exact State.admitTurn_kept hs s
      · exact (State.admitTurn_kept hs _).trans (by simp)
      · simp
      · next t ht =>
        rw [ht] at hturn
        simpa using hturn

end Sys2Proof.Machine
end

section
/-!
SUPPORT. Every row of the table of operations is sound: it answers a next state that keeps the queue, the fuses,
canonical message areas (R398) and 16 digest contexts (R249). One lemma per row, by chapter; what a row's operations
keep stands in Laws/KeptOps to Laws/Sound.
-/

namespace Sys2Proof.Machine

open Sys2Proof

/-! ### Power, reset and hold-up (chapter 15) -/

section Rows

variable (s : State) (n : Nat) (r : MbReq)

@[simp] theorem execChannelBringup_soundly (reports : List ChannelReport) : s.soundly (execChannelBringup reports s) :=
  State.soundly_of_kept (by simp [execChannelBringup])
@[simp] theorem execRecovery_soundly (intentHeld : Bool) : s.soundly (execRecovery intentHeld s) :=
  State.soundly_of_kept (by simp [execRecovery])
@[simp] theorem execSupplyInhibit_soundly (monitor : Nat) : s.soundly (execSupplyInhibit monitor s) :=
  State.soundly_of_kept (by simp [execSupplyInhibit])
@[simp] theorem execCtrlReset_soundly (key : Nat) : s.soundly (execCtrlReset key s) :=
  State.soundly_of_kept (by unfold execCtrlReset; (repeat' split) <;> simp)
@[simp] theorem execFwRestartDone_soundly (imageOk : Bool) : s.soundly (execFwRestartDone imageOk s) :=
  State.soundly_of_kept (by simp [execFwRestartDone])
@[simp] theorem execHoldupSample_soundly (mv : Nat) : s.soundly (execHoldupSample mv s) :=
  State.soundly_of_kept (by simp [execHoldupSample])
@[simp] theorem execHoldupLoadSample_soundly (mv us : Nat) : s.soundly (execHoldupLoadSample mv us s) :=
  State.soundly_of_kept (by unfold execHoldupLoadSample; (repeat' split) <;> simp)
@[simp] theorem execPwStateSet_soundly : s.soundly (execPwStateSet n r s) :=
  State.soundly_mb fun _ => by dsimp only; split <;> simp
@[simp] theorem execPwStatus_soundly : s.soundly (execPwStatus n r s) := State.soundly_mb fun _ => by simp
@[simp] theorem execPwHoldupMeasure_soundly : s.soundly (execPwHoldupMeasure n r s) :=
  State.soundly_mb fun _ => by dsimp only; (repeat' split) <;> simp
@[simp] theorem execSutasFirmwareRunning_soundly : s.soundly (execSutasFirmwareRunning s) :=
  State.soundly_of_kept (by simp [execSutasFirmwareRunning])
@[simp] theorem execHeldExit_soundly : s.soundly (execHeldExit s) := State.soundly_of_kept (by simp [execHeldExit])
@[simp] theorem execPwrfailAssert_soundly : s.soundly (execPwrfailAssert s) :=
  State.soundly_of_kept (by simp [execPwrfailAssert])
@[simp] theorem execPwrfailDeassert_soundly : s.soundly (execPwrfailDeassert s) :=
  State.soundly_of_kept (by simp [execPwrfailDeassert])
@[simp] theorem execThermalTrip_soundly : s.soundly (execThermalTrip s) := State.soundly_of_kept (by simp [execThermalTrip])
@[simp] theorem execSupplyInhibitRelease_soundly : s.soundly (execSupplyInhibitRelease s) :=
  State.soundly_of_kept (by simp [execSupplyInhibitRelease])
@[simp] theorem execWatchdogExpiry_soundly : s.soundly (execWatchdogExpiry s) :=
  State.soundly_of_kept (by simp [execWatchdogExpiry])
@[simp] theorem execHoldupChargeTimeout_soundly : s.soundly (execHoldupChargeTimeout s) :=
  State.soundly_of_kept (by simp [execHoldupChargeTimeout])
@[simp] theorem execP3Quiesced_soundly : s.soundly (execP3Quiesced s) :=
  State.soundly_of_kept (by unfold execP3Quiesced; (repeat' split) <;> simp)
@[simp] theorem execP4CheckpointSealed_soundly : s.soundly (execP4CheckpointSealed s) :=
  State.soundly_of_kept (by unfold execP4CheckpointSealed; (repeat' split) <;> simp)

@[simp] theorem execResetNRelease_soundly (testEn : Bool) : s.soundly (execResetNRelease testEn s) := by
  unfold execResetNRelease
  (repeat' split)
  · exact State.soundly_kept rfl
  · exact s.soundly_next ((State.sound_of_kept rfl).trans (State.sound_fns fun f hf => nomatch hf))
  · exact State.soundly_kept (by simp)
  · exact State.soundly_kept (by simp)
  · exact s.soundly_next ((State.sound_of_kept (by simp)).trans (State.bootRom_sound _))

@[simp] theorem execThermalSensorSample_soundly (rs : List Int) : s.soundly (execThermalSensorSample rs s) := by
  unfold execThermalSensorSample
  dsimp only
  (repeat' split)
  · exact State.soundly_kept rfl
  · exact s.soundly_next ((State.sound_of_kept (by simp)).trans (State.bootRom_sound _))
  all_goals exact State.soundly_kept (by simp)

@[simp] theorem execPowerOnReset_soundly : s.soundly (execPowerOnReset s) := by
  unfold execPowerOnReset
  split
  · exact State.soundly_kept (by simp)
  · exact s.soundly_next ((State.sound_of_kept (by simp)).trans (State.restart_sound _ _))

@[simp] theorem execDrainEnd_soundly : s.soundly (execDrainEnd s) := by
  unfold execDrainEnd
  split
  · exact s.soundly_next ((State.sound_of_kept (by simp)).trans (State.afterDrain_sound _))
  · exact State.soundly_kept rfl

@[simp] theorem execPwrfailHighTimerExpiry_soundly : s.soundly (execPwrfailHighTimerExpiry s) := by
  unfold execPwrfailHighTimerExpiry
  dsimp only
  (repeat' split)
  · exact State.soundly_kept (by simp)
  · exact s.soundly_next ((State.sound_of_kept (by simp)).trans (State.resetStopped_sound _))
  all_goals exact State.soundly_kept (by simp)

@[simp] theorem execCtrlResetSealsDone_soundly : s.soundly (execCtrlResetSealsDone s) := by
  unfold execCtrlResetSealsDone
  split
  · exact s.soundly_next s.resetNow_sound
  · exact State.soundly_kept rfl

end Rows

/-! ### Queues and commands (chapter 13) -/

section Rows

variable (s : State) (n : Nat) (r : MbReq) (qid cid : Nat) (bufs : List BufEntry)

@[simp] theorem execDataFetchDone_soundly (fn qid cid : Nat) (bytes : Data) (pi : List PiField) :
    s.soundly (execDataFetchDone fn qid cid bytes pi s) :=
  State.soundly_of_kept (by unfold execDataFetchDone; (repeat' split) <;> simp)
@[simp] theorem execDmaReadError_soundly (t : DmaTarget) : s.soundly (execDmaReadError t s) :=
  State.soundly_of_kept (by unfold execDmaReadError; (repeat' split) <;> simp)
@[simp] theorem execCompletionWriteRelease_soundly (fn : Nat) : s.soundly (execCompletionWriteRelease fn s) :=
  State.soundly_of_kept (by simp [execCompletionWriteRelease])
@[simp] theorem execMsixCoalesceExpiry_soundly (fn qid : Nat) : s.soundly (execMsixCoalesceExpiry fn qid s) :=
  State.soundly_of_kept (by unfold execMsixCoalesceExpiry; split <;> simp)
@[simp] theorem execQueueDeleteDone_soundly (fn qid : Nat) : s.soundly (execQueueDeleteDone fn qid s) :=
  State.soundly_of_kept (by unfold execQueueDeleteDone; split <;> simp)
@[simp] theorem execRead_soundly (fn qid cid : Nat) (bufs : List BufEntry) : s.soundly (execRead fn qid cid bufs s) :=
  State.soundly_of_kept (by simp [execRead])
@[simp] theorem execFlush_soundly (fn qid cid : Nat) : s.soundly (execFlush fn qid cid s) :=
  State.soundly_of_kept (by simp [execFlush])
@[simp] theorem execSqTailDoorbellWrite_soundly (fn qid value : Nat) : s.soundly (execSqTailDoorbellWrite fn qid value s) :=
  State.soundly_of_kept (by unfold execSqTailDoorbellWrite; split <;> simp)
@[simp] theorem execCqHeadDoorbellWrite_soundly (fn qid value : Nat) : s.soundly (execCqHeadDoorbellWrite fn qid value s) :=
  State.soundly_of_kept (by unfold execCqHeadDoorbellWrite; split <;> simp)
@[simp] theorem execFnQueueCreate_soundly : s.soundly (execFnQueueCreate n r s) := State.soundly_mb fun _ => by simp
@[simp] theorem execFnQueueDelete_soundly : s.soundly (execFnQueueDelete n r s) :=
  State.soundly_mb fun _ => by dsimp only; split <;> simp
@[simp] theorem execFnQueueStatus_soundly : s.soundly (execFnQueueStatus n r s) :=
  State.soundly_mb fun _ => by dsimp only; (repeat' split) <;> simp
@[simp] theorem execFnQueueTimer_soundly : s.soundly (execFnQueueTimer n r s) :=
  State.soundly_mb fun _ => by dsimp only; split <;> simp
@[simp] theorem execFnEventConfigure_soundly : s.soundly (execFnEventConfigure n r s) := State.soundly_mb fun _ => by simp
@[simp] theorem execCommandTimeoutScan_soundly : s.soundly (execCommandTimeoutScan s) :=
  State.soundly_of_kept (by simp [execCommandTimeoutScan])

@[simp] theorem execSqSubmissionFetch_soundly (es : List SqEntry) : s.soundly (execSqSubmissionFetch n es s) :=
  State.soundly_of_kept (by simp [execSqSubmissionFetch, State.fetchLoop_kept])

@[simp] theorem execWrite_soundly : s.soundly (execWrite n qid cid bufs s) :=
  State.soundly_kept (State.checked_kept fun c x => by split <;> simp)

@[simp] theorem execAppend_soundly (hdr : RecHeader) : s.soundly (execAppend n qid cid hdr bufs s) :=
  State.soundly_kept (State.checked_kept fun c x => by
    split
    · simp
    · split <;> simp)

@[simp] theorem execDiscard_soundly : s.soundly (execDiscard n qid cid s) :=
  State.soundly_kept (State.checked_kept fun c x => by split <;> simp)

@[simp] theorem execFnCmdAbort_soundly : s.soundly (execFnCmdAbort n r s) :=
  State.soundly_mb fun t => by
    split
    · rfl
    · rw [MbResult.after_ite]
      split
      · rfl
      · split <;> simp

end Rows

/-! ### Squall (chapter 8) -/

section Rows

variable (s : State) (n : Nat) (r : MbReq)

@[simp] theorem execSqJobStart_soundly (engine pipe : Nat) : s.soundly (execSqJobStart engine pipe s) :=
  State.soundly_of_kept (by unfold execSqJobStart; dsimp only; (repeat' split) <;> simp)
@[simp] theorem execSqJobComplete_soundly (engine pipe : Nat) (out : SqReport) :
    s.soundly (execSqJobComplete engine pipe out s) :=
  State.soundly_of_kept (by unfold execSqJobComplete; (repeat' split) <;> simp)
@[simp] theorem execSqProfile_soundly : s.soundly (execSqProfile n r s) := State.soundly_mb fun _ => by simp
@[simp] theorem execSqStatus_soundly : s.soundly (execSqStatus n r s) := State.soundly_mb fun _ => by simp

end Rows

/-! ### Halo tables (chapter 7) -/

section Rows

variable (s : State) (n : Nat) (r : MbReq)

@[simp] theorem execHaloUpdateStep_soundly (table : Nat) : s.soundly (execHaloUpdateStep table s) :=
  State.soundly_of_kept (by unfold execHaloUpdateStep; split <;> simp)
@[simp] theorem execHaloCompactDone_soundly (table : Nat) : s.soundly (execHaloCompactDone table s) :=
  State.soundly_of_kept (by unfold execHaloCompactDone; split <;> simp)
@[simp] theorem execHaloTableCreate_soundly : s.soundly (execHaloTableCreate n r s) := State.soundly_mb fun _ => by simp
@[simp] theorem execHaloTableDestroy_soundly : s.soundly (execHaloTableDestroy n r s) :=
  State.soundly_mb fun _ => by dsimp only; split <;> simp
@[simp] theorem execHaloTableDelete_soundly : s.soundly (execHaloTableDelete n r s) :=
  State.soundly_mb fun _ => by dsimp only; (repeat' split) <;> simp
@[simp] theorem execHaloTableModify_soundly : s.soundly (execHaloTableModify n r s) :=
  State.soundly_mb fun _ => by dsimp only; (repeat' split) <;> simp
@[simp] theorem execHaloTableRead_soundly : s.soundly (execHaloTableRead n r s) :=
  State.soundly_mb fun _ => by dsimp only; (repeat' split) <;> simp
@[simp] theorem execHaloTableSearch_soundly : s.soundly (execHaloTableSearch n r s) :=
  State.soundly_mb fun _ => by dsimp only; split <;> simp
@[simp] theorem execHaloStatus_soundly : s.soundly (execHaloStatus n r s) := State.soundly_mb fun _ => by simp

@[simp] theorem execHaloTableInsert_soundly : s.soundly (execHaloTableInsert n r s) :=
  State.soundly_mb fun t => by
    dsimp only
    split
    · rfl
    · rw [MbResult.after_ite]
      split
      · rfl
      · split
        · rfl
        · split
          · rfl
          · rw [MbResult.after_ite]
            split
            · rfl
            · exact State.insertEntry_kept _ _ _ _ (t.settleTable_kept _)

@[simp] theorem execHaloTableCompact_soundly : s.soundly (execHaloTableCompact n r s) :=
  State.soundly_mb fun t => by
    dsimp only
    split
    · rfl
    · rw [MbResult.after_ite]
      split
      · rfl
      · exact State.long_kept_from (t.settleTable_kept _) fun u => State.modTable_kept ..

end Rows

/-! ### Anvil (chapter 10) -/

section Rows

variable (s : State) (n : Nat) (r : MbReq) (c : Caller) (tid slot v : Nat)

@[simp] theorem execThreadDispatch_soundly (engine : Nat) : s.soundly (execThreadDispatch engine s) :=
  State.soundly_of_kept (by unfold execThreadDispatch; (repeat' split) <;> simp)
@[simp] theorem execThreadReturn_soundly (c : Caller) (a0 : Nat) : s.soundly (execThreadReturn c a0 s) :=
  State.soundly_of_kept (by unfold execThreadReturn; split <;> simp)
@[simp] theorem execModuleFault_soundly (c : Caller) (mcause mepc mtval : Nat) :
    s.soundly (execModuleFault c mcause mepc mtval s) :=
  State.soundly_of_kept (by unfold execModuleFault; split <;> simp)
@[simp] theorem execActivationLimit_soundly (c : Caller) : s.soundly (execActivationLimit c s) :=
  State.soundly_of_kept (by unfold execActivationLimit; split <;> simp)
@[simp] theorem execTokenDeliver_soundly (producer : Nat) : s.soundly (execTokenDeliver producer s) :=
  State.soundly_of_kept (by simp [execTokenDeliver])
@[simp] theorem execDelayListFire_soundly (time : Nat) : s.soundly (execDelayListFire time s) :=
  State.soundly_of_kept (by simp [execDelayListFire])
@[simp] theorem execInstanceStart_soundly (a : ArgFetch) : s.soundly (execInstanceStart a s) :=
  State.soundly_of_kept (by unfold execInstanceStart; (repeat' split) <;> simp)
@[simp] theorem execChunkDeliver_soundly (inst : Nat) : s.soundly (execChunkDeliver inst s) :=
  State.soundly_of_kept (by unfold execChunkDeliver; (repeat' split) <;> simp)
@[simp] theorem execInstanceEnd_soundly (inst : Nat) : s.soundly (execInstanceEnd inst s) :=
  State.soundly_of_kept (by unfold execInstanceEnd; dsimp only; (repeat' split) <;> simp)
@[simp] theorem execHostPut_soundly (engine src offset len tid slot : Nat) (run : ThreadRun) :
    s.soundly (execHostPut engine src offset len tid slot run s) :=
  State.soundly_of_kept (by simp [execHostPut])
@[simp] theorem execChunkRelease_soundly (c : Caller) (addr : Nat) : s.soundly (execChunkRelease c addr s) :=
  State.soundly_of_kept (by simp [execChunkRelease])
@[simp] theorem execMemFree_soundly (c : Caller) (addr : Nat) : s.soundly (execMemFree c addr s) :=
  State.soundly_of_kept (by simp [execMemFree])
@[simp] theorem execInstDone_soundly (c : Caller) (code resultLen : Nat) : s.soundly (execInstDone c code resultLen s) :=
  State.soundly_of_kept (by simp [execInstDone])
@[simp] theorem execModLog_soundly (c : Caller) (addr len : Nat) : s.soundly (execModLog c addr len s) :=
  State.soundly_of_kept (by simp [execModLog])
@[simp] theorem execModKeyEnroll_soundly : s.soundly (execModKeyEnroll n r s) := State.soundly_mb fun _ => by simp
@[simp] theorem execModKeyRevoke_soundly : s.soundly (execModKeyRevoke n r s) := State.soundly_mb fun _ => by simp
@[simp] theorem execModLoad_soundly : s.soundly (execModLoad n r s) := State.soundly_mb fun _ => by simp
@[simp] theorem execModUnload_soundly : s.soundly (execModUnload n r s) := State.soundly_mb fun _ => by simp
@[simp] theorem execModList_soundly : s.soundly (execModList n r s) := State.soundly_mb fun _ => by simp
@[simp] theorem execAnvConfigure_soundly : s.soundly (execAnvConfigure n r s) :=
  State.soundly_mb fun _ => by dsimp only; split <;> simp
@[simp] theorem execAnvProfile_soundly : s.soundly (execAnvProfile n r s) := State.soundly_mb fun _ => by simp
@[simp] theorem execAnvStatus_soundly : s.soundly (execAnvStatus n r s) := State.soundly_mb fun _ => by simp
@[simp] theorem execAnvStats_soundly : s.soundly (execAnvStats n r s) := State.soundly_mb fun _ => by simp
@[simp] theorem execModuleLoadDone_soundly (fn longId : Nat) (file : ModFile) :
    s.soundly (execModuleLoadDone fn longId file s) :=
  State.soundly_of_kept (by unfold execModuleLoadDone; (repeat' split) <;> simp)

@[simp] theorem execExec_soundly (blk : ExecBlock) : s.soundly (execExec n qid cid blk s) :=
  State.soundly_kept (State.checked_kept fun c x => by
    dsimp only
    split
    · simp
    · split <;> simp)

@[simp] theorem execThSpawn_soundly (en ar p ns pl : Nat) : s.soundly (execThSpawn c en ar p ns pl s) :=
  State.soundly_kept (State.service_kept fun t _ i m => by
    dsimp only
    split
    · simp
    · split
      · simp
      · split
        · simp
        · split
          · simp
          · next h => simpa using State.spawn_kept h)

@[simp] theorem execThSend_soundly : s.soundly (execThSend c tid slot v s) :=
  State.soundly_kept (State.service_kept fun t _ i m => by
    dsimp only
    split
    · simp
    · split
      · simp
      · split
        · next h => simpa using State.deliver_kept h
        · simp)

@[simp] theorem execThDelay_soundly : s.soundly (execThDelay c tid slot v s) :=
  State.soundly_kept (State.service_kept fun t _ i m => by
    split
    · simp
    · split
      · simp
      · split <;> simp)

@[simp] theorem execThCancel_soundly : s.soundly (execThCancel c tid s) :=
  State.soundly_kept (State.service_kept fun t _ i m => by split <;> simp)

@[simp] theorem execHaloSearch_soundly (tb res : Nat) (keys : KeyList) :
    s.soundly (execHaloSearch c tb keys res tid slot s) :=
  State.soundly_kept (State.service_kept fun t _ i m => by
    dsimp only
    split
    · simp
    · split
      · simp
      · split
        · simp
        · split <;> simp)

@[simp] theorem execSqSubmit_soundly (d rec : Nat) : s.soundly (execSqSubmit c d rec tid slot s) :=
  State.soundly_kept (State.service_kept fun t _ i m => by
    dsimp only
    split
    · simp
    · split
      · simp
      · split <;> simp)

@[simp] theorem execMemAlloc_soundly (b al : Nat) : s.soundly (execMemAlloc c b al s) :=
  State.soundly_kept (State.service_kept fun t _ i m => by
    split
    · simp
    · split
      · simp
      · next h => simpa using State.dataAlloc_kept h)

@[simp] theorem execAnvFaultRead_soundly : s.soundly (execAnvFaultRead n r s) :=
  State.soundly_mb fun t => by split <;> rfl

end Rows

/-! ### Ingest and admission (chapters 2, 7, 8) -/

section Rows

variable (s : State) (n : Nat) (r : MbReq)

@[simp] theorem execClassificationResult_soundly (r : CmdRef) : s.soundly (execClassificationResult r s) :=
  State.soundly_of_kept (by unfold execClassificationResult; (repeat' split) <;> simp)
@[simp] theorem execSegmentCompressDone_soundly (nsid stream window frameLen : Nat) (checkOk : Bool) :
    s.soundly (execSegmentCompressDone nsid stream window frameLen checkOk s) :=
  State.soundly_of_kept (by simp [execSegmentCompressDone])

@[simp] theorem execAdmission_soundly : s.soundly (execAdmission s) :=
  State.soundly_of_kept (by simp [execAdmission, State.admitTurn_kept])

end Rows

/-! ### Flash and media (chapters 4, 5) -/

section Rows

variable (s : State) (n : Nat) (r : MbReq) (e i a : Nat)

@[simp] theorem execSegmentLoadDone_soundly (nsid typ idx : Nat) : s.soundly (execSegmentLoadDone nsid typ idx s) :=
  State.soundly_of_kept (by simp [execSegmentLoadDone])
@[simp] theorem execFold_soundly (target : Nat) : s.soundly (execFold target s) :=
  State.soundly_of_kept (by unfold execFold; split <;> simp)
@[simp] theorem execGcCollect_soundly (victim target : Nat) : s.soundly (execGcCollect victim target s) :=
  State.soundly_of_kept (by unfold execGcCollect; split <;> simp)
@[simp] theorem execMoveProgramDone_soundly (dst : Nat) : s.soundly (execMoveProgramDone dst s) :=
  State.soundly_of_kept (by unfold execMoveProgramDone; split <;> simp)
@[simp] theorem execMoveProgramFail_soundly (dst : Nat) : s.soundly (execMoveProgramFail dst s) :=
  State.soundly_of_kept (by simp [execMoveProgramFail])
@[simp] theorem execBlockErase_soundly (blk : Nat) : s.soundly (execBlockErase blk s) :=
  State.soundly_of_kept (by simp [execBlockErase])
@[simp] theorem execEraseDone_soundly (blk : Nat) : s.soundly (execEraseDone blk s) :=
  State.soundly_of_kept (by unfold execEraseDone; split <;> simp)
@[simp] theorem execEraseFail_soundly (blk : Nat) : s.soundly (execEraseFail blk s) :=
  State.soundly_of_kept (by simp [execEraseFail])
@[simp] theorem execLadderStep_soundly (addr : Nat) (r : LadderReport) : s.soundly (execLadderStep addr r s) :=
  State.soundly_of_kept (by unfold execLadderStep; (repeat' split) <;> simp)
@[simp] theorem execDieTempRead_soundly (temps : List (Nat × Int)) : s.soundly (execDieTempRead temps s) :=
  State.soundly_of_kept (by simp [execDieTempRead])
@[simp] theorem execRecalibration_soundly (die mode bin : Nat) (best : Int) :
    s.soundly (execRecalibration die mode bin best s) :=
  State.soundly_of_kept (by simp [execRecalibration])
@[simp] theorem execInterfaceRetrain_soundly (ch : Nat) (ok : Bool) (temp : Int) :
    s.soundly (execInterfaceRetrain ch ok temp s) :=
  State.soundly_of_kept (by unfold execInterfaceRetrain; split <;> simp)
@[simp] theorem execVerifyScanEnd_soundly (sb : Nat) : s.soundly (execVerifyScanEnd sb s) :=
  State.soundly_of_kept (by unfold execVerifyScanEnd; split <;> simp)
@[simp] theorem execPatrolInterval_soundly (reads : Nat) (failing : List Nat) :
    s.soundly (execPatrolInterval reads failing s) :=
  State.soundly_of_kept (by simp [execPatrolInterval])
@[simp] theorem execDieReadyTimeout_soundly (die : Nat) : s.soundly (execDieReadyTimeout die s) :=
  State.soundly_of_kept (by simp [execDieReadyTimeout])
@[simp] theorem execParityRowEccError_soundly (sb row : Nat) : s.soundly (execParityRowEccError sb row s) :=
  State.soundly_of_kept (by simp [execParityRowEccError])
@[simp] theorem execFtStatus_soundly : s.soundly (execFtStatus n r s) := State.soundly_mb fun _ => by simp
@[simp] theorem execFtProfile_soundly : s.soundly (execFtProfile n r s) := State.soundly_mb fun _ => by simp
@[simp] theorem execFtLostList_soundly : s.soundly (execFtLostList n r s) := State.soundly_mb fun _ => by simp
@[simp] theorem execMediaStatus_soundly : s.soundly (execMediaStatus n r s) :=
  State.soundly_mb fun _ => by dsimp only; split <;> simp
@[simp] theorem execMediaHealth_soundly : s.soundly (execMediaHealth n r s) := State.soundly_mb fun _ => by simp
@[simp] theorem execMediaOffsetsRead_soundly : s.soundly (execMediaOffsetsRead n r s) := State.soundly_mb fun _ => by simp
@[simp] theorem execMediaProfileList_soundly : s.soundly (execMediaProfileList n r s) := State.soundly_mb fun _ => by simp
@[simp] theorem execMediaCare_soundly : s.soundly (execMediaCare n r s) := State.soundly_mb fun _ => by simp

@[simp] theorem execLandingProgramDone_soundly : s.soundly (execLandingProgramDone e i a s) := by
  unfold execLandingProgramDone
  split
  · next h => exact State.soundly_kept (by simpa using State.landingFits_kept h)
  · exact State.soundly_kept rfl

@[simp] theorem execLandingProgramFail_soundly : s.soundly (execLandingProgramFail e i a s) := by
  unfold execLandingProgramFail
  split
  · next h => exact State.soundly_kept (by simpa using State.landingFits_kept h)
  · exact State.soundly_kept rfl

@[simp] theorem execSegmentWriteback_soundly : s.soundly (execSegmentWriteback a s) := by
  unfold execSegmentWriteback
  split
  · exact State.soundly_kept rfl
  · dsimp only
    split
    · split
      · next h => exact State.soundly_kept (by simpa using State.programMap_kept h)
      · exact State.soundly_kept rfl
    · exact State.soundly_kept rfl

theorem moveExtent_withSuper_kept {s : State} {must : Bool} {sb m a i k : Nat} {x : Nat × State}
    (h : ((s.withSuper must sb m).bind fun s1 => s1.moveExtent a i k) = some x) : x.2.kept = s.kept := by
  obtain ⟨u, hu, hx⟩ := Option.bind_eq_some_iff.1 h
  exact (State.moveExtent_kept hx).trans (State.withSuper_kept hu)

@[simp] theorem execConsolidation_soundly : s.soundly (execConsolidation n e a s) := by
  unfold execConsolidation
  dsimp only
  split
  · split
    · cases h : (s.withSuper false (superOf a) 1).bind fun s1 => s1.moveExtent a n e with
      | none => exact State.soundly_kept rfl
      | some x => exact State.soundly_kept (moveExtent_withSuper_kept h)
    · exact State.soundly_kept rfl
  · exact State.soundly_kept rfl

@[simp] theorem execDirectoryCheckpoint_soundly : s.soundly (execDirectoryCheckpoint a s) := by
  unfold execDirectoryCheckpoint
  split
  · split
    · next h => exact State.soundly_kept (by simpa using State.programMap_kept h)
    · exact State.soundly_kept rfl
  · exact State.soundly_kept rfl

@[simp] theorem execDecodeResult_soundly (conv ok : Bool) (u k : Nat) (fd : DecodeFigures) :
    s.soundly (execDecodeResult a conv n u k ok fd s) := by
  unfold execDecodeResult
  split
  · next h =>
    have hs := State.suspendErase_kept h
    dsimp only
    split
    · exact State.soundly_kept rfl
    · split <;> exact State.soundly_kept (by simpa using hs)
  · exact State.soundly_kept rfl

@[simp] theorem execVerifyScan_soundly (d : Bool) : s.soundly (execVerifyScan n a i d s) := by
  unfold execVerifyScan
  split
  · next h =>
    have hs := State.suspendErase_kept h
    dsimp only
    split
    · exact State.soundly_kept rfl
    · (repeat' split) <;> exact State.soundly_kept (by simpa using hs)
  · exact State.soundly_kept rfl

@[simp] theorem execMediaPatrol_soundly : s.soundly (execMediaPatrol n r s) :=
  State.soundly_mb fun _ => State.long_kept fun _ => rfl

end Rows

/-! ### Horizon (chapter 2) -/

section Rows

variable (s : State) (n : Nat) (r : MbReq)

@[simp] theorem execTickInEdge_soundly (errNs : Int) (intervalNs : Nat) : s.soundly (execTickInEdge errNs intervalNs s) :=
  State.soundly_of_kept (by simp [execTickInEdge])
@[simp] theorem execTickBoundary_soundly (stretchNs : Nat) : s.soundly (execTickBoundary stretchNs s) :=
  State.soundly_of_kept (by unfold execTickBoundary; dsimp only; (repeat' split) <;> simp)
@[simp] theorem execSealInstant_soundly (atNs : Nat) : s.soundly (execSealInstant atNs s) :=
  State.soundly_of_kept (by unfold execSealInstant; split <;> simp)
@[simp] theorem execLateEpochSeal_soundly (atNs : Nat) : s.soundly (execLateEpochSeal atNs s) :=
  State.soundly_of_kept (by unfold execLateEpochSeal; split <;> simp)
@[simp] theorem execHzConfigure_soundly : s.soundly (execHzConfigure n r s) :=
  State.soundly_mb fun _ => by dsimp only; split <;> simp
@[simp] theorem execHzStatus_soundly : s.soundly (execHzStatus n r s) := State.soundly_mb fun _ => by simp
@[simp] theorem execHzPlanRead_soundly : s.soundly (execHzPlanRead n r s) := State.soundly_mb fun _ => by simp
@[simp] theorem execHzRingRelease_soundly : s.soundly (execHzRingRelease n r s) :=
  State.soundly_mb fun _ => by dsimp only; split <;> simp
@[simp] theorem execIntentEntryConfirmed_soundly (seq : Nat) : s.soundly (execIntentEntryConfirmed seq s) :=
  State.soundly_of_kept (by unfold execIntentEntryConfirmed; split <;> simp)
@[simp] theorem execTickInWindowEnd_soundly : s.soundly (execTickInWindowEnd s) :=
  State.soundly_of_kept (by simp [execTickInWindowEnd])
@[simp] theorem execTickInRelockTimeout_soundly : s.soundly (execTickInRelockTimeout s) :=
  State.soundly_of_kept (by simp [execTickInRelockTimeout])
@[simp] theorem execCutPoint_soundly : s.soundly (execCutPoint s) := State.soundly_of_kept (by simp [execCutPoint])
@[simp] theorem execHzSealLate_soundly : s.soundly (execHzSealLate s) :=
  State.soundly_of_kept (by unfold execHzSealLate; split <;> simp)
@[simp] theorem execEpochUnsealedN6_soundly : s.soundly (execEpochUnsealedN6 s) :=
  State.soundly_of_kept (by simp [execEpochUnsealedN6])
@[simp] theorem execVoteWindowEnd_soundly : s.soundly (execVoteWindowEnd s) :=
  State.soundly_of_kept (by unfold execVoteWindowEnd; split <;> simp)
@[simp] theorem execRingSealDeadline_soundly : s.soundly (execRingSealDeadline s) :=
  State.soundly_of_kept (by unfold execRingSealDeadline; split <;> simp)
@[simp] theorem execTickOutPulseEnd_soundly : s.soundly (execTickOutPulseEnd s) :=
  State.soundly_of_kept (by simp [execTickOutPulseEnd])

end Rows

/-! ### Zelim ports and frames (chapter 11) -/

section Rows

variable (s : State) (n : Nat) (r : MbReq)

@[simp] theorem execZlPortConfigure_soundly : s.soundly (execZlPortConfigure n r s) := State.soundly_mb fun _ => by simp
@[simp] theorem execZlPortStatus_soundly : s.soundly (execZlPortStatus n r s) := State.soundly_mb fun _ => by simp
@[simp] theorem execZlNodeSet_soundly : s.soundly (execZlNodeSet n r s) := State.soundly_mb fun _ => by simp
@[simp] theorem execZlTrustEnroll_soundly : s.soundly (execZlTrustEnroll n r s) := State.soundly_mb fun _ => by simp
@[simp] theorem execZlTrustRevoke_soundly : s.soundly (execZlTrustRevoke n r s) := State.soundly_mb fun _ => by simp
@[simp] theorem execZlPeerAdmit_soundly : s.soundly (execZlPeerAdmit n r s) := State.soundly_mb fun _ => by simp
@[simp] theorem execZlRouteSet_soundly : s.soundly (execZlRouteSet n r s) := State.soundly_mb fun _ => by simp
@[simp] theorem execZlRouteClear_soundly : s.soundly (execZlRouteClear n r s) := State.soundly_mb fun _ => by simp
@[simp] theorem execZlMirrorBreak_soundly : s.soundly (execZlMirrorBreak n r s) :=
  State.soundly_mb fun _ => by dsimp only; split <;> simp
@[simp] theorem execZlFenceClear_soundly : s.soundly (execZlFenceClear n r s) := State.soundly_mb fun _ => by simp
@[simp] theorem execZlSignalDetect_soundly (port : Nat) : s.soundly (execZlSignalDetect port s) :=
  State.soundly_of_kept (by simp [execZlSignalDetect])
@[simp] theorem execZlPortBringupStep_soundly (port : Nat) (ok : Bool) : s.soundly (execZlPortBringupStep port ok s) :=
  State.soundly_of_kept (by unfold execZlPortBringupStep; split <;> simp)
@[simp] theorem execZlPortRestartTimer_soundly (port : Nat) : s.soundly (execZlPortRestartTimer port s) :=
  State.soundly_of_kept (by simp [execZlPortRestartTimer])
@[simp] theorem execZlBlockLockLoss_soundly (port : Nat) : s.soundly (execZlBlockLockLoss port s) :=
  State.soundly_of_kept (by unfold execZlBlockLockLoss; split <;> simp)
@[simp] theorem execLaneMarginReport_soundly (port lane vertical horizontal : Nat) :
    s.soundly (execLaneMarginReport port lane vertical horizontal s) :=
  State.soundly_of_kept (by simp [execLaneMarginReport])
@[simp] theorem execDiscover_soundly (port node certDigest caps : Nat) :
    s.soundly (execDiscover port node certDigest caps s) :=
  State.soundly_of_kept (by simp [execDiscover])
@[simp] theorem execDelay_soundly (port dPortNs : Nat) : s.soundly (execDelay port dPortNs s) :=
  State.soundly_of_kept (by simp [execDelay])
@[simp] theorem execHello_soundly (port nonce eph : Nat) : s.soundly (execHello port nonce eph s) :=
  State.soundly_of_kept (by simp [execHello])
@[simp] theorem execReply_soundly (port nonce eph : Nat) (sigOk : Bool) (anchorKey : Nat) :
    s.soundly (execReply port nonce eph sigOk anchorKey s) :=
  State.soundly_of_kept (by simp [execReply])
@[simp] theorem execFinish_soundly (port : Nat) (sigOk : Bool) (anchorKey : Nat) :
    s.soundly (execFinish port sigOk anchorKey s) :=
  State.soundly_of_kept (by simp [execFinish])
@[simp] theorem execDone_soundly (port : Nat) : s.soundly (execDone port s) := State.soundly_of_kept (by simp [execDone])
@[simp] theorem execAuthTimeout_soundly (port : Nat) : s.soundly (execAuthTimeout port s) :=
  State.soundly_of_kept (by simp [execAuthTimeout])
@[simp] theorem execData_soundly (port : Nat) (f : Frame) (bytes : Data) : s.soundly (execData port f bytes s) :=
  State.soundly_of_kept (by simp [execData])
@[simp] theorem execFrameRelay_soundly (port : Nat) (f : Frame) : s.soundly (execFrameRelay port f s) :=
  State.soundly_of_kept (by simp [execFrameRelay])
@[simp] theorem execRetrans_soundly (port seq : Nat) : s.soundly (execRetrans port seq s) :=
  State.soundly_of_kept (by simp [execRetrans])
@[simp] theorem execZlRetransmitTimeout_soundly (port : Nat) : s.soundly (execZlRetransmitTimeout port s) :=
  State.soundly_of_kept (by simp [execZlRetransmitTimeout])
@[simp] theorem execPause_soundly (port gtick : Nat) : s.soundly (execPause port gtick s) :=
  State.soundly_of_kept (by simp [execPause])
@[simp] theorem execCredit_soundly (port gtick granules : Nat) : s.soundly (execCredit port gtick granules s) :=
  State.soundly_of_kept (by simp [execCredit])
@[simp] theorem execMirrorCreate_soundly (port node : Nat) (ns : NsFields) (offset : Nat) :
    s.soundly (execMirrorCreate port node ns offset s) :=
  State.soundly_of_kept (by simp [execMirrorCreate])
@[simp] theorem execMirrorHeld_soundly (port rid : Nat) : s.soundly (execMirrorHeld port rid s) :=
  State.soundly_of_kept (by simp [execMirrorHeld])
@[simp] theorem execMirrorCopyDone_soundly (nsid : Nat) : s.soundly (execMirrorCopyDone nsid s) :=
  State.soundly_of_kept (by simp [execMirrorCopyDone])
@[simp] theorem execFenceBackoffEnd_soundly (port : Nat) : s.soundly (execFenceBackoffEnd port s) :=
  State.soundly_of_kept (by simp [execFenceBackoffEnd])
@[simp] theorem execViolationQuietTimer_soundly (port : Nat) : s.soundly (execViolationQuietTimer port s) :=
  State.soundly_of_kept (by simp [execViolationQuietTimer])
@[simp] theorem execEmptyAckFrameTimer_soundly (port : Nat) : s.soundly (execEmptyAckFrameTimer port s) :=
  State.soundly_of_kept (by simp [execEmptyAckFrameTimer])
@[simp] theorem execUnknownFrameType_soundly (port : Nat) (f : Frame) : s.soundly (execUnknownFrameType port f s) :=
  State.soundly_of_kept (by unfold execUnknownFrameType; split <;> simp)

@[simp] theorem execNak_soundly (f : Frame) : s.soundly (execNak n f s) :=
  State.soundly_kept (State.onFrame_kept fun t => by
    dsimp only
    (repeat' split) <;> simp)

@[simp] theorem execMirrorAdmit_soundly (rid g : Nat) : s.soundly (execMirrorAdmit n rid g s) :=
  State.soundly_kept (State.onPort_kept fun t => by split <;> simp)

end Rows

/-! ### Groups (chapter 11) -/

section Rows

variable (s : State) (n : Nat) (r : MbReq)

@[simp] theorem execZlGroupForm_soundly : s.soundly (execZlGroupForm n r s) := State.soundly_mb fun _ => by simp
@[simp] theorem execZlGroupLeave_soundly : s.soundly (execZlGroupLeave n r s) :=
  State.soundly_mb fun _ => by dsimp only; split <;> simp
@[simp] theorem execZlGroupStatus_soundly : s.soundly (execZlGroupStatus n r s) := State.soundly_mb fun _ => by simp
@[simp] theorem execSealReady_soundly (port node gtick gen lock : Nat) :
    s.soundly (execSealReady port node gtick gen lock s) :=
  State.soundly_of_kept (by simp [execSealReady])
@[simp] theorem execJoinRequest_soundly (port node ringMark : Nat) (marks : JoinMarks) (cables : List Cable) (rclk : Nat) :
    s.soundly (execJoinRequest port node ringMark marks cables rclk s) :=
  State.soundly_of_kept (by simp [execJoinRequest])
@[simp] theorem execJoinOffer_soundly (port gJ period window offset rclk : Nat) :
    s.soundly (execJoinOffer port gJ period window offset rclk s) :=
  State.soundly_of_kept (by simp [execJoinOffer])
@[simp] theorem execJoinRefuse_soundly (port : Nat) (status : Status) : s.soundly (execJoinRefuse port status s) :=
  State.soundly_of_kept (by simp [execJoinRefuse])
@[simp] theorem execMemberLost_soundly (port : Nat) (lost : LostNodes) : s.soundly (execMemberLost port lost s) :=
  State.soundly_of_kept (by simp [execMemberLost])
@[simp] theorem execTickMark_soundly (port tick : Nat) (errNs : Int) (intervalNs : Nat) (valid : Bool) :
    s.soundly (execTickMark port tick errNs intervalNs valid s) :=
  State.soundly_of_kept (by simp [execTickMark])
@[simp] theorem execJoinLockDeadline_soundly : s.soundly (execJoinLockDeadline s) :=
  State.soundly_of_kept (by simp [execJoinLockDeadline])
@[simp] theorem execJoinTickReached_soundly : s.soundly (execJoinTickReached s) :=
  State.soundly_of_kept (by simp [execJoinTickReached])
@[simp] theorem execMarkWindowEnd_soundly : s.soundly (execMarkWindowEnd s) :=
  State.soundly_of_kept (by simp [execMarkWindowEnd])

@[simp] theorem execZlGroupJoin_soundly : s.soundly (execZlGroupJoin n r s) :=
  State.soundly_mb fun t => by
    dsimp only
    rw [MbResult.after_ite, MbResult.after_ite]
    split
    · rfl
    · split
      · rfl
      · exact State.long_kept fun u => by split <;> simp

@[simp] theorem execZlMemberAdmit_soundly : s.soundly (execZlMemberAdmit n r s) :=
  State.soundly_mb fun t => by
    rw [MbResult.after_ite]
    split
    · rfl
    · split <;> simp

@[simp] theorem execSealCommit_soundly (g k : Nat) : s.soundly (execSealCommit n g k s) :=
  State.soundly_kept (State.onPort_kept fun t => by (repeat' split) <;> simp)

@[simp] theorem execMembership_soundly (gen eff master : Nat) (ring : Ring) (rclk : Nat) :
    s.soundly (execMembership n gen eff master ring rclk s) :=
  State.soundly_kept (State.onPort_kept fun t => by
    dsimp only
    split <;> simp)

@[simp] theorem execJoinAccept_soundly (nd : Nat) : s.soundly (execJoinAccept n nd s) :=
  State.soundly_kept (State.onPort_kept fun t => by split <;> simp)

end Rows

/-! ### Registers, mailbox and digest contexts (chapters 9, 14, 16) -/

section Rows

variable (s : State) (n : Nat) (r : MbReq)

@[simp] theorem execIntStatusW1c_soundly (fn bits : Nat) : s.soundly (execIntStatusW1c fn bits s) :=
  State.soundly_of_kept (by simp [execIntStatusW1c])
@[simp] theorem execIntEvqHeadWrite_soundly (fn value : Nat) : s.soundly (execIntEvqHeadWrite fn value s) :=
  State.soundly_of_kept (by unfold execIntEvqHeadWrite; split <;> simp)
@[simp] theorem execClaim_soundly (fn ctx : Nat) : s.soundly (execClaim fn ctx s) :=
  State.soundly_of_kept (by simp [execClaim])
@[simp] theorem execRelease_soundly (fn ctx : Nat) : s.soundly (execRelease fn ctx s) :=
  State.soundly_of_kept (by simp [execRelease])
@[simp] theorem execStart_soundly (fn ctx alg : Nat) : s.soundly (execStart fn ctx alg s) :=
  State.soundly_of_kept (by simp [execStart])
@[simp] theorem execFinal_soundly (fn ctx tailBytes : Nat) : s.soundly (execFinal fn ctx tailBytes s) :=
  State.soundly_of_kept (by simp [execFinal])
@[simp] theorem execDgDataWrite_soundly (fn ctx width value : Nat) : s.soundly (execDgDataWrite fn ctx width value s) :=
  State.soundly_of_kept (by simp [execDgDataWrite])
@[simp] theorem execDgBlockDone_soundly (ctx : Nat) : s.soundly (execDgBlockDone ctx s) :=
  State.soundly_of_kept (by simp [execDgBlockDone])
@[simp] theorem execDgDigestDone_soundly (ctx : Nat) : s.soundly (execDgDigestDone ctx s) :=
  State.soundly_of_kept (by simp [execDgDigestDone])
@[simp] theorem execDgResultRead_soundly (fn ctx : Nat) : s.soundly (execDgResultRead fn ctx s) :=
  State.soundly_of_kept (by simp [execDgResultRead])
@[simp] theorem execSplitReadLatch_soundly (fn offset : Nat) : s.soundly (execSplitReadLatch fn offset s) :=
  State.soundly_of_kept (by simp [execSplitReadLatch])
@[simp] theorem execRecordLatchRead_soundly (fn offset : Nat) : s.soundly (execRecordLatchRead fn offset s) :=
  State.soundly_of_kept (by simp [execRecordLatchRead])
@[simp] theorem execDevIdentify_soundly : s.soundly (execDevIdentify n r s) := State.soundly_mb fun _ => by simp
@[simp] theorem execDevCertRead_soundly : s.soundly (execDevCertRead n r s) := State.soundly_mb fun _ => by simp
@[simp] theorem execParamSet_soundly : s.soundly (execParamSet n r s) :=
  State.soundly_mb fun _ => by dsimp only; (repeat' split) <;> simp
@[simp] theorem execParamGet_soundly : s.soundly (execParamGet n r s) :=
  State.soundly_mb fun _ => by dsimp only; split <;> simp
@[simp] theorem execDevResources_soundly : s.soundly (execDevResources n r s) := State.soundly_mb fun _ => by simp
@[simp] theorem execDevTickoutConfigure_soundly : s.soundly (execDevTickoutConfigure n r s) :=
  State.soundly_mb fun _ => by dsimp only; split <;> simp
@[simp] theorem execTelSample_soundly (time : Nat) : s.soundly (execTelSample time s) :=
  State.soundly_of_kept (by simp [execTelSample])

@[simp] theorem execGo_soundly : s.soundly (execGo n s) := by
  unfold execGo
  split
  · exact State.soundly_kept rfl
  · next f hf =>
    split
    · exact State.soundly_kept (by simp)
    · have haccept := State.accept_sound (s := s) (n := n) (opcode := (requestOf f.mb.area (areaSize n)).1)
        (r := (requestOf f.mb.area (areaSize n)).2) fun h => h.1 f (List.mem_of_find?_eq_some hf)
      dsimp only
      split
      · exact s.soundly_next haccept
      · exact s.soundly_next (haccept.trans (State.sound_of_kept (by simp)))

@[simp] theorem execMailboxReply_soundly : s.soundly (execMailboxReply n s) := by
  unfold execMailboxReply
  split
  · exact State.soundly_kept rfl
  · split
    · exact State.soundly_kept rfl
    · split
      · exact State.soundly_kept (State.modFn_kept fun _ => rfl)
      · split
        · exact s.soundly_next (s.deliverReply_sound ..)
        · exact State.soundly_kept rfl

@[simp] theorem execDevShockConfigure_soundly : s.soundly (execDevShockConfigure n r s) :=
  State.soundly_mb fun t => by
    split
    · simp
    · split <;> simp

@[simp] theorem execDevLongResult_soundly : s.soundly (execDevLongResult n r s) :=
  State.soundly_mb fun t => by
    split
    · rfl
    · split <;> rfl

end Rows

/-! ### Functions and the host link (chapter 12) -/

section Rows

variable (s : State) (n : Nat) (r : MbReq)

@[simp] theorem execFlr_soundly (fn : Nat) : s.soundly (execFlr fn s) := State.soundly_of_kept (by simp [execFlr])
@[simp] theorem execBusMasterEnableClear_soundly (fn : Nat) : s.soundly (execBusMasterEnableClear fn s) :=
  State.soundly_of_kept (by simp [execBusMasterEnableClear])
@[simp] theorem execBusMasterEnableSet_soundly (fn : Nat) : s.soundly (execBusMasterEnableSet fn s) :=
  State.soundly_of_kept (by simp [execBusMasterEnableSet])
@[simp] theorem execD3hotEntry_soundly (fn : Nat) : s.soundly (execD3hotEntry fn s) :=
  State.soundly_of_kept (by simp [execD3hotEntry])
@[simp] theorem execD3hotExit_soundly (fn : Nat) : s.soundly (execD3hotExit fn s) :=
  State.soundly_of_kept (by simp [execD3hotExit])
@[simp] theorem execUsb4LinkTrained_soundly (gen retimers : Nat) : s.soundly (execUsb4LinkTrained gen retimers s) :=
  State.soundly_of_kept (by simp [execUsb4LinkTrained])
@[simp] theorem execLaneBondRetry_soundly (bonded : Bool) : s.soundly (execLaneBondRetry bonded s) :=
  State.soundly_of_kept (by simp [execLaneBondRetry])
@[simp] theorem execFnDestroy_soundly : s.soundly (execFnDestroy n r s) := State.soundly_mb fun _ => by simp
@[simp] theorem execFnReset_soundly : s.soundly (execFnReset n r s) := State.soundly_mb fun _ => by simp
@[simp] theorem execFnInfo_soundly : s.soundly (execFnInfo n r s) := State.soundly_mb fun _ => by simp
@[simp] theorem execFnPool_soundly : s.soundly (execFnPool n r s) := State.soundly_mb fun _ => by simp
@[simp] theorem execFnHostConfigure_soundly : s.soundly (execFnHostConfigure n r s) := State.soundly_mb fun _ => by simp
@[simp] theorem execFnPf0Grant_soundly : s.soundly (execFnPf0Grant n r s) := State.soundly_mb fun _ => by simp
@[simp] theorem execFnLinkStatus_soundly : s.soundly (execFnLinkStatus n r s) := State.soundly_mb fun _ => by simp
@[simp] theorem execVfEnableClear_soundly : s.soundly (execVfEnableClear s) :=
  State.soundly_of_kept (by simp [execVfEnableClear])
@[simp] theorem execUsb4LinkDownTimeout_soundly : s.soundly (execUsb4LinkDownTimeout s) :=
  State.soundly_of_kept (by simp [execUsb4LinkDownTimeout])
@[simp] theorem execTunnelledLinkReset_soundly : s.soundly (execTunnelledLinkReset s) :=
  State.soundly_of_kept (by simp [execTunnelledLinkReset])
@[simp] theorem execUsb4LinkLoss_soundly : s.soundly (execUsb4LinkLoss s) :=
  State.soundly_of_kept (by simp [execUsb4LinkLoss])

@[simp] theorem execFnResetComplete_soundly : s.soundly (execFnResetComplete n s) := by
  unfold execFnResetComplete
  split
  · split
    · exact s.soundly_next (s.completeFn_sound n)
    · exact State.soundly_kept rfl
  · exact State.soundly_kept rfl

@[simp] theorem execFnMemoryZeroingDone_soundly : s.soundly (execFnMemoryZeroingDone n s) := by
  unfold execFnMemoryZeroingDone
  split
  · exact State.soundly_kept (State.modFn_kept fun f => by split <;> rfl)
  · exact State.soundly_kept rfl

@[simp] theorem execFnCreate_soundly : s.soundly (execFnCreate n r s) :=
  s.soundly_next (State.mbRun_sound fun t => by
    dsimp only
    split
    · trivial
    · refine State.sound_fns fun f hf => ?_
      rcases List.mem_append.1 hf with hf | hf
      · exact .inl (List.mem_of_mem_filter hf)
      · rw [List.mem_singleton.1 hf]
        exact .inr rfl)

@[simp] theorem execVfEnableSet_soundly : s.soundly (execVfEnableSet n s) := by
  unfold execVfEnableSet
  split
  · exact State.soundly_kept rfl
  · refine s.soundly_next ((State.sound_of_kept (State.modLink_kept ..)).trans (State.sound_fns fun f hf => ?_))
    rcases List.mem_append.1 hf with hf | hf
    · exact .inl hf
    · obtain ⟨k, -, rfl⟩ := List.mem_map.1 hf
      exact .inr rfl

end Rows

/-! ### Namespaces (chapter 3) -/

section Rows

variable (s : State) (n : Nat) (r : MbReq)

@[simp] theorem execImageVerifyDone_soundly (nsid slot : Nat) : s.soundly (execImageVerifyDone nsid slot s) :=
  State.soundly_of_kept (by unfold execImageVerifyDone; (repeat' split) <;> simp)
@[simp] theorem execNsCreate_soundly : s.soundly (execNsCreate n r s) :=
  State.soundly_mb fun _ => by dsimp only; split <;> simp
@[simp] theorem execNsDelete_soundly : s.soundly (execNsDelete n r s) := State.soundly_mb fun _ => by simp
@[simp] theorem execNsAttach_soundly : s.soundly (execNsAttach n r s) := State.soundly_mb fun _ => by simp
@[simp] theorem execNsDetach_soundly : s.soundly (execNsDetach n r s) := State.soundly_mb fun _ => by simp
@[simp] theorem execNsInfo_soundly : s.soundly (execNsInfo n r s) :=
  State.soundly_mb fun _ => State.onNs_kept fun x => by simp
@[simp] theorem execNsStreamOpen_soundly : s.soundly (execNsStreamOpen n r s) := State.soundly_mb fun _ => by simp
@[simp] theorem execNsStreamClose_soundly : s.soundly (execNsStreamClose n r s) := State.soundly_mb fun _ => by simp
@[simp] theorem execNsRetentionLengthen_soundly : s.soundly (execNsRetentionLengthen n r s) :=
  State.soundly_mb fun _ => by simp
@[simp] theorem execNsRclockSet_soundly : s.soundly (execNsRclockSet n r s) := State.soundly_mb fun _ => by simp
@[simp] theorem execNsChainAnchor_soundly : s.soundly (execNsChainAnchor n r s) := State.soundly_mb fun _ => by simp
@[simp] theorem execNsRnsTrim_soundly : s.soundly (execNsRnsTrim n r s) := State.soundly_mb fun _ => by simp
@[simp] theorem execNsUnfreeze_soundly : s.soundly (execNsUnfreeze n r s) := State.soundly_mb fun _ => by simp
@[simp] theorem execNsImageOpen_soundly : s.soundly (execNsImageOpen n r s) := State.soundly_mb fun _ => by simp
@[simp] theorem execNsImageVerify_soundly : s.soundly (execNsImageVerify n r s) :=
  State.soundly_mb fun _ => State.onNs_kept fun x => by simp
@[simp] theorem execNsImageActivate_soundly : s.soundly (execNsImageActivate n r s) := State.soundly_mb fun _ => by simp
@[simp] theorem execNsImageRollback_soundly : s.soundly (execNsImageRollback n r s) := State.soundly_mb fun _ => by simp
@[simp] theorem execNsImageErase_soundly : s.soundly (execNsImageErase n r s) := State.soundly_mb fun _ => by simp
@[simp] theorem execShockInTrigger_soundly : s.soundly (execShockInTrigger s) :=
  State.soundly_of_kept (by unfold execShockInTrigger; (repeat' split) <;> simp)
@[simp] theorem execShockInHoldoffEnd_soundly : s.soundly (execShockInHoldoffEnd s) :=
  State.soundly_of_kept (by simp [execShockInHoldoffEnd])

@[simp] theorem execNsFreeze_soundly : s.soundly (execNsFreeze n r s) :=
  State.soundly_mb fun t => State.onNs_kept fun x => by
    split
    · next h => simpa using State.freezeNs_kept h
    · rfl

end Rows

/-! ### Firmware and the log (chapter 14) -/

section Rows

variable (s : State) (n : Nat) (r : MbReq)

@[simp] theorem execFwDownloadDone_soundly (file : FwFile) : s.soundly (execFwDownloadDone file s) :=
  State.soundly_of_kept (by unfold execFwDownloadDone; split <;> simp)
@[simp] theorem execFwStatus_soundly : s.soundly (execFwStatus n r s) := State.soundly_mb fun _ => by simp
@[simp] theorem execFwActivate_soundly : s.soundly (execFwActivate n r s) := State.soundly_mb fun _ => by simp
@[simp] theorem execFwDebugChallenge_soundly : s.soundly (execFwDebugChallenge n r s) := State.soundly_mb fun _ => by simp
@[simp] theorem execFwDebugUnlock_soundly : s.soundly (execFwDebugUnlock n r s) := State.soundly_mb fun _ => by simp
@[simp] theorem execLogRead_soundly : s.soundly (execLogRead n r s) := State.soundly_mb fun _ => by simp
@[simp] theorem execLogStatus_soundly : s.soundly (execLogStatus n r s) := State.soundly_mb fun _ => by simp
@[simp] theorem execTelSampleConfigure_soundly : s.soundly (execTelSampleConfigure n r s) :=
  State.soundly_mb fun _ => by dsimp only; split <;> simp
@[simp] theorem execFwPreparationDone_soundly : s.soundly (execFwPreparationDone s) :=
  State.soundly_of_kept (by simp [execFwPreparationDone])
@[simp] theorem execFwPreparationTimeout_soundly : s.soundly (execFwPreparationTimeout s) :=
  State.soundly_of_kept (by simp [execFwPreparationTimeout])
@[simp] theorem execFwReady_soundly : s.soundly (execFwReady s) :=
  State.soundly_of_kept (by unfold execFwReady; split <;> simp)
@[simp] theorem execFwReadyTimeout_soundly : s.soundly (execFwReadyTimeout s) :=
  State.soundly_of_kept (by unfold execFwReadyTimeout; split <;> simp)
@[simp] theorem execFwHoldTimeout_soundly : s.soundly (execFwHoldTimeout s) :=
  State.soundly_of_kept (by simp [execFwHoldTimeout])
@[simp] theorem execDebugNonceExpiry_soundly : s.soundly (execDebugNonceExpiry s) :=
  State.soundly_of_kept (by simp [execDebugNonceExpiry])

@[simp] theorem execFwDownload_soundly : s.soundly (execFwDownload n r s) :=
  State.soundly_mb fun t => by
    dsimp only
    rw [MbResult.after_ite]
    split
    · rfl
    · exact State.long_kept fun u => State.modFw_kept (fun _ => rfl) (fun _ => rfl) fun _ => rfl

theorem State.modFw_sound {s : State} {g : Firmware → Firmware} (h1 : s.fw.svn ≤ (g s.fw).svn)
    (h2 : s.fw.debugDisabled = true → (g s.fw).debugDisabled = true)
    (h3 : ∀ k : Nat, s.fw.revoked[k]? = some true → (g s.fw).revoked[k]? = some true) : s.sound (s.modFw g) :=
  ⟨rfl, h1, h2, h3, id⟩

@[simp] theorem execFwCommit_soundly : s.soundly (execFwCommit n r s) :=
  s.soundly_next (State.mbRun_sound fun t => by
    (repeat' split)
    · exact t.sound_refl
    · exact State.sound_of_kept (by simp)
    · exact State.modFw_sound (Nat.le_max_left ..) id fun _ => id)

@[simp] theorem execFwDebugDisable_soundly : s.soundly (execFwDebugDisable n r s) :=
  s.soundly_next (State.mbRun_sound fun _ => State.modFw_sound (Nat.le_refl _) (fun _ => rfl) fun _ => id)

/-- A bit set stays set where another one, or the same, is set. -/
theorem updAt_true_getElem? {l : List Bool} {k j : Nat} (h : l[j]? = some true) :
    (updAt l k fun _ => true)[j]? = some true := by
  unfold updAt
  split
  · rw [List.getElem?_set]
    split
    · subst j
      rw [if_pos (List.getElem?_eq_some_iff.1 h).1]
    · exact h
  · exact h

@[simp] theorem execFwKeyRevoke_soundly : s.soundly (execFwKeyRevoke n r s) :=
  s.soundly_next (State.mbRun_sound fun t => by
    dsimp only
    split
    · trivial
    · refine State.modFw_sound (Nat.le_refl _) id fun k hk => ?_
      exact updAt_true_getElem? hk)

end Rows

/-! ### Member redundancy (chapter 6) -/

section Rows

variable (s : State) (n : Nat) (r : MbReq)

@[simp] theorem execRebuildWalk_soundly (sb : Nat) (lost : List Nat) (target : Nat) :
    s.soundly (execRebuildWalk sb lost target s) :=
  State.soundly_of_kept (by simp [execRebuildWalk])
@[simp] theorem execResyncFull_soundly (sb : Nat) (mismatch : Bool) : s.soundly (execResyncFull sb mismatch s) :=
  State.soundly_of_kept (by simp [execResyncFull])
@[simp] theorem execStripeCheck_soundly (sb : Nat) (mismatch : Bool) : s.soundly (execStripeCheck sb mismatch s) :=
  State.soundly_of_kept (by unfold execStripeCheck; (repeat' split) <;> simp)
@[simp] theorem execRdPoolForm_soundly : s.soundly (execRdPoolForm n r s) := State.soundly_mb fun _ => by simp
@[simp] theorem execRdStatus_soundly : s.soundly (execRdStatus n r s) := State.soundly_mb fun _ => by simp
@[simp] theorem execRdReshape_soundly : s.soundly (execRdReshape n r s) :=
  State.soundly_mb fun _ => by dsimp only; split <;> simp
@[simp] theorem execRdReshapeCancel_soundly : s.soundly (execRdReshapeCancel n r s) := State.soundly_mb fun _ => by simp
@[simp] theorem execRdProfile_soundly : s.soundly (execRdProfile n r s) := State.soundly_mb fun _ => by simp
@[simp] theorem execRdMemberFail_soundly : s.soundly (execRdMemberFail n r s) := State.soundly_mb fun _ => by simp
@[simp] theorem execRebuildWalkEnd_soundly : s.soundly (execRebuildWalkEnd s) :=
  State.soundly_of_kept (by simp [execRebuildWalkEnd])
@[simp] theorem execReshapeCopyDone_soundly : s.soundly (execReshapeCopyDone s) :=
  State.soundly_of_kept (by simp [execReshapeCopyDone])

@[simp] theorem execReshapeCopy_soundly : s.soundly (execReshapeCopy e a s) := by
  unfold execReshapeCopy
  dsimp only
  split
  · refine State.soundly_kept ?_
    cases hw : s.withSuper false (superOf a) 1 with
    | none => rfl
    | some u =>
      have hu := State.withSuper_kept hw
      simp only [Option.bind_some]
      split
      · cases h : u.moveExtent a (newLayout s.store.reshape.nsid) (extentKey e) with
        | none => rfl
        | some x => exact (State.moveExtent_kept h).trans hu
      · cases h : u.copyUnits e a with
        | none => rfl
        | some x => exact (State.copyUnits_kept h).trans hu
  · exact State.soundly_kept rfl

end Rows

/-! ### Register writes (R4, R446) -/

section Writes

variable (s : State) (n o w v : Nat)

theorem State.writeDgCtl_soundly (i : Nat) : s.soundly (s.writeDgCtl n i v) := by
  unfold State.writeDgCtl
  split
  · exact State.soundly_kept (by simp)
  · (repeat' split) <;> simp [State.soundly_kept]

theorem State.writeReg_soundly : s.soundly (s.writeReg n o w v) := by
  unfold State.writeReg
  (repeat' split) <;> simp [State.soundly_kept, State.writeDgCtl_soundly, s.soundly_next (s.writeBar0_sound n o w v)]

theorem State.writeBar2_soundly : s.soundly (s.writeBar2 n o w v) := by
  unfold State.writeBar2
  (repeat' split) <;> simp [State.soundly_kept]

@[simp] theorem execRegisterWrite_soundly : s.soundly (execRegisterWrite n o w v s) := by
  unfold execRegisterWrite
  dsimp only
  (repeat' split) <;> simp [State.soundly_kept, State.writeReg_soundly, State.writeBar2_soundly]

end Writes

/-! ### Every command -/

/-- Whatever command runs, there is a next state that keeps the queue, the fuses, canonical message areas and the 16
digest contexts. -/
theorem exec_soundly (i : Instr) (s : State) : s.soundly (exec i s) := by
  cases i <;> simp [exec]

/-- Settles O60: the command at the front runs on the queue's rest, where the areas and the contexts are those of the
state, and keeps them; on an empty queue nothing changes (R249, R398). -/
theorem goodStateKept : Obligations.GoodStateKept := by
  intro s t hs ht
  unfold step at ht
  split at ht
  · cases ht
    exact hs
  · next c _ _ =>
    obtain ⟨u, hu, hsound⟩ := exec_soundly c s.rest
    obtain ⟨-, -, -, -, hgood⟩ := hsound
    rw [hu] at ht
    cases ht
    exact hgood hs

end Sys2Proof.Machine
end

section
/-!
SUPPORT. Digest contexts (chapter 9): who reaches a context's window, what each write to it and each event of the engine
does to the context, and what a read of DG_RESULT returns.
-/

namespace Sys2Proof.Machine

open Sys2Proof

section Context

variable {s : State} {n i : Nat} {c : DgCtx} (hc : s.dg[i]? = some c)
include hc

/-- A change of a context that is there sets it. -/
theorem modDg_of_get (g : DgCtx → DgCtx) : s.modDg i g = { s with dg := s.dg.set i (g c) } := by
  simp [State.modDg, updAt, hc]

theorem modDg_unchanged {g : DgCtx → DgCtx} (hg : g c = c) : s.modDg i g = s := by
  obtain ⟨hi, hget⟩ := List.getElem?_eq_some_iff.1 hc
  rw [modDg_of_get hc, hg, ← hget, List.set_getElem_self]

theorem foreignDg_of_get : s.foreignDg n i = (c.st != .free && c.owner != n) := by
  simp [State.foreignDg, hc]

/-! ### Functions that do not own the context (R251) -/

section Foreign

variable (hst : c.st ≠ .free) (ho : c.owner ≠ n)
include hst ho

theorem foreignDg_of_claimed : s.foreignDg n i = true := by simp [foreignDg_of_get hc, hst, ho]

theorem onDg_foreign (go : DgCtx → State) : s.onDg n i go = s.violate n :=
  if_pos (.inr (foreignDg_of_claimed hc hst ho))

end Foreign

/-! ### The owner (R252 to R259) -/

variable (hl : s.fnLive n = true)
include hl

theorem exec_claim_free (hst : c.st = .free) :
    exec (.claim n i) s = .next { s with dg := s.dg.set i { DgCtx.free with owner := n, st := .idle } } := by
  change execClaim n i s = _
  rw [execClaim, if_neg (by simp [hl, foreignDg_of_get hc, hst]), modDg_of_get hc, if_pos hst]

section Owned

variable (ho : c.owner = n)
include ho

theorem onDg_owned (hst : c.st ≠ .free) (go : DgCtx → State) : s.onDg n i go = go c := by
  rw [State.onDg, if_neg (by simp [hl, foreignDg_of_get hc, ho]), hc]
  exact if_neg hst

/-- What the owner's write makes of its context. -/
theorem onDg_modDg (hst : c.st ≠ .free) (g : DgCtx → DgCtx) :
    s.onDg n i (fun _ => s.modDg i g) = { s with dg := s.dg.set i (g c) } :=
  (onDg_owned hc hl ho hst _).trans (modDg_of_get hc g)

theorem exec_release_owned (hst : c.st ≠ .free) :
    exec (.release n i) s = .next { s with dg := s.dg.set i .free } :=
  congrArg _ (onDg_modDg hc hl ho hst _)

theorem exec_start_owned (hst : c.st ≠ .free) {a : Nat} (ha : 1 ≤ a ∧ a ≤ 5) : exec (.start n i a) s =
    .next { s with dg := s.dg.set i { c with
      st := .active, alg := a, err := St.ok, msg := [], full := 0, msgLen := 0, result := [], done := false } } := by
  refine congrArg _ ((onDg_modDg hc hl ho hst _).trans ?_)
  rw [if_pos ha]

/-- START with an algorithm that R250 does not list. -/
theorem exec_start_badAlg (hst : c.st ≠ .free) {a : Nat} (ha : a = 0 ∨ 5 < a) : exec (.start n i a) s =
    .next { s with dg := s.dg.set i { c with
      st := .idle, alg := 0, err := St.dgAlg, msg := [], full := 0, msgLen := 0, result := [], done := false } } := by
  refine congrArg _ ((onDg_modDg hc hl ho hst _).trans ?_)
  rw [if_neg (by omega)]

theorem exec_final_active (hst : c.st = .active) (k : Nat) : exec (.final n i k) s =
    .next { s with dg := s.dg.set i { c with
      st := .finalising, msg := c.msg ++ bytesLE (k % 8) c.tail, msgLen := c.msgLen + k % 8 } } := by
  refine congrArg _ ((onDg_modDg hc hl ho (by simp [hst]) _).trans ?_)
  simp only [hst]

theorem exec_final_sequence (hst : c.st = .idle ∨ c.st = .finalising ∨ c.st = .done) (k : Nat) :
    exec (.final n i k) s = .next { s with dg := s.dg.set i { c with err := St.dgSequence } } := by
  refine congrArg _ ((onDg_modDg hc hl ho (by rcases hst with h | h | h <;> simp [h]) _).trans ?_)
  rcases hst with h | h | h <;> simp only [h]

theorem exec_final_error (hst : c.st = .error) (k : Nat) : exec (.final n i k) s = .next s := by
  refine congrArg _ ((onDg_owned hc hl ho (by simp [hst]) _).trans (modDg_unchanged hc ?_))
  simp only [hst]

section Data

variable {w : Nat} (hw : w = 4 ∨ w = 8) (v : Nat)
include hw

theorem exec_dgDataWrite_takes (hst : c.st = .active) (hfull : c.full < 2) (hlen : c.msgLen + w < 2 ^ 61) :
    exec (.dgDataWrite n i w v) s = .next { s with dg := s.dg.set i { c with
      msg := c.msg ++ bytesLE w v, msgLen := c.msgLen + w
      full := c.full + ((c.msgLen + w) / dgBlockBytes c.alg - c.msgLen / dgBlockBytes c.alg) } } := by
  change execDgDataWrite n i w v s = _
  rw [execDgDataWrite, if_neg (not_not_intro hw), onDg_modDg hc hl ho (by simp [hst])]
  have hbusy : c.busy = false := by simp [DgCtx.busy, hfull]
  have hfits : ¬ 2 ^ 61 - 1 < c.msgLen + w := by omega
  simp only [hst, hbusy, Bool.false_eq_true, if_false, hfits, DgCtx.take]

/-- A word while the second buffer is full (R255). -/
theorem exec_dgDataWrite_overrun (hst : c.st = .active) (hfull : 2 ≤ c.full) : exec (.dgDataWrite n i w v) s =
    .next { s with dg := s.dg.set i { c with st := .error, err := St.dgOverrun } } := by
  change execDgDataWrite n i w v s = _
  rw [execDgDataWrite, if_neg (not_not_intro hw), onDg_modDg hc hl ho (by simp [hst])]
  have hbusy : c.busy = true := by simp [DgCtx.busy, hst, hfull]
  simp only [hst, hbusy, if_true]

/-- A word that would pass the longest message (R258). -/
theorem exec_dgDataWrite_length (hst : c.st = .active) (hfull : c.full < 2) (hlen : 2 ^ 61 ≤ c.msgLen + w) :
    exec (.dgDataWrite n i w v) s = .next { s with dg := s.dg.set i { c with st := .error, err := St.dgLength } } := by
  change execDgDataWrite n i w v s = _
  rw [execDgDataWrite, if_neg (not_not_intro hw), onDg_modDg hc hl ho (by simp [hst])]
  have hbusy : c.busy = false := by simp [DgCtx.busy, hfull]
  have hpast : 2 ^ 61 - 1 < c.msgLen + w := by omega
  simp only [hst, hbusy, Bool.false_eq_true, if_false, hpast, if_true]

theorem exec_dgDataWrite_sequence (hst : c.st = .idle ∨ c.st = .finalising ∨ c.st = .done) :
    exec (.dgDataWrite n i w v) s = .next { s with dg := s.dg.set i { c with err := St.dgSequence } } := by
  change execDgDataWrite n i w v s = _
  rw [execDgDataWrite, if_neg (not_not_intro hw), onDg_modDg hc hl ho (by rcases hst with h | h | h <;> simp [h])]
  rcases hst with h | h | h <;> simp only [h]

theorem exec_dgDataWrite_error (hst : c.st = .error) : exec (.dgDataWrite n i w v) s = .next s := by
  change execDgDataWrite n i w v s = _
  rw [execDgDataWrite, if_neg (not_not_intro hw), onDg_owned hc hl ho (by simp [hst]), modDg_unchanged hc]
  simp only [hst]

end Data

/-! ### DG_RESULT (R257) -/

theorem exec_dgResultRead_early (hst : c.st ≠ .free) (hd : c.st ≠ .done) : exec (.dgResultRead n i) s =
    .next { s with dg := s.dg.set i { c with err := St.dgNotFinal } } := by
  refine congrArg _ ((onDg_modDg hc hl ho hst _).trans ?_)
  rw [if_neg hd]

theorem exec_dgResultRead_done (hd : c.st = .done) : exec (.dgResultRead n i) s = .next s :=
  congrArg _ ((onDg_owned hc hl ho (by simp [hd]) _).trans (modDg_unchanged hc (by simp only [hd, if_true])))

variable {j : Nat} (hi : i < 16) (hj : j < 8)
include hi hj

/-- Register j of DG_RESULT reads the digest from byte 8 j on once it stands, and 0 before. -/
theorem regVal_dgResult (hst : c.st ≠ .free) : s.regVal n (0x0840 + 0x80 * i + 8 * j) =
    if c.st = .done then natLE ((c.result.drop (8 * j)).take 8) else 0 := by
  obtain ⟨f, hf⟩ : ∃ f, s.fn? n = some f := by
    cases hf : s.fn? n with
    | none => simp [State.fnLive, hf] at hl
    | some f => exact ⟨f, rfl⟩
  obtain ⟨o, hoff⟩ : ∃ o, o = 0x0800 + 0x80 * i + (0x40 + 8 * j) := ⟨_, rfl⟩
  have hwin : dgWindow o = true := hoff ▸ dgWindow_of_ctx hi (by omega)
  have hidx : dgIndex o = i := hoff ▸ dgIndex_of_ctx (by omega)
  have hmod : o % 0x80 = 0x40 + 8 * j := hoff ▸ mod_of_ctx (by omega)
  rw [show 0x0840 + 0x80 * i + 8 * j = o by omega, State.regVal, if_neg (by omega), if_neg (by omega), hf]
  dsimp only
  rw [if_neg (by omega), if_neg (by omega), if_neg (by omega), if_pos hwin, State.dgReg, hidx, hc]
  dsimp only
  rw [hmod, if_neg (by simp [hst, ho]), if_neg (by omega), if_neg (by omega), if_neg (by omega), Nat.add_sub_cancel_left]
  simp

end Owned

end Context

/-- Settles O16: a FREE context goes to who claims it, one that is claimed obeys its owner alone, and each write of the
owner and each event of the engine makes of it what R259 says (R251, R253 to R256, R258). -/
theorem digestContexts : Obligations.DigestContexts := by
  intro s n i c hc
  refine ⟨exec_claim_free hc, ?foreign, ?owner, congrArg _ (modDg_of_get hc _), ?digest⟩
  case foreign =>
    intro _ hst ho a k w v
    have hon := onDg_foreign hc hst ho
    refine ⟨if_pos (.inr (foreignDg_of_claimed hc hst ho)), congrArg _ (hon _), congrArg _ (hon _), congrArg _ (hon _), ?_,
      congrArg _ (hon _)⟩
    change execDgDataWrite n i w v s = _
    rw [execDgDataWrite, hon, ite_self]
  case owner =>
    intro hl hst ho
    exact ⟨exec_release_owned hc hl ho hst, fun a h1 h5 => exec_start_owned hc hl ho hst ⟨h1, h5⟩,
      fun a => exec_start_badAlg hc hl ho hst, fun w v hw => exec_dgDataWrite_takes hc hl ho hw v,
      fun w v hw => exec_dgDataWrite_overrun hc hl ho hw v, fun w v hw => exec_dgDataWrite_length hc hl ho hw v,
      fun k ha => exec_final_active hc hl ho ha k,
      fun w v k hw hs => ⟨exec_dgDataWrite_sequence hc hl ho hw v hs, exec_final_sequence hc hl ho hs k⟩,
      fun w v k hw he => ⟨exec_dgDataWrite_error hc hl ho hw v he, exec_final_error hc hl ho he k⟩⟩
  case digest =>
    intro hst
    refine congrArg _ ((modDg_of_get hc _).trans ?_)
    rw [if_pos hst]

/-- Settles O17: before DONE the owner reads 0 and ERR is set, in DONE it reads the digest and nothing changes (R257). -/
theorem digestResultRead : Obligations.DigestResultRead := by
  intro s n i j c hl hc hi hj ho
  refine ⟨?early, ?done⟩
  case early =>
    intro hst
    have hfree : c.st ≠ .free := by rcases hst with h | h | h | h <;> simp [h]
    have hdone : c.st ≠ .done := by rcases hst with h | h | h | h <;> simp [h]
    exact ⟨(regVal_dgResult hc hl ho hi hj hfree).trans (if_neg hdone), exec_dgResultRead_early hc hl ho hfree hdone⟩
  case done =>
    intro hst
    exact ⟨exec_dgResultRead_done hc hl ho hst, (regVal_dgResult hc hl ho hi hj (by simp [hst])).trans (if_pos hst)⟩

end Sys2Proof.Machine
end

section
/-!
SUPPORT. Power-on and controller reset: what a power cut in a seal window, the restart and the boot ROM leave, what the start of
a controller reset ends, and the statement ResetsKeepTheSealedState.
-/

namespace Sys2Proof.Machine

open Sys2Proof

section EventFields

variable {s t : State} (h : t.sansEvents = s.sansEvents)
include h

theorem fw_of_sansEvents : t.fw = s.fw := (congrArg State.fw h :)
theorem dg_of_sansEvents : t.dg = s.dg := (congrArg State.dg h :)

end EventFields

/-! ### Power-on (R43, R45, R439) -/

/-- Outside a seal window a power cut seals nothing. -/
theorem cutSeal_outside {s : State} (h : s.hz.ticking = false ∨ s.hz.phase ≠ .sealWindow) : s.cutSeal = s := by
  unfold State.cutSeal
  split
  · rfl
  · exact if_neg fun ⟨ht, hp, _⟩ => h.elim (fun hf => Bool.false_ne_true (hf.symm.trans ht)) fun hn => hn hp

/-! ### The end of commands (R388) -/

/-- No command of an aborted function is left. -/
theorem State.abortAll_cmds (s : State) (n : Nat) : (s.abortAll n).q.cmds = s.q.cmds.filter fun c => c.fn != n := by
  have hlog : ∀ l : List Nat, (l.foldl (fun a d => a.log 1 n St.abortedReset d) s).q = s.q :=
    fun l => foldl_keeps State.q _ (fun a d => a.log_q 1 n St.abortedReset d) l s
  unfold State.abortAll
  dsimp only [State.modQ_q]
  rw [hlog]

theorem cmds_foldl_abortAll (l : List Nat) (s : State) :
    (l.foldl State.abortAll s).q.cmds = s.q.cmds.filter fun c => l.all fun n => c.fn != n := by
  induction l generalizing s with
  | nil => simp
  | cons n l ih => rw [List.foldl_cons, ih, State.abortAll_cmds, List.filter_filter]; simp [Bool.and_comm]

/-- A number that no created function has names no function. -/
theorem fnExists_of_not_created {s : State} {n : Nat} (h : n ∉ s.created) : s.fnExists n = false := by
  unfold State.fnExists State.fnState
  split
  · next f hf =>
    obtain ⟨hnum, hmem⟩ : f.num = n ∧ f ∈ s.fns := ⟨by simpa using List.find?_some hf, List.mem_of_find?_eq_some hf⟩
    by_contra hst
    exact h (List.mem_map.2 ⟨f, List.mem_filter.2 ⟨hmem, by simpa using hst⟩, hnum⟩)
  · rfl

theorem abortCreated_cmds (s : State) : ∀ c ∈ s.abortCreated.q.cmds, s.fnExists c.fn = false := by
  intro c hc
  rw [State.abortCreated, show (fun (a : State) n => a.abortAll n) = State.abortAll from rfl, cmds_foldl_abortAll] at hc
  have hall := (List.mem_filter.1 hc).2
  refine fnExists_of_not_created fun hmem => ?_
  simpa using List.all_eq_true.1 hall c.fn hmem

/-! ### Controller reset (R440) -/

/-- The start of a controller reset ends the commands of created functions and touches nothing durable. -/
theorem beginCtrlReset_spec (s : State) : s.beginCtrlReset.pw.st = .resetting ∧ s.beginCtrlReset.store = s.store ∧
    (∀ c ∈ s.beginCtrlReset.q.cmds, s.fnExists c.fn = false) ∧ s.beginCtrlReset.hz.epoch = s.hz.epoch := by
  have hsilent := s.abortCreated_silent
  exact ⟨rfl, (store_of_silent hsilent :), abortCreated_cmds s, (congrArg Horizon.epoch (hz_of_silent hsilent) :)⟩

/-- The state that a controller reset boots from. -/
def State.reborn (s : State) : State :=
  if s.hz.st = .halted then (s.restart false).nsRestored else s.restart false

theorem State.resetNow_eq (s : State) : s.resetNow = s.reborn.bootRom := rfl

theorem State.reborn_sansEvents (s : State) : s.reborn.sansEvents = (s.restart false).sansEvents := by
  unfold State.reborn
  split
  · exact State.nsRestored_sansEvents _
  · rfl

/-- The boot ROM of a part whose OTP reads well changes the firmware state alone. -/
theorem bootRom_otp {s : State} (h : s.fw.otpOk = true) : ∃ g, s.bootRom = s.modFw g := ⟨_, if_pos h⟩

theorem State.bootRom_recs (s : State) : s.bootRom.recs = s.recs := by
  unfold State.bootRom
  split <;> rfl

theorem resetNow_otp {s : State} (h : s.fw.otpOk = true) : ∃ g, s.resetNow = s.reborn.modFw g := by
  have hfw : s.reborn.fw = (s.restart false).fw := fw_of_sansEvents s.reborn_sansEvents
  exact bootRom_otp ((congrArg Firmware.otpOk hfw).trans h)

/-- Settles O32: a restart builds the state over what is durable, a cut outside a seal window leaves that as it is, and the
start of a controller reset only ends work (R253, R420, R424, R439, R440, R447, R471). -/
theorem resetsKeepTheSealedState : Obligations.ResetsKeepTheSealedState := by
  intro s
  have hdone (hst : s.pw.st = .resetting) (hall : s.allSealed = true) : exec .ctrlResetSealsDone s = .next s.resetNow :=
    if_pos ⟨hst, .inl hall⟩
  refine ⟨?powerOn, fun h => if_pos h, ?ignored, ?begins, ?held, ?reset, ?running, ?halted, fun h => if_neg fun hc => h hc.1⟩
  case powerOn =>
    intro h
    refine ⟨_, if_neg h, rfl, rfl, rfl, rfl, rfl, rfl, fun e he => (List.mem_filter.1 he).2, rfl, rfl, rfl, rfl,
      fun hout => ?_⟩
    rw [cutSeal_outside hout]
    exact ⟨rfl, rfl, rfl⟩
  case ignored =>
    rintro k (hk | hst)
    · exact if_pos hk
    · change execCtrlReset k s = _
      rw [execCtrlReset, hst, ite_self]
  case begins =>
    intro hst
    refine ⟨s.beginCtrlReset, ?_, beginCtrlReset_spec s⟩
    change execCtrlReset 0xC4A5 s = _
    rcases hst with h | h | h | h <;> rw [execCtrlReset, h] <;> rfl
  case held =>
    intro hst
    change execCtrlReset 0xC4A5 s = _
    rw [execCtrlReset, hst]
    rfl
  case reset =>
    intro hst hall hotp
    obtain ⟨g, hg⟩ := resetNow_otp hotp
    have hu := s.reborn_sansEvents
    refine ⟨_, hdone hst hall, ?_⟩
    rw [hg]
    exact ⟨(store_of_sansEvents hu :), congrArg Power.st (pw_of_sansEvents hu), congrArg Power.lastReset (pw_of_sansEvents hu),
      congrArg Horizon.st (hz_of_sansEvents hu), congrArg Horizon.ticking (hz_of_sansEvents hu), (cmds_of_sansEvents hu :),
      (dg_of_sansEvents hu :)⟩
  case running =>
    intro hst hall hotp hrun
    obtain ⟨g, hg⟩ := resetNow_otp hotp
    refine ⟨_, hdone hst hall, ?_⟩
    rw [hg, State.reborn, if_neg hrun]
    exact ⟨rfl, rfl⟩
  case halted =>
    intro hst hall hhalt
    refine ⟨_, hdone hst hall, ?_⟩
    rw [State.resetNow_eq, State.bootRom_recs, State.reborn, if_pos hhalt]

end Sys2Proof.Machine
end

section
/-!
SUPPORT. The watchdog and the entries to P3 and P4: what a restart of the control processors changes, what entry to Halted
leaves of it, and the state in P4; with the statement WatchdogAndEntries.
-/

namespace Sys2Proof.Machine

open Sys2Proof

/-! ### The end of an activation (R415) -/

section SilentFields

variable {s t : State} (h : t.silent = s.silent)
include h

theorem fw_of_silent : t.fw = s.fw := (congrArg State.fw h :)
theorem dg_of_silent : t.dg = s.dg := (congrArg State.dg h :)
theorem zl_of_silent : t.zl = s.zl := (congrArg State.zl h :)

end SilentFields

section Aborted

variable (s : State) (st : Status)

theorem State.abortActivation_pw : (s.abortActivation st).pw = s.pw := by
  unfold State.abortActivation
  split
  · rfl
  · exact (pw_of_silent (State.endLong_silent ..) :)

theorem State.abortActivation_dg : (s.abortActivation st).dg = s.dg := by
  unfold State.abortActivation
  split
  · rfl
  · exact (dg_of_silent (State.endLong_silent ..) :)

theorem State.abortActivation_phase : (s.abortActivation st).fw.phase = .idle := by
  unfold State.abortActivation
  split
  · next h => exact h
  · rfl

end Aborted

/-! ### Entry to Halted (R64) -/

theorem State.commandsEnded_silent (s : State) :
    s.commandsEnded.silent = (s.abortActivation St.fwActivateAborted).silent := by
  rw [State.commandsEnded, State.endLongs_silent, silent_of_sansEvents (State.haltReplies_sansEvents _), State.haltCmds_silent]

theorem State.commandsEnded_pw (s : State) : s.commandsEnded.pw = s.pw := by
  rw [pw_of_silent s.commandsEnded_silent, State.abortActivation_pw]

/-- Halted leaves the durable state and the restarts that were counted, and no activation. -/
theorem enterHalted_keeps (s : State) : s.enterHalted.store = s.store ∧
    s.enterHalted.pw.restarting = s.pw.restarting ∧ s.enterHalted.pw.restarts = s.pw.restarts ∧
    s.enterHalted.fw.phase = .idle := by
  have hs := s.enterHalted_sansEvents
  have hstop := State.stopEngines_sansEvents s.commandsEnded
  have hstore := (commandsEnded_spec s).1
  have hpw : s.enterHalted.pw = { s.pw with
      st := .halted, entry := .none, request := none, replyTo := none, fault := true } := by
    rw [pw_of_sansEvents hs]
    simp only [State.modPw_pw, State.modHz_pw, State.discardUnsealed, State.modNs_pw, pw_of_sansEvents hstop, State.modSq_pw,
      State.modAnv_pw, s.commandsEnded_pw]
  have hfw : s.enterHalted.fw = s.commandsEnded.fw := by
    rw [fw_of_sansEvents hs]
    simp only [State.modPw_fw, State.modHz_fw, State.discardUnsealed, State.modNs_fw, fw_of_sansEvents hstop, State.modSq_fw,
      State.modAnv_fw]
  refine ⟨?_, (congrArg Power.restarting hpw :), (congrArg Power.restarts hpw :), ?_⟩
  · simp [store_of_sansEvents hs, State.discardUnsealed, store_of_sansEvents hstop, hstore]
  · rw [hfw, fw_of_silent s.commandsEnded_silent, State.abortActivation_phase]

/-! ### The watchdog (R441) -/

/-- The restart of the control processors begins: logged, counted, and no activation goes on. -/
def State.restartBegun (s : State) : State :=
  (((s.free.2).log 6 deviceFn St.pwWatchdog (s.free.1.toNat % 18446744073709551616)).abortActivation
    St.fwActivateAborted).modPw fun p => { p with
      restarting := true, restarts := s.recentRestarts ++ [s.hz.uptimeUs], restartSealed := s.hz.sealed }

/-- A third restart within 60 s halts a ticking device. -/
def State.thirdRestart (s : State) : Prop :=
  3 ≤ (s.recentRestarts ++ [s.hz.uptimeUs]).length ∧ (s.hz.st = .running ∨ s.hz.st = .late)

theorem exec_watchdogExpiry {s : State} (hr : s.pw.restarting = false) (hb : s.pw.st ≠ .boot) (hs : s.pw.st ≠ .stopped) :
    (s.thirdRestart → exec .watchdogExpiry s = .next s.restartBegun.enterHalted) ∧
    (¬ s.thirdRestart → exec .watchdogExpiry s = .next s.restartBegun) := by
  have hgo : ¬ (s.pw.restarting = true ∨ s.pw.st = .boot ∨ s.pw.st = .stopped) := by simp [hr, hb, hs]
  exact ⟨fun h => (if_neg hgo).trans (if_pos h), fun h => (if_neg hgo).trans (if_neg h)⟩

theorem restartBegun_spec (s : State) : s.restartBegun.store = s.store ∧ s.restartBegun.hz = s.hz ∧
    s.restartBegun.dg = s.dg ∧ s.restartBegun.fw.phase = .idle ∧ s.restartBegun.pw.restarting = true ∧
    s.restartBegun.pw.restarts = s.recentRestarts ++ [s.hz.uptimeUs] := by
  unfold State.restartBegun
  generalize s.free.1.toNat % 18446744073709551616 = d
  simp only [State.modPw_store, State.modPw_hz, State.modPw_dg, State.modPw_fw, State.modPw_pw, State.abortActivation_store,
    State.abortActivation_hz, State.abortActivation_dg, State.abortActivation_phase, State.log_store, State.log_hz, State.log_dg]
  exact ⟨rfl, rfl, rfl, trivial, trivial, trivial⟩

/-! ### P4 (R425, R429, R253) -/

/-- The device in P4: no tick, no digest context, ports and engines off. -/
def State.inP4 (s : State) : State :=
  (((s.stopTicking.freeDg fun _ => true).gateEngines).modZl fun z => { z with
    ports := z.ports.map fun p => p.drop .off }).modPw fun p => { p with
      st := .p4, entry := .none, entryLong := none, quiesced := false, pwrSafe := true }

/-- The checkpoint sealed, the device is in P4 and the long command of the entry ends. -/
theorem exec_p4CheckpointSealed {s : State} (he : s.pw.entry = .toP4) (hq : s.pw.quiesced = true) (hd : s.dirty = 0)
    (hc : s.flash.ckpt = none) (ha : s.allSealed = true) :
    ∃ t, exec .p4CheckpointSealed s = .next t ∧ t.silent = s.inP4.silent := by
  have hexec : exec .p4CheckpointSealed s = _ := if_pos ⟨he, .inl hq, hd, hc, ha⟩
  rw [hexec]
  split
  · exact ⟨_, rfl, State.endLong_silent ..⟩
  · exact ⟨_, rfl, rfl⟩

theorem freeDg_all (s : State) : ∀ c ∈ (s.freeDg fun _ => true).dg, c.st = .free := by
  intro c hc
  obtain ⟨d, -, rfl⟩ := List.mem_map.1 hc
  by_cases h : d.st = .free <;> simp [h, DgCtx.free]

/-- Settles O36: a watchdog expiry begins a restart and halts at the third, the end of the restart resets or completes, and
entries to P3 and P4 end as R428 and R429 say (R253, R415, R425, R441). -/
theorem watchdogAndEntries : Obligations.WatchdogAndEntries := by
  intro s
  refine ⟨?expiry, fun h => if_pos (.inl h), ?badImage, ?goodImage, ?quiesced, ?p4⟩
  case expiry =>
    intro hr hb hs
    obtain ⟨hthird, hfew⟩ := exec_watchdogExpiry hr hb hs
    obtain ⟨hstore, hhz, hdg, hphase, hrestarting, hrestarts⟩ := restartBegun_spec s
    by_cases h : s.thirdRestart
    · obtain ⟨kstore, krestarting, krestarts, kphase⟩ := enterHalted_keeps s.restartBegun
      refine ⟨_, hthird h, krestarting.trans hrestarting, kstore.trans hstore, krestarts.trans hrestarts, fun _ => kphase,
        fun _ _ => congrArg Horizon.st (State.enterHalted_hz _), fun hlt => ?_⟩
      have := h.1
      rw [List.length_append, List.length_singleton] at this
      omega
    · refine ⟨_, hfew h, hrestarting, hstore, hrestarts, fun _ => hphase, fun hlen hst => absurd ⟨?_, hst⟩ h,
        fun _ => ⟨hhz, hdg⟩⟩
      rw [List.length_append, List.length_singleton]
      omega
  case badImage =>
    intro h
    obtain ⟨hst, hstore, -, -⟩ := beginCtrlReset_spec (s.modPw fun p => { p with restarting := false })
    exact ⟨_, if_pos h, hst, hstore⟩
  case goodImage =>
    intro h hseal
    have hn : ¬ s.pw.restartSealed < s.hz.sealed := by omega
    exact (if_pos h).trans (if_neg hn)
  case quiesced =>
    intro hc ha he
    change execP3Quiesced s = _
    rw [execP3Quiesced, if_pos ⟨hc, ha⟩]
    rcases he with he | he <;> rw [he] <;> rfl
  case p4 =>
    intro he hq hd hc ha
    obtain ⟨t, ht, hsilent⟩ := exec_p4CheckpointSealed he hq hd hc ha
    have hpw := pw_of_silent hsilent
    have hhz := hz_of_silent hsilent
    refine ⟨t, ht, congrArg Power.st hpw, congrArg Power.entry hpw, congrArg Power.pwrSafe hpw, congrArg Horizon.ticking hhz,
      congrArg Horizon.st hhz, (store_of_silent hsilent).trans rfl, ?_, ?_⟩
    · rw [dg_of_silent hsilent]
      exact freeDg_all s.stopTicking
    · rw [zl_of_silent hsilent]
      intro p hp
      obtain ⟨q, -, rfl⟩ := List.mem_map.1 hp
      rfl

end Sys2Proof.Machine
end

section
/-!
SUPPORT. The statement KeysAndPortsRecorded: settings of module keys, ports, the node number and trust anchors.
-/

namespace Sys2Proof.Machine

open Sys2Proof

/-- A persistent change that its rules refuse under one condition (R402). -/
theorem exec_turn_persistUnless {i : Instr} {m : MbMeta} {n : Nat} {r : MbReq} {s t : State} {st : Status}
    {body : State → MbResult} {p : Prop} [Decidable p] (hi : exec i s = .next (s.mbRun m n r body)) (h : s.turn m n r)
    (hb : body (s.taken n) = if p then .refuse st [] else .persist [] t) :
    exec i s = if p then .next ((s.taken n).stage n m.opcode r.tag st [] none)
      else .next (t.answerSealed m n r [] s.hz.epoch) := by
  by_cases hp : p
  · rw [if_pos hp]
    exact exec_turn_refuse hi h (hb.trans (if_pos hp))
  · rw [if_neg hp]
    exact exec_turn_persist hi h (hb.trans (if_neg hp))

/-- Settles O9: at its turn each command records its change with the reply after the seal, or is refused where the slot is in
use or the device is in a group (R282, R295, R326, R334, R337). -/
theorem keysAndPortsRecorded : Obligations.KeysAndPortsRecorded := by
  intro s n r
  refine ⟨?keyEnroll, ?keyRevoke, ?port, ?node, ?trustEnroll, ?trustRevoke⟩
  case keyEnroll => exact fun h => exec_turn_persistUnless rfl h rfl
  case keyRevoke => exact fun h hknown => exec_turn_persist rfl h (if_neg (not_not_intro hknown))
  case port =>
    intro c h _ _ _ hbudget hpool
    refine exec_turn_persist rfl h (if_neg ?_)
    rintro (hover | hover)
    · exact Nat.not_lt.mpr hbudget hover
    · exact Nat.not_lt.mpr hpool hover
  case node => exact fun h => exec_turn_persistUnless rfl h rfl
  case trustEnroll => exact fun h => exec_turn_persistUnless rfl h rfl
  case trustRevoke => exact fun h hknown => exec_turn_persist rfl h (if_neg (not_not_intro hknown))

end Sys2Proof.Machine
end

section
/-!
SUPPORT. Threads and instances (R268, R269, R286): what a change of one of them and the end of one leave, and that the end
of one starts no work.
-/

namespace Sys2Proof.Machine

open Sys2Proof

/-! ### The rest of the state -/

/-- The state without Anvil. -/
def State.sansAnv (s : State) : State := s.modAnv fun _ => .reset

theorem eq_of_sansAnv {s u : State} (h : u.sansAnv = s.sansAnv) : u = { s with anv := u.anv } :=
  (congrArg (fun w : State => { w with anv := u.anv }) h :)

/-- The state without Anvil and the count of free values. -/
def State.sansAnvCtr (s : State) : State := ({ s with freeCtr := 0 } : State).sansAnv

theorem eq_of_sansAnvCtr {s u : State} (h : u.sansAnvCtr = s.sansAnvCtr) :
    u = { s with anv := u.anv, freeCtr := u.freeCtr } :=
  (congrArg (fun w : State => { w with anv := u.anv, freeCtr := u.freeCtr }) h :)

theorem sansAnvCtr_congr {s u : State} (h : u.sansAnv = s.sansAnv) : u.sansAnvCtr = s.sansAnvCtr :=
  congrArg (fun w : State => { w with freeCtr := 0 }) h

@[simp] theorem modAnv_sansAnv (s : State) (g : Anvil → Anvil) : (s.modAnv g).sansAnv = s.sansAnv := rfl

@[simp] theorem modThread_sansAnv (s : State) (k : Nat) (g : Thread → Thread) :
    (s.modThread k g).sansAnv = s.sansAnv := rfl

@[simp] theorem modInst_sansAnv (s : State) (k : Nat) (g : Inst → Inst) : (s.modInst k g).sansAnv = s.sansAnv := rfl

@[simp] theorem freeThread_sansAnv (s : State) (k : Nat) : (s.freeThread k).sansAnv = s.sansAnv := rfl

theorem regs_congr {s u : State} (h : u.unitMem = s.unitMem) : u.regs = s.regs := by
  obtain ⟨hengines, -⟩ := Prod.mk.inj h
  rw [State.regs, hengines]
  rfl

/-! ### One thread, one instance -/

section One

variable {s : State} {k : Nat}

theorem thread?_tid {t : Thread} (h : s.thread? k = some t) : t.tid = k := by
  simpa using List.find?_some h

theorem inst?_id {i : Inst} (h : s.inst? k = some i) : i.id = k := by
  simpa using List.find?_some h

theorem thread?_eq_none : s.thread? k = none ↔ ∀ x ∈ s.anv.threads, x.tid ≠ k := by
  simp [State.thread?]

theorem thread?_modThread {g : Thread → Thread} (hg : ∀ y, y.tid = k → (g y).tid = k) :
    (s.modThread k g).thread? k = (s.thread? k).map g := find?_updIf_same hg _

theorem inst?_modInst {g : Inst → Inst} (hg : ∀ y, y.id = k → (g y).id = k) :
    (s.modInst k g).inst? k = (s.inst? k).map g := find?_updIf_same hg _

theorem thread?_of_runningOn {e : Nat} {t : Thread} (h : s.runningOn e = some t) : s.thread? t.tid = some t := by
  obtain ⟨r, -, ht⟩ := Option.bind_eq_some_iff.1 h
  rw [thread?_tid ht, ht]

theorem thread?_of_threadOf {inst : Nat} {t : Thread} (h : s.threadOf inst k = some t) : s.thread? k = some t := by
  obtain ⟨x, hx, hit⟩ := Option.bind_eq_some_iff.1 h
  split at hit
  · cases hit
    exact hx
  · cases hit

theorem thread?_freeThread : (s.freeThread k).thread? k = none :=
  thread?_eq_none.2 fun x hx => by simpa using (List.mem_filter.1 hx).2

theorem tid_ne_of_mem_delays_freeThread {d : Delay} (h : d ∈ (s.freeThread k).anv.delays) : d.tid ≠ k := by
  simpa using (List.mem_filter.1 h).2

end One

/-! ### A thread spawned (R268) -/

/-- A thread as a spawn makes it: READY where it declares no operand slot. -/
def Thread.spawned (t : Thread) (tid order : Nat) : Thread :=
  { t with tid := tid, order := order, st := if t.nslots = 0 then .ready else .waiting }

section Spawn

variable {s : State} {t : Thread} {x : Nat × State} (h : s.spawn t = some x)
include h

theorem spawn_threads : x.2.anv.threads = s.anv.threads ++ [t.spawned x.1 s.anv.order] := by
  rw [State.spawn_some h]
  rfl

theorem spawn_insts : x.2.anv.insts = s.anv.insts := by rw [State.spawn_some h]

theorem spawn_unitMem : x.2.unitMem = s.unitMem := by
  rw [State.spawn_some h]
  rfl

theorem spawn_hz : x.2.hz = s.hz := by rw [State.spawn_some h]

theorem spawn_sansAnvCtr : x.2.sansAnvCtr = s.sansAnvCtr := by
  rw [State.spawn_some h]
  rfl

end Spawn

/-! ### Ends start no work -/

/-- Nothing that `u` works at is new since `s`: each of its threads was there, cancelled in `u` where it was in `s`, and so
were the activations and the delays. -/
structure State.NoNewWork (s u : State) : Prop where
  threads : ∀ x ∈ u.anv.threads, ∃ y ∈ s.anv.threads, y.tid = x.tid ∧ y.inst = x.inst ∧
    (y.cancelled = true → x.cancelled = true)
  running : u.anv.running ⊆ s.anv.running
  delays : u.anv.delays ⊆ s.anv.delays

section NoNewWork

variable {s t u : State}

theorem noNewWork_refl (s : State) : s.NoNewWork s :=
  ⟨fun x hx => ⟨x, hx, rfl, rfl, id⟩, fun _ h => h, fun _ h => h⟩

theorem State.NoNewWork.trans (h : s.NoNewWork t) (h' : t.NoNewWork u) : s.NoNewWork u where
  threads x hx := by
    obtain ⟨y, hy, htid, hinst, hcan⟩ := h'.threads x hx
    obtain ⟨z, hz, htid', hinst', hcan'⟩ := h.threads y hy
    exact ⟨z, hz, htid'.trans htid, hinst'.trans hinst, hcan ∘ hcan'⟩
  running := fun _ hx => h.running (h'.running hx)
  delays := fun _ hx => h.delays (h'.delays hx)

theorem State.NoNewWork.thread?_eq_none {k : Nat} (h : s.NoNewWork u) (hk : s.thread? k = none) : u.thread? k = none :=
  Machine.thread?_eq_none.2 fun x hx => by
    obtain ⟨y, hy, htid, -⟩ := h.threads x hx
    exact htid ▸ Machine.thread?_eq_none.1 hk y hy

theorem noNewWork_freeThread (s : State) (k : Nat) : s.NoNewWork (s.freeThread k) where
  threads x hx := ⟨x, List.mem_of_mem_filter hx, rfl, rfl, id⟩
  running := List.filter_subset_self _
  delays := List.filter_subset_self _

theorem noNewWork_cancel (s : State) (k : Nat) : s.NoNewWork (s.cancel k) := by
  unfold State.cancel
  split
  · split
    · refine ⟨fun x hx => ?_, fun _ h => h, fun _ h => h⟩
      obtain ⟨y, hy, rfl⟩ := List.mem_map.1 hx
      refine ⟨y, hy, ?_⟩
      split
      · exact ⟨rfl, rfl, fun _ => rfl⟩
      · exact ⟨rfl, rfl, id⟩
    · exact noNewWork_freeThread s k
  · exact noNewWork_refl s

theorem cancel_running {k : Nat} {x : Thread} (hx : s.thread? k = some x) (hst : x.st = .running) :
    s.cancel k = s.modThread k fun t => { t with cancelled := true } := by
  simp only [State.cancel, hx, if_pos hst]

theorem cancel_idle {k : Nat} {x : Thread} (hx : s.thread? k = some x) (hst : x.st ≠ .running) :
    s.cancel k = s.freeThread k := by
  simp only [State.cancel, hx, if_neg hst]

/-- After a cancellation every thread left of the ID is marked (R269). -/
theorem cancelled_of_mem_cancel {k : Nat} {x : Thread} (hx : x ∈ (s.cancel k).anv.threads) (hk : x.tid = k) :
    x.cancelled = true := by
  unfold State.cancel at hx
  split at hx
  · split at hx
    · obtain ⟨y, -, rfl⟩ := List.mem_map.1 hx
      by_cases hy : y.tid = k
      · simp [hy]
      · simp [hy] at hk
    · exact absurd hk (thread?_eq_none.1 thread?_freeThread x hx)
  · next hnone => exact absurd hk (thread?_eq_none.1 hnone x hx)

/-! ### The end of an instance (R286) -/

/-- Every thread of a list cancelled. -/
def State.cancelAll (s : State) (l : List Thread) : State := l.foldl (fun a t => a.cancel t.tid) s

theorem noNewWork_cancelAll (l : List Thread) (s : State) : s.NoNewWork (s.cancelAll l) := by
  induction l generalizing s with
  | nil => exact noNewWork_refl s
  | cons t l ih => exact (noNewWork_cancel s t.tid).trans (ih _)

theorem cancelled_of_mem_cancelAll {l : List Thread} {s : State} {x y : Thread} (hx : x ∈ (s.cancelAll l).anv.threads)
    (hy : y ∈ l) (htid : y.tid = x.tid) : x.cancelled = true := by
  induction l generalizing s with
  | nil => cases hy
  | cons t l ih =>
    rcases List.mem_cons.1 hy with rfl | hy
    · obtain ⟨z, hz, hzx, -, hcan⟩ := (noNewWork_cancelAll l (s.cancel y.tid)).threads x hx
      exact hcan (cancelled_of_mem_cancel hz (hzx.trans htid.symm))
    · exact ih hx hy

/-- Where the threads of an instance are cancelled, the instances are as before. -/
theorem cancelAll_insts (l : List Thread) (s : State) : (s.cancelAll l).anv.insts = s.anv.insts :=
  foldl_keeps (·.anv.insts) _ (fun a (t : Thread) => by unfold State.cancel; (repeat' split) <;> rfl) l s

/-- The Squall jobs of an instance that ends: those queued go, those that run stop. -/
def State.stopJobs (s : State) (id : Nat) : State := s.modSq fun q => { q with
  jobs := (q.jobs.filter fun j => j.inst != id || j.engine.isSome).map fun j =>
    if j.inst = id then { j with stopping := true } else j }

section EndInst

variable {id : Nat} {i : Inst} (st : Status) (code len : Nat) (h : s.inst? id = some i) (hlive : i.st ≠ .ending)
include h hlive

theorem endInst_live : s.endInst id st code len =
    ((s.cancelAll (s.anv.threads.filter fun t => t.inst == id)).modInst id fun i => { i with
      st := .ending, status := st, code := code, resultLen := len }).stopJobs id := by
  simp only [State.endInst, h, if_neg hlive]
  rfl

theorem inst?_endInst : (s.endInst id st code len).inst? id =
    some { i with st := .ending, status := st, code := code, resultLen := len } := by
  rw [endInst_live st code len h hlive]
  change ((s.cancelAll _).modInst id _).inst? id = _
  rw [inst?_modInst (by exact fun _ hy => hy), State.inst?, cancelAll_insts]
  exact congrArg (Option.map _) h

/-- Every thread left of an instance that has ended is cancelled. -/
theorem cancelled_of_mem_endInst {x : Thread} (hx : x ∈ (s.endInst id st code len).anv.threads) (hinst : x.inst = id) :
    x.cancelled = true := by
  rw [endInst_live st code len h hlive] at hx
  obtain ⟨y, hy, htid, hsame, -⟩ := (noNewWork_cancelAll _ s).threads x hx
  exact cancelled_of_mem_cancelAll hx (List.mem_filter.2 ⟨hy, by simp [hsame, hinst]⟩) htid

end EndInst

theorem noNewWork_endInst (s : State) (id : Nat) (st : Status) (code len : Nat) :
    s.NoNewWork (s.endInst id st code len) := by
  cases h : s.inst? id with
  | none => simpa only [State.endInst, h] using noNewWork_refl s
  | some i =>
    by_cases hlive : i.st = .ending
    · simpa only [State.endInst, h, if_pos hlive] using noNewWork_refl s
    · rw [endInst_live st code len h hlive]
      obtain ⟨hthreads, hrunning, hdelays⟩ := noNewWork_cancelAll (s.anv.threads.filter fun t => t.inst == id) s
      exact ⟨hthreads, hrunning, hdelays⟩

theorem noNewWork_idleCheck (s : State) (id : Nat) : s.NoNewWork (s.idleCheck id) := by
  unfold State.idleCheck
  split
  · split
    · exact noNewWork_endInst ..
    · exact noNewWork_refl s
  · exact noNewWork_refl s

/-! ### The end of an activation (R263, R273) -/

@[simp] theorem freeThread_sansSqAnv (s : State) (k : Nat) : (s.freeThread k).sansSqAnv = s.sansSqAnv := rfl

@[simp] theorem freeThread_inst? (s : State) (k id : Nat) : (s.freeThread k).inst? id = s.inst? id := rfl

@[simp] theorem freeThread_faults (s : State) (k : Nat) : (s.freeThread k).anv.faults = s.anv.faults := rfl

@[simp] theorem endInst_sansSqAnv (s : State) (id : Nat) (st : Status) (code len : Nat) :
    (s.endInst id st code len).sansSqAnv = s.sansSqAnv := by
  rw [State.endInst_frame]
  rfl

theorem fenced_endInst (s : State) (id : Nat) (st : Status) (code len n : Nat) :
    (s.endInst id st code len).fenced n = s.fenced n := by
  rw [State.endInst_frame]
  rfl

theorem enginesEnded_unfenced {n : Nat} (h : s.fenced n = false) : s.enginesEnded n = s := by
  unfold State.enginesEnded
  split
  · rfl
  · next f hf =>
    have hfence : f.reset.fenced = false := by simpa [State.fenced, hf] using h
    simp [hfence]

/-- Engine `e` once its activation is over: calls that stalled are gone with it (R275). -/
def State.leftEngine (s : State) (e : Nat) : State :=
  (s.modEngine e Engine.leave).modAnv fun a => { a with
    running := a.running.filter fun r => r.1 != e
    stalled := a.stalled.filter fun x => x.caller != some e }

/-- The end of an activation of a function that no reset has fenced starts nothing (R291). -/
theorem leaveEngine_unfenced {n : Nat} (h : s.fenced n = false) (e : Nat) : s.leaveEngine e n = s.leftEngine e :=
  enginesEnded_unfenced (s := s.leftEngine e) h

section LeftEngine

variable (s : State) (e k : Nat)

@[simp] theorem leftEngine_sansAnv : (s.leftEngine e).sansAnv = s.sansAnv := rfl
@[simp] theorem leftEngine_sansSqAnv : (s.leftEngine e).sansSqAnv = s.sansSqAnv := rfl
@[simp] theorem leftEngine_threads : (s.leftEngine e).anv.threads = s.anv.threads := rfl
@[simp] theorem leftEngine_faults : (s.leftEngine e).anv.faults = s.anv.faults := rfl
@[simp] theorem leftEngine_thread? : (s.leftEngine e).thread? k = s.thread? k := rfl
@[simp] theorem leftEngine_inst? : (s.leftEngine e).inst? k = s.inst? k := rfl

theorem not_running_leftEngine {s : State} {e : Nat} : ∀ r ∈ (s.leftEngine e).anv.running, r.1 ≠ e := fun r hr => by
  simpa using (List.mem_filter.1 hr).2

end LeftEngine

/-- The instance of a thread ends, and with it the thread and its activation (R273, R286). -/
def State.stopThread (s : State) (e : Nat) (t : Thread) (st : Status) (code len : Nat) : State :=
  ((s.endInst t.inst st code len).freeThread t.tid).leaveEngine e t.fn

section StopThread

variable {t : Thread} (hfence : s.fenced t.fn = false) (e : Nat) (st : Status) (code len : Nat)
include hfence

theorem stopThread_eq : s.stopThread e t st code len =
    ((s.endInst t.inst st code len).freeThread t.tid).leftEngine e :=
  leaveEngine_unfenced (s := (s.endInst t.inst st code len).freeThread t.tid) ((fenced_endInst ..).trans hfence) e

theorem stopThread_sansSqAnv : (s.stopThread e t st code len).sansSqAnv = s.sansSqAnv := by
  rw [stopThread_eq hfence, leftEngine_sansSqAnv, freeThread_sansSqAnv, endInst_sansSqAnv]

theorem thread?_stopThread : (s.stopThread e t st code len).thread? t.tid = none := by
  rw [stopThread_eq hfence, leftEngine_thread?, thread?_freeThread]

theorem not_running_stopThread : ∀ r ∈ (s.stopThread e t st code len).anv.running, r.1 ≠ e := by
  rw [stopThread_eq hfence]
  exact not_running_leftEngine

theorem stopThread_faults : (s.stopThread e t st code len).anv.faults = s.anv.faults := by
  rw [stopThread_eq hfence, leftEngine_faults, freeThread_faults]
  exact State.endInst_keeps (·.anv.faults) (fun u k => by unfold State.cancel; (repeat' split) <;> rfl)
    (fun _ _ _ => rfl) (fun _ _ => rfl) s t.inst st code len

theorem inst?_stopThread {i : Inst} (h : s.inst? t.inst = some i) (hlive : i.st ≠ .ending) :
    (s.stopThread e t st code len).inst? t.inst =
      some { i with st := .ending, status := st, code := code, resultLen := len } := by
  rw [stopThread_eq hfence, leftEngine_inst?, freeThread_inst?, inst?_endInst st code len h hlive]

theorem cancelled_of_mem_stopThread {i : Inst} (h : s.inst? t.inst = some i) (hlive : i.st ≠ .ending) {x : Thread}
    (hx : x ∈ (s.stopThread e t st code len).anv.threads) (hinst : x.inst = t.inst) : x.cancelled = true := by
  rw [stopThread_eq hfence, leftEngine_threads] at hx
  exact cancelled_of_mem_endInst st code len h hlive (List.mem_of_mem_filter hx) hinst

end StopThread

end NoNewWork

end Sys2Proof.Machine
end

section
/-!
SUPPORT. Tokens and delays (R274 to R277): when a token is delivered and when its producer stalls, what tokens leave alone,
and the statement TokensAndDelays.
-/

namespace Sys2Proof.Machine

open Sys2Proof

/-! ### A token delivered (R275) -/

section Deliver

variable {s u : State} {tid slot : Nat} {k : Token}

theorem deliver_anv (h : s.deliver tid slot k = some u) :
    u.anv = { s.anv with threads := u.anv.threads, discards := u.anv.discards, order := u.anv.order } := by
  unfold State.deliver at h
  dsimp only at h
  (repeat' split at h) <;> cases h <;> rfl

theorem deliver_regs (h : s.deliver tid slot k = some u) : u.regs = s.regs := regs_congr (State.deliver_unitMem h)

/-- The thread that a token has filled slot `slot` of (R269). -/
def Thread.filled (t : Thread) (slot : Nat) (k : Token) : Thread := { t with ops := t.ops.set slot (some k) }

section Slot

variable {t : Thread} (ht : s.thread? tid = some t) (hslot : slot < 4) (hdeclared : t.st = .running ∨ slot < t.nslots)
include ht hslot hdeclared

/-- The producer of a token whose slot is full, or whose pool is out of credit, stalls (R274, R275). -/
theorem deliver_stalls (hfull : (t.ops[slot]?.bind id).isSome = true ∨
    poolPerEngine k.source * (s.grantOf t.fn).engineList.length ≤ s.tokensOut t.fn k.source) :
    s.deliver tid slot k = none := by
  have hgood : ¬ (4 ≤ slot ∨ t.st ≠ .running ∧ t.nslots ≤ slot) := by
    rcases hdeclared with hrun | hlt
    · simp [hslot, hrun]
    · simp [hslot, hlt]
  simp only [State.deliver, ht, if_neg hgood]
  rcases hfull with hfull | hpool
  · exact if_pos hfull
  · rw [if_pos hpool, ite_self]

/-- A token with an empty slot, credit, and room in the READY list is delivered: a thread whose declared slots it fills is
READY (R269, R275). -/
theorem deliver_fits (hempty : t.ops[slot]? = some none)
    (hpool : s.tokensOut t.fn k.source < poolPerEngine k.source * (s.grantOf t.fn).engineList.length)
    (hroom : s.readyFull t.fn t.cluster = false) : ∃ v y, s.deliver tid slot k = some v ∧ v.thread? tid = some y ∧
      y.ops = t.ops.set slot (some k) ∧
      y.st = if t.st = .waiting ∧ ((t.ops.set slot (some k)).take t.nslots).all Option.isSome = true then .ready
        else t.st := by
  have hgood : ¬ (4 ≤ slot ∨ t.st ≠ .running ∧ t.nslots ≤ slot) := by
    rcases hdeclared with hrun | hlt
    · simp [hslot, hrun]
    · simp [hslot, hlt]
  have hmod : ∀ y : Thread, y.tid = t.tid → (s.modThread tid fun _ => y).thread? tid = some y := fun y hy => by
    rw [thread?_modThread fun _ _ => hy.trans (thread?_tid ht), ht]
    rfl
  by_cases hfills : t.st = .waiting ∧ (t.filled slot k).allFull = true
  · refine ⟨(s.modThread tid fun _ => { t.filled slot k with st := .ready, order := s.anv.order }).modAnv
      fun a => { a with order := a.order + 1 }, { t.filled slot k with st := .ready, order := s.anv.order }, ?_,
      hmod _ rfl, rfl, (if_pos hfills).symm⟩
    simp only [State.deliver, ht, if_neg hgood, hempty, if_neg (Nat.not_le.mpr hpool), hroom]
    exact if_pos hfills
  · refine ⟨s.modThread tid fun _ => t.filled slot k, t.filled slot k, ?_, hmod _ rfl, rfl, (if_neg hfills).symm⟩
    simp only [State.deliver, ht, if_neg hgood, hempty, if_neg (Nat.not_le.mpr hpool), hroom]
    exact if_neg hfills

end Slot

end Deliver

/-! ### What tokens leave alone -/

/-- The state without what tokens change: threads, their order, what is discarded and what stalls, and the registers of a
caller. -/
def State.sansTokens (s : State) : State :=
  s.modAnv fun a => { a with threads := [], order := 0, discards := [], stalled := [], engines := [] }

section SansTokens

variable {s u : State}

theorem eq_of_sansTokens (h : u.sansTokens = s.sansTokens) : u = { s with anv := u.anv } :=
  (congrArg (fun w : State => { w with anv := u.anv }) h :)

theorem insts_of_sansTokens (h : u.sansTokens = s.sansTokens) : u.anv.insts = s.anv.insts :=
  (congrArg (fun w : State => w.anv.insts) h :)

theorem delays_of_sansTokens (h : u.sansTokens = s.sansTokens) : u.anv.delays = s.anv.delays :=
  (congrArg (fun w : State => w.anv.delays) h :)

theorem deliver_sansTokens {tid slot : Nat} {k : Token} (h : s.deliver tid slot k = some u) :
    u.sansTokens = s.sansTokens := by
  rw [State.deliver_frame h, State.sansTokens, deliver_anv h]
  rfl

theorem produce_sansTokens (s : State) (tid slot : Nat) (k : Token) :
    (s.produce tid slot k).sansTokens = s.sansTokens := by
  unfold State.produce
  split
  · next h => exact deliver_sansTokens h
  · rfl

/-- A held token that is delivered is held no longer, and the call that it stalled returns ST_OK (R275). -/
def State.resumed (s : State) (x : Stalled) : State :=
  match x.caller with
  | some e => (s.modAnv fun a => { a with stalled := a.stalled.erase x }).setResult e St.ok 0
  | none => s.modAnv fun a => { a with stalled := a.stalled.erase x }

theorem resumed_sansTokens (s : State) (x : Stalled) : (s.resumed x).sansTokens = s.sansTokens := by
  unfold State.resumed
  split <;> rfl

variable {src : Nat} {x : Stalled} {xs : List Stalled} {blk : List Nat}

theorem retryTokens_skipped (h : x.tok.source ≠ src ∨ ((s.thread? x.tid).map (·.fn)).elim false blk.contains = true) :
    s.retryTokens src (x :: xs) blk = s.retryTokens src xs blk := by
  simp only [State.retryTokens, if_pos h]

section Tried

variable (h : ¬ (x.tok.source ≠ src ∨ ((s.thread? x.tid).map (·.fn)).elim false blk.contains = true))
include h

theorem retryTokens_stalls (hd : s.deliver x.tid x.slot x.tok = none) : s.retryTokens src (x :: xs) blk =
    s.retryTokens src xs (((s.thread? x.tid).map (·.fn)).elim blk (· :: blk)) := by
  simp only [State.retryTokens, if_neg h, hd]

theorem retryTokens_delivers (hd : s.deliver x.tid x.slot x.tok = some u) :
    s.retryTokens src (x :: xs) blk = (u.resumed x).retryTokens src xs blk := by
  simp only [State.retryTokens, if_neg h, hd]
  rfl

end Tried

theorem retryTokens_sansTokens (src : Nat) (xs : List Stalled) (blk : List Nat) (s : State) :
    (s.retryTokens src xs blk).sansTokens = s.sansTokens := by
  induction xs generalizing s blk with
  | nil => rfl
  | cons x xs ih =>
    by_cases h : x.tok.source ≠ src ∨ ((s.thread? x.tid).map (·.fn)).elim false blk.contains = true
    · rw [retryTokens_skipped h, ih]
    · cases hd : s.deliver x.tid x.slot x.tok with
      | none => rw [retryTokens_stalls h hd, ih]
      | some u => rw [retryTokens_delivers h hd, ih, resumed_sansTokens, deliver_sansTokens hd]

/-- A producer all of whose held tokens still stall leaves the state as it is (R275). -/
theorem retryTokens_allStall (h : ∀ x ∈ xs, x.tok.source = src → s.deliver x.tid x.slot x.tok = none) (blk : List Nat) :
    s.retryTokens src xs blk = s := by
  induction xs generalizing blk with
  | nil => rfl
  | cons x xs ih =>
    have hrest := ih fun y hy => h y (List.mem_cons_of_mem x hy)
    by_cases hskip : x.tok.source ≠ src ∨ ((s.thread? x.tid).map (·.fn)).elim false blk.contains = true
    · rw [retryTokens_skipped hskip, hrest]
    · have hsrc : x.tok.source = src := not_not.1 (not_or.1 hskip).1
      rw [retryTokens_stalls hskip (h x (List.mem_cons_self ..) hsrc), hrest]

/-- The one held token of a producer, once it can be delivered. -/
theorem retryTokens_one (hsrc : x.tok.source = src) (hd : s.deliver x.tid x.slot x.tok = some u) :
    s.retryTokens src [x] [] = u.resumed x := by
  refine retryTokens_delivers (not_or.2 ⟨not_not_intro hsrc, ?_⟩) hd
  cases s.thread? x.tid <;> simp

theorem resumed_stalled (h : s.anv.stalled = [x]) : (s.resumed x).anv.stalled = [] := by
  have herase : s.anv.stalled.erase x = [] := by simp [h]
  unfold State.resumed
  split <;> exact herase

theorem resumed_threads (s : State) (x : Stalled) : (s.resumed x).anv.threads = s.anv.threads := by
  unfold State.resumed
  split <;> rfl

/-- The caller of a send that stalled finds ST_OK in a0. -/
theorem resultOf_resumed {e : Nat} (hcaller : x.caller = some e) (hok : s.engineOk e) :
    (s.resumed x).resultOf e = (St.ok.toNat, 0) := by
  simp only [State.resumed, hcaller]
  exact resultOf_setResult (engineOk_congr (by rfl) hok) St.ok 0

end SansTokens

/-! ### Delays that fire (R277) -/

theorem fireDelays_sansTokens (s : State) (p : Delay → Bool) (time : Nat) (st : Status) :
    (s.fireDelays p time st).sansTokens =
      (s.modAnv fun a => { a with delays := a.delays.filter fun d => !p d }).sansTokens :=
  foldl_keeps State.sansTokens _ (fun u (d : Delay) => produce_sansTokens u d.tid d.slot _) _ _

section Fire

variable {s : State} {k : Nat}

theorem exec_delayListFire (htimer : s.delayTimer = true) (hticks : s.hz.ticking = true) :
    exec (.delayListFire k) s = .next (s.fireDelays (fun d => decide (d.wake ≤ k)) k St.ok) :=
  if_pos ⟨htimer, hticks⟩

/-- The state once the delays that are due are off the lists. -/
def State.dueTaken (s : State) (k : Nat) : State :=
  s.modAnv fun a => { a with delays := a.delays.filter fun d => !decide (d.wake ≤ k) }

/-- The one delay on the lists, due, delivers its token. -/
theorem fireDelays_one {d : Delay} {v : State} (hdelays : s.anv.delays = [d]) (hdue : d.wake ≤ k)
    (hv : (s.dueTaken k).deliver d.tid d.slot ⟨k, St.ok, srcDelay, none⟩ = some v) :
    s.fireDelays (fun d => decide (d.wake ≤ k)) k St.ok = v := by
  have hfilter : s.anv.delays.filter (fun d => decide (d.wake ≤ k)) = [d] := by simp [hdelays, hdue]
  rw [State.fireDelays, hfilter]
  change (s.dueTaken k).produce d.tid d.slot _ = v
  rw [State.produce, hv]

end Fire

/-- Settles O46: a producer that still stalls changes nothing, one held token that fits is delivered and its caller goes on
(R274 to R276), and the delays that are due leave the lists with their tokens (R277). -/
theorem tokensAndDelays : Obligations.TokensAndDelays := by
  intro s k
  refine ⟨?held, ?delivered, ?due, ?token, ?noTimer⟩
  case held =>
    have hkept := retryTokens_sansTokens k s.anv.stalled [] s
    exact ⟨_, rfl, eq_of_sansTokens hkept, insts_of_sansTokens hkept, fun h => retryTokens_allStall h []⟩
  case delivered =>
    intro x v hstalled hsrc hv
    have hvstalled : v.anv.stalled = [x] := (congrArg Anvil.stalled (deliver_anv hv)).trans hstalled
    have hkept : (v.resumed x).sansTokens = s.sansTokens := (resumed_sansTokens v x).trans (deliver_sansTokens hv)
    refine ⟨v.resumed x, ?_, resumed_stalled hvstalled, eq_of_sansTokens hkept, resumed_threads v x, fun e hcaller hok =>
      resultOf_resumed hcaller (engineOk_congr (deliver_regs hv) hok)⟩
    change Host.Outcome.next (s.retryTokens k s.anv.stalled []) = _
    rw [hstalled, retryTokens_one hsrc hv]
  case due =>
    intro htimer hticks
    have hkept := fireDelays_sansTokens s (fun d => decide (d.wake ≤ k)) k St.ok
    exact ⟨_, exec_delayListFire htimer hticks, (eq_of_sansTokens hkept).trans rfl, delays_of_sansTokens hkept⟩
  case token =>
    intro d t htimer hticks hdelays hdue ht hslot _ hdeclared hempty hpool hroom
    obtain ⟨v, y, hv, hy, hops, -⟩ := deliver_fits (s := s.dueTaken k)
      (k := ⟨k, St.ok, srcDelay, none⟩) ht hslot hdeclared hempty hpool hroom
    exact ⟨v, y, by rw [exec_delayListFire htimer hticks, fireDelays_one hdelays hdue hv], hy, hops⟩
  case noTimer =>
    intro hoff
    refine if_neg fun ⟨htimer, hticks⟩ => ?_
    rcases hoff with hoff | hoff
    · exact Bool.false_ne_true (hoff.symm.trans htimer)
    · exact Bool.false_ne_true (hoff.symm.trans hticks)

end Sys2Proof.Machine
end

section
/-!
SUPPORT. Activations (R263, R269 to R273): the thread that a free engine takes and the registers it finds, what the end of an
activation leaves, and the statement ThreadsRunAndReturn.
-/

namespace Sys2Proof.Machine

open Sys2Proof

/-! ### Selection (R270) -/

/-- `t` is selected before `v`, or is as good: its priority is higher, or the same and it is not younger. -/
abbrev Thread.before (t v : Thread) : Prop := v.prio < t.prio ∨ (v.prio = t.prio ∧ t.order ≤ v.order)

theorem pickThread_spec {l : List Thread} (h : l ≠ []) : ∃ t, pickThread l = some t ∧ t ∈ l ∧ ∀ v ∈ l, t.before v := by
  induction l with
  | nil => exact absurd rfl h
  | cons t ts ih =>
    by_cases hts : ts = []
    · subst hts
      exact ⟨t, rfl, List.mem_singleton_self t, fun v hv => List.mem_singleton.1 hv ▸ .inr ⟨rfl, Nat.le_refl _⟩⟩
    · obtain ⟨u, hu, hmem, hmax⟩ := ih hts
      simp only [pickThread, hu]
      by_cases ht : u.prio < t.prio ∨ (u.prio = t.prio ∧ t.order ≤ u.order)
      · refine ⟨t, if_pos ht, List.mem_cons_self .., fun v hv => ?_⟩
        rcases List.mem_cons.1 hv with rfl | hv
        · exact .inr ⟨rfl, Nat.le_refl _⟩
        · have := hmax v hv
          simp only [Thread.before] at this ⊢
          omega
      · refine ⟨u, if_neg ht, List.mem_cons_of_mem t hmem, fun v hv => ?_⟩
        rcases List.mem_cons.1 hv with rfl | hv
        · simp only [Thread.before]
          omega
        · exact hmax v hv

/-! ### Dispatch (R263, R270, R271) -/

/-- A setting of other registers leaves register `j`. -/
theorem setX_getElem?_other {j : Nat} {rs : List (Nat × Nat)} (h : ∀ r ∈ rs, r.1 ≠ j) (x : List Word64) :
    (setX x rs)[j]? = x[j]? := by
  induction rs generalizing x with
  | nil => rfl
  | cons r rs ih =>
    obtain ⟨hr, hrs⟩ := List.forall_mem_cons.1 h
    change (setX (if r.1 = 0 then x else x.set r.1 (BitVec.ofNat 64 r.2)) rs)[j]? = _
    rw [ih hrs]
    split
    · rfl
    · exact List.getElem?_set_ne hr

/-- Values set to consecutive registers stand there. -/
theorem setX_getElem?_consecutive {b : Nat} (hb : 0 < b) {vs : List Nat} {x : List Word64} (i : Nat) {k : Nat}
    (hk : k < vs.length) (hlen : b + i + vs.length ≤ x.length) :
    (setX x ((vs.zipIdx i).map fun r => (b + r.2, r.1)))[b + i + k]? = some (BitVec.ofNat 64 (vs.getD k 0)) := by
  induction vs generalizing x i k with
  | nil => exact absurd hk (Nat.not_lt_zero k)
  | cons v vs ih =>
    rw [List.length_cons] at hk hlen
    change (setX (if b + i = 0 then x else x.set (b + i) (BitVec.ofNat 64 v))
      ((vs.zipIdx (i + 1)).map fun r => (b + r.2, r.1)))[b + i + k]? = _
    rw [if_neg (by omega)]
    cases k with
    | zero =>
      rw [setX_getElem?_other]
      · simp [show b + i < x.length by omega]
      · intro r hr hreg
        obtain ⟨y, hy, rfl⟩ := List.mem_map.1 hr
        have hle : i + 1 ≤ y.2 := List.le_snd_of_mem_zipIdx hy
        dsimp only at hreg
        omega
    | succ k =>
      have := ih (x := x.set (b + i) (BitVec.ofNat 64 v)) (i + 1) (k := k) (by omega) (by rw [List.length_set]; omega)
      rwa [show b + (i + 1) + k = b + i + (k + 1) by omega] at this

theorem dispatchRegs_length (t : Thread) : (dispatchRegs t).length = 8 := by
  unfold dispatchRegs
  split <;> rfl

/-- A thread that a free engine has taken: it runs there, and its operands are in registers. -/
def State.dispatched (s : State) (e : Nat) (t : Thread) : State :=
  ((s.free.2.enterThread e t).modThread t.tid fun t => { t with st := .running, ops := [none, none, none, none] }).modAnv
    fun a => { a with running := a.running ++ [(e, t.tid)] }

/-- A dispatch as the statistics of its engine count it (R292). -/
def State.dispatchCount (s : State) (e : Nat) (c : EngCount) : EngCount := { c with
  activations := c.activations + 1, readyMax := max c.readyMax (s.eligible e).length, ran := true
  waits := c.waits.modify (s.free.1.toNat % 12) (· + 1) }

/-! What the statistics of an engine leave alone. -/

section Counted

variable (s : State) (e k : Nat) (g : EngCount → EngCount)

@[simp] theorem countEngine_sansAnv : (s.countEngine e g).sansAnv = s.sansAnv := rfl
@[simp] theorem countEngine_running : (s.countEngine e g).anv.running = s.anv.running := rfl
@[simp] theorem countEngine_insts : (s.countEngine e g).anv.insts = s.anv.insts := rfl
@[simp] theorem countEngine_thread? : (s.countEngine e g).thread? k = s.thread? k := rfl
@[simp] theorem countEngine_engine : (s.countEngine e g).engine k = s.engine k := rfl
@[simp] theorem countEngine_xreg (r : Nat) : (s.countEngine e g).xreg k r = s.xreg k r := rfl

end Counted

section Dispatch

variable {s : State} {e : Nat} {t : Thread}

theorem exec_threadDispatch_idle (h : (s.anv.running.any fun r => r.1 == e) = true ∨ s.hz.st = .halted ∨ s.eligible e = []) :
    exec (.threadDispatch e) s = .next s := by
  change execThreadDispatch e s = _
  unfold execThreadDispatch
  split
  · rfl
  · next hno =>
    rcases h with hbusy | hhalted | hnone
    · exact absurd (.inl hbusy) hno
    · exact absurd (.inr hhalted) hno
    · rw [hnone]
      rfl

theorem exec_threadDispatch (hfree : (s.anv.running.any fun r => r.1 == e) = false) (hst : s.hz.st ≠ .halted)
    (ht : pickThread (s.eligible e) = some t) :
    exec (.threadDispatch e) s = .next ((s.dispatched e t).countEngine e (s.dispatchCount e)) := by
  have hno : ¬ ((s.anv.running.any fun r => r.1 == e) = true ∨ s.hz.st = .halted) := by simp [hfree, hst]
  change execThreadDispatch e s = _
  simp only [execThreadDispatch, if_neg hno, ht]
  rfl

theorem enterThread_sansAnv (s : State) (e : Nat) (t : Thread) : (s.enterThread e t).sansAnv = s.free.2.sansAnv := rfl

theorem dispatched_sansAnvCtr (s : State) (e : Nat) (t : Thread) : (s.dispatched e t).sansAnvCtr = s.sansAnvCtr := by
  refine (sansAnvCtr_congr (s := s.free.2.free.2) ?_).trans rfl
  rw [State.dispatched, modAnv_sansAnv, modThread_sansAnv, enterThread_sansAnv]

theorem dispatched_running (s : State) (e : Nat) (t : Thread) :
    (s.dispatched e t).anv.running = s.anv.running ++ [(e, t.tid)] := rfl

theorem dispatched_insts (s : State) (e : Nat) (t : Thread) : (s.dispatched e t).anv.insts = s.anv.insts := rfl

theorem thread?_dispatched : (s.dispatched e t).thread? t.tid = (s.thread? t.tid).map fun x => { x with
    st := .running, ops := [none, none, none, none] } :=
  thread?_modThread (s := s.free.2.enterThread e t) fun _ hy => hy

/-- The engine of a thread that it has taken: U-mode at the entry, and a0 to a7 after ra and sp (R271). -/
theorem engine_dispatched (h : e < s.anv.engines.length) : ((s.dispatched e t).engine e).user = true ∧
    ((s.dispatched e t).engine e).pc = t.entry ∧ ∃ ra sp, ((s.dispatched e t).engine e).x =
      setX (s.engine e).x ([(1, ra), (2, sp)] ++ (dispatchRegs t).zipIdx.map fun r => (10 + r.2, r.1)) := by
  have hlast : (s.dispatched e t).engine e = (s.free.2.enterThread e t).engine e := rfl
  rw [hlast, State.enterThread, engine_modEngine (s := s.free.2.free.2) h]
  exact ⟨rfl, rfl, _, _, rfl⟩

theorem xreg_dispatched (h : s.engineOk e) {k : Nat} (hk : k < 8) :
    (s.dispatched e t).xreg e (10 + k) = (dispatchRegs t).getD k 0 % 2 ^ 64 := by
  obtain ⟨he, hlen⟩ := h
  obtain ⟨-, -, ra, sp, hx⟩ := engine_dispatched (t := t) he
  have hreg : (setX (setX (s.engine e).x [(1, ra), (2, sp)]) ((dispatchRegs t).zipIdx.map fun r => (10 + r.2, r.1)))[10 + k]? =
      some (BitVec.ofNat 64 ((dispatchRegs t).getD k 0)) :=
    setX_getElem?_consecutive (b := 10) (by decide) 0 (by rwa [dispatchRegs_length])
      (by rw [setX_length, hlen, dispatchRegs_length]; decide)
  rw [State.xreg, hx, setX, List.foldl_append, List.getD_eq_getElem?_getD]
  change ((setX (setX (s.engine e).x [(1, ra), (2, sp)]) _)[10 + k]?.getD 0).toNat = _
  rw [hreg, Option.getD_some, BitVec.toNat_ofNat]

end Dispatch

/-! ### The end of an activation (R269, R272, R273) -/

/-- A thread's instance is RUNNING once the activation of its initial thread has ended (R286). -/
def State.firstEnded (s : State) (t : Thread) : State :=
  if t.first then s.modInst t.inst fun i => if i.st = .starting then { i with st := .running } else i else s

section FirstEnded

variable (s : State) (t : Thread)

theorem firstEnded_insts : s.firstEnded t = s.modAnv fun a => { a with insts := (s.firstEnded t).anv.insts } := by
  unfold State.firstEnded
  split <;> rfl

@[simp] theorem firstEnded_fenced (n : Nat) : (s.firstEnded t).fenced n = s.fenced n := by
  rw [firstEnded_insts]
  rfl

@[simp] theorem firstEnded_thread? (k : Nat) : (s.firstEnded t).thread? k = s.thread? k := by
  rw [firstEnded_insts]
  rfl

@[simp] theorem firstEnded_sansAnv : (s.firstEnded t).sansAnv = s.sansAnv := by
  rw [firstEnded_insts]
  rfl

@[simp] theorem firstEnded_sansSqAnv : (s.firstEnded t).sansSqAnv = s.sansSqAnv := by
  rw [firstEnded_insts]
  rfl

end FirstEnded

/-! #### EXIT -/

section Exit

variable {s : State} {t : Thread} (hfence : s.fenced t.fn = false) (e : Nat)
include hfence

theorem exitThread_eq : s.exitThread e t = (((s.firstEnded t).freeThread t.tid).leftEngine e).idleCheck t.inst := by
  rw [← leaveEngine_unfenced (s := (s.firstEnded t).freeThread t.tid) ((firstEnded_fenced s t t.fn).trans hfence)]
  rfl

/-- An activation that ends for good leaves nothing of its thread, and frees its engine (R269). -/
theorem exitThread_spec : (s.exitThread e t).thread? t.tid = none ∧ (∀ r ∈ (s.exitThread e t).anv.running, r.1 ≠ e) ∧
    (∀ d ∈ (s.exitThread e t).anv.delays, d.tid ≠ t.tid) ∧ (s.exitThread e t).sansSqAnv = s.sansSqAnv := by
  rw [exitThread_eq hfence]
  have hidle := noNewWork_idleCheck (((s.firstEnded t).freeThread t.tid).leftEngine e) t.inst
  refine ⟨hidle.thread?_eq_none ?_, fun r hr => not_running_leftEngine r (hidle.running hr), fun d hd =>
    tid_ne_of_mem_delays_freeThread (hidle.delays hd), by simp⟩
  rw [leftEngine_thread?, thread?_freeThread]

end Exit

/-! #### REARM -/

/-- A thread armed again: it keeps the tokens of the slots that it declares (R269, R272). -/
def Thread.rearmed (t : Thread) (a order : Nat) : Thread :=
  let k := bitsAt a 2 3
  let ops := (t.ops.take k) ++ List.replicate (4 - k) none
  { t with
    nslots := k, ops := ops, st := if (ops.take k).all Option.isSome then .ready else .waiting
    order := order, first := false, prio := if bitAt a 10 then bitsAt a 5 5 else t.prio }

/-- Tokens in slots that a thread no longer declares are discarded, and it is the last of its list (R269). -/
def State.rearming (s : State) (t : Thread) (a : Nat) : State :=
  (s.modAnv fun v => { v with
    discards := countDiscards v.discards (t.ops.drop (bitsAt a 2 3)), order := v.order + 1 }).modThread t.tid fun y =>
      { y.rearmed a s.anv.order with ops := (t.rearmed a s.anv.order).ops, st := (t.rearmed a s.anv.order).st }

@[simp] theorem rearming_fenced (s : State) (t : Thread) (a n : Nat) : (s.rearming t a).fenced n = s.fenced n := rfl

@[simp] theorem rearming_sansAnv (s : State) (t : Thread) (a : Nat) : (s.rearming t a).sansAnv = s.sansAnv := rfl

section Rearm

variable {s : State} {t : Thread}

theorem thread?_rearming (ht : s.thread? t.tid = some t) (a : Nat) :
    (s.rearming t a).thread? t.tid = some (t.rearmed a s.anv.order) := by
  rw [State.rearming, thread?_modThread (by exact fun _ hy => hy)]
  exact congrArg _ ht

variable (hfence : s.fenced t.fn = false) (e a : Nat)
include hfence

theorem rearm_eq : s.rearm e t a = ((s.rearming t a).firstEnded t).leftEngine e := by
  rw [← leaveEngine_unfenced (n := t.fn) (by rwa [firstEnded_fenced, rearming_fenced])]
  rfl

theorem rearm_spec (ht : s.thread? t.tid = some t) : (s.rearm e t a).thread? t.tid = some (t.rearmed a s.anv.order) ∧
    (∀ r ∈ (s.rearm e t a).anv.running, r.1 ≠ e) ∧ (s.rearm e t a).sansAnv = s.sansAnv := by
  rw [rearm_eq hfence]
  refine ⟨?_, not_running_leftEngine, by simp⟩
  rw [leftEngine_thread?, firstEnded_thread?, thread?_rearming ht]

end Rearm

/-! #### Faults -/

/-- The state without what a thread changes as it runs, and without the count of free values. -/
def State.sansRun (s : State) : State := { s.sansEngines with freeCtr := 0 }

/-- What changes Anvil and Squall alone, once the thread has run, seen from before. -/
theorem eq_of_sansSqAnv_ran {s w u : State} (hw : w.sansRun = s.sansRun) (hu : u.sansSqAnv = w.sansSqAnv) :
    u = { s with anv := u.anv, sq := u.sq, freeCtr := u.freeCtr } := calc
  u = { w with anv := u.anv, sq := u.sq, freeCtr := u.freeCtr } :=
    congrArg (fun x : State => { x with anv := u.anv, sq := u.sq, freeCtr := u.freeCtr }) hu
  _ = _ := congrArg (fun x : State => { x with anv := u.anv, sq := u.sq, freeCtr := u.freeCtr }) hw

theorem ran_sansRun (s : State) (n e : Nat) (run : ThreadRun) : (s.ran n e run).sansRun = s.sansRun := by
  rw [State.sansRun, State.ran, stores_sansEngines, modEngine_sansEngines]
  rfl

theorem ranWith_sansRun (s : State) (n e : Nat) (run : ThreadRun) (rs : List (Nat × Nat)) :
    (s.ranWith n e run rs).sansRun = s.sansRun := ran_sansRun s n e run

/-- The record of a fault is kept, as the last one of its function (R295). -/
theorem mem_keepFault (s : State) (r : FaultRec) : r ∈ (s.keepFault r).anv.faults := by
  have hmine : ∀ l : List FaultRec, (l ++ [r]).filter (fun x => x.fn == r.fn) = l.filter (fun x => x.fn == r.fn) ++ [r] := by
    simp
  refine List.mem_append_right _ ?_
  rw [hmine, List.drop_append_of_le_length (by simp only [List.length_append, List.length_singleton]; omega)]
  exact List.mem_append_right _ (List.mem_singleton_self r)

/-- Where the spec gives no mcause, mepc and mtval, they are free values. -/
theorem openFault_eq (s : State) (e : Nat) (t : Thread) (st : Status) :
    ∃ c p v, s.openFault e t st = s.free.2.faultThread e t st c p v := ⟨_, _, _, rfl⟩

section Fault

variable {s w : State} {t : Thread} {i : Inst}

theorem faultThread_eq (hi : w.inst? t.inst = some i) (hlive : i.st = .starting ∨ i.st = .running) (e : Nat) (st : Status)
    (c p v : Nat) : w.faultThread e t st c p v =
      (w.keepFault ⟨t.fn, t.inst, t.tid, e, c, p, v, st⟩).stopThread e t st 0 0 := by
  have hkeep : ((w.inst? t.inst).elim false fun i => i.st == .starting || i.st == .running) = true := by
    simpa [hi] using hlive
  rw [State.faultThread, if_pos hkeep]
  rfl

/-- A fault ends the instance and frees the engine, and its record is kept; `w` is `s` once the thread has run (R264, R273,
R286). -/
theorem faultThread_spec (hw : w.sansRun = s.sansRun) (hfence : s.fenced t.fn = false) (hi : s.inst? t.inst = some i)
    (hlive : i.st = .starting ∨ i.st = .running) (e : Nat) (st : Status) (c p v : Nat) :
    let u := w.faultThread e t st c p v
    (∀ r ∈ u.anv.running, r.1 ≠ e) ∧ u.thread? t.tid = none ∧
      u = { s with anv := u.anv, sq := u.sq, freeCtr := u.freeCtr } ∧
      u.inst? t.inst = some { i with st := .ending, status := st, code := 0, resultLen := 0 } ∧
      ⟨t.fn, t.inst, t.tid, e, c, p, v, st⟩ ∈ u.anv.faults := by
  intro u
  have hwi : w.inst? t.inst = some i := (congrArg (·.inst? t.inst) hw :).trans hi
  have hu : u = _ := faultThread_eq hwi hlive e st c p v
  have hwf : (w.keepFault ⟨t.fn, t.inst, t.tid, e, c, p, v, st⟩).fenced t.fn = false :=
    (congrArg (·.fenced t.fn) hw :).trans hfence
  have hne : i.st ≠ .ending := by rcases hlive with h | h <;> rw [h] <;> decide
  clear_value u
  subst hu
  refine ⟨not_running_stopThread hwf e st 0 0, thread?_stopThread hwf e st 0 0, ?_, inst?_stopThread hwf e st 0 0 hwi hne, ?_⟩
  · exact eq_of_sansSqAnv_ran hw (stopThread_sansSqAnv hwf e st 0 0)
  · rw [stopThread_faults hwf]
    exact mem_keepFault ..

end Fault

/-! ### The instructions -/

section Run

variable {s : State} {e : Nat} (run : ThreadRun)

/-- No thread runs on the engine: nothing returns, faults or reaches its limit. -/
theorem exec_noThread (h : s.runningOn e = none) (a : Nat) : exec (.threadReturn ⟨e, run⟩ a) s = .next s ∧
    exec (.activationLimit ⟨e, run⟩) s = .next s ∧ ∀ b c, exec (.moduleFault ⟨e, run⟩ a b c) s = .next s := by
  change execThreadReturn ⟨e, run⟩ a s = _ ∧ execActivationLimit ⟨e, run⟩ s = _ ∧
    ∀ b c, execModuleFault ⟨e, run⟩ a b c s = _
  simp [execThreadReturn, execActivationLimit, execModuleFault, h]

theorem exec_moduleFault_other {a : Nat} (h : faultCauses.contains a = false) (b c : Nat) :
    exec (.moduleFault ⟨e, run⟩ a b c) s = .next s := by
  change execModuleFault ⟨e, run⟩ a b c s = _
  unfold execModuleFault
  split
  · rfl
  · exact if_pos (.inr (ne_of_eq_of_ne h Bool.false_ne_true))

variable {t : Thread} (hrun : s.runningOn e = some t)
include hrun

theorem exec_activationLimit : exec (.activationLimit ⟨e, run⟩) s = .next
    ((if s.callStalled e then s else s.ran t.fn e run).openFault e t St.anvActivationLimit) := by
  change execActivationLimit ⟨e, run⟩ s = _
  simp only [execActivationLimit, hrun]

variable (hfree : s.callStalled e = false)
include hfree

theorem exec_moduleFault {a : Nat} (h : faultCauses.contains a = true) (b c : Nat) :
    exec (.moduleFault ⟨e, run⟩ a b c) s = .next ((s.ran t.fn e run).faultThread e t St.anvFault a b c) := by
  change execModuleFault ⟨e, run⟩ a b c s = _
  simp only [execModuleFault, hrun, hfree, h]
  rfl

theorem exec_threadReturn_exit {a : Nat} (h : t.cancelled = true ∨ s.fnState t.fn ≠ .active ∨
    (returnOk a (s.maxPrio t) = true ∧ bitsAt a 0 2 = 0)) :
    exec (.threadReturn ⟨e, run⟩ a) s = .next ((s.ranWith t.fn e run [(10, a)]).exitThread e t) := by
  change execThreadReturn ⟨e, run⟩ a s = _
  simp only [execThreadReturn, hrun, hfree, Bool.false_eq_true, if_false]
  by_cases hgone : t.cancelled = true ∨ s.fnState t.fn ≠ .active
  · exact if_pos hgone
  · obtain ⟨hok, hexit⟩ := (or_assoc.2 h).resolve_left hgone
    exact (if_neg hgone).trans ((if_neg (not_not_intro hok)).trans (if_pos hexit))

variable (hgoes : t.cancelled = false) (hactive : s.fnState t.fn = .active)
include hgoes hactive

theorem exec_threadReturn_invalid {a : Nat} (h : returnOk a (s.maxPrio t) = false) :
    exec (.threadReturn ⟨e, run⟩ a) s = .next ((s.ranWith t.fn e run [(10, a)]).openFault e t St.anvFault) := by
  change execThreadReturn ⟨e, run⟩ a s = _
  simp only [execThreadReturn, hrun, hfree, hgoes, hactive, h]
  rfl

theorem exec_threadReturn_rearm {a : Nat} (hok : returnOk a (s.maxPrio t) = true) (hrearm : bitsAt a 0 2 = 1) :
    exec (.threadReturn ⟨e, run⟩ a) s = .next ((s.ranWith t.fn e run [(10, a)]).rearm e t a) := by
  change execThreadReturn ⟨e, run⟩ a s = _
  simp only [execThreadReturn, hrun, hfree, hgoes, hactive, hok, hrearm]
  rfl

end Run

/-- Each way for an activation to fail is a fault, once the thread has run, under its status; one that the module makes
carries its mcause, mepc and mtval (R264, R272, R273). -/
theorem exec_fails {s : State} {e a b c : Nat} {run : ThreadRun} {t : Thread} {st : Status} {x : Instr}
    (hrun : s.runningOn e = some t)
    (h : (x = .threadReturn ⟨e, run⟩ a ∧ st = St.anvFault ∧ s.callStalled e = false ∧ t.cancelled = false ∧
        s.fnState t.fn = .active ∧ returnOk a (s.maxPrio t) = false) ∨
      (x = .moduleFault ⟨e, run⟩ a b c ∧ st = St.anvFault ∧ s.callStalled e = false ∧ faultCauses.contains a = true) ∨
      (x = .activationLimit ⟨e, run⟩ ∧ st = St.anvActivationLimit)) :
    ∃ w k p v, exec x s = .next (State.faultThread w e t st k p v) ∧ w.sansRun = s.sansRun ∧
      (x = .moduleFault ⟨e, run⟩ a b c → k = a ∧ p = b ∧ v = c) := by
  rcases h with ⟨rfl, rfl, hfree, hgoes, hactive, hbad⟩ | ⟨rfl, rfl, hfree, hcause⟩ | ⟨rfl, rfl⟩
  · obtain ⟨k, p, v, hopen⟩ := openFault_eq (s.ranWith t.fn e run [(10, a)]) e t St.anvFault
    refine ⟨_, k, p, v, (exec_threadReturn_invalid run hrun hfree hgoes hactive hbad).trans (congrArg _ hopen),
      ranWith_sansRun s t.fn e run [(10, a)], fun hx => nomatch hx⟩
  · exact ⟨_, a, b, c, exec_moduleFault run hrun hfree hcause b c, ran_sansRun .., fun _ => ⟨rfl, rfl, rfl⟩⟩
  · obtain ⟨k, p, v, hopen⟩ := openFault_eq (if s.callStalled e then s else s.ran t.fn e run) e t St.anvActivationLimit
    refine ⟨_, k, p, v, (exec_activationLimit run hrun).trans (congrArg _ hopen), ?_, fun hx => nomatch hx⟩
    change State.sansRun (if s.callStalled e = true then s else s.ran t.fn e run) = _
    split
    · rfl
    · exact ran_sansRun ..

/-- Settles O45: a free engine takes the best thread (R270, R271), and an activation returns, is armed again or ends the
thread's instance (R264, R269, R272, R273, R286). -/
theorem threadsRunAndReturn : Obligations.ThreadsRunAndReturn := by
  intro s e run
  refine ⟨exec_threadDispatch_idle, ?dispatch, fun a h => exec_noThread run h a,
    fun a b c h => exec_moduleFault_other run h b c, ?ended⟩
  case dispatch =>
    intro hfree hst hready
    obtain ⟨t, hpick, hmem, hbest⟩ := pickThread_spec hready
    refine ⟨t, hmem, hbest, _, exec_threadDispatch hfree hst hpick, ?_, ?_, ?_, ?_, fun hok => ?_⟩
    · rw [countEngine_running, dispatched_running]
    · exact eq_of_sansAnvCtr ((sansAnvCtr_congr (countEngine_sansAnv ..)).trans (dispatched_sansAnvCtr ..))
    · rw [countEngine_insts, dispatched_insts]
    · rw [countEngine_thread?, thread?_dispatched]
    · obtain ⟨huser, hpc, -⟩ := engine_dispatched (t := t) hok.1
      rw [countEngine_engine]
      exact ⟨huser, hpc, fun k hk => (countEngine_xreg ..).trans (xreg_dispatched hok hk)⟩
  case ended =>
    intro t a hrun hfence
    have ht := thread?_of_runningOn hrun
    have hran : ∀ {β : Type} (get : State → β), (∀ u : State, get u.sansEngines = get u) →
        get (s.ranWith t.fn e run [(10, a)]) = get s := fun get h => ranWith_keeps get h ..
    have hwf : (s.ranWith t.fn e run [(10, a)]).fenced t.fn = false :=
      (hran (·.fenced t.fn) fun _ => rfl).trans hfence
    refine ⟨fun hfree h => ?exit, fun hfree hgoes hactive hok hrearm => ?rearm, fun i b c st x hi hlive h => ?fault⟩
    case exit =>
      obtain ⟨hgone, hrunning, hdelays, hframe⟩ := exitThread_spec hwf e
      exact ⟨_, exec_threadReturn_exit run hrun hfree h, hgone, hrunning, hdelays,
        eq_of_sansSqAnv (hframe.trans (hran _ fun _ => rfl))⟩
    case rearm =>
      obtain ⟨hthread, hrunning, hframe⟩ := rearm_spec hwf e a ((hran (·.thread? t.tid) fun _ => rfl).trans ht)
      refine ⟨_, exec_threadReturn_rearm run hrun hfree hgoes hactive hok hrearm, hrunning,
        eq_of_sansAnv (hframe.trans (hran _ fun _ => rfl)), hthread.trans ?_⟩
      rw [hran (·.anv.order) fun _ => rfl]
      rfl
    case fault =>
      obtain ⟨w, k, p, v, hexec, hw, hcause⟩ := exec_fails hrun h
      obtain ⟨hrunning, hgone, hframe, hinst, hkept⟩ := faultThread_spec hw hfence hi hlive e st k p v
      exact ⟨_, hexec, hrunning, hgone, hframe, hinst, _, hkept, rfl, rfl, rfl, rfl, rfl, hcause⟩

end Sys2Proof.Machine
end

section
/-!
SUPPORT. The thread services (R278): each on the state that a call reaches, and the statement ThreadServices.
-/

namespace Sys2Proof.Machine

open Sys2Proof

theorem deliver_sansAnv {s u : State} {tid slot : Nat} {k : Token} (h : s.deliver tid slot k = some u) :
    u.sansAnv = s.sansAnv := by
  rw [State.deliver_frame h]
  rfl

@[simp] theorem setResult_sansAnv (s : State) (e : Nat) (st : Status) (v : Nat) :
    (s.setResult e st v).sansAnv = s.sansAnv := rfl

@[simp] theorem setResult_threads (s : State) (e : Nat) (st : Status) (v : Nat) :
    (s.setResult e st v).anv.threads = s.anv.threads := rfl

@[simp] theorem setResult_thread? (s : State) (e : Nat) (st : Status) (v k : Nat) :
    (s.setResult e st v).thread? k = s.thread? k := rfl

/-! ### What a thread that calls has run leaves alone -/

section Ran

variable (s : State) (n e : Nat) (run : ThreadRun) (rs : List (Nat × Nat))

@[simp] theorem ranWith_sansAnv : (s.ranWith n e run rs).sansAnv = s.sansAnv := ranWith_keeps State.sansAnv (fun _ => rfl) ..

@[simp] theorem ranWith_freeSlots (p : Nat) : (s.ranWith n e run rs).freeSlots p = s.freeSlots p :=
  ranWith_keeps (·.freeSlots p) (fun _ => rfl) ..

@[simp] theorem ranWith_thread? (k : Nat) : (s.ranWith n e run rs).thread? k = s.thread? k :=
  ranWith_keeps (·.thread? k) (fun _ => rfl) ..

@[simp] theorem ranWith_inst? (k : Nat) : (s.ranWith n e run rs).inst? k = s.inst? k :=
  ranWith_keeps (·.inst? k) (fun _ => rfl) ..

@[simp] theorem ranWith_insts : (s.ranWith n e run rs).anv.insts = s.anv.insts :=
  ranWith_keeps (·.anv.insts) (fun _ => rfl) ..

@[simp] theorem ranWith_fenced (k : Nat) : (s.ranWith n e run rs).fenced k = s.fenced k :=
  ranWith_keeps (·.fenced k) (fun _ => rfl) ..

@[simp] theorem ranWith_grantOf (k : Nat) : (s.ranWith n e run rs).grantOf k = s.grantOf k :=
  ranWith_keeps (·.grantOf k) (fun _ => rfl) ..

@[simp] theorem ranWith_tokensOut (k src : Nat) : (s.ranWith n e run rs).tokensOut k src = s.tokensOut k src :=
  ranWith_keeps (·.tokensOut k src) (fun _ => rfl) ..

@[simp] theorem ranWith_readyFull (k cl : Nat) : (s.ranWith n e run rs).readyFull k cl = s.readyFull k cl :=
  ranWith_keeps (·.readyFull k cl) (fun _ => rfl) ..

@[simp] theorem ranWith_delayTimer : (s.ranWith n e run rs).delayTimer = s.delayTimer :=
  ranWith_keeps (·.delayTimer) (fun _ => rfl) ..

end Ran

/-- The arguments of a spawn that R278 admits. -/
theorem spawnArgs_ok {m : Module} {i : Inst} {a d f : Nat} (hentry : m.holds a 1 = true) (hslots : d ≤ 4)
    (hplace : f = 255 ∨ f < i.engines.length) :
    ¬ (¬ m.holds a 1 = true ∨ 4 < d ∨ (f ≠ 255 ∧ i.engines.length ≤ f)) := by
  rintro (hno | hno | ⟨hne, hno⟩)
  · exact hno hentry
  · exact Nat.not_lt.mpr hslots hno
  · exact Nat.not_lt.mpr hno (hplace.resolve_left hne)

@[simp] theorem poolPerEngine_send : poolPerEngine 4 = 256 := rfl

/-- A send of engine `e` on the state that its call reaches: it returns ST_OK or stays in the call (R275). -/
def State.sent (s : State) (e tid slot value : Nat) : State :=
  match s.deliver tid slot ⟨value, St.ok, 4, some e⟩ with
  | some w => w.setResult e St.ok 0
  | none => s.modAnv fun z => { z with stalled := z.stalled ++ [⟨some e, tid, slot, ⟨value, St.ok, 4, some e⟩⟩] }

section Call

variable {s : State} {e : Nat} {t : Thread} {i : Inst} {m : Module} {run : ThreadRun} (h : s.calls e t i m)
include h

/-! ### th.spawn (R268, R278) -/

section Spawn

variable {a b c d f : Nat}

/-- A spawn with bad arguments, with a priority above the manifest, or without room. -/
theorem exec_thSpawn_refused :
    let v := s.ranWith t.fn e run (callRegs 1 [a, b, c, d, f])
    let part := (if f = 255 then none else i.engines[f]?).getD e
    (m.holds a 1 = false ∨ 4 < d ∨ (f ≠ 255 ∧ i.engines.length ≤ f) →
      exec (.thSpawn ⟨e, run⟩ a b c d f) s = .next (v.setResult e St.anvService 0)) ∧
    (m.holds a 1 = true → d ≤ 4 → (f = 255 ∨ f < i.engines.length) →
      (m.file.maxPrio < c → exec (.thSpawn ⟨e, run⟩ a b c d f) s = .next (v.setResult e St.anvPriority 0)) ∧
      (c ≤ m.file.maxPrio → m.file.maxThreads ≤ (s.anv.threads.filter fun t => t.inst == i.id).length ∨
        s.freeSlots part = [] → exec (.thSpawn ⟨e, run⟩ a b c d f) s = .next (v.setResult e St.anvNoSlot 0))) := by
  intro v part
  refine ⟨fun hbad => exec_call h rfl (if_pos (by simpa using hbad)), fun hentry hslots hplace =>
    ⟨fun hprio => exec_call h rfl ?prio, fun hprio hfull => exec_call h rfl ?full⟩⟩
  case prio => exact (if_neg (spawnArgs_ok hentry hslots hplace)).trans (if_pos hprio)
  case full =>
    refine (if_neg (spawnArgs_ok hentry hslots hplace)).trans ((if_neg (Nat.not_lt.mpr hprio)).trans ?_)
    have hthreads : v.anv.threads = s.anv.threads := ranWith_threads ..
    rw [hthreads]
    split
    · rfl
    · next hroom =>
      have hnone : v.freeSlots part = [] := (ranWith_freeSlots ..).trans (hfull.resolve_left hroom)
      have hspawn : v.spawn (Thread.fresh i a b c d (if f = 255 then none else i.engines[f]?) part) = none :=
        State.spawn_none hnone
      dsimp only
      rw [hspawn]

/-- A spawn with good arguments and room gives its ID; the thread is READY without operand slots and WAITING with them. -/
theorem exec_thSpawn (he : e < s.anv.engines.length) (hregs : run.x.length = 32) (hentry : m.holds a 1 = true)
    (hslots : d ≤ 4) (hplace : f = 255 ∨ f < i.engines.length) (hprio : c ≤ m.file.maxPrio)
    (hroom : (s.anv.threads.filter fun t => t.inst == i.id).length < m.file.maxThreads)
    (hfree : s.freeSlots ((if f = 255 then none else i.engines[f]?).getD e) ≠ []) :
    ∃ u k, exec (.thSpawn ⟨e, run⟩ a b c d f) s = .next u ∧ u.resultOf e = (St.ok.toNat, k % 2 ^ 64) ∧
      u.sansAnvCtr = s.sansAnvCtr ∧ ∃ order part, u.anv.threads = s.anv.threads ++
        [(Thread.fresh i a b c d (if f = 255 then none else i.engines[f]?) part).spawned k order] := by
  obtain ⟨x, hx⟩ := State.spawn_of_free (s := s.ranWith t.fn e run (callRegs 1 [a, b, c, d, f]))
    (t := Thread.fresh i a b c d _ ((if f = 255 then none else i.engines[f]?).getD e)) (ne_of_eq_of_ne (ranWith_freeSlots ..) hfree)
  refine ⟨x.2.setResult e St.ok x.1, x.1, exec_call h rfl ?_,
    resultOf_call he hregs (regs_congr (spawn_unitMem hx)), ?_,
    (s.ranWith t.fn e run (callRegs 1 [a, b, c, d, f])).anv.order, (if f = 255 then none else i.engines[f]?).getD e, ?_⟩
  · refine (if_neg (spawnArgs_ok hentry hslots hplace)).trans ((if_neg (Nat.not_lt.mpr hprio)).trans ?_)
    rw [ranWith_threads, if_neg (Nat.not_le.mpr hroom)]
    dsimp only
    rw [hx]
  · exact (sansAnvCtr_congr (setResult_sansAnv ..)).trans
      ((spawn_sansAnvCtr hx).trans (sansAnvCtr_congr (ranWith_sansAnv ..)))
  · rw [setResult_threads, spawn_threads hx, ranWith_threads]

end Spawn

/-! ### th.send (R275, R276, R278) -/

section Send

variable {a b c : Nat} {x : Thread} (hx : s.threadOf i.id a = some x)
include hx

theorem exec_thSend_badSlot (hbad : 4 ≤ b ∨ (x.st ≠ .running ∧ x.nslots ≤ b)) :
    exec (.thSend ⟨e, run⟩ a b c) s =
      .next (((s.ranWith t.fn e run (callRegs 2 [a, b, c])).discard 4).setResult e St.anvBadSlot 0) :=
  exec_call h rfl (by simp [hx, hbad, srcSend])

variable (hslot : b < 4) (hdeclared : x.st = .running ∨ b < x.nslots)
include hslot hdeclared

/-- A send to a declared slot is the delivery of its token. -/
theorem exec_thSend : exec (.thSend ⟨e, run⟩ a b c) s =
    .next ((s.ranWith t.fn e run (callRegs 2 [a, b, c])).sent e a b c) := by
  have hgood : ¬ (4 ≤ b ∨ (x.st ≠ .running ∧ x.nslots ≤ b)) := by
    rcases hdeclared with hrun | hlt
    · simp [hslot, hrun]
    · simp [hslot, hlt]
  refine exec_call h rfl ?_
  rw [ranWith_threadOf, hx]
  exact if_neg hgood

/-- A send whose slot is full, or whose pool is out of credit, stalls. -/
theorem exec_thSend_stalls (hfull : (x.ops[b]?.bind id).isSome = true ∨
    256 * (s.grantOf x.fn).engineList.length ≤ s.tokensOut x.fn 4) :
    exec (.thSend ⟨e, run⟩ a b c) s =
      .next ((s.ranWith t.fn e run (callRegs 2 [a, b, c])).modAnv fun z => { z with
        stalled := z.stalled ++ [⟨some e, a, b, ⟨c, St.ok, 4, some e⟩⟩] }) := by
  have hnone := deliver_stalls (s := s.ranWith t.fn e run (callRegs 2 [a, b, c])) (k := ⟨c, St.ok, 4, some e⟩)
    ((ranWith_thread? ..).trans (thread?_of_threadOf hx)) hslot hdeclared (by simpa using hfull)
  rw [exec_thSend h hx hslot hdeclared, State.sent, hnone]

/-- A send that can be delivered is, and returns ST_OK. -/
theorem exec_thSend_delivers (he : e < s.anv.engines.length) (hregs : run.x.length = 32)
    (hempty : x.ops[b]? = some none) (hpool : s.tokensOut x.fn 4 < 256 * (s.grantOf x.fn).engineList.length)
    (hroom : s.readyFull x.fn x.cluster = false) :
    ∃ u y, exec (.thSend ⟨e, run⟩ a b c) s = .next u ∧ u.resultOf e = (St.ok.toNat, 0) ∧
      u = { s with anv := u.anv } ∧ u.thread? a = some y ∧ y.ops = x.ops.set b (some ⟨c, St.ok, 4, some e⟩) ∧
      y.st = if x.st = .waiting ∧ ((x.ops.set b (some ⟨c, St.ok, 4, some e⟩)).take x.nslots).all Option.isSome = true
        then .ready else x.st := by
  obtain ⟨w, y, hw, hy, hops, hst⟩ := deliver_fits (s := s.ranWith t.fn e run (callRegs 2 [a, b, c]))
    (k := ⟨c, St.ok, 4, some e⟩) ((ranWith_thread? ..).trans (thread?_of_threadOf hx)) hslot hdeclared hempty
    (by simpa using hpool) (by simpa using hroom)
  refine ⟨w.setResult e St.ok 0, y, ?_, resultOf_call he hregs (deliver_regs hw), eq_of_sansAnv ?_, hy, hops, hst⟩
  · rw [exec_thSend h hx hslot hdeclared, State.sent, hw]
  · rw [setResult_sansAnv, deliver_sansAnv hw, ranWith_sansAnv]

end Send

/-! ### th.cancel (R269, R278) -/

theorem exec_thCancel {a : Nat} {x : Thread} (hx : s.threadOf i.id a = some x) : exec (.thCancel ⟨e, run⟩ a) s =
    .next (((s.ranWith t.fn e run (callRegs 4 [a])).cancel a).setResult e St.ok 0) :=
  exec_call h rfl (by simp [hx])

/-! ### inst.done (R278, R286) -/

theorem exec_instDone (a b : Nat) : exec (.instDone ⟨e, run⟩ a b) s =
    .next ((s.ranWith t.fn e run (callRegs 11 [a, b])).stopThread e t St.ok a b) := by
  refine exec_call h rfl ?_
  obtain ⟨-, -, -, hinst, -⟩ := h
  rw [inst?_id hinst]
  rfl

end Call

/-- Settles O48: each call, by its arguments and what it finds, returns a status of R278, and takes its effect where its
arguments are good (R269, R274 to R278, R286). -/
theorem threadServices : Obligations.ThreadServices := by
  intro s e t i m a b c d f run h he hregs
  refine ⟨?spawn, ?send, ?delay, ?cancel, ?done⟩
  case spawn =>
    obtain ⟨hservice, hrefused⟩ := exec_thSpawn_refused (run := run) h (a := a) (b := b) (c := c) (d := d) (f := f)
    refine ⟨hservice, fun hentry hslots hplace => ⟨(hrefused hentry hslots hplace).1, (hrefused hentry hslots hplace).2,
      fun hprio hroom hfree => ?_⟩⟩
    obtain ⟨u, k, hexec, hresult, hframe, order, part, hthreads⟩ :=
      exec_thSpawn (b := b) h he hregs hentry hslots hplace hprio hroom hfree
    exact ⟨u, k, hexec, hresult, eq_of_sansAnvCtr hframe, _, hthreads, rfl, rfl, rfl, rfl, rfl, rfl, rfl, rfl, rfl⟩
  case send =>
    refine ⟨fun hnone => exec_call h rfl (by simp [hnone]), fun x hx => ⟨exec_thSend_badSlot h hx, exec_thSend_stalls h hx,
      fun hslot hdeclared => exec_thSend_delivers h hx hslot hdeclared he hregs⟩⟩
  case delay =>
    refine ⟨fun hoff => exec_call h rfl (by simp [hoff]), fun htimer hnone => exec_call h rfl (by simp [htimer, hnone]),
      fun htimer hthread hslot => exec_call h rfl ?_⟩
    obtain ⟨x, hx⟩ := Option.isSome_iff_exists.1 hthread
    simp [htimer, hx, hslot]
  case cancel =>
    refine ⟨fun hnone => exec_call h rfl (by simp [hnone]), fun x hx => ?_⟩
    have hthread := (ranWith_thread? s t.fn e run (callRegs 4 [a]) a).trans (thread?_of_threadOf hx)
    refine ⟨fun hst => (exec_thCancel h hx).trans (by rw [cancel_running hthread hst]), fun hst =>
      ⟨((s.ranWith t.fn e run (callRegs 4 [a])).freeThread a).setResult e St.ok 0,
        (exec_thCancel h hx).trans (by rw [cancel_idle hthread hst]), resultOf_call (n := t.fn) (rs := callRegs 4 [a]) he hregs (by rfl), ?_, fun d hd =>
        tid_ne_of_mem_delays_freeThread hd, eq_of_sansAnv ?_, ranWith_insts s t.fn e run (callRegs 4 [a])⟩⟩
    · rw [setResult_thread?, thread?_freeThread]
    · rw [setResult_sansAnv, freeThread_sansAnv, ranWith_sansAnv]
  case done =>
    intro hfence
    have hdone := exec_instDone (run := run) h a b
    obtain ⟨-, -, -, hinst, hlive, -⟩ := h
    have hfence' : (s.ranWith t.fn e run (callRegs 11 [a, b])).fenced t.fn = false := (ranWith_fenced ..).trans hfence
    have hinst' : (s.ranWith t.fn e run (callRegs 11 [a, b])).inst? t.inst = some i := (ranWith_inst? ..).trans hinst
    refine ⟨_, hdone, eq_of_sansSqAnv ?_, ?_, thread?_stopThread hfence' .., not_running_stopThread hfence' e _ _ _,
      fun x hx hxi => ?_⟩
    · exact (stopThread_sansSqAnv hfence' ..).trans (ranWith_keeps State.sansSqAnv (fun _ => rfl) ..)
    · exact (congrArg (State.inst? _) (inst?_id hinst)).trans (inst?_stopThread hfence' e St.ok a b hinst' hlive)
    · exact cancelled_of_mem_stopThread hfence' e St.ok a b hinst' hlive hx (hxi.trans (inst?_id hinst))

end Sys2Proof.Machine
end

section
/-!
SUPPORT. Instances and near-data scan (R284 to R288): the engines and the memory that an instance is given, a chunk and its
thread, the end of an instance, and the statement InstancesAndChunks.
-/

namespace Sys2Proof.Machine

open Sys2Proof

/-! ### Memory that modules are given -/

/-- The state without the memory of modules: engines with their scratchpads, data memory and its allocations, and the count of
the free values that place them. -/
def State.sansMemory (s : State) : State :=
  ({ s with freeCtr := 0 } : State).modAnv fun a => { a with engines := [], data := [], mem := [] }

section SansMemory

variable {s u : State}

theorem threads_of_sansMemory (h : u.sansMemory = s.sansMemory) : u.anv.threads = s.anv.threads :=
  (congrArg (·.anv.threads) h :)

theorem freeSlots_of_sansMemory (h : u.sansMemory = s.sansMemory) (p : Nat) : u.freeSlots p = s.freeSlots p :=
  (congrArg (·.freeSlots p) h :)

theorem inst?_of_sansMemory (h : u.sansMemory = s.sansMemory) (k : Nat) : u.inst? k = s.inst? k :=
  (congrArg (·.inst? k) h :)

theorem hz_of_sansMemory (h : u.sansMemory = s.sansMemory) : u.hz = s.hz := (congrArg State.hz h :)

theorem sansAnvCtr_of_sansMemory (h : u.sansMemory = s.sansMemory) : u.sansAnvCtr = s.sansAnvCtr :=
  (congrArg State.sansAnvCtr h :)

variable (s)

theorem modWrite_sansMemory (n e a : Nat) (bs : Data) : (s.modWrite n e a bs).sansMemory = s.sansMemory := by
  unfold State.modWrite
  split <;> rfl

theorem zeroStatic_sansMemory (m : Module) (es : List Nat) : (s.zeroStatic m es).sansMemory = s.sansMemory :=
  foldl_keeps State.sansMemory (fun a e => a.modEngine e fun c => { c with
    scratch := memZero c.scratch m.file.scratchAt m.file.scratchBytes }) (fun _ _ => rfl) es s

end SansMemory

/-- What is written to module data memory is read back, whatever engine asks. -/
theorem modRead_modWrite_data {a : Nat} (h : imageBase ≤ a) (s : State) (n e : Nat) (bs : Data) :
    (s.modWrite n e a bs).modRead n e a bs.length = bs := by
  rw [State.modRead, if_neg (Nat.not_lt.mpr h), State.modWrite, if_neg (Nat.not_lt.mpr h), dataMem_modAnv_setAssoc,
    memRead_memWrite]

/-- An allocation changes the memory of modules alone, and lies in the data window. -/
theorem dataAlloc_spec {s : State} {n inst len align : Nat} {x : Nat × State}
    (h : s.dataAlloc n inst len align = some x) : x.2.sansMemory = s.sansMemory ∧ imageBase ≤ x.1 := by
  have hok : ∀ a, (a % align == 0 && s.dataFree n a len) = true → imageBase ≤ a := fun a ha => by
    simp only [State.dataFree, Bool.and_eq_true, decide_eq_true_eq] at ha
    obtain ⟨-, ⟨hbase, -⟩, -⟩ := ha
    exact Nat.le_trans (by decide) hbase
  simp only [State.dataAlloc] at h
  split at h
  · cases h
  · split at h
    · cases h
    · next least hleast =>
      obtain rfl := Option.some.inj h
      have hleast := List.find?_some hleast
      exact ⟨rfl, choose_cases (P := fun a => imageBase ≤ a) hok (hok least hleast)⟩

theorem placeArg_sansMemory (s : State) (i : Inst) : (s.placeArg i).2.sansMemory = s.sansMemory := by
  unfold State.placeArg
  cases h : s.dataAlloc i.fn i.id i.blk.argLen 1 with
  | none => rfl
  | some x => exact (dataAlloc_spec h).1

/-- Where there is room for it, the argument block lies in module data memory. -/
theorem imageBase_le_placeArg {s : State} {i : Inst} (h : (s.dataAlloc i.fn i.id i.blk.argLen 1).isSome = true) :
    imageBase ≤ (s.placeArg i).1 := by
  obtain ⟨x, hx⟩ := Option.isSome_iff_exists.1 h
  rw [State.placeArg, hx]
  exact (dataAlloc_spec hx).2

/-! ### An instance given its engines (R284, R286) -/

section Start

variable (s : State) (i : Inst) (m : Module) (es : List Nat) (a : Nat) (arg : Data)

/-- The memory of an instance given its engines: static scratch zeroed, the argument block at its place. -/
def State.argWritten : State :=
  ((s.placeStack m).2.zeroStatic m es).modWrite i.fn 0 a (arg.take i.blk.argLen)

theorem readied_eq : s.readied i m es a arg =
    (s.argWritten i m es a arg).modInst i.id fun x => { x with stackAt := (s.placeStack m).1 } := rfl

theorem argWritten_sansMemory : (s.argWritten i m es a arg).sansMemory = s.sansMemory :=
  (modWrite_sansMemory ..).trans (zeroStatic_sansMemory ..)

end Start

section Started

variable {s : State} {i : Inst} {m : Module} {e : Nat} {es : List Nat} {arg : Data}

/-- The instance that gets its engines is STARTING with them and its memory, and its initial thread is READY on the first
(R270, R271, R284, R286). -/
theorem startInst_spec (hfree : s.freeSlots e ≠ []) : ∃ a st k order,
    (s.startInst i m (e :: es) arg).sansAnvCtr = s.sansAnvCtr ∧
    (s.startInst i m (e :: es) arg).inst? i.id = (s.inst? i.id).map (fun x => { x with
      st := .starting, engines := e :: es, argAddr := a, stackAt := st }) ∧
    (s.startInst i m (e :: es) arg).anv.threads = s.anv.threads ++ [(Thread.initial i m a e).spawned k order] ∧
    ((s.dataAlloc i.fn i.id i.blk.argLen 1).isSome = true → arg.length = i.blk.argLen →
      (s.startInst i m (e :: es) arg).modRead i.fn 0 a arg.length = arg) := by
  obtain ⟨a, ha⟩ : ∃ a, (s.placeArg i).1 = a := ⟨_, rfl⟩
  obtain ⟨w, hw⟩ : ∃ w, (s.placeArg i).2.argWritten i m (e :: es) a arg = w := ⟨_, rfl⟩
  obtain ⟨st, hst⟩ : ∃ st, ((s.placeArg i).2.placeStack m).1 = st := ⟨_, rfl⟩
  have hkept : w.sansMemory = s.sansMemory := hw ▸ (argWritten_sansMemory ..).trans (placeArg_sansMemory s i)
  obtain ⟨x, hx⟩ := State.spawn_of_free (s := w.modInst i.id fun x => { x with stackAt := st })
    (t := Thread.initial i m a e) (ne_of_eq_of_ne (freeSlots_of_sansMemory hkept e) hfree)
  have hstart : s.startInst i m (e :: es) arg =
      x.2.modInst i.id fun y => { y with st := .starting, engines := e :: es, argAddr := a } := by
    simp only [State.startInst, ha, readied_eq, hw, hst, hx]
    rfl
  rw [hstart]
  refine ⟨a, st, x.1, _, ?frame, ?inst, (spawn_threads hx).trans (congrArg (· ++ _) (threads_of_sansMemory (u := w) hkept)), ?arg⟩
  case frame =>
    exact (sansAnvCtr_congr (modInst_sansAnv ..)).trans ((spawn_sansAnvCtr hx).trans
      ((sansAnvCtr_congr (modInst_sansAnv ..)).trans (sansAnvCtr_of_sansMemory hkept)))
  case inst =>
    have hspawn : x.2.inst? i.id = (w.inst? i.id).map fun x => { x with stackAt := st } := by
      rw [← inst?_modInst (by exact fun _ hy => hy), State.inst?, spawn_insts hx]
      rfl
    rw [inst?_modInst (by exact fun _ hy => hy), hspawn, inst?_of_sansMemory hkept, Option.map_map]
    rfl
  case arg =>
    intro hroom hlen
    have hmem : x.2.unitMem = w.unitMem := (spawn_unitMem hx :)
    have htake : arg.take i.blk.argLen = arg := List.take_of_length_le (Nat.le_of_eq hlen)
    refine (modRead_congr (s := w) (by exact hmem) ..).trans ?_
    rw [← hw, State.argWritten, htake]
    exact modRead_modWrite_data (ha ▸ imageBase_le_placeArg hroom) ..

end Started

section InstanceStart

variable {s : State} {n : Nat} {i : Inst} (arg : Data)

theorem waitingInst_fn (h : s.waitingInst n = some i) : i.fn = n := by
  have hi := List.find?_some h
  simp only [Bool.and_eq_true, beq_iff_eq] at hi
  obtain ⟨⟨hfn, -⟩, -⟩ := hi
  exact hfn

/-- The engines that an exec asks for: all of the grant where it names none (R284). -/
def State.enginesAsked (s : State) (n : Nat) (i : Inst) : Nat :=
  if i.blk.engines = 0 then (s.grantOf n).engineList.length else i.blk.engines

theorem exec_instanceStart_waits (h : s.waitingInst n = none ∨ ∃ i, s.waitingInst n = some i ∧
    (s.anv.zeroing.contains n = true ∨ (s.freeEngines n).length < s.enginesAsked n i ∨ s.fnState n ≠ .active)) :
    exec (.instanceStart ⟨n, arg⟩) s = .next s := by
  change execInstanceStart ⟨n, arg⟩ s = _
  rcases h with hnone | ⟨i, hi, hwaits⟩
  · simp only [execInstanceStart, hnone]
  · simp only [execInstanceStart, hi]
    exact if_pos hwaits

theorem exec_instanceStart {m : Module} (hi : s.waitingInst n = some i) (hzero : s.anv.zeroing.contains n = false)
    (hactive : s.fnState n = .active) (hm : s.module? n i.handle = some m)
    (hengines : s.enginesAsked n i ≤ (s.freeEngines n).length) : exec (.instanceStart ⟨n, arg⟩) s =
      .next (s.startInst i m ((s.freeEngines n).take (s.enginesAsked n i)) arg) := by
  have hgoes : ¬ (s.anv.zeroing.contains n = true ∨ (s.freeEngines n).length < s.enginesAsked n i ∨
      s.fnState n ≠ .active) := by
    rintro (hrunning | hfew | hother)
    · exact Bool.false_ne_true (hzero.symm.trans hrunning)
    · exact Nat.not_lt.mpr hengines hfew
    · exact hother hactive
  change execInstanceStart ⟨n, arg⟩ s = _
  simp only [execInstanceStart, hi, hm]
  exact if_neg hgoes

end InstanceStart

/-! ### A chunk and its thread (R287, R288) -/

/-- The books of a chunk of `len` bytes and `ov` overlap bytes that is given to the engine of index `j`: scan credit, the
statistics of the tick and the engine, and the instance's buffers. -/
def State.chunkBooked (s : State) (i : Inst) (j len ov : Nat) (c : Chunk) : State :=
  (((s.charge i.fn 0 0 (len + ov)).modHz fun h => { h with
    tick := { h.tick with scan := h.tick.scan + len + ov } }).countEngine (i.engines.getD j 0) fun x => { x with
      chunks := x.chunks + 1 }).modInst i.id fun x => { x with
        delivered := x.delivered + len, nextEng := j + 1, chunks := x.chunks ++ [c] }

section Booked

variable (s : State) (i : Inst) (j len ov : Nat) (c : Chunk)

theorem chunkBooked_threads : (s.chunkBooked i j len ov c).anv.threads = s.anv.threads := rfl
theorem chunkBooked_unitMem : (s.chunkBooked i j len ov c).unitMem = s.unitMem := rfl
theorem chunkBooked_credits :
    (s.chunkBooked i j len ov c).hz.credits = (s.charge i.fn 0 0 (len + ov)).hz.credits := rfl

theorem chunkBooked_frame : s.chunkBooked i j len ov c =
    { s with anv := (s.chunkBooked i j len ov c).anv, hz := (s.chunkBooked i j len ov c).hz } := by
  unfold State.chunkBooked
  rfl

theorem inst?_chunkBooked : (s.chunkBooked i j len ov c).inst? i.id = (s.inst? i.id).map fun x => { x with
    delivered := x.delivered + len, nextEng := j + 1, chunks := x.chunks ++ [c] } :=
  inst?_modInst (by exact fun _ hy => hy)

end Booked

section Chunk

variable {s : State} {i : Inst} {d : Ns} {m : Module} {j len ov : Nat}

/-- The chunk that is given to the engine of index `j`, its buffer at `a`. -/
def State.chunkOf (s : State) (i : Inst) (d : Ns) (j len ov a : Nat) : Chunk :=
  ⟨i.engines.getD j 0, a, i.delivered, len, ov,
    s.lostMask d i.blk.stream (i.blk.rangeStart + i.delivered) ((len + ov + 4095) / 4096)⟩

/-- A chunk's bytes, written to its buffer. -/
def State.chunkWritten (s : State) (i : Inst) (d : Ns) (j len ov a : Nat) : State :=
  s.free.2.modWrite i.fn (i.engines.getD j 0) a (s.chunkData d i.blk.stream (i.blk.rangeStart + i.delivered) (len + ov))

theorem chunkWritten_sansMemory (a : Nat) : (s.chunkWritten i d j len ov a).sansMemory = s.sansMemory :=
  modWrite_sansMemory s.free.2 ..

/-- Where the device puts the buffer of a chunk on the engine of index `j` (R288). -/
def State.chunkAddr (s : State) (i : Inst) (m : Module) (j : Nat) : Nat :=
  let e := i.engines.getD j 0
  let size := chunkBytes i.blk + overlapBytes i.blk
  let starts := scratchBase :: (m.file.scratchAt + m.file.scratchBytes) :: (i.stackAt + m.file.stackBytes) ::
    (i.held e).map fun c => c.addr + size
  (s.choose (i.bufferOk m e size) ((starts.find? (i.bufferOk m e size)).getD scratchBase)).1

theorem chunkTo_spawned {x : Nat × State} (hx : (s.chunkWritten i d j len ov (s.chunkAddr i m j)).spawn
    (Thread.ofChunk i m (s.chunkOf i d j len ov (s.chunkAddr i m j))) = some x) :
    s.chunkTo i d m j len ov = x.2.chunkBooked i j len ov (s.chunkOf i d j len ov (s.chunkAddr i m j)) := by
  unfold State.chunkTo
  dsimp only
  split
  · next hnone => cases hx.symm.trans hnone
  · next hsome =>
    obtain rfl := Option.some.inj (hx.symm.trans hsome)
    rfl

/-- A chunk is charged whole, its bytes stand in its buffer, and its thread is READY, pinned to the engine that holds it
(R287, R288). -/
theorem chunkTo_spec (hfree : s.freeSlots (i.engines.getD j 0) ≠ []) :
    let c := s.chunkOf i d j len ov (s.chunkAddr i m j)
    let u := s.chunkTo i d m j len ov
    u = { s with anv := u.anv, hz := u.hz, freeCtr := u.freeCtr } ∧
      u.inst? i.id = (s.inst? i.id).map (fun x => { x with
        delivered := x.delivered + len, nextEng := j + 1, chunks := x.chunks ++ [c] }) ∧
      u.hz.credits = (s.charge i.fn 0 0 (len + ov)).hz.credits ∧
      (∀ bs, s.chunkData d i.blk.stream (i.blk.rangeStart + i.delivered) (len + ov) = bs →
        i.engines.getD j 0 < s.anv.engines.length →
        u.modRead i.fn (i.engines.getD j 0) (s.chunkAddr i m j) bs.length = bs) ∧
      ∃ k order, (Thread.ofChunk i m c).spawned k order ∈ u.anv.threads := by
  intro c u
  obtain ⟨x, hx⟩ := State.spawn_of_free (s := s.chunkWritten i d j len ov (s.chunkAddr i m j))
    (t := Thread.ofChunk i m c) (ne_of_eq_of_ne (freeSlots_of_sansMemory (chunkWritten_sansMemory _) _) hfree)
  have hu : u = x.2.chunkBooked i j len ov c := chunkTo_spawned hx
  have hkept := chunkWritten_sansMemory (s := s) (i := i) (d := d) (j := j) (len := len) (ov := ov) (s.chunkAddr i m j)
  clear_value u
  subst hu
  refine ⟨(chunkBooked_frame ..).trans ?frame, ?inst, ?credits, fun bs hbs he => ?bytes, x.1,
    (s.chunkWritten i d j len ov (s.chunkAddr i m j)).anv.order, ?thread⟩
  case frame =>
    exact congrArg (fun w : State => { w with
      anv := (x.2.chunkBooked i j len ov c).anv, hz := (x.2.chunkBooked i j len ov c).hz
      freeCtr := (x.2.chunkBooked i j len ov c).freeCtr }) ((spawn_sansAnvCtr hx).trans (sansAnvCtr_of_sansMemory hkept))
  case inst =>
    rw [inst?_chunkBooked, State.inst?, spawn_insts hx]
    exact congrArg _ (inst?_of_sansMemory hkept i.id)
  case credits => rw [chunkBooked_credits, State.charge, State.charge, State.modHz_hz, State.modHz_hz, spawn_hz hx,
    hz_of_sansMemory hkept]
  case bytes =>
    rw [modRead_congr (chunkBooked_unitMem ..), modRead_congr (spawn_unitMem hx), State.chunkWritten, hbs]
    exact modRead_modWrite (s := s.free.2) he ..
  case thread =>
    rw [chunkBooked_threads, spawn_threads hx]
    exact List.mem_append_right _ (List.mem_singleton_self _)

end Chunk

section ChunkDeliver

variable {s : State} {n j : Nat} {i : Inst} {d : Ns} {m : Module}

theorem exec_chunkDeliver_none (h : s.inst? n = none) : exec (.chunkDeliver n) s = .next s := by
  change execChunkDeliver n s = _
  simp only [execChunkDeliver, h]

variable (hi : s.inst? n = some i) (hj : i.nextChunkEngine = some j) (hd : s.store.ns? i.nsid = some d)
  (hm : s.module? i.fn i.handle = some m)
include hi hj hd hm

/-- Of a chunk that the scan credit does not hold whole, nothing is delivered (R287). -/
theorem exec_chunkDeliver_short {len ov : Nat} (hlen : min (chunkBytes i.blk) (i.blk.rangeLen - i.delivered) = len)
    (hov : min (overlapBytes i.blk) (i.blk.rangeLen - i.delivered - len) = ov)
    (h : (s.credit i.fn).scan < len + ov ∨ len = 0) : exec (.chunkDeliver n) s = .next s := by
  change execChunkDeliver n s = _
  simp only [execChunkDeliver, hi, hj, hd, hm, hlen, hov]
  refine if_pos (Or.inr ?_)
  rcases h with hcredit | hlen
  · exact Or.inr (Or.inr (Or.inl hcredit))
  · exact Or.inl hlen

theorem exec_chunkDeliver {len ov : Nat} (hlen : min (chunkBytes i.blk) (i.blk.rangeLen - i.delivered) = len)
    (hov : min (overlapBytes i.blk) (i.blk.rangeLen - i.delivered - len) = ov) (hrun : i.st = .running)
    (hactive : s.fnState i.fn = .active) (hpos : len ≠ 0) (hcredit : len + ov ≤ (s.credit i.fn).scan)
    (hthreads : (s.anv.threads.filter fun t => t.inst == n).length < m.file.maxThreads)
    (hready : s.readyFull i.fn (clusterOf (i.engines.getD j 0)) = false) :
    exec (.chunkDeliver n) s = .next (s.chunkTo i d m j len ov) := by
  change execChunkDeliver n s = _
  simp only [execChunkDeliver, hi, hj, hd, hm, hlen, hov]
  refine if_neg ?_
  rintro (hother | hzero | hfenced | hfew | hmany | hfull)
  · exact hother hrun
  · exact hpos hzero
  · exact hfenced hactive
  · exact Nat.not_lt.mpr hcredit hfew
  · exact Nat.not_lt.mpr hmany hthreads
  · exact Bool.false_ne_true (hready.symm.trans hfull)

end ChunkDeliver

/-! ### The end of an instance (R286) -/

section InstanceEnd

variable {s : State} {n : Nat} {i : Inst}

theorem exec_instanceEnd_none (h : s.inst? n = none) : exec (.instanceEnd n) s = .next s := by
  change execInstanceEnd n s = _
  simp only [execInstanceEnd, h]

theorem exec_instanceEnd_waits (hi : s.inst? n = some i) (h : i.st ≠ .ending ∨ i.puts ≠ []) :
    exec (.instanceEnd n) s = .next s := by
  change execInstanceEnd n s = _
  simp only [execInstanceEnd, hi]
  refine if_neg ?_
  rintro ⟨hending, hputs, -⟩
  exact h.elim (· hending) (· hputs)

/-- The state without the instance and its memory. -/
def State.instanceGone (s : State) (n : Nat) (i : Inst) : State :=
  (s.modAnv fun a => { a with
    insts := a.insts.filter fun x => x.id != n
    mem := a.mem.filter fun x => !(x.1 == i.fn && x.2.1 == n) }).dropRevoked

theorem instanceGone_eq (s : State) (n : Nat) (i : Inst) :
    s.instanceGone n i = { s with anv := (s.instanceGone n i).anv } := rfl

theorem instanceGone_insts (s : State) (n : Nat) (i : Inst) :
    (s.instanceGone n i).anv.insts = s.anv.insts.filter (fun x => x.id != n) := rfl

theorem instanceGone_threads (s : State) (n : Nat) (i : Inst) :
    (s.instanceGone n i).anv.threads = s.anv.threads := rfl

theorem instanceGone_mem (s : State) (n : Nat) (i : Inst) :
    (s.instanceGone n i).anv.mem = s.anv.mem.filter (fun x => !(x.1 == i.fn && x.2.1 == n)) := rfl

theorem exec_instanceEnd {c : Cmd} (hi : s.inst? n = some i) (hending : i.st = .ending) (hputs : i.puts = [])
    (hjobs : ∀ j ∈ s.sq.jobs, j.inst ≠ n) (hthreads : ∀ t ∈ s.anv.threads, t.inst ≠ n)
    (hc : s.q.cmds.find? (fun c => c.inst == n && c.e.opc == opExec) = some c) :
    exec (.instanceEnd n) s = .next (((s.instanceGone n i).endCmd c i.status
      (i.code % 4294967296 + 4294967296 * i.resultLen)).abortReply i) := by
  have hnojob : ¬ s.sq.jobs.any (fun j => j.inst == n) = true := by simpa using hjobs
  have hnothread : ¬ s.anv.threads.any (fun t => t.inst == n) = true := by simpa using hthreads
  have hcmd : (s.instanceGone n i).q.cmds.find? (fun c => c.inst == n && c.e.opc == opExec) = some c := hc
  change execInstanceEnd n s = _
  simp only [execInstanceEnd, hi]
  refine (if_pos ⟨hending, hputs, hnojob, hnothread⟩).trans ?_
  rw [← State.instanceGone, hcmd]

end InstanceEnd

/-- Settles O47: an exec waits until its engines are free and then gets the first of them; a chunk is given whole with its
charge, its bytes and its thread, or not at all; the end of an instance leaves the state without it and completes the exec
(R270, R271, R275, R284, R286 to R288). -/
theorem instancesAndChunks : Obligations.InstancesAndChunks := by
  unfold Obligations.InstancesAndChunks
  intro s n arg
  refine ⟨?waits, ?start, ?chunk, fun h => ⟨exec_chunkDeliver_none h, exec_instanceEnd_none h⟩, ?ends,
    fun i hi h => exec_instanceEnd_waits hi h⟩
  case waits =>
    intro h
    refine exec_instanceStart_waits arg ?_
    rcases hw : s.waitingInst n with _ | i
    · exact Or.inl rfl
    · refine Or.inr ⟨i, rfl, ?_⟩
      rcases h with hnone | hzero | hother
      · cases hw.symm.trans hnone
      · exact Or.inl hzero
      · exact Or.inr (Or.inr hother)
  case start =>
    intro i m e es hi hzero hactive hm hfree k
    have hk : s.enginesAsked n i = k := rfl
    have hcount : (s.freeEngines n).length = es.length + 1 := hfree ▸ List.length_cons
    clear_value k
    refine ⟨fun hfew => exec_instanceStart_waits arg (Or.inr ⟨i, hi, Or.inr (Or.inl (by rwa [hk, hcount]))⟩), ?_⟩
    intro hpos hfits hslot
    obtain ⟨r, rfl⟩ : ∃ r, k = r + 1 := ⟨k - 1, (Nat.sub_add_cancel hpos).symm⟩
    have hexec := exec_instanceStart arg hi hzero hactive hm (hk.trans_le (hfits.trans_eq hcount.symm))
    rw [hk, hfree, List.take_succ_cons] at hexec
    rw [List.take_succ_cons]
    obtain ⟨a, st, tid, order, hframe, hinst, hthreads, harg⟩ :=
      startInst_spec (i := i) (m := m) (es := es.take r) (arg := arg) hslot
    rw [waitingInst_fn hi] at harg
    generalize s.startInst i m (e :: es.take r) arg = u at hexec hframe hinst hthreads harg
    refine ⟨u, a, st, hexec, eq_of_sansAnvCtr hframe, hinst, ?_, harg, (Thread.initial i m a e).spawned tid order, ?_,
      rfl, rfl, rfl, rfl, rfl, rfl, rfl⟩
    · exact fun x hx => hthreads ▸ List.mem_append_left _ hx
    · exact hthreads ▸ List.mem_append_right _ (List.mem_singleton_self _)
  case chunk =>
    intro i j m d hi hj hd hm hrun hactive e len ov bytes mask
    refine ⟨exec_chunkDeliver_short hi hj hd hm rfl rfl, fun hpos hcredit hthreads hready hslot => ?_⟩
    obtain ⟨hframe, hinst, hcredits, hbytes, tid, order, hthread⟩ :=
      chunkTo_spec (s := s) (i := i) (d := d) (m := m) (j := j) (len := len) (ov := ov) hslot
    have hexec := exec_chunkDeliver hi hj hd hm (len := len) (ov := ov) rfl rfl hrun hactive hpos hcredit hthreads hready
    have hid := inst?_id hi
    rw [hid, hi] at hinst
    generalize s.chunkTo i d m j len ov = u at hexec hframe hinst hcredits hbytes hthread
    refine ⟨u, s.chunkAddr i m j, hexec, hframe, hinst, hcredits, fun _ he => hbytes bytes rfl he, _, hthread, hid, rfl, rfl, rfl, rfl⟩
  case ends =>
    intro i c hi hending hputs hjobs hthreads hc
    refine ⟨(s.instanceGone n i).anv, instanceGone_insts .., instanceGone_threads .., instanceGone_mem .., ?_⟩
    rw [← instanceGone_eq]
    exact exec_instanceEnd hi hending hputs hjobs hthreads hc

end Sys2Proof.Machine
end

section
/-!
SUPPORT. Every command: the front of the queue, the completion of each form, and what `mbRun` does before the body of
a mailbox row.
-/

namespace Sys2Proof.Machine

open Sys2Proof

/-- Settles O57: `step` and `withFetchWord` match on the queue, and on the word, alone. -/
theorem stepRunsTheFrontCommand : Obligations.StepRunsTheFrontCommand := by
  intro s
  refine ⟨?front, ?idle, ?word⟩
  case front =>
    intro c cs h
    simp only [step, State.rest, h, List.tail_cons]
  case idle =>
    intro h
    simp only [step, h]
  case word =>
    refine fun nbits w => ⟨fun c h => ?_, fun h => ?_⟩ <;> simp only [State.withFetchWord, h]

/-- Settles O59: `exec_soundly` holds of every command, with the queue and the fuses among what it keeps. -/
theorem everyCommandCompletes : Obligations.EveryCommandCompletes := by
  intro i s
  obtain ⟨t, ht, hpending, hsvn, hdebug, hrevoked, -⟩ := exec_soundly i s
  exact ⟨t, ht, hpending, hsvn, hdebug, hrevoked⟩

/-- Every mailbox row runs through `mbRun`, whose checks come before the body of the row (R400, R401). -/
theorem exec_mbRow {i : Instr} {m : MbMeta} {n : Nat} {r : MbReq} (h : mbRow i = some (m, n, r)) :
    ∃ body : State → MbResult, ∀ s, exec i s = .next (s.mbRun m n r body) := by
  cases i <;> cases h
  all_goals exact ⟨_, fun _ => rfl⟩

/-- Settles O1: `mbRun` answers a refused request before the body of any row is reached (R401, R485). -/
theorem failedCheckAnswersOnly : Obligations.FailedCheckAnswersOnly := by
  intro i m n r s st hrow hnext hcheck
  obtain ⟨body, hexec⟩ := exec_mbRow hrow
  rw [hexec, mbRun_refused hnext hcheck]

/-- Settles O2: `mbRun` accepts, or finds the mailbox BUSY, before the body of any row is reached (R400, log 44). -/
theorem goAccepts : Obligations.GoAccepts := by
  refine ⟨fun i m n r s f hrow hf hl hst hwait => ?_, fun i m n r s f hrow hf hl hst hreq => ?_⟩ <;>
    obtain ⟨body, hexec⟩ := exec_mbRow hrow
  · rw [hexec, mbRun_accept hf hl hst hwait]
  · rw [hexec, mbRun_busy hf hl hst hreq]

end Sys2Proof.Machine
end

section
/-!
SUPPORT. The mailbox rows that only read: a status row answers on the state as it is, an object row by one look-up.
-/

namespace Sys2Proof.Machine

open Sys2Proof

/-- The body of a row of `statusReads` answers values on the state it is given. -/
theorem exec_statusRead {i : Instr} {m : MbMeta} {n : Nat} {r : MbReq} (h : mbRow i = some (m, n, r))
    (hm : m ∈ statusReads) : ∃ body : State → MbResult, (∀ s, exec i s = .next (s.mbRun m n r body)) ∧
      ∀ t, ∃ vals, body t = .basic vals t := by
  cases i <;> cases h
  case mediaStatus.refl | anvFaultRead.refl =>
    exact ⟨_, fun _ => rfl, fun t => by split <;> exact ⟨_, rfl⟩⟩
  case devIdentify.refl | devCertRead.refl | devResources.refl | fnPool.refl | hzStatus.refl | hzPlanRead.refl |
      ftStatus.refl | ftLostList.refl | mediaHealth.refl | mediaOffsetsRead.refl | mediaProfileList.refl |
      rdStatus.refl | haloStatus.refl | modList.refl | anvStatus.refl | zlPortStatus.refl | zlGroupStatus.refl |
      pwStatus.refl | fwStatus.refl | logStatus.refl =>
    exact ⟨_, fun _ => rfl, fun t => ⟨_, rfl⟩⟩
  all_goals exact absurd hm (by decide)

/-- Settles O3: no status row has a body that changes the state; `anv.stats` names an engine of the issuer, and two
rows draw. -/
theorem statusReadsAnswer : Obligations.StatusReadsAnswer := by
  intro s n r
  refine ⟨fun i m hrow hm hturn => ?status, fun hturn hengine => ?stats, fun hturn => ?link, fun hturn => ?squall⟩
  case status =>
    obtain ⟨body, hexec, hbasic⟩ := exec_statusRead hrow hm
    obtain ⟨vals, hvals⟩ := hbasic (s.taken n)
    exact ⟨vals, exec_turn_basic (hexec s) hturn hvals⟩
  case stats =>
    refine ⟨_, exec_turn_basic rfl hturn (if_neg fun ⟨hn, hnot⟩ => ?_)⟩
    exact hengine.elim hn hnot
  case link => exact ⟨_, _, exec_turn_basic rfl hturn rfl⟩
  case squall => exact ⟨_, exec_turn_basic rfl hturn rfl⟩

/-- fn.info of a function in range reports its state first, that of a number without a function too (R363). -/
theorem exec_fnInfo {s : State} {n : Nat} {r : MbReq} {f : Fn} (h : s.turn Mb.fnInfo n r) (hn : fld r 0 16 ≤ s.maxFn)
    (hf : (s.fn? (fld r 0 16)).getD (.fresh (fld r 0 16) .uncreated .none) = f) :
    ∃ vals, exec (.fnInfo n r) s = .next ((s.taken n).answer Mb.fnInfo n r (f.st.code :: vals)) := by
  subst hf
  exact ⟨_, exec_turn_basic rfl h (if_neg (Nat.not_lt.mpr hn))⟩

/-- Settles O4: the object named stands in the state, so the one look-up of each row decides its answer. -/
theorem objectReadsAnswer : Obligations.ObjectReadsAnswer := by
  intro s n r
  refine ⟨?param, ?ended, ?running, ?unknown, ?created, ?uncreated, ?range, ?queue, ?info, ?anchor, ?entry, ?search,
    ?log⟩
  case param =>
    intro p hturn hp
    exact exec_turn_basic rfl hturn (by simp only [hp])
  case ended =>
    intro l st hturn hl hst
    exact exec_turn_basic rfl hturn (by simp only [State.taken, State.modRecs, hl, hst])
  case running =>
    intro l hturn hl hst
    exact exec_turn_refuse rfl hturn (by simp only [State.taken, State.modRecs, hl, hst])
  case unknown =>
    intro hturn hl
    exact exec_turn_refuse rfl hturn (by simp only [State.taken, State.modRecs, hl])
  case created => exact fun f hturn hn hf => exec_fnInfo hturn hn (by rw [hf, Option.getD_some])
  case uncreated =>
    exact fun hturn hn hf => exec_fnInfo (f := .fresh _ .uncreated .none) hturn hn (by rw [hf, Option.getD_none])
  case range =>
    intro hturn hn
    exact exec_turn_refuse rfl hturn (if_pos hn)
  case queue =>
    intro k p hturn hk hp
    have hp' : (s.taken n).pair? k (fld r 0 16) = some p := hp
    rw [exec_turn rfl hturn]
    simp only [State.finish, hk, hp']
    exact ⟨_, rfl⟩
  case info =>
    intro x hturn hx
    exact ⟨_, exec_turn_basic rfl hturn (onNs_serves hx rfl)⟩
  case anchor =>
    intro x hturn hx hrns hkey
    exact exec_turn_basic rfl hturn ((onNs_serves hx hrns).trans (if_pos hkey))
  case entry =>
    intro x e hturn hx he
    exact exec_turn_basic rfl hturn (by simp only [hx, he]; rfl)
  case search =>
    intro x hturn hx
    exact exec_turn_basic rfl hturn (by simp only [hx])
  case log => exact fun hturn => exec_turn_basic rfl hturn rfl

end Sys2Proof.Machine
end

section
/-!
SUPPORT. The 32-bit halves of registers and the telemetry records (R446, R459, R460).
-/

namespace Sys2Proof.Machine

open Sys2Proof

/-- A 32-bit read at an offset that the function does not have counts a violation, a half of 64 bits or not (R347). -/
theorem exec_splitReadLatch_bad {s : State} {n o : Nat} (ho : o < 2 ^ 32) (hb : s.badAccess n o = true) :
    exec (.splitReadLatch n o) s = .next (s.violate n) := by
  change execSplitReadLatch n o s = _
  simp only [execSplitReadLatch, if_neg (Nat.not_le.mpr ho), if_pos hb, ite_self]

/-- A 32-bit read of either half of a register: the low one latches, the high one uses the latch up (R446). -/
theorem exec_splitReadLatch_reg {s : State} {n o : Nat} (h4 : o % 4 = 0) (ho : o < 2 ^ 32)
    (hb : s.badAccess n o = false) (hr : regsAll.contains (o / 8 * 8) = true ∨ regsPf0.contains (o / 8 * 8) = true) :
    exec (.splitReadLatch n o) s = .next (s.modFn n fun f => { f with
      latches := if o = o / 8 * 8 then setAssoc f.latches (o / 8 * 8) (s.regVal n (o / 8 * 8) / 2 ^ 32)
        else f.latches.filter fun x => x.1 != o / 8 * 8 }) := by
  change execSplitReadLatch n o s = _
  have hreg : regsAll.contains (o / 8 * 8) = true ∨ regsPf0.contains (o / 8 * 8) = true ∨
      dgWindow (o / 8 * 8) = true ∨ 0x2100 ≤ o / 8 * 8 := hr.imp_right Or.inl
  simp only [execSplitReadLatch, h4, ne_eq, not_true_eq_false, if_false, if_neg (Nat.not_le.mpr ho), hb,
    Bool.false_eq_true, if_pos hreg]

theorem aligned_of_reg {o : Nat} (h : regsAll.contains o = true ∨ regsPf0.contains o = true) : o % 8 = 0 := by
  have hall : ∀ o ∈ regsAll ++ regsPf0, o % 8 = 0 := by decide
  exact hall o (List.mem_append.mpr (h.imp List.contains_iff_mem.mp List.contains_iff_mem.mp))

/-- A telemetry record of function `n`: every function has TEL_ANV_REC, PF0 the other two as well (R460). -/
theorem badAccess_telemetry {s : State} {n o : Nat} (hl : s.fnLive n = true)
    (ho : o = 0x2100 ∨ (n = 0 ∧ (o = 0x2200 ∨ o = 0x2240))) : s.badAccess n o = false := by
  have hd : dgWindow o = false := dgWindow_eq_false (by omega)
  refine badAccess_eq_false hl ?_ (by simp [hd])
  rcases ho with rfl | ⟨rfl, rfl | rfl⟩ <;> simp [bar0Has]

/-- Settles O18: the halves of a register by `exec_splitReadLatch_reg`, the records by `badAccess_telemetry` (R446,
R459, R460). -/
theorem registerReadsLatch : Obligations.RegisterReadsLatch := by
  intro s n o f _
  refine ⟨?low, ?high, ?bad, ?anv, ?tick, ?sample, ?comparator⟩
  case low =>
    intro hb ho hr
    have h8 : o / 8 * 8 = o := Nat.div_mul_cancel (Nat.dvd_of_mod_eq_zero (aligned_of_reg hr))
    rw [exec_splitReadLatch_reg (by have := aligned_of_reg hr; omega) ho hb (h8.symm ▸ hr)]
    simp only [h8, if_true]
  case high =>
    intro hb ho hr
    have hal := aligned_of_reg hr
    have h8 : (o + 4) / 8 * 8 = o := by omega
    rw [exec_splitReadLatch_reg (by omega) ho hb (h8.symm ▸ hr)]
    simp only [h8, Nat.add_eq_left, OfNat.ofNat_ne_zero, if_false]
  case bad => exact fun hb ho => ⟨exec_splitReadLatch_bad ho hb, if_pos hb⟩
  case anv =>
    rintro hl rfl
    exact (if_neg (by simp [badAccess_telemetry hl])).trans (if_pos rfl)
  case tick =>
    rintro hl rfl rfl
    exact (if_neg (by simp [badAccess_telemetry hl])).trans rfl
  case sample =>
    rintro hl rfl rfl
    exact (if_neg (by simp [badAccess_telemetry hl])).trans rfl
  case comparator => exact fun time hc => if_pos hc

end Sys2Proof.Machine
end

section
/-!
SUPPORT. The mailbox: GO, the reply, and the registers of interrupts and events (R394, R400, R451, R452).
-/

namespace Sys2Proof.Machine

open Sys2Proof

/-- GO in a mailbox that is not BUSY accepts what stands in the area; an opcode outside the catalogue is answered
(R400). -/
theorem exec_go {s : State} {n : Nat} {f : Fn} (hf : s.fn? n = some f) (hl : s.fnLive n = true) (hst : f.mb.state ≠ 1) :
    exec (.go n) s =
      (let q := requestOf f.mb.area (areaSize n)
       let t := s.accept n q.1 q.2 f.mb.area
       if (catalogue.any fun m => m.opcode == q.1) = true then .next t
       else .next ((t.taken n).stage n q.1 q.2.tag (s.unknownReply q.2) [] none)) := by
  change execGo n s = _
  simp only [execGo, hf, hl, hst, Bool.true_eq_false, or_self, if_false]

/-- A function that a change of its registers leaves is the changed one. -/
theorem fn?_of_modFn {s : State} {n : Nat} {g : Fn → Fn} {f : Fn} (h : (s.modFn n g).fn? n = some f)
    (hg : ∀ x, (g x).num = x.num) : ∃ x, s.fn? n = some x ∧ g x = f :=
  Option.map_eq_some_iff.mp ((fn?_modFn hg).symm.trans h)

/-- Where no event was lost, no EVENTS_LOST entry is written (R394). -/
theorem writeOverflow_none {s : State} {n : Nat} (h : ∀ f, s.fn? n = some f → f.evq.overflow = 0) :
    s.writeOverflow n = s := by
  unfold State.writeOverflow
  split
  · rfl
  · next f hf => exact if_pos (Or.inl (h f hf))

theorem active_of_live {s : State} {n : Nat} {f : Fn} (hf : s.fn? n = some f) (hl : s.fnLive n = true) :
    f.st = .active := by
  simp only [State.fnLive, hf, Bool.and_eq_true, beq_iff_eq] at hl
  exact hl.1

/-- Settles O20: `exec_go` for GO (log 43), one case of the reply and of the ring register each for the rest (R394,
R400, R451, R452). -/
theorem mailboxTransport : Obligations.MailboxTransport := by
  intro s n v f hf hl
  refine ⟨?listed, ?unlisted, ?busy, ?reply, ?waits, ?intStatus, ?head, ?outside⟩
  case listed => exact fun hst hq => (exec_go hf hl hst).trans (if_pos hq)
  case unlisted =>
    intro hst hq hp
    have hreply : ∀ t : State, t.pw.st = s.pw.st → ∀ x : MbReq,
        t.unknownReply x = if x.hdrRsv = 0 then St.mbOpcode else St.mbFormat := fun t ht x => by
      rw [State.unknownReply, ht, if_neg hp, ite_not]
    rw [exec_go hf hl hst]
    simp only [hq, Bool.false_eq_true, if_false, hreply s rfl]
  case busy =>
    intro hst
    change execGo n s = _
    simp only [execGo, hf, hst, or_true, if_true]
  case reply =>
    intro r hr hfw hdue
    have hact := active_of_live hf hl
    change execMailboxReply n s = _
    simp only [execMailboxReply, hf, hr, hact, hfw, hdue]
    rfl
  case waits =>
    intro r hr hdue
    have hact := active_of_live hf hl
    change execMailboxReply n s = _
    simp [execMailboxReply, hf, hr, hact, hdue]
  case intStatus => exact if_pos hl
  case head =>
    intro hv hused hover
    have hin : ¬ (s.fnLive n = false ∨ f.evq.entries ≤ v ∨
        f.evq.used < (v + f.evq.entries - f.evq.head) % f.evq.entries) := by simp [hl, hv, hused]
    change execIntEvqHeadWrite n v s = _
    simp only [execIntEvqHeadWrite, hf, if_neg hin]
    rw [writeOverflow_none]
    intro g hg
    obtain ⟨x, hx, rfl⟩ := fn?_of_modFn hg fun _ => rfl
    cases hf.symm.trans hx
    exact hover
  case outside =>
    intro hout
    change execIntEvqHeadWrite n v s = _
    simp only [execIntEvqHeadWrite, hf, if_pos (Or.inr hout)]

end Sys2Proof.Machine
end

section
/-!
SUPPORT. The doorbells of a queue pair (R366, R369, R462).
-/

namespace Sys2Proof.Machine

open Sys2Proof

theorem pair?_of_live {s : State} {n q : Nat} {p : Pair} (h : s.pairLive n q = some p) : s.pair? n q = some p := by
  unfold State.pairLive at h
  split at h
  · next hp =>
    split at h
    · exact hp.trans h
    · cases h
  · cases h

theorem stopPair_active {s : State} {n q : Nat} {p : Pair} (st : Status) (hp : s.pair? n q = some p)
    (ha : p.st = .active) :
    s.stopPair n q st = (s.modPair n q fun p => { p with st := .stopped }).event 1 n [n] st q := by
  simp only [State.stopPair, hp, ha, if_true]

/-- The tail doorbell of a live pair: ignored, out of range, or the new tail (R366, R369). -/
theorem exec_sqTail {s : State} {n q : Nat} {p : Pair} (v : Nat) (hp : s.pairLive n q = some p) :
    exec (.sqTailDoorbellWrite n q v) s = if p.st ≠ .active ∨ v = p.sqTail then .next s
      else if p.depth ≤ v then .next (s.stopPair n q St.cmdDoorbell)
      else .next (s.modPair n q fun p => { p with sqTail := v }) := by
  change execSqTailDoorbellWrite n q v s = _
  simp only [execSqTailDoorbellWrite, hp]

/-- The head doorbell of a live pair: ignored, out of range, or the entries released (R366, R369). -/
theorem exec_cqHead {s : State} {n q : Nat} {p : Pair} (v : Nat) (hp : s.pairLive n q = some p) :
    exec (.cqHeadDoorbellWrite n q v) s = if p.st ≠ .active ∨ v = p.cqHead then .next s
      else if p.depth ≤ v ∨ p.cqUsed < (v + p.depth - p.cqHead) % p.depth then .next (s.stopPair n q St.cmdDoorbell)
      else .next (s.modPair n q fun x => { x with
        cqHead := v, entries := x.entries.drop ((v + p.depth - p.cqHead) % p.depth) }) := by
  change execCqHeadDoorbellWrite n q v s = _
  simp only [execCqHeadDoorbellWrite, hp]

/-- Settles O28: the three outcomes of `exec_sqTail` and `exec_cqHead`, and `stopPair_active` for the stop (R347,
R366, R369, R462). -/
theorem doorbells : Obligations.Doorbells := by
  intro s n q v
  refine ⟨fun hnone => ⟨?_, ?_⟩, fun p hp hst => ⟨?_, ?_⟩, fun p hp hact => ?live⟩
  · change execSqTailDoorbellWrite n q v s = _
    simp only [execSqTailDoorbellWrite, hnone]
  · change execCqHeadDoorbellWrite n q v s = _
    simp only [execCqHeadDoorbellWrite, hnone]
  · rw [exec_sqTail v hp, if_pos (Or.inl hst)]
  · rw [exec_cqHead v hp, if_pos (Or.inl hst)]
  case live =>
    have hstop := stopPair_active St.cmdDoorbell (pair?_of_live hp) hact
    have hon : ∀ {x : Prop}, ¬ x → ¬ (p.st ≠ .active ∨ x) := fun hx h => h.elim (· hact) hx
    refine ⟨?_, ?_, ?_, ?_, ?_, ?_⟩
    · rw [exec_sqTail _ hp, if_pos (Or.inr rfl)]
    · intro hv
      rw [exec_sqTail v hp, if_neg (Nat.not_le.mpr hv)]
      simp only [hact, ne_eq, not_true_eq_false, false_or, apply_ite Host.Outcome.next]
    · intro hv hne
      rw [exec_sqTail v hp, if_neg (hon hne), if_pos hv, hstop]
    · rw [exec_cqHead _ hp, if_pos (Or.inr rfl)]
    · intro hne hv hused
      rw [exec_cqHead v hp, if_neg (hon hne), if_neg (by omega)]
    · intro hne hout
      rw [exec_cqHead v hp, if_neg (hon hne), if_pos hout, hstop]

end Sys2Proof.Machine
end

section
/-!
SUPPORT. The hold-up measurement (R434, R435): a settled window, and what its end leaves in the power state.
-/

namespace Sys2Proof.Machine

open Sys2Proof

theorem settled_length {w : List Nat} (h : settled w = true) : w.length = 10 := by
  simp only [settled, Bool.and_eq_true, beq_iff_eq] at h
  exact h.1

/-- What the hold-up registers and the power state hold once a measurement has ended. -/
def State.holdupEnded (s : State) (st : Status) (ok : Bool) (h : Holdup) : State :=
  s.modPw fun p => { p with
    holdup := { h with phase := .idle, samples := [], status := st, ok := ok, longId := none }
    huLoad := false
    entry := if !ok && s.hz.ticking && p.entry == .none then .toHeld else p.entry }

/-- The end of a measurement is `holdupEnded`, and the result of its long command where it has one. -/
theorem endHoldup_silent (s : State) (st : Status) (ok : Bool) (h : Holdup) :
    (s.endHoldup st ok h).silent = (s.holdupEnded st ok h).silent := by
  unfold State.endHoldup
  dsimp only
  split
  · exact State.endLong_silent ..
  · rfl

theorem endHoldup_pw (s : State) (st : Status) (ok : Bool) (h : Holdup) :
    (s.endHoldup st ok h).pw = (s.holdupEnded st ok h).pw := pw_of_silent (endHoldup_silent ..)

theorem endHoldup_store (s : State) (st : Status) (ok : Bool) (h : Holdup) :
    (s.endHoldup st ok h).store = s.store := (store_of_silent (endHoldup_silent ..)).trans (s.modPw_store _)

/-- A sample of a bus that settles: the load goes on once the last ten lie together, else the window slides on (R434).
-/
theorem exec_holdupSample {s : State} {w : List Nat} (v : Nat) (hphase : s.pw.holdup.phase = .settling)
    (hlen : s.pw.holdup.samples.length ≤ 9) (hw : s.pw.holdup.samples ++ [v] = w) :
    exec (.holdupSample v) s = if settled w then .next (s.modPw fun p => { p with
        holdup := { p.holdup with phase := .loaded, samples := [], vStart := w.foldl (· + ·) 0 / 10 }, huLoad := true })
      else .next (s.modPw fun p => { p with holdup := { p.holdup with samples := w } }) := by
  refine (if_pos hphase).trans ?_
  simp only [Nat.sub_eq_zero_of_le hlen, List.drop_zero, hw]

/-- Settles O35: a window is settled only at ten samples (`settled_length`), and an ended measurement reads as
`holdupEnded` (R434, R435). -/
theorem holdupMeasurement : Obligations.HoldupMeasurement := by
  intro s v us
  refine ⟨?few, ?settles, ?timeout, ?holds, ?ends⟩
  case few =>
    intro hphase hlen
    have hnot : ¬ settled (s.pw.holdup.samples ++ [v]) = true := fun h => by
      have := settled_length h
      simp only [List.length_append, List.length_singleton] at this
      omega
    exact (exec_holdupSample v hphase hlen.le rfl).trans (if_neg hnot)
  case settles => exact fun w hphase hlen hw hs => (exec_holdupSample v hphase hlen.le hw.symm).trans (if_pos hs)
  case timeout =>
    intro hphase
    refine ⟨_, if_pos hphase, ?_⟩
    rw [endHoldup_pw, endHoldup_store]
    exact ⟨rfl, rfl, rfl, rfl⟩
  case holds =>
    intro hphase hdrop hus
    have hon : ¬ (3 * s.pw.holdup.vStart ≤ 100 * (s.pw.holdup.vStart - v) ∨ 2000 ≤ us) := by omega
    exact (if_pos hphase).trans (if_neg hon)
  case ends =>
    intro r hphase hr hend
    have hexec : exec (.holdupLoadSample v us) s =
        .next (s.endHoldup (if holdupOk s.pw.holdup r us (s.pw.holdup.vStart - v) then St.ok else St.pwHoldupLow)
          (holdupOk s.pw.holdup r us (s.pw.holdup.vStart - v))
          (holdupFigures s.pw.holdup r us (s.pw.holdup.vStart - v))) := by
      change execHoldupLoadSample v us s = _
      simp only [execHoldupLoadSample, hphase, if_true, if_pos hend, hr]
    refine ⟨_, hexec, ?_⟩
    rw [endHoldup_pw, endHoldup_store]
    refine ⟨rfl, rfl, rfl, rfl, rfl, fun hok ht he => ?_⟩
    simp [State.holdupEnded, hok, ht, he]

end Sys2Proof.Machine
end

section
/-!
SUPPORT. Firmware: the key slots, the download and the phases of an activation (R413 to R419).
-/

namespace Sys2Proof.Machine

open Sys2Proof

theorem getElem?_updAt_ne {α : Type} {i j : Nat} (h : j ≠ i) (l : List α) (f : α → α) : (updAt l i f)[j]? = l[j]? := by
  unfold updAt
  split
  · exact List.getElem?_set_ne h.symm
  · rfl

/-- Settles O15: the second refusal is that of the model's search for another unrevoked slot (R417). -/
theorem firmwareKeyRevoked : Obligations.FirmwareKeyRevoked := by
  intro s n r hturn
  have hleft : ((List.range 4).any fun i => i != fld r 0 2 && s.fw.revoked[i]? == some false) = true ↔
      ∃ i < 4, i ≠ fld r 0 2 ∧ s.fw.revoked[i]? = some false := by
    simp [List.any_eq_true]
  refine ⟨fun h => exec_turn_refuse rfl hturn (if_pos (h.imp_right fun hall => ?_)), fun hkey hother => ?_⟩
  · rw [← Bool.not_eq_true, State.taken_fw, hleft]
    rintro ⟨i, hi, hne, hf⟩
    exact hall i hi hne hf
  · refine ⟨_, exec_turn_basic rfl hturn (if_neg (not_or.mpr ⟨hkey, ?_⟩)), rfl, fun hk => ?_, fun j hj => ?_⟩
    · rw [Bool.not_eq_false, State.taken_fw]
      exact hleft.mpr hother
    · exact (getElem?_updAt ..).trans (by rw [State.taken_fw, List.getElem?_eq_getElem hk, Option.map_some])
    · exact getElem?_updAt_ne hj ..

theorem abortActivation_active {s : State} (st : Status) (h : s.fw.phase ≠ .idle) :
    s.abortActivation st = (s.endLong s.fw.longId st []).modFw fun f => { f with phase := .idle, holding := false } :=
  if_neg h

/-- Settles O56: each event looks at the download or at the phase of the activation alone (R413 to R419, log 37). -/
theorem firmwareChanges : Obligations.FirmwareChanges := by
  intro s file
  refine ⟨?noDownload, ?download, fun hp ht => if_pos ⟨hp, ht⟩, fun h => if_neg ?unprepared, ?timeout, fun h => if_neg h,
    ?handover, ?noHandover, ?hold, ?noHold, rfl⟩
  case noDownload =>
    intro h
    change execFwDownloadDone file s = _
    simp only [execFwDownloadDone, h]
  case download =>
    intro id k h
    change execFwDownloadDone file s = _
    simp only [execFwDownloadDone, h]
    rfl
  case unprepared => exact fun ⟨hp, ht⟩ => h.elim (· hp) (by simp [ht])
  case timeout =>
    intro hp
    refine (if_pos hp).trans (congrArg _ (abortActivation_active _ ?_))
    rw [hp]
    nofun
  case handover =>
    intro a hp
    refine ⟨?_, ?_⟩
    · change execFwReadyTimeout s = _
      simp only [execFwReadyTimeout, hp]
      rw [abortActivation_active _ (by rw [hp]; nofun)]
    · change execFwReady s = _
      simp only [execFwReady, hp]
  case noHandover =>
    intro hp
    refine ⟨?_, ?_⟩
    · change execFwReadyTimeout s = _
      unfold execFwReadyTimeout
      split
      · next a ha => exact absurd ha (hp a)
      · rfl
    · change execFwReady s = _
      unfold execFwReady
      split
      · next a ha => exact absurd ha (hp a)
      · rfl
  case hold => exact fun hh hp => (if_pos hh).trans (congrArg _ (abortActivation_active _ hp))
  case noHold =>
    intro h
    change execFwHoldTimeout s = _
    unfold execFwHoldTimeout
    split
    · next hh => exact congrArg _ (if_pos (h.resolve_left (by simp [hh])))
    · rfl

end Sys2Proof.Machine
end

section
/-!
SUPPORT. Mailbox commands of Zelim, power, firmware and functions at their turn: refusals ruled out one by one, the
effect of the branch that is left.
-/

namespace Sys2Proof.Machine

open Sys2Proof

/-- A basic command that its rules refuse under one condition (R402). -/
theorem exec_turn_basicUnless {i : Instr} {m : MbMeta} {n : Nat} {r : MbReq} {s t : State} {st : Status} {v : List Nat}
    {body : State → MbResult} {p : Prop} [Decidable p] (hi : exec i s = .next (s.mbRun m n r body)) (h : s.turn m n r)
    (hb : body (s.taken n) = if p then .refuse st [] else .basic v t) :
    exec i s = if p then .next ((s.taken n).stage n m.opcode r.tag st [] none) else .next (t.answer m n r v) := by
  by_cases hp : p
  · rw [if_pos hp]
    exact exec_turn_refuse hi h (hb.trans (if_pos hp))
  · rw [if_neg hp]
    exact exec_turn_basic hi h (hb.trans (if_neg hp))

/-- A long command is refused while eight of its function are open (R403). -/
theorem exec_turn_longLimit {i : Instr} {m : MbMeta} {n : Nat} {r : MbReq} {s : State} {body : State → MbResult}
    {go : State → State} (hi : exec i s = .next (s.mbRun m n r body)) (h : s.turn m n r) (hl : ¬ s.longsOpen n < 8)
    (hb : body (s.taken n) = (s.taken n).long m n go) :
    exec i s = .next ((s.taken n).stage n m.opcode r.tag St.mbLongLimit [] none) :=
  exec_turn_refuse hi h (hb.trans (if_pos (Nat.not_lt.mp hl)))

/-- Settles O13: at the turn of each command its refusals are ruled out one by one, and the body's last branch is left
(R307, R317 to R337, logs 115 and 117). -/
theorem groupCommands : Obligations.GroupCommands := by
  intro s n r
  refine ⟨?peer, ?form, ?join, ?leaveMember, ?leaveMaster, ?member, ?routeSet, ?routeClear, ?mirrorBreak,
    fun hturn => exec_turn_basic rfl hturn rfl⟩
  case peer =>
    intro hturn hcert hne hup
    refine exec_turn_basic rfl hturn (if_neg ?_)
    rintro (hother | hzero | hon)
    · exact hother hcert
    · exact hne hzero
    · exact Bool.false_ne_true (hup.symm.trans hon)
  case form =>
    intro hturn hnode hsolo hlongs
    exact (exec_turn_long (i := .zlGroupForm n r) rfl hturn hlongs
      ((if_neg hnode).trans (if_neg (not_not_intro hsolo))) :)
  case join =>
    intro hturn hnode hgrouped hjoiner hlongs
    have hout : ¬ ((s.taken n).grouped = true ∨ (s.taken n).joiner = true) := by simp [hgrouped, hjoiner]
    exact (exec_turn_long (i := .zlGroupJoin n r) rfl hturn hlongs ((if_neg hnode).trans (if_neg hout)) :)
  case leaveMember =>
    rintro hturn (hg | ⟨hg, hm⟩)
    · exact exec_turn_persist rfl hturn (by simp only [State.taken_zl, hg])
    · exact exec_turn_persist rfl hturn (by simp only [State.taken_zl, hg]; exact if_pos hm)
  case leaveMaster =>
    intro hturn hg halone
    exact exec_turn_persist rfl hturn (by simp only [State.taken_zl, hg]; exact if_neg (ne_true_of_eq_false halone))
  case member =>
    intro j hturn hg hj
    exact exec_turn_basic rfl hturn ((if_neg (not_not_intro hg)).trans (by simp only [State.taken_zl, hj]))
  case routeSet =>
    intro rest x hturn hx hstream hbound
    refine exec_turn_basicUnless rfl hturn (if_neg ?_)
    simp only [State.taken_store, hx, Option.elim_some, hstream, hbound, not_true_eq_false, or_self, not_false_iff]
  case routeClear =>
    intro here hturn
    by_cases hh : s.zl.routes.any here = true
    · exact (exec_turn_basic rfl hturn (if_pos hh)).trans (if_pos hh).symm
    · exact (exec_turn_refuse rfl hturn (if_neg hh)).trans (if_neg hh).symm
  case mirrorBreak =>
    intro x hturn hx hrep
    refine exec_turn_persist rfl hturn ?_
    have hne : ¬ (x.mirror = true ∧ x.replica = true) := by simpa using hrep
    simp only [State.taken_store, hx]
    exact if_neg hne

/-- Settles O14: the refusals of each row, then its one branch; `pw.state.set` and `fw.commit` by the cases of R426
and R416 (logs 33, 121, 130). -/
theorem powerAndFirmwareCommands : Obligations.PowerAndFirmwareCommands := by
  intro s n r
  refine ⟨?pstate, ?measure, ?measuring, ?record, ?download, ?rescue, ?activate, ?hot, ?commit, ?challenge, ?unlock,
    fun hturn => exec_turn_basic rfl hturn rfl⟩
  case pstate =>
    intro hturn hok
    by_cases hst : s.pw.st = pstateOf (fld r 0 3)
    · exact (exec_turn_basic rfl hturn (by simp only [hok]; exact if_pos hst)).trans (if_pos hst).symm
    rw [if_neg hst]
    by_cases hq : pstateOf (fld r 0 3) = .p3 ∨ pstateOf (fld r 0 3) = .p4
    · rw [if_pos hq]
      by_cases hl : s.longsOpen n < 8
      · rw [if_pos hl]
        exact (exec_turn_long (i := .pwStateSet n r) rfl hturn hl
          (by simp only [hok]; exact (if_neg hst).trans (if_pos hq)) :)
      · rw [if_neg hl]
        exact (exec_turn_longLimit (i := .pwStateSet n r) rfl hturn hl
          (by simp only [hok]; exact (if_neg hst).trans (if_pos hq)) :)
    · exact (exec_turn_later rfl hturn (by simp only [hok]; exact (if_neg hst).trans (if_neg hq))).trans (if_neg hq).symm
  case measure =>
    intro hturn hidle h3 h4 hlongs
    have hfree : ¬ ((s.taken n).pw.holdup.phase ≠ .idle ∨
        ((s.taken n).pw.entry = .toP3 ∨ (s.taken n).pw.entry = .toP4)) := by simp [hidle, h3, h4]
    have hexec := (exec_turn_long (i := .pwHoldupMeasure n r) rfl hturn hlongs (if_neg hfree) :)
    refine ⟨fun hbit => ?_, fun x hx => ?_⟩
    · have hnone : recordOf r = none := by simp [recordOf, hbit]
      rw [hnone] at hexec
      exact hexec
    · rw [hx] at hexec
      exact hexec
  case measuring => exact fun hturn hp => exec_turn_refuse rfl hturn (if_pos (Or.inl hp))
  case record =>
    intro hnext hn hhalt hrec hrsv hlen h31 hbit hnone
    have hcheck : (s.taken n).mbCheck Mb.pwHoldupMeasure n r = some St.pwHoldupRecord := by
      simp [State.mbCheck, State.row4, State.ownRows, mayIssue, Mb.pwHoldupMeasure, hn, hhalt, hrec, hrsv, hlen, h31,
        hbit, hnone]
    exact congrArg _ (mbRun_refused hnext hcheck _)
  case download =>
    intro hturn hfree hrec hcom hlongs
    have hgo : ¬ ((s.taken n).fwInProgress = true ∨ (s.fw.recovery = false ∧ s.fw.isCommitted = false)) := by
      rintro (h | ⟨-, h⟩)
      · exact Bool.false_ne_true (hfree.symm.trans h)
      · exact Bool.false_ne_true (h.symm.trans hcom)
    have hexec := (exec_turn_long (i := .fwDownload n r) rfl hturn hlongs (if_neg hgo) :)
    simp only [State.taken_fw, hrec, Bool.false_eq_true, if_false] at hexec
    exact hexec
  case rescue =>
    intro hturn hfree hrec hlongs
    have hgo : ¬ ((s.taken n).fwInProgress = true ∨ (s.fw.recovery = false ∧ s.fw.isCommitted = false)) := by
      rintro (h | ⟨h, -⟩)
      · exact Bool.false_ne_true (hfree.symm.trans h)
      · exact Bool.false_ne_true (h.symm.trans hrec)
    have hexec := (exec_turn_long (i := .fwDownload n r) rfl hturn hlongs (if_neg hgo) :)
    simp only [State.taken_fw, hrec, if_true] at hexec
    exact ⟨_, choose_cases (P := fun k => k < 2) (fun _ => of_decide_eq_true) one_lt_two, hexec⟩
  case activate =>
    intro hturn hfree hvalid hreset hlongs
    exact (exec_turn_long (i := .fwActivate n r) rfl hturn hlongs ((if_neg (ne_true_of_eq_false hfree)).trans
      ((if_neg (not_not_intro hvalid)).trans (if_pos (beq_iff_eq.mpr hreset)))) :)
  case hot =>
    intro hturn hfree hvalid hreset hneeds hlongs
    exact (exec_turn_long (i := .fwActivate n r) rfl hturn hlongs ((if_neg (ne_true_of_eq_false hfree)).trans
      ((if_neg (not_not_intro hvalid)).trans ((if_neg (by simp [hreset])).trans
        (if_neg (ne_true_of_eq_false hneeds))))) :)
  case commit =>
    intro hturn
    by_cases hc : s.fw.isCommitted = true
    · exact (exec_turn_basic rfl hturn (if_pos hc)).trans (if_pos hc).symm
    rw [if_neg hc]
    by_cases hb : bitAt s.free.1.toNat 0 = true
    · exact (exec_turn_later rfl hturn ((if_neg hc).trans (if_pos hb))).trans (if_pos hb).symm
    · exact (exec_turn_basic rfl hturn ((if_neg hc).trans (if_neg hb))).trans (if_neg hb).symm
  case challenge => exact fun hturn hd => exec_turn_basic rfl hturn (if_neg hd)
  case unlock =>
    intro hturn hd
    by_cases hu : s.unlockOk r = true
    · exact (exec_turn_basic rfl hturn ((if_neg hd).trans (if_pos hu))).trans (if_pos hu).symm
    · exact (exec_turn_later rfl hturn ((if_neg hd).trans (if_neg hu))).trans (if_neg hu).symm

/-- An abort that finds its command ends as `abortCmd` says (R385). -/
theorem exec_fnCmdAbort {s : State} {n k : Nat} {r : MbReq} {p : Pair} {c : Cmd} (hturn : s.turn Mb.fnCmdAbort n r)
    (hk : (s.taken n).targetFn n (fld r 32 16) = some k) (hp : (s.taken n).pair? k (fld r 0 16) = some p)
    (hc : (s.taken n).cmd? k (fld r 0 16) (fld r 16 16) = some c) :
    exec (.fnCmdAbort n r) s =
      .next ((s.taken n).finish Mb.fnCmdAbort n r fun t => t.abortCmd n r.tag c) := by
  rw [exec_turn rfl hturn]
  simp only [State.finish, hk, hp, hc, Option.isNone_some, Bool.false_eq_true, if_false]

section AbortCmd
variable {s : State} {n tag : Nat} {c : Cmd}

theorem abortCmd_unstarted (ho : ¬ (c.e.opc = opExec ∧ c.stage = .execing)) (hu : c.unstarted = true) :
    s.abortCmd n tag c = .basic [1] ((s.endCmd c St.cmdAborted 0).modAnv fun a => { a with
      insts := a.insts.filter fun i => i.id != c.inst || c.e.opc != opExec }) :=
  (if_neg ho).trans (if_pos hu)

theorem abortCmd_started (ho : ¬ (c.e.opc = opExec ∧ c.stage = .execing)) (hu : c.unstarted = false) :
    s.abortCmd n tag c = .basic [2] s :=
  (if_neg ho).trans (if_neg (ne_true_of_eq_false hu))

/-- The abort of an EXEC with an instance goes by the instance's state: none runs yet, it runs, or it ends (R385). -/
theorem abortCmd_exec {x : InstState} (ho : c.e.opc = opExec) (hx : c.stage = .execing) (he : s.execState c = some x) :
    s.abortCmd n tag c = match x with
      | .waitEngines => .basic [1] ((s.endCmd c St.cmdAborted 0).modAnv fun a => { a with
          insts := a.insts.filter fun i => i.id != c.inst })
      | .starting | .running => .later ((s.stopInst c.inst St.cmdAborted).modInst c.inst fun i => { i with
          abortBy := some (n, tag) })
      | .ending => .basic [2] s := by
  refine (if_pos ⟨ho, hx⟩).trans ?_
  simp only [he]
  cases x <;> rfl

end AbortCmd

/-- Settles O10: the refusals of each row, then its effect; `fn.cmd.abort` by what stands of its target
(`exec_fnCmdAbort`, R385). -/
theorem functionCommandsActAtOnce : Obligations.FunctionCommandsActAtOnce := by
  intro s n r
  refine ⟨?create, ?destroy, ?noFunction, ?reset, ?queueCreate, ?queueDelete, ?abort, ?events⟩
  case create => exact fun hturn h => exec_turn_basic rfl hturn (by simp only [h])
  case destroy =>
    intro hturn he hz
    exact exec_turn_basic rfl hturn (if_neg (by simp [he, hz]))
  case noFunction =>
    intro hturn he
    exact exec_turn_refuse rfl hturn (if_pos (Or.inl (by simp [he])))
  case reset =>
    intro hturn
    by_cases he : (s.taken n).fnExists (fld r 0 16) = true
    · exact (exec_turn_basic rfl hturn (if_neg (not_not_intro he))).trans (if_pos he).symm
    · exact (exec_turn_refuse rfl hturn (if_pos he)).trans (if_neg he).symm
  case queueCreate =>
    intro hturn hq hnew hdepth hvec hrsv hrsv' hsq hcq hdsq hdcq
    exact exec_turn_basic rfl hturn ((if_neg (by simp [hq, hnew])).trans
      ((if_neg (by simp [hdepth, hvec, hrsv, hrsv', hsq, hcq])).trans (if_neg (by simp [hdsq, hdcq]))))
  case queueDelete =>
    intro p hturn hp hst hlongs
    exact (exec_turn_long (i := .fnQueueDelete n r) rfl hturn hlongs (by simp only [hp]; exact if_neg hst) :)
  case abort =>
    intro k p hturn hk hp
    refine ⟨fun hc => exec_turn_basic rfl hturn (by simp only [hk, hp, hc]; rfl), fun c hc => ?_⟩
    have hexec := exec_fnCmdAbort hturn hk hp hc
    refine ⟨fun ho hu => ?_, fun ho hu => ?_, fun ho hx he => ?_, fun ho hx he => ?_, fun ho hx he => ?_⟩ <;> rw [hexec]
    · rw [finish_basic (abortCmd_unstarted (fun h => ho h.1) hu)]
    · rw [finish_basic (abortCmd_started (fun h => ho h.1) hu)]
    · rcases he with he | he <;> rw [finish_later (abortCmd_exec ho hx he)]
    · rw [finish_basic (abortCmd_exec ho hx he)]
    · rw [finish_basic (abortCmd_exec ho hx he)]
  case events =>
    intro hturn hn hbase hrsv hdma
    exact exec_turn_basic rfl hturn ((if_neg (by simp [hn, hbase, hrsv])).trans (if_neg (by simp [hdma])))

end Sys2Proof.Machine
end

section
/-!
SUPPORT. The USB4 link, Bus Master Enable and D3hot (R339 to R362).
-/

namespace Sys2Proof.Machine

open Sys2Proof

theorem State.devEvent_sansEvents (s : State) (st : Status) (d : Nat) : (s.devEvent st d).sansEvents = s.sansEvents :=
  State.event_sansEvents ..

/-- A link that trains below LINK_FLOOR: held writes and an event aside, the link alone changes (R342). -/
theorem exec_linkTrained_below {s : State} {g r : Nat} (h2 : 2 ≤ g) (hcap : g ≤ s.param 0x0210 0)
    (hfloor : g < s.inForce.linkFloor) : ∃ t, exec (.usb4LinkTrained g r) s = .next t ∧
      t.sansEvents = (s.modLink fun l => { l with
        gen := g, retimers := min 2 r, bonding := false, recovering := false, below := true
        trained := l.trained + 1, retrains := if l.trained = 0 then l.retrains else sat32 (l.retrains + 1) }).sansEvents := by
  have hlow : decide (g < s.inForce.linkFloor) = true := decide_eq_true hfloor
  refine ⟨_, if_neg (not_or.mpr ⟨Nat.not_lt.mpr h2, Nat.not_lt.mpr hcap⟩), ?_⟩
  simp only [hlow, Bool.or_true, true_and]
  split
  · exact State.devEvent_sansEvents ..
  · rfl

/-- Settles O21: a trained link below LINK_FLOOR sends at most an event, and the rest is one branch each (R339 to
R362). -/
theorem linkAndBusMaster : Obligations.LinkAndBusMaster := by
  intro s n
  refine ⟨?trained, ?floor, fun hg => if_neg hg, rfl, rfl, rfl, rfl, rfl, rfl, ?held⟩
  case trained =>
    intro g r h2 hcap hfloor
    have hlow : decide (g < s.inForce.linkFloor) = false := decide_eq_false (Nat.not_lt.mpr hfloor)
    refine (if_neg (not_or.mpr ⟨Nat.not_lt.mpr h2, Nat.not_lt.mpr hcap⟩)).trans ?_
    simp only [hlow, Bool.or_false, Bool.false_eq_true, false_and, if_false]
  case floor =>
    intro g r h2 hcap hfloor
    obtain ⟨t, hexec, ht⟩ := exec_linkTrained_below (r := r) h2 hcap hfloor
    exact ⟨t, hexec, (congrArg (·.link.gen) ht :), (congrArg (·.link.below) ht :),
      (congrArg (·.store) ht :), (congrArg (·.hz) ht :), (congrArg (·.q.cmds) ht :)⟩
  case held =>
    intro w hw
    constructor <;> intro hdma <;> simp [State.releaseHeld, hw, hdma]

end Sys2Proof.Machine
end

section
/-!
SUPPORT. A reset of a function ends its instances, and an `fn.cmd.abort` that waits for the end of one of them is then
answered in the mailbox of its issuer (R385).
-/

namespace Sys2Proof.Machine

open Sys2Proof

/-- The `fn.cmd.abort` of PF0, with tag 7, that waits in its mailbox. -/
def awaitedAbort : MbReq := ⟨0, 8, 7, 0⟩

/-- An instance of function 1 that runs, and whose end PF0's `fn.cmd.abort` waits for. -/
def abortedInst : Inst :=
  { id := 1, fn := 1, qid := 1, cid := 5, nsid := 1, handle := 1, blk := ⟨0, 1, 0, 1, 1, 0, 0, 0, 0, 0, 0, 0, 0, 0⟩
    st := .running, engines := [0], delivered := 0, nextEng := 0, chunks := [], puts := [], argAddr := 0, stackAt := 0
    code := 0, resultLen := 0, status := St.cmdAborted, abortBy := some (0, awaitedAbort.tag) }

/-- PF0 and function 1 are ACTIVE, and PF0 waits for the end of the instance that it aborted. -/
def abortAwaited : State := { State.reset with
  fns := [{ Fn.fresh 0 .active Grant.pf0Default with
    mb := { Mailbox.reset with state := 1, request := some (0x020C, awaitedAbort) } }, Fn.fresh 1 .active Grant.pf0Default]
  anv := { Anvil.reset with insts := [abortedInst] } }

/-- The reset of function 1 answers the abort in PF0's mailbox. -/
theorem flr_answers_awaitedAbort : ∃ t, exec (.flr 1) abortAwaited = .next t ∧ t.fn? 0 ≠ abortAwaited.fn? 0 :=
  ⟨_, rfl, by decide⟩

/-- Refutes O22: a reset of function 1 is said to leave every other function as it is, but where PF0 waits for the end
of
an instance of function 1 that it aborted, the reset makes the reply ready in PF0's mailbox (R385). -/
theorem not_functionResets : ¬ Obligations.FunctionResets := by
  intro h
  obtain ⟨hflr, -⟩ := h abortAwaited 1
  obtain ⟨t, hexec, -, -, -, -, -, hothers⟩ := hflr one_ne_zero rfl
  obtain ⟨u, hexec', hchanged⟩ := flr_answers_awaitedAbort
  cases hexec.symm.trans hexec'
  exact hchanged (hothers 0 zero_ne_one)

end Sys2Proof.Machine
end

section
/-!
SUPPORT. Entries that are fetched, and the ends of commands and of pairs (R343 to R387).
-/

namespace Sys2Proof.Machine

open Sys2Proof

/-- The fetch of one entry takes it from the pair whose turn it is, and the turn stays with that pair (R366). -/
theorem exec_sqFetch_one {s : State} {n left : Nat} {p : Pair} (e : SqEntry) (hf : s.fetches n = true)
    (hp : s.nextPair n (assoc s.q.rr n, 0) = some (p, left)) :
    exec (.sqSubmissionFetch n [e]) s = .next ((s.fetchOne p e).modQ fun z => { z with rr := setAssoc z.rr n p.qid }) := by
  refine (if_pos hf).trans ?_
  simp only [State.fetchLoop, hp]

section FetchOne
variable {s : State} {p : Pair} {e : SqEntry}

theorem fetchOne_halted (h : s.hz.st = .halted) : s.fetchOne p e =
    (s.modPair p.fn p.qid fun x => { x with sqHead := (x.sqHead + 1) % x.depth }).postCq p.fn p.qid e.cid St.halted 0 :=
  if_pos h

theorem fetchOne_cidInUse (h : s.hz.st ≠ .halted) (hc : (s.cmd? p.fn p.qid e.cid).isSome = true) : s.fetchOne p e =
    (s.modPair p.fn p.qid fun x => { x with sqHead := (x.sqHead + 1) % x.depth }).postCq p.fn p.qid e.cid
      St.cmdCidInUse 0 :=
  (if_neg h).trans (if_pos hc)

theorem fetchOne_badOpcode (h : s.hz.st ≠ .halted) (hc : s.cmd? p.fn p.qid e.cid = none) (ho : e.opc = 0 ∨ 6 < e.opc) :
    s.fetchOne p e =
      (s.modPair p.fn p.qid fun x => { x with sqHead := (x.sqHead + 1) % x.depth }).postCq p.fn p.qid e.cid
        St.cmdOpcode 0 :=
  (if_neg h).trans ((if_neg (by simp [hc])).trans (if_pos ho))

theorem fetchOne_new (h : s.hz.st ≠ .halted) (hc : s.cmd? p.fn p.qid e.cid = none) (h1 : 1 ≤ e.opc) (h6 : e.opc ≤ 6) :
    s.fetchOne p e = (s.modPair p.fn p.qid fun x => { x with sqHead := (x.sqHead + 1) % x.depth }).modQ fun z => { z with
      nextSeq := z.nextSeq + 1, cmds := z.cmds ++ [Cmd.fresh p.fn p.qid z.nextSeq s.hz.epoch e] } :=
  (if_neg h).trans ((if_neg (by simp [hc])).trans (if_neg (by omega)))

end FetchOne

theorem endLong_pairs (s : State) (id : Nat) (st : Status) (v : List Nat) :
    (s.endLong id st v).q.pairs = s.q.pairs := by
  unfold State.endLong
  split
  · rfl
  · exact (congrArg (·.q.pairs) (State.event_sansEvents ..) :)

theorem event_pairs (s : State) (cls fn : Nat) (l : List Nat) (st : Status) (d : Nat) :
    (s.event cls fn l st d).q.pairs = s.q.pairs :=
  (congrArg (·.q.pairs) (State.event_sansEvents ..) :)

/-- The one expired command of which nothing is admitted ends with its timeout (R387). -/
theorem expire_unstarted {s : State} {c : Cmd} (ho : c.e.opc ≠ opExec) (hd : c.done = 0) (hp : c.partLeft = true) :
    s.expire c = s.endCmd c St.cmdTimeout 0 := by
  refine (if_neg fun h => ho h.1).trans ((if_pos ⟨hd, hp⟩).trans ?_)
  have hkeep : ∀ l : List Inst, (l.filter fun i => i.id != c.inst || c.e.opc != opExec) = l := fun l => by simp [ho]
  simp only [hkeep]
  rfl

/-- A deleted pair without commands goes, with its event and the result of its long command (R369). -/
theorem exec_queueDeleteDone {s : State} {n q : Nat} {p : Pair} (hp : s.pair? n q = some p) (hst : p.st = .deleting)
    (hnone : ∀ c ∈ s.q.cmds, ¬ (c.fn = n ∧ c.qid = q)) (hheld : s.heldOf n q = 0) :
    exec (.queueDeleteDone n q) s = .next (((s.modQ fun z => { z with
      pairs := z.pairs.filter fun p => !(p.fn == n && p.qid == q) }).event 1 n [n] St.ok q).endLong p.longId St.ok []) := by
  have hany : ¬ (s.q.cmds.any fun c => c.fn == n && c.qid == q) = true := by simpa using hnone
  change execQueueDeleteDone n q s = _
  simp only [execQueueDeleteDone, hp, if_pos (And.intro hst (And.intro hany hheld))]

/-- Settles O29: one fetched entry by `exec_sqFetch_one`, each end by the lemma of its own operation (R343 to R387,
log
138). -/
theorem fetchAndEnds : Obligations.FetchAndEnds := by
  intro s n q
  refine ⟨?fetch, ?dma, ?entry, ?expiry, ?noExpiry, ?deletion, ?coalesce, fun h => if_pos h, fun h => if_neg (by simp [h])⟩
  case fetch =>
    intro p left e hf hp
    have hexec := exec_sqFetch_one e hf hp
    refine ⟨fun h hc h1 h6 => ?_, fun h hc => ?_, fun h hc ho => ?_, fun h => ?_⟩ <;> rw [hexec]
    · rw [fetchOne_new h hc h1 h6]
    · rw [fetchOne_cidInUse h hc]
    · rw [fetchOne_badOpcode h hc ho]
    · rw [fetchOne_halted h]
  case dma =>
    intro c cid hc
    have hexec : exec (.dmaReadError (.command n q cid)) s = .next (s.cutShort c St.fnDmaError) := by
      change execDmaReadError (.command n q cid) s = _
      simp only [execDmaReadError, hc]
    rw [hexec]
    exact ⟨fun hd => congrArg _ (if_pos hd), fun hd => congrArg _ (if_neg hd)⟩
  case entry => exact fun p hp hact => congrArg _ (stopPair_active _ hp hact)
  case expiry =>
    intro c hon ht hphase hexp hdue hd hp ho
    refine (if_pos ⟨hon, ht, hphase⟩).trans ?_
    simp only [hexp, List.foldl_cons, List.foldl_nil, hdue, Bool.false_eq_true, if_false, expire_unstarted ho hd hp]
    rfl
  case noExpiry =>
    intro hexp
    change execCommandTimeoutScan s = _
    simp only [execCommandTimeoutScan, hexp, List.foldl_nil, ite_self]
  case deletion =>
    intro p hp hst hnone hheld
    refine ⟨_, exec_queueDeleteDone hp hst hnone hheld, ?_, ?_, ?_, ?_⟩
    · rw [State.pair?, endLong_pairs, event_pairs]
      exact List.find?_eq_none.mpr fun x hx h => Bool.false_ne_true ((Bool.not_eq_true' _).mp
        (List.mem_filter.mp hx).2 ▸ h)
    · rw [store_of_silent (State.endLong_silent ..), store_of_sansEvents (State.event_sansEvents ..)]
      rfl
    · rw [State.endLong_cmds, cmds_of_sansEvents (State.event_sansEvents ..)]
      rfl
    · intro x hx hne
      rw [endLong_pairs, event_pairs]
      exact List.mem_filter.mpr ⟨hx, by simpa [imp_iff_not_or] using hne⟩
  case coalesce =>
    intro p hp hc
    change execMsixCoalesceExpiry n q s = _
    simp only [execMsixCoalesceExpiry, hp, if_pos hc]

end Sys2Proof.Machine
end

section
/-!
SUPPORT. Frames on a port (R303 to R332): what one that is not up makes of them, and what one that is up takes.
-/

namespace Sys2Proof.Machine

open Sys2Proof

/-- What a frame meets on a port that is not up: a violation while the port is in a step, else nothing (R304, R329).
-/
def State.offLink (s : State) (p : Nat) : State :=
  match (s.port p).st with
  | .step _ => s.openViolation p
  | _ => s

theorem offLink_step {s : State} {p n : Nat} (h : (s.port p).st = .step n) : s.offLink p = s.openViolation p := by
  simp only [State.offLink, h]

theorem offLink_idle {s : State} {p : Nat} (h : ∀ n, (s.port p).st ≠ .step n) : s.offLink p = s := by
  unfold State.offLink
  split
  · next n hn => exact absurd hn (h n)
  · rfl

theorem portUp_eq_false {s : State} {p : Nat} (h : (s.port p).st ≠ .up) : s.portUp p = false := by
  simp [State.portUp, h]

section OffLink
variable {s : State} {p : Nat} (h : (s.port p).st ≠ .up)
include h

theorem onPort_offLink (go : State → State) : s.onPort p go = s.offLink p := by
  cases hst : (s.port p).st with
  | up => exact absurd hst h
  | _ => simp only [State.onPort, State.offLink, hst]

theorem onFrame_offLink (f : Frame) (len : Nat) (go : State → State) : s.onFrame p f len go = s.offLink p := by
  cases hst : (s.port p).st with
  | up => exact absurd hst h
  | _ => simp only [State.onFrame, State.offLink, hst]

theorem exec_unknownFrameType_offLink (f : Frame) : exec (.unknownFrameType p f) s = .next (s.offLink p) := by
  change execUnknownFrameType p f s = _
  cases hst : (s.port p).st with
  | up => exact absurd hst h
  | _ => simp only [execUnknownFrameType, State.offLink, hst]

end OffLink

/-- A frame that a port sends takes its next SEQ and stays in its retransmit buffer (R305). -/
def Port.withSent (x : Port) (f : Sent) : Port :=
  { x with txSeq := x.txSeq + 1, unacked := x.unacked ++ [(x.txSeq + 1, f)], ackDue := false }

/-- The state in which port `p` sent a frame. -/
def State.sentOn (s : State) (p typ dst rid arg : Nat) : State :=
  (s.modPort p (·.withSent ⟨p, typ, dst, rid, arg⟩)).modZl fun z => { z with sent := z.sent ++ [⟨p, typ, dst, rid, arg⟩] }

theorem sendFrame_up {s : State} {p : Nat} (h : s.portUp p = true) (typ dst rid arg : Nat) :
    s.sendFrame p typ dst rid arg = s.sentOn p typ dst rid arg := by
  simp only [State.sendFrame, h, Bool.true_or, if_true]
  rfl

theorem sendFrame_opening {s : State} {p n typ : Nat} (h : (s.port p).st = .step n) (ht : typ ≤ 3) (dst rid arg : Nat) :
    s.sendFrame p typ dst rid arg = s.sentOn p typ dst rid arg := by
  simp only [State.sendFrame, h, ht, decide_true, Bool.or_true, if_true]
  rfl

theorem sendFrame_shut {s : State} {p : Nat} (hup : (s.port p).st ≠ .up) (hstep : ∀ n, (s.port p).st ≠ .step n)
    (typ dst rid arg : Nat) : s.sendFrame p typ dst rid arg = s := by
  cases hst : (s.port p).st with
  | up => exact absurd hst hup
  | step n => exact absurd hst (hstep n)
  | _ => simp only [State.sendFrame, portUp_eq_false hup, hst, Bool.or_self, Bool.false_eq_true, if_false]


theorem port_sentOn {s : State} {p : Nat} (hp : p < s.zl.ports.length) (typ dst rid arg : Nat) :
    (s.sentOn p typ dst rid arg).port p = (s.port p).withSent ⟨p, typ, dst, rid, arg⟩ :=
  port_modPort hp _

section OnFrame
variable {s : State} {p len : Nat} {f : Frame} (h : (s.port p).st = .up) (go : State → State)
include h

theorem onFrame_bad (hok : frameOk f len = false) :
    s.onFrame p f len go = (s.sendNak p f.src f.rid f.seq St.zlFrame).violation p St.zlFrame := by
  simp only [State.onFrame, h, hok, if_true]

theorem onFrame_gap (hok : frameOk f len = true) (hgap : f.tagOk = false ∨ (s.port p).rxSeq + 1 < f.seq) :
    s.onFrame p f len go = (s.sendFrame p fRetrans adjacent 0 ((s.port p).rxSeq + 1)).openViolation p := by
  simp only [State.onFrame, h, hok, Bool.true_eq_false, if_false, if_pos hgap]

theorem onFrame_old (hok : frameOk f len = true) (htag : f.tagOk = true) (hseq : f.seq ≤ (s.port p).rxSeq) :
    s.onFrame p f len go = s.modPort p fun x => { x with ackDue := true } := by
  have hgap : ¬ (f.tagOk = false ∨ (s.port p).rxSeq + 1 < f.seq) := by simp [htag]; omega
  simp only [State.onFrame, h, hok, Bool.true_eq_false, if_false, if_neg hgap, if_pos hseq]

end OnFrame

/-- A relayed frame goes out on the port of the shortest path, or is NAKed where there is none (R308, R332). -/
theorem relay_none {s : State} {p : Nat} {f : Frame} (hd : f.dst ≠ s.node)
    (hh : hopOf f.dst s.cablesNow s.node = none) :
    s.relay p f = (s.sendNak p f.src f.rid f.seq St.zlNoRoute).violation p St.zlNoRoute := by
  have hr : s.routePort f.dst = 3 := by rw [State.routePort, if_neg hd, hh, Option.elim_none]
  exact if_pos hr

theorem relay_some {s : State} {p : Nat} {f : Frame} {h : Hop} (hd : f.dst ≠ s.node)
    (hh : hopOf f.dst s.cablesNow s.node = some h) (h3 : h.port < 3) :
    s.relay p f = s.sendFrame h.port f.typ f.dst f.rid f.arg := by
  have hr : s.routePort f.dst = h.port := by rw [State.routePort, if_neg hd, hh, Option.elim_some]
  refine (if_neg ?_).trans (by rw [hr])
  rw [hr]
  exact h3.ne

/-- Settles O52: off the link a frame is `offLink`, and on a port that is up `onFrame` has one lemma for each way to
end
(R303 to R332, log 98). -/
theorem framesOnAPort : Obligations.FramesOnAPort := by
  intro s p a b c f bs ms cs ns st i q x group link
  have hoff : x.st ≠ .up → ∀ y ∈ link ++ group, exec y s = .next (s.offLink p) := fun h => by
    have hport : ∀ go, (.next (s.onPort p go) : Res) = .next (s.offLink p) := fun go => by rw [onPort_offLink h]
    have hframe : ∀ n go, (.next (s.onFrame p f n go) : Res) = .next (s.offLink p) := fun n go => by
      rw [onFrame_offLink h]
    simp only [link, group, List.forall_mem_append, List.forall_mem_cons]
    exact ⟨⟨hframe _ _, hframe _ _, hport _, exec_unknownFrameType_offLink h f, hport _, hport _,
      List.forall_mem_nil _⟩, hport _, hport _, hport _, hport _, hport _, hport _, hport _, hport _, hport _, hport _,
      hport _, List.forall_mem_nil _⟩
  refine ⟨?step, ?idle, fun h => if_pos h, ?shut, ?up, ?timers⟩
  case step =>
    rintro ⟨n, hn⟩ y hy
    rw [hoff (by rw [hn]; nofun) y hy, offLink_step hn]
  case idle =>
    intro hstep hup y hy
    rw [hoff hup y hy, offLink_idle hstep]
  case shut =>
    intro hup
    refine ⟨if_neg (by simp [hup]), if_neg (by simp [hup]), if_pos (Or.inl hup)⟩
  case up =>
    intro hup good got
    refine ⟨fun y n hy => ?checked, fun hd hadj hok htag hseq => ?relayed, ?unknown, ?retrans, ?pause, ?credit⟩
    case checked =>
      obtain ⟨go, hexec⟩ : ∃ go, exec y s = .next (s.onFrame p f n go) := by
        rcases hy with ⟨rfl, rfl⟩ | ⟨rfl, rfl⟩ | ⟨rfl, rfl, hd, hadj⟩
        · exact ⟨_, rfl⟩
        · exact ⟨_, rfl⟩
        · exact ⟨_, if_neg (not_or.mpr ⟨hd, hadj⟩)⟩
      rw [hexec]
      refine ⟨fun hok => ?_, fun hok hgap => ?_, fun hok htag hseq => ?_⟩
      · rw [onFrame_bad hup go hok]
      · rw [onFrame_gap hup go hok hgap]
        rfl
      · rw [onFrame_old hup go hok htag hseq]
    case relayed =>
      have hexec : exec (.frameRelay p f) s = .next (good.relay p f) :=
        (if_neg (not_or.mpr ⟨hd, hadj⟩)).trans (congrArg _ (onFrame_inOrder hup hok htag hseq _))
      rw [hexec]
      refine ⟨fun hh => ?_, fun h hh h3 hport => ?_⟩
      · rw [relay_none (s := good) hd hh]
      · rw [relay_some (s := good) hd hh h3, sendFrame_up hport]
        exact ⟨_, rfl, rfl, rfl⟩
    case unknown =>
      change execUnknownFrameType p f s = _
      simp only [execUnknownFrameType, x] at hup ⊢
      rw [hup]
    case retrans =>
      refine congrArg _ ((onPort_up hup _).trans ?_)
      rw [State.resend, port_received hup]
      rfl
    case pause => exact congrArg _ (onPort_up hup _)
    case credit => exact congrArg _ (onPort_up hup _)
  case timers =>
    intro hup
    have hlt : p < s.zl.ports.length := lt_ports_of_up (eq_of_beq (Bool.and_eq_true_iff.mp hup).1)
    refine ⟨(if_pos hup).trans ?_, fun hack => if_neg (by simp [x] at hack; simp [hack]), fun hack => ?_⟩
    · simp [State.resend, x]
    · refine ⟨_, (if_pos ⟨hup, hack⟩).trans (congrArg _ (sendFrame_up hup ..)), rfl, rfl, ?_, ?_⟩
      · rw [port_sentOn hlt]
        rfl
      · rw [port_sentOn hlt]
        rfl

end Sys2Proof.Machine
end

section
/-!
SUPPORT. The ports of the device: what a change of one port, a frame sent, and a loss of the group leave of a port.
-/

namespace Sys2Proof.Machine

open Sys2Proof

theorem updAt_updAt {α : Type} (l : List α) (i : Nat) (f g : α → α) : updAt (updAt l i f) i g = updAt l i (g ∘ f) := by
  have hget := getElem?_updAt l i f
  unfold updAt at *
  cases hi : l[i]? with
  | none => simp [hi]
  | some a =>
    simp only [hi, Option.map_some] at hget ⊢
    simp [hget]

theorem modPort_modPort (s : State) (p : Nat) (f g : Port → Port) : (s.modPort p f).modPort p g = s.modPort p
    (g ∘ f) := by
  simp only [State.modPort, State.modZl, updAt_updAt]

theorem modPort_id (s : State) (p : Nat) : s.modPort p id = s := by
  simp only [State.modPort, State.modZl, updAt_id]

theorem port_modPort_ne {s : State} {p r : Nat} (h : p ≠ r) (g : Port → Port) : (s.modPort r g).port p = s.port p := by
  simp only [State.port, State.modPort, State.modZl, List.getD_eq_getElem?_getD, getElem?_updAt_ne h]

theorem port_modPort_sentOn {s : State} {p : Nat} (hp : p < s.zl.ports.length) (g : Port → Port)
    (typ dst rid arg : Nat) :
    ((s.modPort p g).sentOn p typ dst rid arg).port p = (g (s.port p)).withSent ⟨p, typ, dst, rid, arg⟩ := by
  rw [State.sentOn, modPort_modPort]
  exact port_modPort hp _

theorem lt_ports_of_ne_reset {s : State} {p : Nat} (h : (s.port p).st ≠ Port.reset.st) : p < s.zl.ports.length := by
  by_contra hp
  rw [State.port, List.getD_eq_default _ _ (Nat.not_lt.mp hp)] at h
  exact h rfl

theorem lt_ports_of_step {s : State} {p n : Nat} (h : (s.port p).st = .step n) : p < s.zl.ports.length :=
  lt_ports_of_ne_reset (by rw [h]; nofun)

/-- What a frame that is sent leaves of every port: all but SEQ, retransmit buffer and acknowledgement (R305). -/
theorem get_sendFrame {β : Type} (get : Port → β)
    (h : ∀ x q u a, get { x with txSeq := q, unacked := u, ackDue := a } = get x) (s : State) (p r typ dst rid arg : Nat) :
    get ((s.sendFrame r typ dst rid arg).port p) = get (s.port p) := by
  unfold State.sendFrame
  extract_lets x o
  clear_value o
  split
  · change get ((s.modPort r _).port p) = _
    by_cases hr : p = r
    · subst hr
      by_cases hp : p < s.zl.ports.length
      · rw [port_modPort hp, h]
      · simp [State.modPort, State.port, updAt, List.getD_eq_getElem?_getD, hp]
    · rw [port_modPort_ne hr]
  · rfl

/-- A port that is DOWN stays as it is. -/
def State.keepsDown (p : Nat) (s t : State) : Prop := (s.port p).st = .down → t.port p = s.port p

section KeepsDown
variable {p : Nat} {s t u : State}

theorem keepsDown_of_ports (h : t.zl.ports = s.zl.ports) : State.keepsDown p s t := fun _ => by
  simp only [State.port, h]

theorem keepsDown_trans (h : State.keepsDown p s t) (h' : State.keepsDown p t u) : State.keepsDown p s u := fun hd => by
  rw [h' (by rw [h hd, hd]), h hd]

theorem keepsDown_foldl {α : Type} {f : State → α → State} (h : ∀ s x, State.keepsDown p s (f s x)) (l : List α)
    (s : State) : State.keepsDown p s (l.foldl f s) := by
  induction l generalizing s with
  | nil => exact fun _ => rfl
  | cons x l ih => exact keepsDown_trans (h s x) (ih _)

theorem keepsDown_sendFrame {r typ dst rid arg : Nat} : State.keepsDown p s
    (s.sendFrame r typ dst rid arg) := fun hd => by
  by_cases hr : p = r
  · subst hr
    rw [sendFrame_shut (by rw [hd]; nofun) (by rw [hd]; nofun)]
  · unfold State.sendFrame
    extract_lets x o
    clear_value o
    split
    · exact port_modPort_ne hr _
    · rfl

theorem keepsDown_sendTo {typ dst rid arg : Nat} : State.keepsDown p s (s.sendTo typ dst rid arg) :=
  keepsDown_sendFrame

theorem keepsDown_sendMembers {typ arg : Nat} : State.keepsDown p s (s.sendMembers typ arg) :=
  keepsDown_foldl (fun _ _ => keepsDown_sendTo) _ _

theorem zlOpenEvent_zl (s : State) (q n : Nat) : (s.zlOpenEvent q n).zl = s.zl :=
  (zl_of_sansEvents (State.zlEvent_sansEvents ..)).trans rfl

theorem keepsDown_zlOpenEvent {q n : Nat} : State.keepsDown p s (s.zlOpenEvent q n) :=
  keepsDown_of_ports (by rw [zlOpenEvent_zl])

theorem keepsDown_commitTick {g : Nat} : State.keepsDown p s (s.commitTick g) := by
  unfold State.commitTick
  extract_lets s1
  have h1 : State.keepsDown p s s1 := keepsDown_of_ports rfl
  exact keepsDown_trans h1 keepsDown_sendMembers

theorem keepsDown_commitLoop {k : Nat} : State.keepsDown p s (State.commitLoop k s) := by
  induction k generalizing s with
  | zero => exact fun _ => rfl
  | succ k ih =>
    unfold State.commitLoop
    split
    · exact keepsDown_trans keepsDown_commitTick ih
    · exact fun _ => rfl

theorem keepsDown_tryCommit : State.keepsDown p s s.tryCommit := keepsDown_commitLoop

theorem keepsDown_removeMembers {gone : List Nat} : State.keepsDown p s (s.removeMembers gone) := by
  unfold State.removeMembers
  extract_lets out s1 s2
  split
  · exact fun _ => rfl
  · have h1 : State.keepsDown p s s1 := keepsDown_of_ports rfl
    have h2 : State.keepsDown p s1 s2 :=
      keepsDown_foldl (fun _ _ => keepsDown_trans (keepsDown_sendTo) (keepsDown_zlOpenEvent)) _ _
    exact keepsDown_trans (keepsDown_trans h1 h2) (keepsDown_trans (keepsDown_sendMembers) keepsDown_tryCommit)

theorem isolate_ports (s : State) : s.isolate.zl.ports = s.zl.ports := by
  unfold State.isolate
  extract_lets s1 s2 s3
  have h3 : s3.zl = s2.zl := zl_of_sansEvents (nsEvents_sansEvents ..)
  have h1 : s1.zl = s.zl := foldl_keeps State.zl (fun a c => a.endCmd c St.zlIsolated c.result)
    (fun a c => (congrArg State.zl (State.endCmd_silent a c St.zlIsolated c.result) :)) _ _
  rw [zlOpenEvent_zl]
  exact (congrArg Zelim.ports h3).trans (congrArg Zelim.ports h1)

theorem keepsDown_loseMaster : State.keepsDown p s s.loseMaster :=
  keepsDown_trans (keepsDown_foldl (fun _ _ => keepsDown_sendFrame) _ _) (keepsDown_of_ports (isolate_ports _))

theorem keepsDown_portLost {q : Nat} : State.keepsDown p s (s.portLost q) := by
  unfold State.portLost
  split
  · exact keepsDown_removeMembers
  · split
    · exact keepsDown_loseMaster
    · split
      · exact keepsDown_of_ports rfl
      · split
        · exact keepsDown_sendTo
        · exact fun _ => rfl
  · exact fun _ => rfl

end KeepsDown

/-- A port that goes down is DOWN, whatever the group then does about its loss (R327). -/
theorem port_portDown {s : State} {p : Nat} (hp : p < s.zl.ports.length) : (s.portDown p).port p =
    (s.port p).drop .down := by
  have hdrop : (s.modPort p fun x => x.drop .down).port p = (s.port p).drop .down := port_modPort hp _
  unfold State.portDown
  extract_lets was s1
  split
  · have h := keepsDown_trans (s := s.modPort p fun x => x.drop .down)
      (keepsDown_zlOpenEvent (p := p) (q := p) (n := (s.port p).peer)) (keepsDown_portLost (p := p) (q := p))
    rw [h (by rw [hdrop]; rfl), hdrop]
  · exact hdrop

/-- A port in a step goes down alone. -/
theorem portDown_unready {s : State} {p : Nat} (h : s.portUp p = false) :
    s.portDown p = s.modPort p fun x => x.drop .down :=
  if_neg (ne_true_of_eq_false h)

/-- A port that fails authentication is FENCED: it counts, and its back-off doubles to at most 64 s (R329, R330). -/
def Port.failedAuth (x : Port) : Port :=
  { ({ x with fails := x.fails + 1 } : Port).drop .fenced with backoff := min 64 (2 * x.backoff) }

theorem modPort_of_sansEvents {s t : State} (h : t.sansEvents = s.sansEvents) (p : Nat) (g : Port → Port) :
    (t.modPort p g).sansEvents = (s.modPort p g).sansEvents :=
  (congrArg (·.modPort p g) h :)

theorem portUp_of_sansEvents {s t : State} (h : t.sansEvents = s.sansEvents) (p : Nat) : t.portUp p = s.portUp p :=
  (congrArg (·.portUp p) h :)

theorem port_of_sansEvents {s t : State} (h : t.sansEvents = s.sansEvents) (p : Nat) : t.port p = s.port p :=
  (congrArg (·.port p) h :)

/-- A port in a step is fenced alone, with an event (R329, R330). -/
theorem fencePort_sansEvents {s : State} {p : Nat} (h : s.portUp p = false) : (s.fencePort p).sansEvents =
    (s.modPort p fun x => { x.drop .fenced with backoff := min 64 (2 * x.backoff) }).sansEvents :=
  (congrArg State.sansEvents (if_neg (ne_true_of_eq_false h))).trans (State.zlEvent_sansEvents ..)

/-- Failed authentication in a step fences the port alone, with a log entry and an event (R329). -/
theorem authFail_sansEvents {s : State} {p n : Nat} (h : (s.port p).st = .step n) :
    (s.authFail p).sansEvents = (s.modPort p Port.failedAuth).sansEvents := by
  have hup : (s.modPort p fun x => { x with fails := x.fails + 1 }).portUp p = false :=
    portUp_eq_false (by rw [port_modPort (lt_ports_of_step h), h]; nofun)
  rw [State.authFail, fencePort_sansEvents, modPort_of_sansEvents (State.log_sansEvents ..), modPort_modPort]
  · rfl
  · exact (portUp_of_sansEvents (State.log_sansEvents ..) p).trans hup

/-- What a fenced port leaves: the ports, and what its event reaches. -/
theorem eq_of_sansEvents_modZl {s t : State} {g : Zelim → Zelim} (h : t.sansEvents = (s.modZl g).sansEvents) :
    t = { s with zl := t.zl, recs := t.recs, fns := t.fns, q := t.q } := by
  have hzl : t.zl = (s.modZl g).zl := (congrArg State.zl h :)
  rw [hzl]
  exact eq_of_silent (s := s.modZl g) (silent_of_sansEvents h)

/-- The state without the ports, the free values, and what an event reaches. -/
def State.sansLink (s : State) : State := { s.silent with zl := .reset .reset, freeCtr := 0 }

theorem eq_of_sansLink {s t : State} (h : t.sansLink = s.sansLink) :
    t = { s with zl := t.zl, recs := t.recs, fns := t.fns, q := t.q, freeCtr := t.freeCtr } := by
  cases s
  cases t
  simp only [State.sansLink, State.silent, State.mk.injEq, true_and] at h ⊢
  exact h

end Sys2Proof.Machine
end

section
/-!
SUPPORT. The bring-up of a port (R298 to R330), step by step.
-/

namespace Sys2Proof.Machine

open Sys2Proof

section Step
variable {s : State} {p n : Nat} (h : (s.port p).st = .step n)
include h

theorem exec_bringupStep_failed (hn : n ≠ 7) : exec (.zlPortBringupStep p false) s =
    .next (s.modPort p fun x => { x.drop .restartWait with fails := x.fails + 1 }) := by
  change execZlPortBringupStep p false s = _
  simp only [execZlPortBringupStep, h, if_neg hn, Bool.false_eq_true, if_false]

theorem exec_bringupStep_passed (hn : n ≠ 7) : exec (.zlPortBringupStep p true) s =
    .next (if n = 6 then s.beginAuth p else s.enterStep p (n + 1)) := by
  change execZlPortBringupStep p true s = _
  simp only [execZlPortBringupStep, h, if_neg hn, if_true]

theorem port_step (g : Port → Port) : (s.modPort p g).port p = g (s.port p) := port_modPort (lt_ports_of_step h) g

/-- Step 6 begins with this device's DISCOVER. -/
theorem enterStep_six : s.enterStep p 6 =
    (s.modPort p fun x => { x with st := .step 6 }).sentOn p fDiscover adjacent 0 s.node :=
  sendFrame_opening (n := 6) (by rw [port_step h]) (by decide) ..

/-- The initiator of step 7 sends HELLO with a fresh nonce (R326). -/
theorem beginAuth_initiator (hi : s.initiates p = true) : s.beginAuth p =
    (s.free.2.modPort p fun x => { x with
      st := .step 7, auth := .helloSeen, initiator := true, nonces := [s.free.1.toNat] }).sentOn p fAuth adjacent 0
        msgHello := by
  have h7 : (s.free.2.modPort p fun x => { x with
      st := .step 7, auth := .helloSeen, initiator := true, nonces := [s.free.1.toNat] }).port p = { s.port p with
      st := .step 7, auth := .helloSeen, initiator := true, nonces := [s.free.1.toNat] } := port_step h _
  rw [← sendFrame_opening (n := 7) (by rw [h7]) (by decide)]
  simp only [State.beginAuth, hi, if_true]
  exact congrArg (State.sendFrame · p fAuth adjacent 0 msgHello) (modPort_modPort s.free.2 ..)

end Step

/-- What a DISCOVER of step 6 records of the peer (R327). -/
def State.discovered (s : State) (p node cert caps : Nat) : State :=
  s.modPort p fun x => { x with
    rxSeq := x.rxSeq + 1, ackDue := true, peer := node, peerCert := cert, peerCaps := caps }

theorem exec_discover_opening {s : State} {p a b c : Nat} (h : (s.port p).st = .step 6) :
    ∃ t, exec (.discover p a b c) s = .next t ∧ t.sansEvents = (s.discovered p a b c).free.2.sansEvents := by
  have hmod : (s.received p).modPort p (fun x => { x with peer := a, peerCert := b, peerCaps := c }) =
      s.discovered p a b c := modPort_modPort ..
  refine ⟨_, if_pos h, (State.event_sansEvents ..).trans ?_⟩
  rw [hmod]

theorem exec_bringupStep_other {s : State} {p : Nat} (h : ∀ n, (s.port p).st ≠ .step n) (ok : Bool) :
    exec (.zlPortBringupStep p ok) s = .next s := by
  change execZlPortBringupStep p ok s = _
  unfold execZlPortBringupStep
  split
  · next n hn => exact absurd hn (h n)
  · rfl

/-- Settles O50: a port in a step by its number, `authFail_sansEvents` for the fence and `port_portDown` for a port
that was
up (R298 to R330, log 170). -/
theorem portBringUp : Obligations.PortBringUp := by
  intro s p a b c x
  refine ⟨fun h he hp => if_pos ⟨he, h, hp⟩, ?noSignal, ?step, ?responder, ?initiator, ?auth, exec_bringupStep_other,
    fun h => if_pos h, fun h => if_neg h, ?lockStep, ?lockUp, ?lockOther, ?discover, ?discoverUp, ?noDiscover, ?delay,
    ?noDelay, fun h => if_pos h, fun h => if_neg h, rfl⟩
  case noSignal =>
    refine fun h => if_neg ?_
    rintro ⟨he, hd, hp⟩
    rcases h with h | h | h
    · exact h hd
    · exact Bool.false_ne_true (h.symm.trans he)
    · exact hp h
  case step =>
    intro n hn h7
    have hpassed := exec_bringupStep_passed hn h7
    refine ⟨exec_bringupStep_failed hn h7, fun h4 h5 h6 => ?_, fun h4 => ?_, fun h5 => ?_⟩
    · rw [hpassed, if_neg h6, State.enterStep, if_neg (by omega), if_neg (by omega)]
    · subst h4
      rw [hpassed]
      rfl
    · subst h5
      rw [hpassed, if_neg (by decide), enterStep_six hn]
      refine ⟨_, rfl, ?_, rfl, rfl⟩
      rw [port_modPort_sentOn (lt_ports_of_step hn)]
      rfl
  case responder =>
    intro h6 hi
    rw [exec_bringupStep_passed h6 (by decide), if_pos rfl]
    simp only [State.beginAuth, hi, Bool.false_eq_true, if_false]
  case initiator =>
    intro h6 hi
    rw [exec_bringupStep_passed h6 (by decide), if_pos rfl, beginAuth_initiator h6 hi]
    refine ⟨_, rfl, ?_, ?_, ?_, rfl, rfl⟩ <;> rw [port_modPort_sentOn (s := s.free.2) (lt_ports_of_step h6)] <;> rfl
  case auth =>
    intro h7
    have hexec : exec (.zlPortBringupStep p false) s = .next (s.authFail p) := by
      change execZlPortBringupStep p false s = _
      simp only [execZlPortBringupStep, show (s.port p).st = .step 7 from h7, if_true, Bool.false_eq_true, if_false]
    have hfail := authFail_sansEvents h7
    have hport : (s.authFail p).port p = (s.port p).failedAuth := 
      (port_of_sansEvents hfail p).trans (port_step h7 _)
    refine ⟨?_, _, hexec, ?_, ?_, ?_, (congrArg (·.zl.sent) hfail :), eq_of_sansEvents_modZl hfail⟩
    · change execZlPortBringupStep p true s = _
      simp only [execZlPortBringupStep, show (s.port p).st = .step 7 from h7, if_true]
    all_goals rw [hport]; rfl
  case lockStep =>
    intro n hn
    change execZlBlockLockLoss p s = _
    simp only [execZlBlockLockLoss, show (s.port p).st = .step n from hn]
    rw [portDown_unready (portUp_eq_false (by rw [show (s.port p).st = .step n from hn]; nofun))]
  case lockUp =>
    intro hup
    refine ⟨s.portDown p, ?_, ?_⟩
    · change execZlBlockLockLoss p s = _
      simp only [execZlBlockLockLoss, show (s.port p).st = .up from hup]
    · rw [port_portDown (lt_ports_of_up hup)]
      exact ⟨rfl, rfl⟩
  case lockOther =>
    intro hup hstep
    change execZlBlockLockLoss p s = _
    unfold execZlBlockLockLoss
    split
    · next h => exact absurd h hup
    · next n hn => exact absurd hn (hstep n)
    · rfl
  case discover =>
    intro h6
    obtain ⟨t, hexec, hread⟩ := exec_discover_opening (a := a) (b := b) (c := c) h6
    exact ⟨t, hexec, (congrArg (·.zl.sent) hread :), eq_of_sansLink (congrArg State.sansLink hread :),
      (port_of_sansEvents hread p).trans (port_step h6 _)⟩
  case discoverUp =>
    intro hup
    have h6 : (s.port p).st ≠ .step 6 := by
      rw [eq_of_beq (Bool.and_eq_true_iff.mp hup).1]
      nofun
    exact (if_neg h6).trans ((if_pos hup).trans (congrArg _ (modPort_modPort ..)))
  case noDiscover => exact fun h6 hup => (if_neg h6).trans (if_neg (ne_true_of_eq_false hup))
  case delay => exact fun h => (if_pos h).trans (congrArg _ (modPort_modPort ..))
  case noDelay => exact fun h5 hup => if_neg (not_or.mpr ⟨h5, ne_true_of_eq_false hup⟩)

end Sys2Proof.Machine
end

section
/-!
SUPPORT. The authentication of a peer (R326 to R329) and the margins of lanes (R301, R302).
-/

namespace Sys2Proof.Machine

open Sys2Proof

theorem modPort_congr {s : State} {p : Nat} {f g : Port → Port} (h : f (s.port p) = g (s.port p)) :
    s.modPort p f = s.modPort p g := by
  have hupd : updAt s.zl.ports p f = updAt s.zl.ports p g := by
    unfold updAt
    split
    · next x hx =>
      have hport : s.port p = x := by simp [State.port, List.getD_eq_getElem?_getD, hx]
      rw [← hport, h]
    · rfl
  simp only [State.modPort, State.modZl, hupd]

theorem trusts_received (s : State) (p n : Nat) : (s.received p).trusts p n = s.trusts p n := by
  by_cases hp : p < s.zl.ports.length
  · have hport : (s.received p).port p = { s.port p with rxSeq := (s.port p).rxSeq + 1, ackDue := true } := port_modPort hp _
    simp only [State.trusts, hport]
    rfl
  · have hid : s.received p = s := by
      simp [State.received, State.modPort, State.modZl, updAt, hp]
    rw [hid]

theorem authStep_trusted {s : State} {p n : Nat} {sc : Nat × Option Nat} (h : s.trusts p n = some sc)
    (go : State → State) :
    s.authStep p true n go = go (s.modPort p fun x => { x with scope := some sc.1, trustSlot := sc.2 }) := by
  simp only [State.authStep, h, if_true]

theorem authStep_refused {s : State} {p n : Nat} {g : Bool} (h : g = false ∨ s.trusts p n = none) (go : State → State) :
    s.authStep p g n go = s.authFail p := by
  unfold State.authStep
  split
  · next t ht =>
    have hg : g = false := h.resolve_right (by rw [ht]; nofun)
    rw [hg]
    rfl
  · rfl

theorem sendFrame_sansLink (s : State) (p typ dst rid arg : Nat) :
    (s.sendFrame p typ dst rid arg).sansLink = s.sansLink := by
  rw [State.sendFrame_frame]
  rfl

theorem askJoin_sansLink (s : State) (p : Nat) : (s.askJoin p).sansLink = s.sansLink := by
  unfold State.askJoin
  split
  · exact sendFrame_sansLink ..
  · split
    · exact (sendFrame_sansLink ..).trans rfl
    · rfl

/-- What the group and the authentication know of a peer. -/
def Port.standing (x : Port) : PortState × AuthState × Option Nat := (x.st, x.auth, x.scope)

theorem askJoin_standing (s : State) (p q : Nat) : ((s.askJoin q).port p).standing = (s.port p).standing := by
  have hsend := get_sendFrame Port.standing fun _ _ _ _ => rfl
  unfold State.askJoin
  split
  · exact hsend ..
  · split
    · exact (hsend ..).trans rfl
    · rfl

/-- A port that comes up is authenticated and keeps the scope of its peer; the links aside, nothing else changes
(R328). -/
theorem portReady_spec {s : State} {p : Nat} (hp : p < s.zl.ports.length) :
    ((s.portReady p).port p).standing = (.up, .authed, (s.port p).scope) ∧ (s.portReady p).sansLink = s.sansLink := by
  unfold State.portReady
  extract_lets s1 s2
  have h1 : s1.sansEvents = ((s.modPort p fun x => { x with
      st := .up, auth := .authed, lanesUp := (s.portCfg p).lanes, margins := [], retrain := [] }).freeStatus 9).2.sansEvents :=
    State.zlEvent_sansEvents ..
  have hport : (s1.port p).standing = (.up, .authed, (s.port p).scope) :=
    congrArg Port.standing ((port_of_sansEvents h1 p).trans (port_modPort hp _))
  have hlink : s1.sansLink = s.sansLink := (congrArg State.sansLink h1 :)
  have h2 : (s2.port p).standing = (s1.port p).standing ∧ s2.sansLink = s1.sansLink := by
    unfold s2
    split <;> exact ⟨rfl, rfl⟩
  obtain ⟨hport2, hlink2⟩ := h2
  exact ⟨(askJoin_standing ..).trans (hport2.trans hport), (askJoin_sansLink ..).trans (hlink2.trans hlink)⟩

/-- Outside step 7 no message of the authentication is taken (R326). -/
theorem exec_auth_outside {s : State} {p a b n : Nat} {g : Bool} (h : (s.port p).st ≠ .step 7) :
    ∀ i ∈ [Instr.hello p a b, .reply p a b g n, .finish p g n, .done p, .authTimeout p], exec i s = .next s := by
  simp only [List.forall_mem_cons]
  exact ⟨if_neg fun h' => h h'.1, if_neg fun h' => h h'.1, if_neg fun h' => h h'.1, if_neg fun h' => h h'.1,
    if_neg fun h' => h h'.1, List.forall_mem_nil _⟩

section InAuth
variable {s : State} {p : Nat} (h : (s.port p).st = .step 7)
include h

theorem port_received_step : (s.received p).port p = { s.port p with rxSeq := (s.port p).rxSeq + 1, ackDue := true } :=
  port_step h _

theorem received_lt : p < (s.received p).zl.ports.length :=
  lt_ports_of_step (n := 7) (by rw [port_received_step h, h])

/-- The responder answers HELLO with REPLY and a fresh nonce (R326). -/
theorem exec_hello (a b : Nat) (hi : (s.port p).initiator = false) (ha : (s.port p).auth = .none)
    (hk : s.keyUsable = true) :
    exec (.hello p a b) s = .next ((s.free.2.modPort p fun x => { x with
      rxSeq := x.rxSeq + 1, ackDue := true, auth := .replied, nonces := [s.free.1.toNat, a, b] }).sentOn p fAuth adjacent
        0 msgReply) := by
  have hfused : (s.received p).free.2.modPort p (fun x => { x with
      auth := .replied, nonces := [(s.received p).free.1.toNat, a, b] }) = s.free.2.modPort p fun x => { x with
      rxSeq := x.rxSeq + 1, ackDue := true, auth := .replied, nonces := [s.free.1.toNat, a, b] } :=
    modPort_modPort s.free.2 ..
  have hport := port_modPort (s := s.free.2) (lt_ports_of_step h) fun x => { x with
    rxSeq := x.rxSeq + 1, ackDue := true, auth := .replied, nonces := [s.free.1.toNat, a, b] }
  rw [← sendFrame_opening (n := 7) (by rw [hport]; exact h) (by decide), ← hfused]
  exact if_pos ⟨h, hi, ha, hk⟩

/-- The initiator answers a good REPLY with FINISH, and holds the peer's scope (R326, R328). -/
theorem exec_reply_trusted (a b : Nat) {n : Nat} {sc : Nat × Option Nat} (ht : s.trusts p n = some sc)
    (hi : (s.port p).initiator = true) (ha : (s.port p).auth = .helloSeen) (hk : s.keyUsable = true) :
    exec (.reply p a b true n) s = .next ((s.modPort p fun x => { x with
      rxSeq := x.rxSeq + 1, ackDue := true, scope := some sc.1, trustSlot := sc.2, auth := .finished
      nonces := x.nonces ++ [a, b] }).sentOn p fAuth adjacent 0 msgFinish) := by
  have hfused : ((s.received p).modPort p fun x => { x with scope := some sc.1, trustSlot := sc.2 }).modPort p
      (fun x => { x with auth := .finished, nonces := x.nonces ++ [a, b] }) = s.modPort p fun x => { x with
      rxSeq := x.rxSeq + 1, ackDue := true, scope := some sc.1, trustSlot := sc.2, auth := .finished
      nonces := x.nonces ++ [a, b] } := by
    rw [modPort_modPort, State.received, modPort_modPort]
    rfl
  rw [← sendFrame_opening (n := 7) (by rw [port_step h]; exact h) (by decide), ← hfused]
  exact (if_pos ⟨h, hi, ha, hk⟩).trans (congrArg _ (authStep_trusted ((trusts_received ..).trans ht) _))

/-- The responder answers a good FINISH with DONE, holds the peer's scope, and its port is up (R326, R328). -/
theorem exec_finish_trusted {n : Nat} {sc : Nat × Option Nat} (ht : s.trusts p n = some sc)
    (hi : (s.port p).initiator = false) (ha : (s.port p).auth = .replied) :
    exec (.finish p true n) s = .next (((s.modPort p fun x => { x with
      rxSeq := x.rxSeq + 1, ackDue := true, scope := some sc.1, trustSlot := sc.2 }).sentOn p fAuth adjacent 0
        msgDone).portReady p) := by
  have hfused : (s.received p).modPort p (fun x => { x with scope := some sc.1, trustSlot := sc.2 }) =
      s.modPort p fun x => { x with
        rxSeq := x.rxSeq + 1, ackDue := true, scope := some sc.1, trustSlot := sc.2 } := modPort_modPort ..
  rw [← sendFrame_opening (n := 7) (by rw [port_step h]; exact h) (by decide), ← hfused]
  exact (if_pos ⟨h, hi, ha⟩).trans (congrArg _ (authStep_trusted ((trusts_received ..).trans ht) _))

/-- A message of step 7 that fails fences the port, and nothing else of the link is told (R329). -/
theorem received_authFail :
    (((s.received p).authFail p).port p).st = .fenced ∧ ((s.received p).authFail p).zl.sent = s.zl.sent ∧
      ∃ g, ((s.received p).authFail p).sansEvents = (s.modZl g).sansEvents := by
  have hfail := authFail_sansEvents (s := s.received p) (p := p) (n := 7) (by rw [port_received_step h, h])
  have hport : ((s.received p).authFail p).port p = _ := (port_of_sansEvents hfail p).trans (port_modPort (received_lt h) _)
  exact ⟨by rw [hport]; rfl, (congrArg (·.zl.sent) hfail :), _,
    hfail.trans (congrArg State.sansEvents (modPort_modPort ..))⟩

end InAuth

/-- A port that comes up from a state that differs from `s` in its links alone. -/
theorem portReady_from {s u : State} {p : Nat} {sc : Option Nat} (hp : p < u.zl.ports.length)
    (hsc : (u.port p).scope = sc)
    (hlink : u.sansLink = s.sansLink) :
    ((u.portReady p).port p).st = .up ∧ ((u.portReady p).port p).auth = .authed ∧ ((u.portReady p).port p).scope = sc ∧
      u.portReady p = { s with
        zl := (u.portReady p).zl, recs := (u.portReady p).recs, fns := (u.portReady p).fns, q := (u.portReady p).q
        freeCtr := (u.portReady p).freeCtr } := by
  obtain ⟨hstanding, hready⟩ := portReady_spec hp
  simp only [Port.standing, Prod.mk.injEq] at hstanding
  obtain ⟨hst, hauth, hscope⟩ := hstanding
  exact ⟨hst, hauth, hscope.trans hsc, eq_of_sansLink (hready.trans hlink)⟩

/-- What the margins of a lane leave of its port, where `low` says that one is below its threshold and `k` how many
reports in a row were below half of it (R301, R302). -/
def Port.measured (x : Port) (lane v h k : Nat) (low : Bool) : Port :=
  { x with
    margins := (x.margins.filter fun m => m.1 != lane) ++ [(lane, v, h, k)]
    retrain := if low && !x.retrain.any (fun r => r.lane == lane) then x.retrain ++ [⟨lane, false, 0⟩] else x.retrain
    adapted := if low then x.adapted else x.adapted.filter (· != lane) }

theorem failRun_third {x : Port} {lane : Nat} {m : Nat × Nat × Nat × Nat}
    (hm : x.margins.find? (fun m => m.1 == lane) = some m) (h2 : m.2.2.2 = 2) : x.failRun lane true = 3 := by
  simp only [Port.failRun, if_true, hm, h2]

/-- The report of a lane that is in service (R302). -/
theorem exec_laneMargin {s : State} {p lane v h k : Nat} {low : Bool} (hup : s.portUp p = true)
    (hlane : lane < (s.portCfg p).lanes) (hrun : ∀ m ∈ (s.port p).margins, m.1 = lane → m.2.2.2 < 3)
    (hfull : ∀ r ∈ (s.port p).retrain, r.lane = lane → r.full = false)
    (hk : (s.port p).failRun lane (decide (2 * v < s.param 0x0B10 p) || decide (2 * h < s.param 0x0B11 p)) = k)
    (hlow : (decide (v < s.param 0x0B10 p) || decide (h < s.param 0x0B11 p)) = low) :
    exec (.laneMarginReport p lane v h) s = if k < 3 then .next (s.modPort p (·.measured lane v h k low))
      else if (s.port p).lanesUp ≤ 1 then .next ((s.modPort p (·.measured lane v h k low)).portDown p)
      else .next ((s.modPort p (·.measured lane v h k low)).modPort p fun x => { x with
        lanesUp := x.lanesUp - 1, retrain := x.retrain.filter fun r => r.lane != lane }) := by
  subst hk hlow
  obtain ⟨hmargins, hretrain⟩ : ((s.port p).margins.any fun m => m.1 == lane && decide (3 ≤ m.2.2.2)) = false ∧
      ((s.port p).retrain.any fun r => r.lane == lane && r.full) = false := by
    simp only [List.any_eq_false, Bool.and_eq_true, beq_iff_eq, decide_eq_true_eq, not_and]
    exact ⟨fun m hm he => Nat.not_le.mpr (hrun m hm he), fun r hr he => ne_true_of_eq_false (hfull r hr he)⟩
  refine if_neg ?_
  rw [hmargins, hretrain]
  rintro (h | h | h)
  · exact Bool.false_ne_true (h.symm.trans hup)
  · exact Nat.not_le.mpr hlane h
  · cases h

/-- Settles O51: the messages of step 7 by `exec_hello`, `exec_reply_trusted` and `exec_finish_trusted`, a refused one
by
`received_authFail`, a lane by `exec_laneMargin` (R301, R302, R326 to R329, log 163). -/
theorem peerAuthentication : Obligations.PeerAuthentication := by
  intro s p a b n g x
  refine ⟨exec_auth_outside, fun h7 => ⟨?hello, ?locked, ?reply, ?finish, ?refused, ?done, ?timeout, ?quiet⟩,
    ?noMargin, ?margin⟩
  case hello =>
    intro hi ha hk
    rw [exec_hello h7 a b hi ha hk]
    refine ⟨_, rfl, ?_, ?_, rfl, rfl⟩ <;> rw [port_modPort_sentOn (s := s.free.2) (lt_ports_of_step h7)]
    · rfl
    · exact h7
  case locked =>
    intro hk
    have hk' : ¬ s.keyUsable = true := ne_true_of_eq_false hk
    exact ⟨if_neg fun ⟨_, _, _, h⟩ => hk' h, if_neg fun ⟨_, _, _, h⟩ => hk' h⟩
  case reply =>
    intro sc ht hi ha hk
    rw [exec_reply_trusted h7 a b ht hi ha hk]
    refine ⟨_, rfl, ?_, ?_, ?_, ?_, rfl, rfl⟩ <;> rw [port_modPort_sentOn (lt_ports_of_step h7)]
    · rfl
    · rfl
    · rfl
    · exact h7
  case finish =>
    intro sc ht hi ha
    rw [exec_finish_trusted h7 ht hi ha]
    have hport := port_modPort_sentOn (lt_ports_of_step h7) (fun x => { x with
      rxSeq := x.rxSeq + 1, ackDue := true, scope := some sc.1, trustSlot := sc.2 }) fAuth adjacent 0 msgDone
    obtain ⟨hst, hauth, hscope, hframe⟩ := portReady_from (s := s)
      (lt_ports_of_step (n := 7) ((congrArg Port.st hport).trans h7)) (congrArg Port.scope hport) rfl
    exact ⟨_, rfl, hst, hauth, hscope, hframe⟩
  case refused =>
    intro hg i hi
    have hrefused := authStep_refused (s := s.received p) (hg.imp_right (trusts_received ..).trans)
    obtain ⟨hst, hsent, f, hf⟩ := received_authFail h7
    have hexec : exec i s = .next ((s.received p).authFail p) := by
      rcases hi with ⟨rfl, hi, ha, hk⟩ | ⟨rfl, hi, ha⟩
      · exact (if_pos ⟨h7, hi, ha, hk⟩).trans (congrArg _ (hrefused _))
      · exact (if_pos ⟨h7, hi, ha⟩).trans (congrArg _ (hrefused _))
    exact ⟨_, hexec, hst, hsent, eq_of_sansEvents_modZl hf⟩
  case done =>
    intro hi ha
    obtain ⟨hst, hauth, hscope, hframe⟩ := portReady_from (s := s) (received_lt h7)
      (congrArg Port.scope (port_received_step h7)) rfl
    exact ⟨_, if_pos ⟨h7, hi, ha⟩, hst, hauth, hscope, hframe⟩
  case timeout =>
    intro ha
    have hfail := authFail_sansEvents h7
    refine ⟨_, if_pos ⟨h7, ha⟩, ?_, (congrArg (·.zl.sent) hfail :), eq_of_sansEvents_modZl hfail⟩
    rw [(port_of_sansEvents hfail p).trans (port_step h7 _)]
    rfl
  case quiet => exact fun ha => if_neg fun h => h.2 ha
  case noMargin =>
    intro h
    exact if_pos (h.imp_right Or.inl)
  case margin =>
    intro hup hlane hrun hfull tv th kept
    have hst : x.st = .up := eq_of_beq (Bool.and_eq_true_iff.mp hup).1
    have hlt := lt_ports_of_up hst
    have hgood : tv ≤ 2 * a → th ≤ 2 * b → (decide (2 * a < tv) || decide (2 * b < th)) = false := fun hv hh => by
      rw [decide_eq_false (Nat.not_lt.mpr hv), decide_eq_false (Nat.not_lt.mpr hh), Bool.or_false]
    refine ⟨fun hv hh => ?_, fun hlow hv hh hnew => ?_, fun m hm hthird hbad => ?_⟩
    · have hlow : (decide (a < tv) || decide (b < th)) = false := by
        rw [decide_eq_false (Nat.not_lt.mpr hv), decide_eq_false (Nat.not_lt.mpr hh), Bool.or_false]
      have hk := hgood (by omega) (by omega)
      refine (exec_laneMargin hup hlane hrun hfull (k := 0) (by rw [hk]; rfl) hlow).trans ?_
      exact (if_pos three_pos).trans (congrArg _ (modPort_congr rfl))
    · have hlow' : (decide (a < tv) || decide (b < th)) = true := by simpa using hlow
      have hnone : ((s.port p).retrain.any fun r => r.lane == n) = false := by simpa using hnew
      refine (exec_laneMargin hup hlane hrun hfull (k := 0) (by rw [hgood hv hh]; rfl) hlow').trans ?_
      refine (if_pos three_pos).trans (congrArg _ (modPort_congr ?_))
      simp only [Port.measured, hnone, Bool.true_and, Bool.not_false, if_true]
      rfl
    · have hk : (decide (2 * a < tv) || decide (2 * b < th)) = true := by simpa using hbad
      have hexec := (exec_laneMargin hup hlane hrun hfull (by rw [hk]; exact failRun_third hm hthird) rfl).trans
        (if_neg (lt_irrefl 3))
      have hport := port_modPort hlt fun x => x.measured n a b 3 (decide (a < tv) || decide (b < th))
      by_cases h1 : x.lanesUp ≤ 1
      · refine ⟨_, hexec.trans (if_pos h1), fun h2 => absurd h2 (by omega), fun _ => ?_⟩
        rw [port_portDown (lt_ports_of_up (hport ▸ hst))]
        rfl
      · refine ⟨_, hexec.trans (if_neg h1), fun _ => ?_, fun h => absurd h h1⟩
        rw [modPort_modPort, port_modPort hlt]
        exact ⟨rfl, hst, rfl⟩

end Sys2Proof.Machine
end
